-- ==== Sys2Proof/Word.lean ====
section
/-!
DEFINITION. The words the part computes with (bits as the spec numbers them, R6) and their plainest arithmetic.
-/
namespace Sys2Proof

/-- A 32-bit register or fabric word. -/
abbrev Word := BitVec 32
/-- A byte. -/
abbrev Byte := BitVec 8
/-- A 64-bit register or accumulator. -/
abbrev DWord := BitVec 64
/-- One 512-bit flit of data. -/
abbrev Line := BitVec 512

end Sys2Proof
end

