-- ==== Sys2Proof/Syntax.lean ====
section
/-!
DEFINITION. The commands: one constructor of `Instr` per row of the table of operations and events, with the operands
that name the instance it acts on and what comes from outside the part (a written value, a sensor code, a frame of the
link, the bytes of a flash page).
-/
namespace Sys2Proof

/-- An initiator identifier (R27). -/
abbrev Ini := BitVec 8
/-- A tile: 256 · region + local index (R95). -/
abbrev TileId := Fin 6144
/-- A fabric region (R95). -/
abbrev Region := Fin 24
/-- A stream queue (R170). -/
abbrev Queue := Fin 128
/-- A media channel (R192). -/
abbrev MedCh := Fin 32
/-- A LUN of a media channel, 4 · CE + LUN. -/
abbrev Lun := Fin 32
/-- A rider core (R322). -/
abbrev Core := Fin 4
/-- A DMA channel (R294). -/
abbrev DmaCh := Fin 64
/-- A router of the mesh (R242). -/
abbrev Router := Fin 48
/-- A network interface: 4 · router + port (R243). -/
abbrev Ni := Fin 192
/-- A reservoir bank (R272). -/
abbrev RBank := Fin 256
/-- A hardware thread (R353). -/
abbrev Thread := Fin 4096
/-- A general-purpose pin GP0 to GP47 (R478). -/
abbrev Pin := Fin 48

/-- The status codes of an access (R33, R249). -/
inductive Status where
  | ok | decErr | slvErr | drowse | dead | empty | collide
deriving DecidableEq, Repr

/-- A transaction of the network: its initiator NI and the initiator's transaction number (R245). -/
structure TxnKey where
  ini : Ni
  txn : Byte
deriving DecidableEq, Repr

/-- A reservation as it arrives at its target NI: sideband and payload fields (R245, R247). -/
structure Rsv where
  src   : Ini
  ini   : Ni
  txn   : Byte
  tgt   : Ni
  gt    : Bool
  ep    : Bool
  addr  : BitVec 48
  nfm1  : Fin 8
  wake  : Bool
  queue : Fin 128
  sctx  : Fin 8
  bm0   : BitVec 64
  bm1   : BitVec 64
deriving DecidableEq, Repr

/-- A flit: 64 sideband bits and 512 payload bits (R245). `first` is the first direction of the route entry it was launched under,
which its source NI gives its router (R250, R251) and no later router reads. -/
structure Flit where
  side    : BitVec 64
  payload : BitVec 512
  first   : Fin 8
deriving DecidableEq, Repr

/-- A frame of the ply link as it arrives (R460). -/
structure PlyFrame where
  type    : Byte
  flags   : Byte
  fseq    : BitVec 16
  payload : List Byte
  ack     : BitVec 64
  fcrc    : Word
deriving DecidableEq, Repr

/-- Why a media channel retrains a target (R197). -/
inductive RetrainCause where
  | request | temperature
deriving DecidableEq, Repr

/-- Why the secure banks are wiped (R281). -/
inductive WipeCause where
  | tamper | lifeCycle
deriving DecidableEq, Repr

/-- What the check word of a DRAM line says of it on this access (R286): the upsets come from outside the part. -/
inductive DramErr where
  | none | corrected | uncorrectable | addressCheck
deriving DecidableEq, Repr

/-- The exit causes of DROWSE (R376). -/
inductive DrowseExit where
  | hostL0 | wakeRequest | aonWake | request
deriving DecidableEq, Repr

/-- The wake sources of HOLD (R374, R381). -/
inductive WakeSrc where
  | cmp (k : Fin 6)
  | alarm
  | wakePin
deriving DecidableEq, Repr

/-- The causes of DRAIN (R386). -/
inductive DrainSrc where
  | cmp0 | levee
deriving DecidableEq, Repr

/-- What the fuse read of a cold reset finds (R503): whether the map's CRC-16 fails. -/
structure FuseRead where
  bad : Bool
deriving DecidableEq, Repr

/-- What the boot ROM finds when it reads one copy of the firmware (R402): a failure code of R405, or the bytes. -/
inductive BootRead where
  | fail (code : Byte)
  | image (bytes : List Byte)
deriving DecidableEq, Repr

/-- What the boot ROM reads for copy A and copy B (R402). -/
structure BootOutcome where
  a : BootRead
  b : BootRead
deriving DecidableEq, Repr

/-- The TDISP requests that act on a TDI's state (R453). -/
inductive TdispReq where
  | lock | start | stop | other
deriving DecidableEq, Repr

/-- The CXL.mem requests (R441, R442): reads that may leave the line cached or not, full and partial writes, and the
report that a line is gone. -/
inductive CxlReq where
  | readCache | readNoCache | write | writePartial
deriving DecidableEq, Repr

/-- The NVMe controller registers whose write the part acts on (R450). -/
inductive NvReg where
  | cc | aqa | asq | acq
deriving DecidableEq, Repr

/-- The commands of the part, one per row of the table of operations and events. -/
inductive Instr where
  /-- REGISTER_WRITE (R9). A write to a register that has no row of its own is performed field by field under the access codes, ownership and lock. -/
  | registerWrite (ini : Ini) (off : BitVec 25) (len : Nat) (val : BitVec 64)
  /-- OWNER_WRITE (R30). A write to OWNER claims, transfers or releases the page under the ownership rules. -/
  | ownerWrite (ini : Ini) (page : Fin 8192) (val : Word)
  /-- LOCK_SET (R32). A write of 1 to LOCK.lock makes every RWL field of the block read-only until a reset. -/
  | lockSet (ini : Ini) (page : Fin 8192) (val : Word)
  /-- EVT_BASE_WRITE (R35). A write to EVT_BASE sets the HTS event base, or is ignored as a range violation above 0x1FE0. -/
  | evtBaseWrite (ini : Ini) (page : Fin 8192) (val : Word)
  /-- HOLE_ACCESS (R39). An access to a window hole is answered DECERR and captured in SYS_WERR. -/
  | holeAccess (ini : Ini) (off : BitVec 25) (wr : Bool)
  /-- UNMAPPED_ACCESS (R18). An access to an unmapped device physical address is not performed and the initiator NI returns DECERR. -/
  | unmappedAccess (ini : Ini) (addr : BitVec 48) (wr : Bool)
  /-- HOST_DOORBELL (R38). A write to SYS_HOSTDB sets the named SYS_EVT_RAW doorbell bits as occurrences. -/
  | hostDoorbell (ini : Ini) (val : Word)
  /-- NOP (R49). A fire of NOP writes nothing and applies the handshakes. -/
  | nop (t : TileId)
  /-- ADD (R49). A fire of ADD produces A + B. -/
  | add (t : TileId)
  /-- ADDC (R49). A fire of ADDC produces A + B + c. -/
  | addc (t : TileId)
  /-- SUB (R49). A fire of SUB produces A − B. -/
  | sub (t : TileId)
  /-- SUBB (R49). A fire of SUBB produces A − B − (1 − c). -/
  | subb (t : TileId)
  /-- CMPEQ (R49). A fire of CMPEQ produces 1 when A equals B and sets t. -/
  | cmpeq (t : TileId)
  /-- CMPNE (R49). A fire of CMPNE produces 1 when A differs from B and sets t. -/
  | cmpne (t : TileId)
  /-- CMPLT (R49). A fire of CMPLT produces 1 when A is below B signed and sets t. -/
  | cmplt (t : TileId)
  /-- CMPLTU (R49). A fire of CMPLTU produces 1 when A is below B unsigned and sets t. -/
  | cmpltu (t : TileId)
  /-- CMPLE (R49). A fire of CMPLE produces 1 when A is at most B signed and sets t. -/
  | cmple (t : TileId)
  /-- CMPLEU (R49). A fire of CMPLEU produces 1 when A is at most B unsigned and sets t. -/
  | cmpleu (t : TileId)
  /-- MOV (R49). A fire of MOV produces A. -/
  | mov (t : TileId)
  /-- NEG (R49). A fire of NEG produces 0 − A. -/
  | neg (t : TileId)
  /-- ABS (R49). A fire of ABS produces the absolute value of A. -/
  | abs (t : TileId)
  /-- AND (R49). A fire of AND produces A & B. -/
  | and (t : TileId)
  /-- OR (R49). A fire of OR produces A | B. -/
  | or (t : TileId)
  /-- XOR (R49). A fire of XOR produces A ^ B. -/
  | xor (t : TileId)
  /-- ANDN (R49). A fire of ANDN produces A & ~B. -/
  | andn (t : TileId)
  /-- NOT (R49). A fire of NOT produces ~A. -/
  | not (t : TileId)
  /-- SHL (R49). A fire of SHL shifts A left by B[4:0]. -/
  | shl (t : TileId)
  /-- SHR (R49). A fire of SHR shifts A right logically by B[4:0]. -/
  | shr (t : TileId)
  /-- SAR (R49). A fire of SAR shifts A right arithmetically by B[4:0]. -/
  | sar (t : TileId)
  /-- ROL (R49). A fire of ROL rotates A left by B[4:0]. -/
  | rol (t : TileId)
  /-- ROR (R49). A fire of ROR rotates A right by B[4:0]. -/
  | ror (t : TileId)
  /-- SEL (R49). A fire of SEL produces A when C is nonzero, else B. -/
  | sel (t : TileId)
  /-- SELP (R49). A fire of SELP produces A when pd imm[2:0] is 1, else B. -/
  | selp (t : TileId)
  /-- SELT (R49). A fire of SELT produces A when t is 1, else B. -/
  | selt (t : TileId)
  /-- PASSEQ (R49). A fire of PASSEQ passes A and sets t when A equals B. -/
  | passeq (t : TileId)
  /-- PASSNE (R49). A fire of PASSNE passes A and sets t when A differs from B. -/
  | passne (t : TileId)
  /-- PASSLT (R49). A fire of PASSLT passes A and sets t when A is below B signed. -/
  | passlt (t : TileId)
  /-- PASSLTU (R49). A fire of PASSLTU passes A and sets t when A is below B unsigned. -/
  | passltu (t : TileId)
  /-- PASSLE (R49). A fire of PASSLE passes A and sets t when A is at most B signed. -/
  | passle (t : TileId)
  /-- PASSLEU (R49). A fire of PASSLEU passes A and sets t when A is at most B unsigned. -/
  | passleu (t : TileId)
  /-- MUL (R49). A fire of MUL sets ACC to the signed product of A and B. -/
  | mul (t : TileId)
  /-- MULU (R49). A fire of MULU sets ACC to the unsigned product of A and B. -/
  | mulu (t : TileId)
  /-- MAC (R49). A fire of MAC adds the signed product of A and B to ACC. -/
  | mac (t : TileId)
  /-- MACU (R49). A fire of MACU adds the unsigned product of A and B to ACC. -/
  | macu (t : TileId)
  /-- MSU (R49). A fire of MSU subtracts the signed product of A and B from ACC. -/
  | msu (t : TileId)
  /-- ACCLD (R49). A fire of ACCLD loads ACC with B × 2^32 + A. -/
  | accld (t : TileId)
  /-- ADD4 (R49). A fire of ADD4 produces four wrapping 8-bit lane sums. -/
  | add4 (t : TileId)
  /-- ADD2 (R49). A fire of ADD2 produces two wrapping 16-bit lane sums. -/
  | add2 (t : TileId)
  /-- ADDS4 (R49). A fire of ADDS4 produces four saturating signed 8-bit lane sums. -/
  | adds4 (t : TileId)
  /-- ADDS2 (R49). A fire of ADDS2 produces two saturating signed 16-bit lane sums. -/
  | adds2 (t : TileId)
  /-- DOT4 (R49). A fire of DOT4 adds a signed four-lane 8-bit dot product to ACC. -/
  | dot4 (t : TileId)
  /-- DOT4U (R49). A fire of DOT4U adds an unsigned four-lane 8-bit dot product to ACC. -/
  | dot4u (t : TileId)
  /-- DOT2 (R49). A fire of DOT2 adds a signed two-lane 16-bit dot product to ACC. -/
  | dot2 (t : TileId)
  /-- DOT2U (R49). A fire of DOT2U adds an unsigned two-lane 16-bit dot product to ACC. -/
  | dot2u (t : TileId)
  /-- DDOT4 (R49). A fire of DDOT4 accumulates two signed 8-bit dot products into the two ACC halves. -/
  | ddot4 (t : TileId)
  /-- DDOT4U (R49). A fire of DDOT4U accumulates two unsigned 8-bit dot products into the two ACC halves. -/
  | ddot4u (t : TileId)
  /-- POPC (R49). A fire of POPC produces the number of one bits of A. -/
  | popc (t : TileId)
  /-- CLZ (R49). A fire of CLZ produces the leading zeros of A. -/
  | clz (t : TileId)
  /-- CTZ (R49). A fire of CTZ produces the trailing zeros of A. -/
  | ctz (t : TileId)
  /-- BEXT (R49). A fire of BEXT extracts a bit field of A. -/
  | bext (t : TileId)
  /-- BINS (R49). A fire of BINS inserts B into a bit field of A. -/
  | bins (t : TileId)
  /-- BREV (R49). A fire of BREV reverses the bit order of A. -/
  | brev (t : TileId)
  /-- GFMUL (R51). A fire of GFMUL multiplies the byte lanes of A and B in GF(2^8). -/
  | gfmul (t : TileId)
  /-- GFMULS (R51). A fire of GFMULS multiplies the byte lanes of A by a constant in GF(2^8). -/
  | gfmuls (t : TileId)
  /-- GFMAD (R51). A fire of GFMAD adds C to the GF(2^8) lane products of A and B. -/
  | gfmad (t : TileId)
  /-- GFMADS (R51). A fire of GFMADS adds C to the GF(2^8) lane products of A and a constant. -/
  | gfmads (t : TileId)
  /-- CRCB (R52). A fire of CRCB updates CRC-32C B with one byte of A. -/
  | crcb (t : TileId)
  /-- CRCH (R52). A fire of CRCH updates CRC-32C B with two bytes of A. -/
  | crch (t : TileId)
  /-- CRCW (R52). A fire of CRCW updates CRC-32C B with four bytes of A. -/
  | crcw (t : TileId)
  /-- ADDS (R49). A fire of ADDS produces the saturating signed sum of A and B. -/
  | adds (t : TileId)
  /-- SUBS (R49). A fire of SUBS produces the saturating signed difference of A and B. -/
  | subs (t : TileId)
  /-- ADDUS (R49). A fire of ADDUS produces the saturating unsigned sum of A and B. -/
  | addus (t : TileId)
  /-- SUBUS (R49). A fire of SUBUS produces the unsigned difference of A and B saturating at 0. -/
  | subus (t : TileId)
  /-- MIN (R49). A fire of MIN produces the signed smaller of A and B. -/
  | min (t : TileId)
  /-- MAX (R49). A fire of MAX produces the signed larger of A and B. -/
  | max (t : TileId)
  /-- MINU (R49). A fire of MINU produces the unsigned smaller of A and B. -/
  | minu (t : TileId)
  /-- MAXU (R49). A fire of MAXU produces the unsigned larger of A and B. -/
  | maxu (t : TileId)
  /-- MINIX (R53). A fire of MINIX updates a min-with-index state word with a magnitude. -/
  | minix (t : TileId)
  /-- BXOR3 (R49). A fire of BXOR3 produces A ⊕ B ⊕ C. -/
  | bxor3 (t : TileId)
  /-- BMAJ3 (R49). A fire of BMAJ3 produces the bitwise majority of A, B and C. -/
  | bmaj3 (t : TileId)
  /-- BTHR (R49). A fire of BTHR sets each bit whose count over A, B and C reaches a threshold. -/
  | bthr (t : TileId)
  /-- BMUX (R49). A fire of BMUX selects bits of A or B under mask C. -/
  | bmux (t : TileId)
  /-- BAND3 (R49). A fire of BAND3 produces A & B & C. -/
  | band3 (t : TileId)
  /-- BOR3 (R49). A fire of BOR3 produces A | B | C. -/
  | bor3 (t : TileId)
  /-- SECOND_STAGE_RETIRE (R47). A latency-2 result leaves the second stage into its destinations once its output registers are free. -/
  | secondStageRetire (t : TileId)
  /-- TILE_CONTEXT_SWITCH (R65). An override tile with ovr = 1 switches alone to its requested context. -/
  | tileContextSwitch (t : TileId)
  /-- LINK_TRANSFER (R74). A word transfers on a neighbour link or furrow segment when valid and ready are both 1. -/
  | linkTransfer (t : TileId) (src : BitVec 4)
  /-- FURROW_REGISTER_EMIT (R83). A furrow register presents its oldest word to its segment the cycle after it entered. -/
  | furrowRegisterEmit (t : TileId) (tap : Fin 4)
  /-- CHANNEL_LINE_DRIVE (R87). A drive slot places its source's word on a channel line, lowest-indexed driver winning. -/
  | channelLineDrive (r : Region) (line : Fin 8) (pos : Fin 16)
  /-- SLUICE_CROSSING_DELIVER (R106). A word crossing a region border becomes visible to the receiving tile three slower-clock cycles after it was sent. -/
  | sluiceCrossingDeliver (t : TileId) (ch : Fin 8)
  /-- CTXSEL_REQUEST (R99). A write to FRGn_CTXSEL crosses the region bridge and becomes a register request to the sequencer. -/
  | ctxselRequest (ini : Ini) (r : Region) (val : Word)
  /-- SEQUENCER_SIGNAL (R99). A sequencer-signal packet arriving at the region is latched as a signal request. -/
  | sequencerSignal (r : Region) (ctx : BitVec 3)
  /-- HEADGATE_TAG_REQUEST (R103). A headgate whose next packet carries a tag requests its context and waits to present the first flit. -/
  | headgateTagRequest (r : Region) (k : Fin 4)
  /-- SEQUENCER_SWITCH (R100). The sequencer selects the winning request's target and every non-override tile enters it at the edge. -/
  | sequencerSwitch (r : Region)
  /-- STALL_END (R105). At the edge the latched target's loading bit clears, the region runs again in that context. -/
  | stallEnd (r : Region)
  /-- CASTON (R109). A write of FRGn_CTRL.caston checks the region and releases stage 1 of cast-on. -/
  | caston (ini : Ini) (r : Region) (val : Word)
  /-- CASTON_WRITE_ENABLE (R110). g cycles after stage 1, cast-on stage 2 enables write ports. -/
  | castonWriteEnable (r : Region)
  /-- CASTON_RESET_RELEASE (R110). At stage 3 tile reset is released, headgate configuration takes effect and the region enters RUN. -/
  | castonResetRelease (r : Region)
  /-- BINDOFF (R111). A write of FRGn_CTRL.bindoff, or a power-off request, starts the bind-off drain. -/
  | bindoff (ini : Ini) (r : Region) (val : Word)
  /-- BINDOFF_DRAIN_END (R111). The drain ends when the headgates are empty or the timeout expires, and the sluice cells park. -/
  | bindoffDrainEnd (r : Region) (timeout : Bool)
  /-- BINDOFF_RESET (R111). g cycles after park, tile reset asserts and the region enters READY or OFF. -/
  | bindoffReset (r : Region)
  /-- HEADGATE_INBOUND_PRESENT (R114). A headgate presents an inbound flit's words on its enabled lanes when all lane segments are ready. -/
  | headgateInboundPresent (r : Region) (k : Fin 4)
  /-- HEADGATE_OUTBOUND_SEND (R114). A headgate forms an outbound flit from its lanes and sends it as a QWRITE to its queue. -/
  | headgateOutboundSend (r : Region) (k : Fin 4)
  /-- HEADGATE_RESEND (R508). 64 OCN cycles after a DROWSE refusal, the headgate sends the reservation of its held flit again. -/
  | headgateResend (r : Region) (k : Fin 4)
  /-- OPSEL_WRITE (R117). The PMU checks an FRGn_OPSEL write and accepts or refuses the operating-point change. -/
  | opselWrite (ini : Ini) (r : Region) (val : Word)
  /-- OPERATING_POINT_CHANGE (R118). The PMU carries out an accepted change in its turn, moving the LDO and switching the clock. -/
  | operatingPointChange (r : Region)
  /-- OPERATING_POINT_DONE (R118). An operating-point change completes and opdone is set. -/
  | operatingPointDone (r : Region)
  /-- REGION_POWER_ON (R512). A region is powered on from OFF, its LDO ramps and it enters EMPTY wiped. -/
  | regionPowerOn (r : Region)
  /-- REGION_POWER_OFF (R117). A pwr = 0 change is carried out and the region enters OFF, losing its configuration. -/
  | regionPowerOff (r : Region)
  /-- REGION_TEMP_SAMPLE (R119). Every 100 µs the PMU samples each region sensor and checks neighbour gradients. -/
  | regionTempSample (codes : List (BitVec 12))
  /-- FCC_OPEN (R130). A write of FCC_CTRL.open opens an aperture stream and enters STAGING. -/
  | fccOpen (ini : Ini) (val : Word)
  /-- FCC_ABORT (R141). A write of FCC_CTRL.abort discards a stream in STAGING or VERIFY. -/
  | fccAbort (ini : Ini) (val : Word)
  /-- SESSION_OPEN (R143). A write of FCC_CTRL.sessopen opens a session and derives its key. -/
  | sessionOpen (ini : Ini) (val : Word)
  /-- SESSION_CLOSE (R144). A write of FCC_CTRL.sessclose ends the session and destroys its key and tags. -/
  | sessionClose (ini : Ini) (val : Word)
  /-- APERTURE_PUSH (R131). An aligned 64-bit aperture write stores 8 stream bytes at the position derived from h. -/
  | aperturePush (ini : Ini) (a : BitVec 20) (len : Nat) (data : BitVec 64)
  /-- STREAM_PART_HASHED (R134). The FCC finishes hashing a header, record or trailer header and checks it. -/
  | streamPartHashed
  /-- SPI_OPEN (R132). An SPI OPEN command opens an SPI stream. -/
  | spiOpen
  /-- SPI_PUSH (R132). An SPI PUSH delivers stream bytes at a position, or ends the stream with SPIFRAME. -/
  | spiPush (p : Word) (bytes : List Byte)
  /-- SPI_ABORT (R132). An SPI ABORT acts as FCC_CTRL.abort. -/
  | spiAbort
  /-- SPI_STATUS (R132). An SPI STATUS returns FCC_STAT and FCC_LRES. -/
  | spiStatus
  /-- SPI_ID (R132). An SPI ID returns FCC_ID. -/
  | spiId
  /-- STREAM_COMPLETE (R135). h reaches the total length, the stream enters VERIFY and authentication and analysis start. -/
  | streamComplete
  /-- SIGNATURE_VERIFIED (R135). The ML-DSA-65 engine finishes verifying the skein signature. -/
  | signatureVerified
  /-- ROUTING_ANALYSIS_DONE (R136). The whole-skein routing and chain-cost analysis finishes. -/
  | routingAnalysisDone
  /-- SHADOW_LOAD_START (R104). At the region edge after the start signal crosses, the FCC sets the loading bits or refuses the shadow load. -/
  | shadowLoadStart
  /-- REGION_SEAL (R139). After a region's frames and tile memory are written, the FCC seals it and moves it to READY. -/
  | regionSeal
  /-- BULK_CLEAR_DONE (R141). The bulk clear of a target region ends after a reset or power-off during apply. -/
  | bulkClearDone (r : Region)
  /-- SCRUB_SLOT (R152). A scrub slot starts, reads one frame and decodes it. -/
  | scrubSlot (ups : List (Fin 49152 × Fin 1080))
  /-- REGION_HOLD (R154). A critical region holds at its first edge after the uncorrectable report crosses its bridge. -/
  | regionHold (r : Region)
  /-- HOLD_CLEAR (R154). A write of 1 to an FCC_SCRHOLD bit clears the region's hold. -/
  | holdClear (ini : Ini) (val : Word)
  /-- CANARY_SLOT (R156). The canary slot reads the canary frame and checks the expected reports. -/
  | canarySlot (ups : List (Fin 1080))
  /-- SCRUB_PASS_TIMEOUT (R157). A pass that does not end within twice its length raises self-fault cause 0x4. -/
  | scrubPassTimeout
  /-- TMR_VOTE_FIX (R158). A voted copy that differs from the vote is rewritten, or a double upset reloads the reset values. -/
  | tmrVoteFix (reg : Fin 3) (f0 f1 f2 : Word)
  /-- UCQ_POP (R153). A write of FCC_UCQCTL.pop removes the oldest uncorrectable-queue entry. -/
  | ucqPop (ini : Ini) (val : Word)
  /-- INTEG_CLEAR (R159). A levee write of 0 to FCC_INTEG.unverified while clean is 1 clears it. -/
  | integClear (ini : Ini) (val : Word)
  /-- CAPTURE_ARM (R160). A write of CTRL.arm checks and arms a capture of the named regions. -/
  | captureArm (ini : Ini) (val : Word)
  /-- CAPTURE_CANCEL (R163). A write of CTRL.cancel ends an armed capture that has frozen no region. -/
  | captureCancel (ini : Ini) (val : Word)
  /-- ANCHOR_FREEZE (R161). The anchor region freezes on arm or at the match cycle. -/
  | anchorFreeze
  /-- REGION_FREEZE (R161). Each other named region freezes when the freeze signal reaches it. -/
  | regionFreeze (r : Region)
  /-- CAPTURE_DONE (R164). The FCC finishes writing every section and the capture ends OK. -/
  | captureDone
  /-- PROBE_AUTH_FALL (R167). When probe authorisation falls every probe enable clears and the pins go high-impedance. -/
  | probeAuthFall
  /-- QUEUE_WRITE_FLIT (R172). A queue accepts a write flit and applies its open, items and close. -/
  | queueWriteFlit (q : Queue) (src : Ini) (cw : BitVec 16) (data : BitVec 512)
  /-- LENGTH_SLOT_WRITE (R176). The queue writes a closed packet's length slot and the packet becomes complete. -/
  | lengthSlotWrite (q : Queue)
  /-- BANK_SWAP (R177). The fill and drain banks swap when the drain bank is empty. -/
  | bankSwap (q : Queue)
  /-- QUEUE_READ (R179). A pull queue serves a read request with response flits of its oldest readable words. -/
  | queueRead (q : Queue) (nm1 : Fin 8)
  /-- QUEUE_PUSH (R179). A push queue sends readable words to its destination headgate under a grant. -/
  | queuePush (q : Queue) (nm1 : Fin 8)
  /-- QUEUE_PUSH_RETRY (R179). 64 OCN cycles after a refusal the push queue reserves again for the waiting words. -/
  | queuePushRetry (q : Queue)
  /-- SQ_CTRL_WRITE (R188). A write to SQq_CTRL sets en and the configuration fields under the enable rules. -/
  | sqCtrlWrite (ini : Ini) (q : Queue) (val : Word)
  /-- SQ_FLUSH (R185). A write of CTRL.flush cuts every complete or open packet. -/
  | sqFlush (ini : Ini) (q : Queue) (val : Word)
  /-- FLUSH_DISCARD (R185). A cut packet is discarded at its packet boundary and flushed is set when the last goes. -/
  | flushDiscard (q : Queue)
  /-- SPILL_DISCARD (R187). A spill queue discards its oldest unread complete packet to accept a waiting flit. -/
  | spillDiscard (q : Queue)
  /-- SQ_CLEAR (R189). A write of CTRL.clr empties the queue at the next edge. -/
  | sqClear (ini : Ini) (q : Queue) (val : Word)
  /-- WEIR_WRITE (R184). A write to SQq_WEIR sets the marks or is ignored, and pace is re-evaluated. -/
  | weirWrite (ini : Ini) (q : Queue) (val : Word)
  /-- DESCRIPTOR_SUBMIT (R198). A write of MEDn_CMDGO copies the staged descriptor into the pool. -/
  | descriptorSubmit (ini : Ini) (m : MedCh) (val : Word)
  /-- DESCRIPTOR_START (R199). A descriptor starts, latches its key and program page and checks the bad-block bitmap. -/
  | descriptorStart (m : MedCh) (l : Lun)
  /-- MED_CMD (R205). The CMD instruction sends a command cycle, handling a commit through the torn log and write-inhibit. -/
  | medCmd (m : MedCh) (l : Lun)
  /-- TORN_LOG_ACK (R205). The AON acknowledges a torn-log entry and the channel samples write-inhibit and drives the commit. -/
  | tornLogAck (m : MedCh) (l : Lun)
  /-- MED_ADDR (R203). The ADDR instruction sends address cycles. -/
  | medAddr (m : MedCh) (l : Lun)
  /-- MED_WAIT (R203). The WAIT instruction starts a wait of MEDn_TIMk. -/
  | medWait (m : MedCh) (l : Lun)
  /-- MED_WAIT_DONE (R203). A media WAIT expires and the program continues. -/
  | medWaitDone (m : MedCh) (l : Lun)
  /-- MED_POLL (R203). The POLL instruction starts reading flash status. -/
  | medPoll (m : MedCh) (l : Lun)
  /-- POLL_SAMPLE (R203). Every 1 µs a POLL reads status and ends on ready, checking the fail mask. -/
  | pollSample (m : MedCh) (l : Lun) (status : Byte) (us : BitVec 16)
  /-- POLL_TIMEOUT (R205). A POLL exceeds its timeout, ends TIMEOUT and sets the torn-log entry TIMEOUT. -/
  | pollTimeout (m : MedCh) (l : Lun) (us : BitVec 16)
  /-- MED_DIN (R208). The DIN instruction takes page or codeword data into queue packets. -/
  | medDin (m : MedCh) (l : Lun) (page : List Byte)
  /-- MED_DOUT (R208). The DOUT instruction sends a page built from queue packets to the flash. -/
  | medDout (m : MedCh) (l : Lun)
  /-- MED_RLSET (R211). The RLSET instruction computes read offsets and sends SET FEATURES when they change. -/
  | medRlset (m : MedCh) (l : Lun)
  /-- MED_SETF (R203). The SETF instruction sends SET FEATURES. -/
  | medSetf (m : MedCh) (l : Lun)
  /-- MED_LOOP (R203). The LOOP instruction starts a per-plane loop body. -/
  | medLoop (m : MedCh) (l : Lun)
  /-- MED_ENDL (R203). The ENDL instruction ends a media loop body. -/
  | medEndl (m : MedCh) (l : Lun)
  /-- MED_END (R200). The END instruction ends the descriptor and writes its completion record. -/
  | medEnd (m : MedCh) (l : Lun)
  /-- MED_ABORT (R221). A write of MEDn_CTRL.abort ends descriptors with ABORT. -/
  | medAbort (ini : Ini) (m : MedCh) (val : Word)
  /-- IFCFG_WRITE (R196). A write to MEDn_IFCFG changes the interface mode and starts training of every target. -/
  | ifcfgWrite (ini : Ini) (m : MedCh) (val : Word)
  /-- TRAINING_DONE (R196). Training of all targets finishes and trained is set. -/
  | trainingDone (m : MedCh) (codes : List Word)
  /-- MED_RETRAIN (R197). MEDn_CTRL.retrain or a 15 °C change retrains a target between descriptors. -/
  | medRetrain (m : MedCh) (ce : Fin 8) (cause : RetrainCause) (code : Word)
  /-- PATROL_TICK (R212). Every patrol interval the engine submits the next patrol list entry. -/
  | patrolTick (m : MedCh)
  /-- INHIBIT_ASSERT (R214). The levee asserts a channel's write-inhibit line. -/
  | inhibitAssert (m : MedCh)
  /-- WP_ASSERT (R214). The channel drives WP_N low once no committed operation is short of ready, or 32 ms after assertion. -/
  | wpAssert (m : MedCh) (late : Bool)
  /-- PROGRAM_LOAD (R202). A write of MED_PLCTL.go copies instructions into the inactive program page. -/
  | programLoad (ini : Ini) (val : Word)
  /-- PROGRAM_LOAD_DONE (R202). The program-page copy completes. -/
  | programLoadDone
  /-- PROGRAM_SWAP (R202). A write of MED_PCTRL.swap makes the other program page active. -/
  | programSwap (ini : Ini) (val : Word)
  /-- KEY_INSTALL (R210). SEC's write of MED_KEY15 installs the staged key slot atomically. -/
  | keyInstall (ini : Ini) (val : Word)
  /-- KEY_SLOT_ERASE (R210). A write of MED_KEYSEL.erase empties a key slot. -/
  | keySlotErase (ini : Ini) (val : Word)
  /-- MGD_DECODE (R220). MGD finishes decoding or encoding one guard page. -/
  | mgdDecode (m : MedCh) (l : Lun)
  /-- WARM_RESET_DEFERRAL (R216). On a warm reset the channels stop and MGD starts polling live ISSUED entries. -/
  | warmResetDeferral
  /-- MGD_POLL (R216). Every 5 µs MGD polls a target with a live ISSUED entry and records its status. -/
  | mgdPoll (e : Fin 64) (status : Byte) (us : BitVec 16)
  /-- DEFERRAL_TIMEOUT (R216). 32 ms after the request the deferral ends and remaining ISSUED entries become TIMEOUT. -/
  | deferralTimeout
  /-- TORN_LOG_FREE (R217). A write of AON_TLCTRL.free frees a torn-log entry whose live bit is clear. -/
  | tornLogFree (ini : Ini) (val : Word)
  /-- HDEC_CODEWORD (R233). HDEC checks and decodes a codeword packet and emits a decoded, hole or status packet. -/
  | hdecCodeword (r : Region) (lw : Word) (body : List Byte)
  /-- SDEC_SOFT_SET (R235). SDEC decodes a soft set of three reads with min-sum. -/
  | sdecSoftSet (r : Region) (lw0 lw1 lw2 : Word) (b0 b1 b2 : List Byte)
  /-- SETMODE (R232). A SETMODE control packet sets a decoder's status mode and iteration cap. -/
  | setmode (r : Region) (lw w1 w2 : Word)
  /-- RESETSEQ (R232). A RESETSEQ control packet sets every cseq count to 0. -/
  | resetseq (r : Region) (lw w1 w2 : Word)
  /-- INTAKE_CODEWORD (R236). INTAKE stamps the payload CRC into a codeword packet. -/
  | intakeCodeword (r : Region) (lw : Word) (body : List Byte)
  /-- ENC_CODEWORD (R236). ENC adds the tier's LDPC parity and emits a program packet. -/
  | encCodeword (r : Region) (lw : Word) (body : List Byte)
  /-- OPERATOR_CRC_CHECK (R234). A reference operator checks the payload CRC and discards a mismatching packet. -/
  | operatorCrcCheck (r : Region) (lw : Word) (body : List Byte)
  /-- LZD_BLOCK (R237). LZD expands a compressed block or rejects it with FORMAT. -/
  | lzdBlock (r : Region) (block : List Byte)
  /-- ERS_REBUILD (R238). An ERS control packet with op 0x03 rebuilds missing stripe members. -/
  | ersRebuild (r : Region) (lw w1 w2 : Word) (members : List (List Byte))
  /-- SETPRED (R504). A FILT SETPRED control packet adds a predicate and sets ncw. -/
  | setpred (r : Region) (lw w1 w2 w3 w4 : Word)
  /-- FILT_END (R504). A FILT END control packet closes the open batch as final. -/
  | filtEnd (r : Region) (lw w1 w2 w3 w4 : Word)
  /-- FILT_CLEAR (R504). A FILT CLEAR control packet removes every predicate and resets counts. -/
  | filtClear (r : Region) (lw w1 w2 w3 w4 : Word)
  /-- FILT_BATCH_CLOSE (R505). FILT closes a result batch at 255 rows or as final and writes DONE after the final batch. -/
  | filtBatchClose (r : Region)
  /-- OCN_READ (R254). A READ reservation arrives at its target NI and is answered with RDAT flits. -/
  | ocnRead (x : Rsv)
  /-- OCN_WRITE (R254). A WRITE reservation arrives and waits for ingress space before GRANT. -/
  | ocnWrite (x : Rsv)
  /-- OCN_QREAD (R254). A QREAD reservation arrives at a queue NI. -/
  | ocnQread (x : Rsv)
  /-- OCN_QWRITE (R254). A QWRITE reservation arrives at a queue NI. -/
  | ocnQwrite (x : Rsv)
  /-- OCN_QPUSH (R254). A QPUSH reservation arrives at a headgate NI. -/
  | ocnQpush (x : Rsv)
  /-- OCN_SIGNAL (R254). A SIGNAL reservation arrives and is answered DONE when the latch takes it. -/
  | ocnSignal (x : Rsv)
  /-- GRANT (R510). A target NI sends GRANT once the write's ingress space is free and reserves it. -/
  | grant (k : TxnKey)
  /-- WRITE_DATA_ARRIVAL (R254). The data flits of a granted write arrive and are handed to the block, which answers DONE. -/
  | writeDataArrival (k : TxnKey) (data : List (BitVec 512)) (cws : List (BitVec 16))
  /-- RESPONSE_ARRIVAL (R254). An RDAT or RESP flit reaches its initiator NI and ends or advances the transaction. -/
  | responseArrival (k : TxnKey) (latency : Nat)
  /-- FLIT_FORWARD (R257). A router output forwards one flit per cycle by wheel slot or round-robin. -/
  | flitForward (ro : Router) (output : Fin 8) (slot : Fin 64) (arrivals : List (Fin 8 × Flit))
  /-- TARGET_TIMEOUT (R261). A delivered request exceeds OCNr_TMO and the NI isolates the target port as dead. -/
  | targetTimeout (k : TxnKey)
  /-- DEAD_REOPEN (R261). A write of 1 to a dead bit reopens the port at the next edge. -/
  | deadReopen (ini : Ini) (ro : Router) (val : Word)
  /-- INITIATOR_TIMEOUT (R262). After 2 ms without an answer the initiator NI ends the transaction DEAD. -/
  | initiatorTimeout (k : TxnKey)
  /-- PORT_CLOSE (R263). The PMU starts closing a port, which refuses new reservations with DROWSE. -/
  | portClose (n : Ni)
  /-- PORT_DOWN (R263). When admitted and outstanding traffic is gone the port reports down. -/
  | portDown (n : Ni)
  /-- PORT_REOPEN (R263). The NI reopens when the PMU reports the domain powered and out of reset. -/
  | portReopen (n : Ni)
  /-- ROUTE_TABLE_WRITE (R252). An aligned 64-bit write stores a checked route entry. -/
  | routeTableWrite (ini : Ini) (n : Ni) (off : BitVec 12) (len : Nat) (val : BitVec 64)
  /-- ROUTER_CLOSE (R265). A write of OCNr_CLOSE.router closes or reopens the router. -/
  | routerClose (ini : Ini) (ro : Router) (val : Word)
  /-- ROUTER_DRAINED (R265). A closed router's last flit leaves and drained is set. -/
  | routerDrained (ro : Router)
  /-- EPOCH_FLIP (R265). A write of OCNr_EPOCH.flip makes the NI stop launching until it has nothing outstanding. -/
  | epochFlip (ini : Ini) (ro : Router) (val : Word)
  /-- EPOCH_SWITCH (R265). The NI switches to the other route bank when no reservation is outstanding. -/
  | epochSwitch (n : Ni)
  /-- WHEEL_STAGE (R259). A write of OCNr_WHEEL with wr stores a staged wheel entry. -/
  | wheelStage (ini : Ini) (ro : Router) (val : Word)
  /-- WHEEL_COMMIT (R259). A write of CTRL.wcommit checks the staged wheel and accepts or refuses it. -/
  | wheelCommit (ini : Ini) (ro : Router) (val : Word)
  /-- WHEEL_TAKE_EFFECT (R259). A pending wheel takes effect at the next slot-0 edge. -/
  | wheelTakeEffect (ro : Router)
  /-- STATS_CLEAR (R267). A write of OCNr_CTRL.stclr clears the selected port's counters. -/
  | statsClear (ini : Ini) (ro : Router) (val : Word)
  /-- BANK_ACCESS (R273). A reservoir bank performs its highest-priority presented request. -/
  | bankAccess (b : RBank)
  /-- BANK_HANDOVER (R278). A write to RSV_BHAND requests a bank handover, judged and accepted or refused. -/
  | bankHandover (ini : Ini) (val : Word)
  /-- HANDOVER_EDGE (R279). An accepted handover takes effect at every RSV NI 2 cycles later and its DONE leaves. -/
  | handoverEdge
  /-- SECURE_WIPE (R281). A tamper or life-cycle change starts the wipe of the secure banks. -/
  | secureWipe (cause : WipeCause)
  /-- SECURE_WIPE_DONE (R281). The secure-bank wipe completes and swdone is set. -/
  | secureWipeDone
  /-- RESERVOIR_WIPE_DONE (R282). The full reservoir wipe completes. -/
  | reservoirWipeDone
  /-- DRAM_ACCESS (R286). The DRC serves a DRAM read or write with check-word verification. -/
  | dramAccess (k : TxnKey) (err : DramErr)
  /-- DRAM_INIT_DONE (R287). The post-training zero-fill completes and DRC_STAT.init is set. -/
  | dramInitDone
  /-- HV_RANGE_WRITE (R288). A write to DRC_HVBASE or DRC_HVSIZE sets the host-visible range or is ignored. -/
  | hvRangeWrite (ini : Ini) (size : Bool) (val : Word)
  /-- HV_CLEAR (R289). A write of 1 to DRC_HVCTRL.en starts the pre-exposure clear. -/
  | hvClear (ini : Ini) (val : Word)
  /-- HV_CLEAR_DONE (R289). The pre-exposure clear ends and hvready is set. -/
  | hvClearDone
  /-- HV_DISABLE (R290). A write of 0 to DRC_HVCTRL.en makes the range device-private when no decoder is committed. -/
  | hvDisable (ini : Ini) (val : Word)
  /-- DMA_START (R309). A write of CTRL.start starts the channel at DMAn_PC. -/
  | dmaStart (ini : Ini) (d : DmaCh) (val : Word)
  /-- DMA_RESUME (R315). A write of CTRL.resume retranslates the faulting burst and continues. -/
  | dmaResume (ini : Ini) (d : DmaCh) (val : Word)
  /-- DMA_ABORT (R317). A write of CTRL.abort stops the channel and discards its buffered data. -/
  | dmaAbort (ini : Ini) (d : DmaCh) (val : Word)
  /-- DMA_GO (R302). A write of CTRL.go satisfies a WAIT cond 2. -/
  | dmaGo (ini : Ini) (d : DmaCh) (val : Word)
  /-- DMA_APPEND (R310). A write of DMAn_APPEND refetches the tail of a parked channel, latches, or is ignored. -/
  | dmaAppend (ini : Ini) (d : DmaCh) (val : Word)
  /-- DMA_FETCH (R296). A program line fetch returns to the channel. -/
  | dmaFetch (d : DmaCh) (status : Status)
  /-- MOVE (R298). The MOVE instruction cuts a transfer into bursts and launches them. -/
  | move (d : DmaCh)
  /-- DMA_LOOP (R301). The LOOP instruction starts a counted body with strides. -/
  | dmaLoop (d : DmaCh)
  /-- DMA_ENDL (R301). The ENDL instruction ends a loop pass. -/
  | dmaEndl (d : DmaCh)
  /-- DMA_WAIT (R302). The WAIT instruction starts waiting for its condition. -/
  | dmaWait (d : DmaCh)
  /-- DMA_WAIT_EXPIRE (R302). A WAIT cond 3 cycle count expires. -/
  | dmaWaitExpire (d : DmaCh)
  /-- DMA_SIGNAL (R303). The SIGNAL instruction raises a channel event or a sequencer signal. -/
  | dmaSignal (d : DmaCh)
  /-- LINK (R304). The LINK instruction continues at its target. -/
  | link (d : DmaCh)
  /-- DMA_END (R309). A LINK with end = 1 parks the channel and latches the tail address. -/
  | dmaEnd (d : DmaCh)
  /-- XFORM (R305). The XFORM instruction sets the transform for later MOVEs. -/
  | xform (d : DmaCh)
  /-- HALT (R306). The HALT instruction moves the channel to HALTING. -/
  | halt (d : DmaCh)
  /-- DMA_DRAIN_DONE (R306). Every write and flush is answered and a halting channel completes to IDLE. -/
  | dmaDrainDone (d : DmaCh)
  /-- DMA_BURST_ANSWER (R295). A burst's read data or write DONE returns and the slot advances or frees. -/
  | dmaBurstAnswer (d : DmaCh) (burst : Nat) (read : Bool) (status : Status) (poison : Bool) (host : List Byte)
  /-- DMA_ERROR (R316). An error answer stops the channel into ERROR after outstanding answers. -/
  | dmaError (d : DmaCh)
  /-- DMA_DROWSE_RETRY (R316). 64 OCN cycles after a DROWSE refusal the channel retries. -/
  | dmaDrowseRetry (d : DmaCh)
  /-- DMA_PACE_SAMPLE (R312). Every pacing period the read NI reads the pacing queue's STAT. -/
  | dmaPaceSample (d : DmaCh) (status : Status)
  /-- FCALL (R327). FCALL enters a new ring frame and jumps, or raises a frame trap. -/
  | fcall (c : Core) (rs1 : Fin 32) (imm : BitVec 12)
  /-- FRET (R327). FRET returns to the caller's frame, or raises a frame trap. -/
  | fret (c : Core)
  /-- FSPILL (R327). FSPILL stores the oldest resident frame to the spill stack. -/
  | fspill (c : Core)
  /-- FFILL (R327). FFILL loads a spilled frame back into the ring. -/
  | ffill (c : Core)
  /-- TRAP_ENTRY (R328). A trap is taken and the trap frame becomes current or tnest is set. -/
  | trapEntry (c : Core) (intr : Bool) (cause : BitVec 6) (tval : BitVec 64)
  /-- XRET (R328). MRET or SRET clears tnest or tf, or is illegal with tdep nonzero. -/
  | xret (c : Core) (m : Bool)
  /-- FRAME_FAULT (R329). A frame fault stops the bank, saves both halves and parks the thread. -/
  | frameFault (c : Core) (code : Fin 8)
  /-- CTXSV_U (R335). CTXSV.U saves the bank's upper half to knodeu. -/
  | ctxsvU (c : Core) (cut : Option Nat)
  /-- CTXSV_L (R335). CTXSV.L saves the bank's lower half to knodel. -/
  | ctxsvL (c : Core) (cut : Option Nat)
  /-- CTXLD_U (R335). CTXLD.U loads the masked upper-half slots. -/
  | ctxldU (c : Core) (cut : Option Nat)
  /-- CTXLD_L (R335). CTXLD.L loads the masked lower-half slots and continues at slot 15's pc. -/
  | ctxldL (c : Core) (cut : Option Nat)
  /-- HEVT (R368). HEVT raises an event occurrence and retires once it is in the core's port. -/
  | hevt (c : Core) (rs1 : Fin 32)
  /-- HWAIT (R368). HWAIT reloads cnt, consumes erl, and waits or continues. -/
  | hwait (c : Core)
  /-- HEXIT (R368). HEXIT frees the thread and zeroes its bank. -/
  | hexit (c : Core)
  /-- HYIELD (R368). HYIELD puts the thread at the tail of its ready queue. -/
  | hyield (c : Core)
  /-- HSELF (R368). HSELF returns the thread number. -/
  | hself (c : Core) (rd : Fin 32)
  /-- RV64_INSTRUCTION (R322). A standard RV64IMAFDC, Zicsr, Zifencei, Zicntr or Zicbom instruction executes. -/
  | rv64Instruction (c : Core) (w : Word)
  /-- FP_LAZY_SWITCH (R339). The first FP instruction of a non-owner bank runs the helper that moves FP state. -/
  | fpLazySwitch (c : Core)
  /-- DISPATCH_DELIVER (R333). A dispatch crosses the scheduler link and the core makes the bank ACTIVE. -/
  | dispatchDeliver (c : Core)
  /-- ENGINE_SAVE_DONE (R336). The context engine finishes saving a bank half. -/
  | engineSaveDone (c : Core) (status : Status)
  /-- ENGINE_LOAD_DONE (R337). The context engine finishes loading a bank half or frame. -/
  | engineLoadDone (c : Core) (status : Status)
  /-- WRITEBACK_ERROR (R341). A cacheable write-back answered not OK is recorded and raises local interrupt 16. -/
  | writebackError (c : Core) (addr : BitVec 48) (status : Status)
  /-- ATU_TRANSLATE (R345). The ATU translates an address for a DMA channel or HIF engine, or faults. -/
  | atuTranslate (ini : Ini) (atc : BitVec 16) (va : BitVec 48) (wr : Bool)
  /-- ATU_INVALIDATE (R346). A write of ATU_INVAL.go removes IOTLB entries. -/
  | atuInvalidate (ini : Ini) (val : Word)
  /-- ATU_INVAL_DONE (R346). Every earlier translation has returned and busy clears. -/
  | atuInvalDone
  /-- ARM (R356). HTS ARM copies the staged descriptor and makes the thread WAITING or READY. -/
  | arm (ini : Ini) (th : Thread)
  /-- CANCEL (R367). HTS CANCEL frees the thread's bank without saving it. -/
  | cancel (ini : Ini) (th : Thread)
  /-- PARK (R366). HTS PARK parks the thread with cause 0x8. -/
  | park (ini : Ini) (th : Thread)
  /-- RESUME (R356). HTS RESUME consumes erl and makes a parked thread READY or WAITING. -/
  | resume (ini : Ini) (th : Thread)
  /-- FREE (R356). HTS FREE frees a parked or cancelled thread. -/
  | free (ini : Ini) (th : Thread)
  /-- SETPRI (R356). HTS SETPRI changes the thread's priority. -/
  | setpri (ini : Ini) (th : Thread)
  /-- SETAFF (R356). HTS SETAFF changes the thread's affinity. -/
  | setaff (ini : Ini) (th : Thread)
  /-- EVENT_TAKE (R357). The event queue takes occurrences from the ports. -/
  | eventTake
  /-- OCCURRENCE_START (R359). The HTS starts an occurrence by reading its head, or counts it unrouted. -/
  | occurrenceStart
  /-- DEC (R360). A DEC target decrements cnt or increments erl. -/
  | dec
  /-- CANCEL_ACTION (R360). A CANCEL target cancels its thread. -/
  | cancelAction
  /-- SIGNAL_ACTION (R360). A SIGNAL target sends a sequencer signal to a region. -/
  | signalAction
  /-- SIGNAL_ANSWER (R360). A SIGNAL DONE returns to the HTS and errors are counted. -/
  | signalAnswer (r : Region) (status : Status)
  /-- DISPATCH_DECISION (R362). The HTS chooses a thread for a core and sends a switch, load or preempt. -/
  | dispatchDecision (c : Core)
  /-- PARK_SAVE_DONE (R366). The park save finishes and the thread is recorded PARKED. -/
  | parkSaveDone (th : Thread)
  /-- PARKLOG_POP (R366). A write of HTS_PARKCTL.pop removes the oldest park-log entry. -/
  | parklogPop (ini : Ini) (val : Word)
  /-- HEAD_WRITE (R359). A write to HTS_RHEAD changes an event's route for later occurrences. -/
  | headWrite (ini : Ini) (val : Word)
  /-- MODE_REQUEST (R375). A write to PMU_MODEREQ starts a mode transition or is refused. -/
  | modeRequest (ini : Ini) (val : Word)
  /-- MODE_TRANSITION_DONE (R374). A mode transition reaches its last step and PMU_STAT.mode changes. -/
  | modeTransitionDone (us : BitVec 24)
  /-- DROWSE_EXIT (R376). An exit cause reopens ports and PHYs and returns to RUN or SOLO. -/
  | drowseExit (cause : DrowseExit)
  /-- TWIN_LOST (R374). PLY reports the twin lost and RUN moves to SOLO. -/
  | twinLost
  /-- AON_POWER_UP (R374). VDD_AON rises into range and the part enters HOLD. -/
  | aonPowerUp
  /-- AON_POWER_LOSS (R374). VDD_AON leaves its range and the part falls to OFF. -/
  | aonPowerLoss
  /-- WAKE (R374). An enabled wake source in HOLD starts BOOT. -/
  | wake (src : WakeSrc)
  /-- DRAIN_START (R386). cmp0 or a levee request enters DRAIN and stops intake, cores, DMA and media. -/
  | drainStart (src : DrainSrc)
  /-- DRAIN_REGIONS_OFF (R386). By 10 µs every region is powered off and DRAM enters self-refresh. -/
  | drainRegionsOff
  /-- DRAIN_JOURNAL_PAGE (R386). The DRAIN controller writes one journal page as a guard page. -/
  | drainJournalPage (status : Byte)
  /-- DRAIN_INHIBIT (R386). When every page has a result or at 11.5 ms the levee inhibits writes and AON_DRNLOG is written. -/
  | drainInhibit (timeout : Bool) (quarterMs : BitVec 16)
  /-- DRAIN_POWER_OFF (R386). 100 µs after step 4 PWREN_MAIN falls and the mode becomes HOLD. -/
  | drainPowerOff
  /-- HOLDUP_ASSERT (R388). cmp1 asserting during DRAIN moves the sequence to step 4. -/
  | holdupAssert
  /-- AON_TICK (R377). AON_TIME advances by one tick. -/
  | aonTick
  /-- ALARM_FIRE (R378). AON_TIME reaches AON_ALARM and the alarm event is set. -/
  | alarmFire
  /-- TIME_LOAD (R377). A write of AON_CTRL.tload copies AON_TSET into AON_TIME at the next tick. -/
  | timeLoad (ini : Ini) (val : Word)
  /-- COMPARATOR_ASSERT (R379). A comparator output asserts after filt samples beyond threshold. -/
  | comparatorAssert (k : Fin 6) (sample : BitVec 10)
  /-- COMPARATOR_DEASSERT (R379). A comparator output deasserts after filt samples back across threshold. -/
  | comparatorDeassert (k : Fin 6) (sample : BitVec 10)
  /-- PLL_LOCK (R380). A PLL locks and its consumers may use it. -/
  | pllLock (p : Fin 8)
  /-- PLL_LOCK_LOSS (R380). A running PLL loses lock and pllfail is set. -/
  | pllLockLoss (p : Fin 8)
  /-- FPLL_WRITE (R381). A write to PMU_FPLLx changes or stops a fabric PLL, or is ignored. -/
  | fpllWrite (ini : Ini) (b : Bool) (val : Word)
  /-- AVS_MONITOR (R382). Every 1 ms the PMU reads the AVSBus rails and reports faults. -/
  | avsMonitor (mv0 ma0 mv1 ma1 : BitVec 16) (pwr : BitVec 16) (pmbFault : Bool)
  /-- PMBUS_COMMAND (R383). A write of PMU_PMBCMD.go sends a firmware PMBus command. -/
  | pmbusCommand (ini : Ini) (val : Word)
  /-- PMBUS_DONE (R383). A PMBus command completes. -/
  | pmbusDone (nak pec : Bool) (data : BitVec 16)
  /-- THROTTLE_STEP (R390). Every 1 ms each unit's throttle level rises or falls with its temperature. -/
  | throttleStep
  /-- COLD_RESET (R396). A cold reset resets every block except AON, wipes memories and ends in BOOT. -/
  | coldReset (straps : BitVec 16) (fuses : FuseRead)
  /-- SYSRST (R394). SYSRST_N held low for 1 µs requests a cold reset. -/
  | sysrst
  /-- COLD_RESET_REQUEST (R394). A levee write of PMU_RSTREQ.cold requests a cold reset. -/
  | coldResetRequest (ini : Ini) (val : Word)
  /-- WARM_RESET_REQUEST (R400). A write of PMU_RSTREQ.warm or a watchdog starts a warm reset sequence. -/
  | warmResetRequest (ini : Ini) (val : Word)
  /-- WARM_RESET_ASSERT (R400). After deferral and core write-back, reset asserts and releases into BOOT. -/
  | warmResetAssert
  /-- FABRIC_REGION_RESET (R398). A PMU_FRGRST bit resets a region at its next edge without bind-off. -/
  | fabricRegionReset (ini : Ini) (val : Word)
  /-- CORE_RESET (R399). A PMU_CORERST bit stops a core, writes back its L2 and cancels its threads. -/
  | coreReset (ini : Ini) (val : Word)
  /-- BOOT_ROM (R402). The boot ROM reads, authenticates and enters firmware. -/
  | bootRom (outcome : BootOutcome)
  /-- RECOVERY_CHUNK (R404). Recovery mailbox command 0x1 copies a chunk to the load area. -/
  | recoveryChunk
  /-- RECOVERY_END (R404). Recovery mailbox command 0x2 ends the transfer and authenticates the image. -/
  | recoveryEnd
  /-- LOCKSTEP_MISMATCH (R408). The levee comparator detects a divergence and write-inhibit asserts at once. -/
  | lockstepMismatch
  /-- LOCKSTEP_COLD_RESET (R416). 2 µs after a lockstep fault the hardware requests a cold reset. -/
  | lockstepColdReset
  /-- SELF_WATCHDOG (R413). The levee self-watchdog expires and acts as a lockstep mismatch. -/
  | selfWatchdog
  /-- SELFKICK (R413). A write to LVE_SELFKICK restarts the self-watchdog. -/
  | selfkick (ini : Ini) (val : Word)
  /-- WATCHDOG_FIRST (R411). A core watchdog first expires and sets LVE_WDSTAT. -/
  | watchdogFirst (c : Core)
  /-- WATCHDOG_SECOND (R411). A core watchdog second expiry requests a core or warm reset. -/
  | watchdogSecond (c : Core)
  /-- HTS_WATCHDOG (R412). The HTS watchdog expires and requests a warm reset. -/
  | htsWatchdog
  /-- THERMAL_TRIP (R414). Three samples at or above the trip threshold make a DRAIN request. -/
  | thermalTrip
  /-- VOLTAGE_FAULT (R415). A rail outside its window for 10 comparisons makes a DRAIN request. -/
  | voltageFault (mv : BitVec 16) (rail : Bool)
  /-- LEVEE_DRAIN_REQUEST (R416). A write of LVE_CTRL.drain makes a DRAIN request. -/
  | leveeDrainRequest (ini : Ini) (val : Word)
  /-- ALOG_POP (R409). A write of LVE_ALOGCTL.pop removes the oldest access-log entry. -/
  | alogPop (ini : Ini) (val : Word)
  /-- NONCE (R427). SEC op NONCE loads a fresh 32-byte nonce. -/
  | nonce (ini : Ini) (fresh : BitVec 256)
  /-- ENROLL (R424). SEC op ENROLL enrols an owner key under an authorisation record. -/
  | enroll (ini : Ini)
  /-- REVOKE (R424). SEC op REVOKE revokes an owner key slot. -/
  | revoke (ini : Ini)
  /-- LCREQ (R421). SEC op LCREQ runs an authorised life-cycle transition ending in a cold reset. -/
  | lcreq (ini : Ini)
  /-- DBGTOK (R428). SEC op DBGTOK accepts a debug token and sets its expiry. -/
  | dbgtok (ini : Ini)
  /-- UNWRAP (R425). SEC op UNWRAP unwraps a media key blob and installs it. -/
  | unwrap (ini : Ini)
  /-- KEYERASE (R425). SEC op KEYERASE empties a key slot and its secure copy. -/
  | keyerase (ini : Ini)
  /-- FWSVN (R424). SEC op FWSVN advances the firmware rollback counter. -/
  | fwsvn (ini : Ini)
  /-- SKSVN (R424). SEC op SKSVN advances the skein rollback counter. -/
  | sksvn (ini : Ini)
  /-- LVLOAD (R410). SEC op LVLOAD checks a levee image and the ROM enters it. -/
  | lvload (ini : Ini)
  /-- CERT (R430). SEC op CERT installs the certificate chain in slot 0. -/
  | cert (ini : Ini)
  /-- TOKEN_EXPIRE (R428). AON_TIME reaches SEC_DBGEXP and the debug token ends. -/
  | tokenExpire
  /-- TAMPER_EVENT (R429). A tamper event wipes secrets, ends sessions and tokens and sets the latch. -/
  | tamperEvent
  /-- TAMPER_CLEAR (R429). A levee write of 1 to SEC_TAMPER.tamper clears the latch unless the mesh is open. -/
  | tamperClear (ini : Ini) (val : Word)
  /-- GET_VERSION (R430). SEC answers an SPDM GET_VERSION request. -/
  | getVersion (msg : List Byte)
  /-- GET_CAPABILITIES (R430). SEC answers an SPDM GET_CAPABILITIES request. -/
  | getCapabilities (msg : List Byte)
  /-- NEGOTIATE_ALGORITHMS (R430). SEC answers an SPDM NEGOTIATE_ALGORITHMS request. -/
  | negotiateAlgorithms (msg : List Byte)
  /-- GET_DIGESTS (R430). SEC answers an SPDM GET_DIGESTS request. -/
  | getDigests (msg : List Byte)
  /-- GET_CERTIFICATE (R430). SEC answers an SPDM GET_CERTIFICATE request. -/
  | getCertificate (msg : List Byte)
  /-- CHALLENGE (R430). SEC answers an SPDM CHALLENGE with its identity key. -/
  | challenge (msg : List Byte)
  /-- GET_MEASUREMENTS (R431). SEC answers an SPDM GET_MEASUREMENTS request with its measurements. -/
  | getMeasurements (msg : List Byte)
  /-- KEY_EXCHANGE (R430). SEC answers an SPDM KEY_EXCHANGE request. -/
  | keyExchange (msg : List Byte)
  /-- FINISH (R430). SEC answers an SPDM FINISH request. -/
  | finish (msg : List Byte)
  /-- HEARTBEAT (R430). SEC answers an SPDM HEARTBEAT request. -/
  | heartbeat (msg : List Byte)
  /-- KEY_UPDATE (R430). SEC answers an SPDM KEY_UPDATE request. -/
  | keyUpdate (msg : List Byte)
  /-- END_SESSION (R430). SEC answers an SPDM END_SESSION request. -/
  | endSession (msg : List Byte)
  /-- IDE_KM (R452). SEC programs IDE keys from an IDE_KM message in a secured session. -/
  | ideKm (secured : Bool) (stream : Fin 6) (key : BitVec 256)
  /-- TDISP_MESSAGE (R453). SEC terminates a TDISP message and sets the TDI state. -/
  | tdispMessage (tdi : Fin 64) (req : TdispReq)
  /-- TDI_ERROR (R453). A host change to a locked TDI moves it to ERROR. -/
  | tdiError (tdi : Fin 64)
  /-- MSIX_SEND (R436). A write of HIF_MSIX sends or pends an MSI-X vector. -/
  | msixSend (ini : Ini) (val : Word)
  /-- OUTBOUND_ACCESS (R438). HIF maps a host-range access through an outbound window and sends it. -/
  | outboundAccess (ini : Ini) (addr : BitVec 48) (wr : Bool) (n : BitVec 10)
  /-- HOST_FLUSH (R439). A zero-length read flush to the host range is answered after earlier writes. -/
  | hostFlush (ini : Ini) (addr : BitVec 48)
  /-- CXL_MEM_REQUEST (R441). HIF carries a CXL.mem request to the DRC. -/
  | cxlMemRequest (req : CxlReq) (dpa : BitVec 36) (data : BitVec 512) (mask : BitVec 64)
  /-- HOST_LINE_RELEASE (R442). A host MemInv or clean evict removes a line from the filter. -/
  | hostLineRelease (dpa : BitVec 36)
  /-- BACK_INVALIDATE (R443). A device write to a filtered line holds while HIF sends BISnpInv. -/
  | backInvalidate (k : TxnKey)
  /-- BIRSP_RECEIVE (R443). BIRspI arrives and the held device write is performed. -/
  | birspReceive (line : BitVec 42)
  /-- BI_TIMEOUT (R443). No BIRsp within HIF_BITMO and the held write is answered SLVERR. -/
  | biTimeout (line : BitVec 42)
  /-- SNOOP_RESPONSE (R439). HIF answers an H2D snoop with RspIHitI. -/
  | snoopResponse (line : BitVec 42)
  /-- PEER_WRITE (R447). An inbound BAR2 write is placed through its peer window or dropped. -/
  | peerWrite (src : BitVec 12) (o : BitVec 34) (data : List Byte)
  /-- PEER_FLUSH (R448). A zero-length read to a peer window completes after earlier writes and raises pflush. -/
  | peerFlush (src : BitVec 12) (o : BitVec 34)
  /-- NVME_DOORBELL (R450). An NVMe doorbell write stores the value and raises the function's event. -/
  | nvmeDoorbell (f : Fin 64) (q : Nat) (head : Bool) (val : BitVec 16)
  /-- NVME_REGISTER_WRITE (R450). A host write to CC, AQA, ASQ or ACQ stores the value and raises the function's event. -/
  | nvmeRegisterWrite (f : Fin 64) (reg : NvReg) (val : BitVec 64)
  /-- HDM_COMMIT (R440). A host HDM decoder commit succeeds or fails with Commit Error. -/
  | hdmCommit (dec : Fin 2) (size : BitVec 8)
  /-- HDM_UNCOMMIT (R440). A host HDM decoder uncommit sets EVT_RAW.hdm. -/
  | hdmUncommit (dec : Fin 2)
  /-- PERST_ASSERT (R454). PERST_N low resets every function and empties the filter. -/
  | perstAssert
  /-- LINK_DOWN (R454). The host link goes down while PERST_N is high and every function resets. -/
  | linkDown
  /-- LINK_UP (R455). Host-link training completes and the link reaches L0. -/
  | linkUp (rate : Fin 5) (width : BitVec 5)
  /-- FLR (R454). A Function Level Reset resets one function's HIF state. -/
  | flr (fn : Fin 65)
  /-- LCOMMIT_WRITE (R451). A host write changing the DVSEC lcommit bit sets EVT_RAW.lcommit. -/
  | lcommitWrite (val : Bool)
  /-- PLY_TRAIN (R459). With en on both parts the ply link trains bit lock, equalisation, deskew and width. -/
  | plyTrain (lanes : Byte) (preset : Byte)
  /-- PLY_TRAIN_RETRY (R459). Every 10 ms a down link tries training again. -/
  | plyTrainRetry (lanes : Byte) (preset : Byte)
  /-- PLY_FRAME_RECEIVE (R460). A 256-byte frame arrives and its fcrc and ack are taken. -/
  | plyFrameReceive (f : PlyFrame)
  /-- PLY_IDLE (R460). An IDLE frame carries only the acknowledgement. -/
  | plyIdle (f : PlyFrame)
  /-- PLY_NAK (R460). A NAK frame makes the transmitter resend from the named frame. -/
  | plyNak (f : PlyFrame)
  /-- PLY_HELLO (R468). A HELLO frame is exchanged and the roles and generation are resolved. -/
  | plyHello (f : PlyFrame)
  /-- PLY_REC (R464). REC frames deliver a journal record into the receive ring. -/
  | plyRec (f : PlyFrame)
  /-- PLY_HANDOVER (R469). A HANDOVER frame makes the peer PRIMARY, which answers HOACK. -/
  | plyHandover (f : PlyFrame)
  /-- PLY_HOACK (R469). A HOACK frame confirms the handover. -/
  | plyHoack (f : PlyFrame)
  /-- PLY_RXSEQ_ADVANCE (R465). Once every write of records up to s is done, RXSEQ advances and rx is set. -/
  | plyRxseqAdvance
  /-- PLY_LINK_LOST (R461). No valid frame for PLY_LOSTTO or a failed retrain marks the link DOWN. -/
  | plyLinkLost
  /-- PLY_TXTAIL_WRITE (R463). A write of PLY_TXTAIL makes records available to send, or is ignored. -/
  | plyTxtailWrite (ini : Ini) (val : BitVec 64)
  /-- PLY_RECORD_SEND (R463). PLY reads the next record from the transmit ring and sends it. -/
  | plyRecordSend
  /-- PLY_HANDOVER_CMD (R469). A write of PLY_CTRL.handover hands the PRIMARY role over. -/
  | plyHandoverCmd (ini : Ini) (val : Word)
  /-- PLY_RESOLVE (R471). A write of PLY_CTRL.resolve clears gap and conflict. -/
  | plyResolve (ini : Ini) (val : Word)
  /-- PLY_RETRAIN (R459). A write of PLY_CTRL.retrain retrains the link. -/
  | plyRetrain (ini : Ini) (val : Word)
  /-- PLY_TAKE (R470). A write of PLY_TAKE makes a cut-off part PRIMARY at the next generation. -/
  | plyTake (ini : Ini) (val : Word)
  /-- PLY_PRESENT_RISE (R471). Present rises once HELLO, replay and acknowledgements are complete. -/
  | plyPresentRise
  /-- PIN_CONFIG_WRITE (R481). A write to PIO_PINn or PIO_PSRCn is judged against the pin owner and may start a switch. -/
  | pinConfigWrite (ini : Ini) (pin : Pin) (psrc : Bool) (val : Word)
  /-- PIN_SWITCH_DONE (R483). At edge p + 2 the new function's output enable rises and swdone is set. -/
  | pinSwitchDone (pin : Pin)
  /-- GPIO_OUTPUT_WRITE (R482). A write to PIO_OUT, PIO_OE, PIO_OUTSET or PIO_OUTCLR changes GPIO outputs. -/
  | gpioOutputWrite (ini : Ini) (off : Fin 8) (val : Word)
  /-- EVIN_EDGE (R485). A filtered edge on an event input sets its event bit and timestamp. -/
  | evinEdge (k : Fin 16) (rise : Bool) (held : Bool)
  /-- BYPASS (R487). The TAP loads BYPASS. -/
  | bypass
  /-- IDCODE (R487). The TAP IDCODE instruction returns the device identifier. -/
  | idcode
  /-- SAMPLE_PRELOAD (R487). The TAP SAMPLE/PRELOAD instruction samples the boundary register. -/
  | samplePreload (data : List Bool)
  /-- EXTEST (R487). The TAP EXTEST instruction drives balls from the boundary register. -/
  | extest
  /-- CLAMP (R487). The TAP CLAMP instruction holds outputs and selects bypass. -/
  | clamp
  /-- HIGHZ (R487). The TAP HIGHZ instruction floats every output. -/
  | highz
  /-- EXTEST_PULSE (R487). The TAP EXTEST_PULSE instruction tests AC-coupled lanes. -/
  | extestPulse
  /-- EXTEST_TRAIN (R487). The TAP EXTEST_TRAIN instruction tests AC-coupled lanes with a train. -/
  | extestTrain
  /-- DMI (R487). The TAP DMI instruction reaches the rider cores' debug module when authorised. -/
  | dmi (addr : BitVec 7) (wr : Bool) (data : Word)
  /-- CAL_USER_WRITE (R501). A write to a calibration user field sets the effective value. -/
  | calUserWrite (ini : Ini) (k : Fin 62) (val : Word)
  /-- CAL_CLRALL (R502). A write of CAL_CLRALL clears every user field the writer may write. -/
  | calClrall (ini : Ini) (val : Word)
  /-- MACROCELL_UPDATE (R61). At every fabric clock edge of a region out of reset, each D or T flip-flop macrocell updates from its sum and clock enable, whatever act and fire are. -/
  | macrocellUpdate (r : Region)
  /-- XTAL_FAIL (R377). The 32.768 kHz crystal stops, AON_STAT.xtal clears, AON EVT_RAW.xtalfail is set and AON_TIME advances from the RC oscillator. -/
  | xtalFail
  /-- PG_MAIN_RISE (R384). The board drives PG_MAIN high once the main rails are in range, and the PMU leaves HOLD for BOOT 150 µs later. -/
  | pgMainRise
  /-- PERST_RELEASE (R454). PERST_N rises and the host link, once enabled by the boot ROM, starts training again. -/
  | perstRelease
  /-- HOST_COMPLETION (R439). A completion, UIO write completion or GO for an outbound request arrives from the host and HIF answers the OCN request, with SLVERR and poison on UR, CA or GO-Err. -/
  | hostCompletion (tag : Nat) (ok : Bool) (data : List Byte)
  /-- MSIX_MASK_CHANGE (R436). The host masks or unmasks an MSI-X entry or function, and on unmask a vector with its PBA bit set is sent. -/
  | msixMaskChange (v : Option (Fin 2048)) (fn : Fin 65) (mask : Bool)
  /-- LINK_L1_ENTRY (R376). The host link enters L1.1 or L1.2, which HIF_STAT reports and which the DROWSE entry condition requires. -/
  | linkL1Entry (l12 : Bool)
  /-- LEVEE_SRAM_ERROR (R408). An uncorrectable error in the levee's private SRAM asserts write-inhibit on every channel and leads to a cold reset, recorded as cause 0x7. -/
  | leveeSramError
  /-- FILT_DECODED_PACKET (R505). FILT takes a decoded packet, counts it if CORRECTED and writes its matching rows into the open result batch. -/
  | filtDecodedPacket (r : Region) (lw : Word) (body : List Byte)
  /-- LZE_BLOCK (R237). LZE compresses a block of host bytes into a header and tokens with the CRC of the uncompressed bytes. -/
  | lzeBlock (r : Region) (block : List Byte)
  /-- ERS_STRIPE_PARITY (R238). ERS computes the P or P and Q parity of a stripe from its interleaved member words. -/
  | ersStripeParity (r : Region) (members : List (List Byte)) (two : Bool)
  /-- IO_BANK_SUPPLY_CHANGE (R476). A GP bank supply is lost or returns, its pins stop or resume driving, and PIO_BANKSTAT and PIO_IN change. -/
  | ioBankSupplyChange (bank : Fin 3) (volt : Fin 3)
deriving DecidableEq, Repr

end Sys2Proof
end

