-- ==== Sys2Proof/Decode.lean ====
section
/-!
DEFINITION. The decoder of the table's words: no row of the table gives bits, so that no word spells a command. The SPI slave boot port has
opcodes of its own (R132), which spell the port's five commands.
-/
namespace Sys2Proof

/-- The command that a word of `nbits` bits spells: none, since the table gives no row any bits. -/
def decodeTableWord (_nbits _w : Nat) : Option Instr := none

/-- A 4-byte stream position, in the byte order of R6. -/
def spiPos (l : List Byte) : Word := (l.take 4).foldr (fun b acc => (acc <<< 8) ||| b.setWidth 32) 0

/-- The command of one selection of the SPI port, by its opcode and what follows it until SPI_CS_N rises (R132); an opcode outside the
table spells none. A PUSH that ends within its position delivers no bytes at the position so far. -/
def spiCommand : List Byte → Option Instr
  | [] => none
  | op :: l =>
    if op = 0xB1 then some .spiOpen
    else if op = 0x32 then some (.spiPush (spiPos l) (l.drop 4))
    else if op = 0xB2 then some .spiAbort
    else if op = 0x05 then some .spiStatus
    else if op = 0x9F then some .spiId
    else none

end Sys2Proof
end

