-- ==== Sys2Proof/Machine/Table.lean ====
section
/-!
DEFINITION. Sparse tables (a list of key and value in rising key order, the default value never listed) and the
bit-field helpers every family uses.
-/
namespace Sys2Proof.Machine

/-- A sparse table: keys strictly rising, no entry equal to the table's default. -/
abbrev Tbl (α : Type) := List (Nat × α)

/-- The value at key `k`, or the default `d` where nothing is listed. -/
def tget {α : Type} (d : α) : Tbl α → Nat → α
  | [], _ => d
  | (j, a) :: t, k => if j = k then a else tget d t k

/-- Drop key `k`. -/
def tdel {α : Type} (t : Tbl α) (k : Nat) : Tbl α := t.filter (fun e => e.1 != k)

/-- List `a` at key `k`, whatever it is. -/
def tput {α : Type} : Tbl α → Nat → α → Tbl α
  | [], k, v => [(k, v)]
  | (j, a) :: t, k, v =>
    if j = k then (k, v) :: t else if k < j then (k, v) :: (j, a) :: t else (j, a) :: tput t k v

/-- Write `v` at key `k`; the default value removes the entry, so equal tables are equal data. -/
def tset {α : Type} [DecidableEq α] (d : α) (t : Tbl α) (k : Nat) (v : α) : Tbl α :=
  if v = d then tdel t k else tput t k v

/-- Keep the entries whose key meets `p`; the others return to the default. -/
def tkeep {α : Type} (p : Nat → Bool) (t : Tbl α) : Tbl α := t.filter (fun e => p e.1)

/-- Apply `f` to every listed value whose key meets `p`; a result equal to the default is unlisted. -/
def tmap {α : Type} [DecidableEq α] (d : α) (p : Nat → Bool) (f : Nat → α → α) (t : Tbl α) : Tbl α :=
  t.filterMap (fun e => if p e.1 then (if f e.1 e.2 = d then none else some (e.1, f e.1 e.2)) else some e)

/-- The listed keys that meet `p`. -/
def tkeys {α : Type} (p : Nat → Bool) (t : Tbl α) : List Nat := (t.map (·.1)).filter p

/-- The canonical form: keys strictly rising and no entry equal to its default. -/
def twf {α : Type} [DecidableEq α] (d : Nat → α) : Tbl α → Bool
  | [] => true
  | [(k, v)] => decide (v ≠ d k)
  | (k, v) :: (j, w) :: t => decide (v ≠ d k) && decide (k < j) && twf d ((j, w) :: t)

/-- Bits [lo+n-1:lo] of a natural number. -/
def nfld (w lo n : Nat) : Nat := (w / 2 ^ lo) % 2 ^ n

/-- Bits [lo+n-1:lo] of a bit vector, as a number. -/
def fld {m : Nat} (w : BitVec m) (lo n : Nat) : Nat := (w.toNat / 2 ^ lo) % 2 ^ n

/-- Bit `i` of a bit vector. -/
def bit {m : Nat} (w : BitVec m) (i : Nat) : Bool := w.getLsbD i

/-- 1 for true, 0 for false. -/
def b2n (b : Bool) : Nat := if b then 1 else 0

/-- The mask of bits [lo+n-1:lo]. -/
def maskOf (m lo n : Nat) : BitVec m := BitVec.ofNat m ((2 ^ n - 1) * 2 ^ lo)

/-- Replace bits [lo+n-1:lo] of `w` by the low bits of `v`. -/
def setFld {m : Nat} (w : BitVec m) (lo n v : Nat) : BitVec m :=
  (w &&& ~~~(maskOf m lo n)) ||| BitVec.ofNat m ((v % 2 ^ n) * 2 ^ lo)

/-- Set bit `i`. -/
def setBit {m : Nat} (w : BitVec m) (i : Nat) : BitVec m := w ||| BitVec.ofNat m (2 ^ i)

/-- Clear bit `i`. -/
def clrBit {m : Nat} (w : BitVec m) (i : Nat) : BitVec m := w &&& ~~~(BitVec.ofNat m (2 ^ i))

/-- Bit `i` becomes `b`. -/
def putBit {m : Nat} (w : BitVec m) (i : Nat) (b : Bool) : BitVec m := if b then setBit w i else clrBit w i

/-- `n + k`, holding at `max` (a saturating counter). -/
def satAdd (max n k : Nat) : Nat := min max (n + k)

/-- Signed value of the low `n` bits of a number. -/
def sx (n v : Nat) : Int := if v % 2 ^ n < 2 ^ (n - 1) then ((v % 2 ^ n : Nat) : Int) else ((v % 2 ^ n : Nat) : Int) - (2 ^ n : Nat)

/-- `n` bytes of a number, least significant first (R6). -/
def bytesOf (n v : Nat) : List Byte := (List.range n).map (fun i => BitVec.ofNat 8 (v / 2 ^ (8 * i)))

/-- The number whose bytes, least significant first, are `l` (R6). -/
def ofBytes (l : List Byte) : Nat := l.foldr (fun b acc => b.toNat + 256 * acc) 0

/-- `n` 32-bit words of a number, least significant first (R6). -/
def wordsOf (n v : Nat) : List Word := (List.range n).map (fun i => BitVec.ofNat 32 (v / 2 ^ (32 * i)))

/-- The number whose 32-bit words, least significant first, are `l`. -/
def ofWords (l : List Word) : Nat := l.foldr (fun b acc => b.toNat + 2 ^ 32 * acc) 0

/-- Replace element `i` of a list. -/
def lset {α : Type} : List α → Nat → α → List α
  | [], _, _ => []
  | _ :: t, 0, v => v :: t
  | a :: t, n + 1, v => a :: lset t n v

end Sys2Proof.Machine
end

