-- ==== Sys2Proof/Machine/State.lean ====
section
/-!
DEFINITION. The machine's state as plain data: one record per unit of the part, and the state right after reset.
Instances that the part has many of (tiles, queues, channels ...) are kept in sparse tables keyed by instance number;
what a table does not list holds the record of its default, which is the instance's reset value.
-/
namespace Sys2Proof.Machine

/-- Why a command stops with a fault. The spec gives every command of the table an effect or none at all, so no meaning
raises one; the type is closed. -/
inductive Fault where
  /-- Raised by nobody: kept so that the type is inhabited. Safe. -/
  | never
deriving DecidableEq, Repr

/-- Why a command is refused. -/
inductive Refusal where
  /-- The command has no meaning in the model yet (raised by an arm of `exec` only). Safe: nothing is claimed of it. -/
  | notModelled (mnemonic : String)
deriving DecidableEq, Repr

/-- The latest access of the register window that the part answered: its device status and read data (R33). -/
structure Ans where
  status : Status := .ok
  data   : DWord := 0
deriving DecidableEq, Repr

/-! ### Fabric tiles and regions (chapters 3 to 5) -/

/-- An output register OA or OB with its full bit (R40). `full0`: it was full at the start of the fabric cycle;
`new`: it was loaded in this cycle and is presented from the next one (R46). -/
structure OutReg where
  val   : Option Word := none
  full0 : Bool := false
  new   : Bool := false
deriving DecidableEq, Repr

/-- The elastic buffer of an incoming channel, receiving tap or outbound lane with its wire (R77): `buf` is the visible
word, `full0` says the buffer was full at the start of the cycle (then the wire is not ready, R75), `got` that a word
transferred in this cycle. -/
structure EBuf where
  buf   : Option Word := none
  full0 : Bool := false
  got   : Bool := false
deriving DecidableEq, Repr

/-- A furrow register (R83): at most two words, oldest first; `n0` words stood at the start of the cycle. -/
structure FReg where
  words : List Word := []
  n0    : Nat := 0
  got   : Bool := false
  out   : Bool := false
deriving DecidableEq, Repr

/-- A latency-2 result on its way through the second stage (R47). -/
structure Stage2 where
  ctx  : Nat
  acc  : DWord
  res  : Word
  dreg : Nat
  doa  : Bool
  dob  : Bool
  dtm  : Bool
  addr : Nat
  mode : Nat
  len  : Nat
  base : Nat
  fw   : Bool
  new  : Bool
deriving DecidableEq, Repr

/-- The state of one tile (R40), the wires that end in it (R77, R83) and what its fabric cycle has seen so far. -/
structure Tile where
  /-- pr r of context c at key 8c + r. -/
  pr : Tbl Word := []
  /-- sh0 to sh7. -/
  sh : Tbl Word := []
  /-- ACC per context. -/
  acc : Tbl DWord := []
  /-- Flags z, n, c, v, t in bits 0 to 4, per context. -/
  flags : Tbl (BitVec 5) := []
  oa : OutReg := {}
  ob : OutReg := {}
  /-- The second-stage register. -/
  stage2 : List Stage2 := []
  /-- Macrocell flip-flops q0 to q7. -/
  q : BitVec 8 := 0
  /-- Tile memory, 1,024 words. -/
  mem : Tbl Word := []
  ptr : Nat := 0
  head : Nat := 0
  tail : Nat := 0
  count : Nat := 0
  /-- The FU fired in the previous cycle. -/
  fired : Bool := false
  /-- The FU has fired in this cycle. -/
  firedNow : Bool := false
  /-- It has fired an operation of latency 1, which the fired bit of the next cycle shows (R46). -/
  firedOne : Bool := false
  /-- The active context of an override tile that does not stand in the sequencer's context. -/
  octx : Option Nat := none
  /-- The tile entered its context alone at the last edge (first = 1). -/
  entered : Bool := false
  /-- The context that the tile's own switch enters at the region's next edge (R65). -/
  own : Option Nat := none
  /-- The tile did not follow the region's last switch (first = 0 though the region's first cycle runs). -/
  stayed : Bool := false
  /-- Elastic buffers: incoming channels N0 to W1 at 0 to 7, receiving taps 0 to 3 at 8 to 11. -/
  bufs : Tbl EBuf := []
  /-- Furrow registers of taps 0 to 3. -/
  fregs : Tbl FReg := []
  /-- Cycles in which the self-dependence interlock of R47 still holds the FU. -/
  lock : Nat := 0
  /-- Flags of each context, ptr and count as they stood at the start of the cycle (R58). -/
  flags0 : Tbl (BitVec 5) := []
  ptr0 : Nat := 0
  count0 : Nat := 0
deriving DecidableEq, Repr

/-- The states of a region (R96). -/
inductive RState where
  | off | empty | loading | ready | caston | run | bindoff | frozen
deriving DecidableEq, Repr

/-- A channel line in the running cycle (R87): the word it carries and the driving positions. -/
structure ChLine where
  word : Word
  drv  : List Nat
deriving DecidableEq, Repr

/-- An inbound flit in a headgate: its 16 words and its sideband (first, last, tag: R102, R103). -/
structure HgFlit where
  data  : Line
  first : Bool
  last  : Bool
  tag   : Nat
deriving DecidableEq, Repr

/-- A headgate (R112 to R115): inbound flits, outbound lanes' elastic buffers and words collected, formed flits, the
configuration in effect since the last cast-on, and whether the oldest outbound flit waits for its reservation. -/
structure Headgate where
  inb   : List HgFlit := []
  /-- Mid-packet in this cycle, and as the next cycle will have it (R102). -/
  mid   : Bool := false
  midN  : Bool := false
  /-- The flit presented in this cycle (R114), and whether a flit was formed in it. -/
  shown : Option HgFlit := none
  formed : Bool := false
  /-- A tag request competes in this cycle (R103). -/
  req   : Bool := false
  lanes : Tbl EBuf := []
  outb  : List Line := []
  cfg   : Word := 0
  /-- The oldest formed flit's reservation is with the network. -/
  sent  : Bool := false
  /-- That reservation was refused DROWSE and is sent again after 64 OCN cycles (R508). -/
  again : Bool := false
deriving DecidableEq, Repr

/-- A stall (R105): the latched target and, where only an override tile's switch stalls, that tile's local index. -/
structure StallSt where
  target : Nat
  tile   : Option Nat
deriving DecidableEq, Repr

/-- A region as it stood at the start of the running fabric cycle, which stays when the cycle's edge stalls, holds or freezes
it (R105): tiles, the outbound lanes of each headgate, FOUT latches by pin, and the words that its sluice cells have passed to
its tiles in the cycle. -/
structure CycleMark where
  tiles : Tbl Tile := []
  lanes : Tbl (Tbl EBuf) := []
  latch : List (Nat × Bool) := []
  took  : List (Nat × Word) := []
deriving DecidableEq, Repr

/-- The sending side of a crossing (R75, R106): words in the buffer at the start of the sending region's cycle, and whether a
word was sent in the cycle. -/
structure XCell where
  fill0 : Nat := 0
  sent  : Bool := false
deriving DecidableEq, Repr

/-- An operating point (R116). -/
structure OpPoint where
  vsel : Nat := 0
  pll  : Bool := false
  pwr  : Bool := false
  divi : Nat := 0
  divf : Nat := 0
deriving DecidableEq, Repr

/-- A region (R96 to R120): state, sequencer, headgates, lines, counters, operating point. -/
structure RegionSt where
  st      : RState := .off
  stage   : Nat := 0
  sel     : Nat := 0
  loaded  : BitVec 8 := 0
  loading : BitVec 8 := 0
  /-- The one-entry latches of the register and signal requests (R99). -/
  regReq  : Option Nat := none
  sigReq  : Option Nat := none
  stall   : Option StallSt := none
  stallCyc : Nat := 0
  /-- FRGn_CYCLE (R110). -/
  cyc     : DWord := 0
  /-- The first cycle of the selected context. -/
  first   : Bool := false
  /-- Channel lines driven in this cycle, line code c at position p at key 16c + p. -/
  lines   : Tbl ChLine := []
  hg      : Tbl Headgate := []
  xdrop   : Nat := 0
  hgdrop  : Nat := 0
  /-- Bind-off has parked the sluice cells (step 2 of R111). -/
  parked  : Bool := false
  /-- A pwr = 0 write waits for the region (R117). -/
  offReq  : Bool := false
  op      : OpPoint := {}
  ref     : Nat := 0
  cost    : Nat := 0
  /-- The cost that a load in progress presents to the PMU (R137). -/
  pcost   : Nat := 0
  budget  : Nat := 0
  /-- The region is held after an uncorrectable upset (R154). -/
  held    : Bool := false
  heldLatch : Bool := false
  mark    : CycleMark := {}
  /-- The region took part in the last temperature sample (R119). -/
  sampled : Bool := false
deriving DecidableEq, Repr

/-- The fabric: 24 regions of 256 tiles with their configuration frames and the crossing buffers between regions. -/
structure Fab where
  rgn    : Tbl RegionSt := []
  tiles  : Tbl Tile := []
  /-- Frame words: tile t = 256·region + local, context c, word w at key ((8t + c)·32 + w). -/
  frames : Tbl Word := []
  /-- Check cells of a frame at key 8t + c: four 10-bit SEC-DED codes then the CRC-16 (R147, R148), held as the difference
  from those of the frame's stored words. -/
  checks : Tbl (BitVec 56) := []
  /-- Crossing buffers (R106): incoming channel n of tile t at key 8t + n, oldest first, at most 8 words. -/
  xbuf   : Tbl (List Word) := []
  /-- Sending cells, keyed as the buffers they feed. -/
  xcell  : Tbl XCell := []
  /-- Changes the PMU has accepted and not completed, oldest first (R118), and whether the oldest is being carried out. -/
  opq    : List (Nat × OpPoint) := []
  opRun  : Bool := false
deriving DecidableEq, Repr

/-! ### Configuration loader (chapter 6) -/

/-- What the whole-skein analysis found (R136): result code, frame word or item of R90, and the frame (context, tile). -/
structure Finding where
  code  : Nat
  sub   : Nat
  frame : Option (Nat × Nat) := none
deriving DecidableEq, Repr

/-- The loader of the FCC (R121 to R146). -/
structure Fcc where
  /-- 0 IDLE, 1 STAGING, 2 VERIFY, 3 APPLY. -/
  lstate : Nat := 0
  /-- The source is the SPI port. -/
  spi    : Bool := false
  /-- The staging area of this load (R133). -/
  base   : Nat := 0
  nbank  : Nat := 0
  /-- Slots of 8 bytes filled at or above h, by position / 8, and h (R131). -/
  filled : Tbl Bool := []
  h      : Nat := 0
  /-- Parts judged so far (header, records, trailer header) and the position of the next one (R134). -/
  part   : Nat := 0
  pos    : Nat := 0
  /-- The trailer header has been judged: the total length stands. -/
  fixed  : Bool := false
  /-- Order key of the last frame record, and order key and end word of the last tile-memory record (R126). -/
  lastF  : Option Nat := none
  lastM  : Option (Nat × Nat) := none
  /-- Results of VERIFY: authentication, and the analysis (R135, R136). -/
  auth   : Option Bool := none
  ana    : Option (Option Finding) := none
  /-- Target regions still to be applied in this load, ascending, and the one being written (R139). -/
  todo   : List Nat := []
  cur    : Option Nat := none
  /-- A reset load has reached step 2 of R139: it binds off every target that runs. -/
  binds  : Bool := false
  /-- Regions whose bulk clear runs (R141). -/
  bulk   : List Nat := []
  /-- A session is open, its key, and whether FCC_TAG holds a tag (R143, R144). -/
  sess   : Bool := false
  ks     : BitVec 256 := 0
  tagval : Bool := false
  /-- The most recent load since reset ended with OK and a signature (R143). -/
  sigOk  : Bool := false
  /-- secver of the last skein loaded with OK (R424). -/
  okSvn  : Option Nat := none
deriving DecidableEq, Repr

/-! ### Fabric integrity and capture (chapter 7) -/

/-- An entry of the uncorrectable queue (R153). -/
structure UcEnt where
  frame : Nat
  qmask : Nat
  crc   : Bool
  pass  : Word
deriving DecidableEq, Repr

/-- A probe pin (R167, R168): its level since the last pad-clock edge, none while it is high-impedance, and whether its signal has been
asserted since then. -/
structure Prb where
  level : Option Bool := none
  seen  : Bool := false
deriving DecidableEq, Repr

/-- The scrubber (R150 to R159) and the capture engine (R160 to R164). -/
structure Integ where
  /-- Slots skipped so far in this pass, and whether it has raised a self-fault. -/
  skips : Nat := 0
  fault : Bool := false
  /-- The canary row: its 1,024 payload cells, and its check cells as the difference from those of its payload. -/
  canary : Nat := 0
  canChk : BitVec 56 := 0
  /-- The uncorrectable queue, oldest first, at most 16 entries. -/
  ucq   : List UcEnt := []
  /-- The copy that the latest vote of voted register 0, 1 or 2 rewrote, + 1 (R158). -/
  tmr   : Tbl Nat := []
  /-- The armed capture: named regions, anchor, match cycle (mode 1), tile memory, base bank. -/
  capRgn   : BitVec 24 := 0
  capAnchor : Nat := 0
  capMatch : Option DWord := none
  capTm    : Bool := false
  capBase  : Nat := 0
  /-- What each region's section records of its freeze: words at 0x04 to 0x20 of the section (R165). -/
  capSnap  : Tbl (List Word) := []
  /-- The probe pins PRB0 to PRB15 (R167, R168). -/
  prb      : Tbl Prb := []
deriving DecidableEq, Repr

/-! ### Stream queues (chapter 8) -/

/-- A packet of a queue: its committed words not yet read, each with its bank (true is B), and what its length word says.
-/
structure QPkt where
  words : List (Line × Bool) := []
  len   : Nat := 0
  tag   : Nat := 0
  flags : Nat := 0
  ovf   : Bool := false
  src   : Ini := 0
  /-- Words that have left the queue. -/
  nread : Nat := 0
  /-- Marked by a flush (R185). -/
  cut   : Bool := false
deriving DecidableEq, Repr

/-- What a write flit still has the queue do (R172): open with a tag, the bytes of an item, close with flags; each by its producer. -/
inductive QAct where
  | opn (src : Ini) (tag : Nat)
  | item (src : Ini) (bs : List Byte)
  | close (src : Ini) (flags : Nat)
deriving DecidableEq, Repr

/-- A stream queue (R170 to R191). -/
structure QueueSt where
  /-- Complete packets, oldest first. -/
  pkts    : List QPkt := []
  /-- Closed packets whose length slot is not yet written, oldest first (R176). -/
  closing : List QPkt := []
  /-- The open packet and its packing buffer (R174, R175). -/
  opn     : Option QPkt := none
  pack    : List Byte := []
  /-- Counted framing: bytes still to come, none while the length word itself is still coming (R172). -/
  want    : Option Nat := none
  /-- Producers whose items are discarded up to their close, after a cut at the size limit (R173). -/
  skip    : List Ini := []
  /-- What the flit at the write port still has to do: one read word is committed in a cycle (R175). -/
  todo    : List QAct := []
  /-- Fill bank: false A, true B. -/
  fb      : Bool := false
  flushing : Bool := false
  pace    : Bool := false
  /-- Words covered by push reservations outstanding, and by refused ones that wait to be sent again (R179). -/
  resv    : Nat := 0
  retry   : Nat := 0
deriving DecidableEq, Repr

/-! ### Media channels (chapter 9) -/

/-- What a channel drives on its flash bus (R203): the chip enable of a target, a command cycle, address cycles, SET FEATURES with its
address and four parameter bytes, data, or the strobes of duty-cycle training (R196). -/
inductive FlashCyc where
  | sel (ce : Nat)
  | duty
  | cmd (b : Byte)
  | addr (l : List Byte)
  | feat (a : Byte) (p : List Byte)
  | data (l : List Byte)
deriving DecidableEq, Repr

/-- Where a running descriptor stands: at an instruction, waiting for a free torn-log entry, for its acknowledgement, in a
WAIT or POLL, in a DIN or DOUT that waits for its queue, at MGD, or ended with a status whose record is still to be
written. -/
inductive MPhase where
  | ready | entry | ack | wait | poll | din | dout | mgd
  | ended (st : Nat)
deriving DecidableEq, Repr

/-- A descriptor of the pool (R198) and, once started, its own program position (R199). -/
structure MedDesc where
  words   : List Word
  patrol  : Bool := false
  started : Bool := false
  /-- Program page latched at the start: false A, true B. -/
  pg      : Bool := false
  pc      : Nat := 0
  plane   : Nat := 0
  loop    : Option Nat := none
  /-- The latched key: key 1 then key 2 (R210). -/
  key     : Option (BitVec 512) := none
  phase   : MPhase := .ready
  /-- The torn-log entry of its commit, while it is ISSUED; the command cycle has been driven. -/
  entry   : Option Nat := none
  driven  : Bool := false
  abort   : Bool := false
  /-- Array busy time, last status byte and ones counts of its completion record (R200). -/
  us      : Nat := 0
  st      : Byte := 0
  ones    : Tbl Nat := []
  /-- Flits of a DIN still to be written to the queue; packets and the partly taken one of a DOUT; the page at MGD. -/
  flits   : List (BitVec 16 × Line) := []
  pkts    : List (List Byte) := []
  part    : List Byte := []
  page    : List Byte := []
deriving DecidableEq, Repr

/-- What MEDn_LUNSTAT and MEDn_LUNTIME report of a LUN. -/
structure LunSt where
  busy    : Bool := false
  status  : Byte := 0
  ops     : BitVec 16 := 0
  last    : Nat := 0
  longest : Nat := 0
  /-- The read offsets last applied (R211). -/
  applied : Option (BitVec 56) := none
deriving DecidableEq, Repr

/-- A media channel (R192 to R214). -/
structure MedSt where
  /-- The descriptor pool, in order of submission, at most 64. -/
  pool  : List MedDesc := []
  /-- The LUN that holds the bus, and the one granted last. -/
  bus   : Option Nat := none
  last  : Nat := 31
  training : Bool := false
  /-- Targets that failed training, and targets whose retrain is due. -/
  untrained : BitVec 8 := 0
  retrain   : BitVec 8 := 0
  /-- MEDn_TRNSTAT and the die temperature of the last training, per target. -/
  trn   : Tbl Word := []
  ttemp : Tbl (Option Int) := []
  /-- The read-level table: 7 offsets per group. -/
  rl    : Tbl (BitVec 56) := []
  luns  : Tbl LunSt := []
  /-- The tier, plus 1, at which a block was last erased, by 2^32 · LUN + block (R226). -/
  tiers : Tbl Nat := []
  /-- WP_N is driven low in the present assertion of the inhibit. -/
  wpLow : Bool := false
  /-- What the latest instruction, training or boot step drove on the bus. -/
  cyc   : List FlashCyc := []
deriving DecidableEq, Repr

/-- MED common (R202, R210, R211). -/
structure Medc where
  /-- The active program page: false A, true B. -/
  active : Bool := false
  /-- Program store, entry i of page A at key i, of page B at 1,024 + i. -/
  prog   : Tbl DWord := []
  /-- A load in progress: page, first entry, count, source. -/
  load   : Option (Bool × Nat × Nat × Nat) := none
  /-- Key slots, key 1 then key 2. -/
  keys   : Tbl (Option (BitVec 512)) := []
  /-- The staged slot and key words 0 to 14, which nothing reads back (R210). -/
  slot   : Nat := 0
  stage  : Tbl Word := []
  /-- The retry table: 7 deltas per step. -/
  retry  : Tbl (BitVec 56) := []
deriving DecidableEq, Repr

/-- MGD (R216, R220): pages waiting in order of request (channel, LUN), and the deferral of a warm reset: whether the channels
have stopped for it and whether it still runs. -/
structure Mgd where
  queue : List (Nat × Nat) := []
  stop  : Bool := false
  defer : Bool := false
deriving DecidableEq, Repr

/-! ### Codec personalities (chapter 10, R504, R505) -/

/-- A predicate of FILT (R504). -/
structure Pred where
  off   : Nat
  width : Nat
  cmp   : Nat
  const : Nat
deriving DecidableEq, Repr

/-- What a personality keeps in its region's tile memory, and the packets it has formed that a queue has not taken yet. -/
structure Codec where
  /-- SETMODE: a status packet for every codeword; the iteration cap, 0 for the default. -/
  all   : Bool := false
  maxit : Nat := 0
  /-- cseq per source channel. -/
  cseq  : Tbl Nat := []
  preds : List Pred := []
  ncw   : Nat := 0
  count : Nat := 0
  /-- Rows of the open batch and beyond, batches and rows written, and whether the open batch closes as final. -/
  rows  : List (List Byte) := []
  batch : Nat := 0
  total : Nat := 0
  final : Bool := false
  /-- The codeword index that ENC emits next, and packets taken ahead of it: index, and tier and content, none for a discarded one
  (R236). -/
  encNext : Nat := 0
  encHeld : List (Nat × Option (Nat × List Byte)) := []
  /-- Packets formed, oldest first: the queue, the headgate, and the bytes still to be written. -/
  outs  : List (Nat × Nat × List Byte) := []
deriving DecidableEq, Repr

/-! ### On-chip network (chapter 11) -/

/-- The operations of a reservation (R247). -/
inductive OcnOp where
  | read | write | qread | qwrite | qpush | signal
deriving DecidableEq, Repr

/-- Where a transaction stands (R254): held back by its initiator NI, its RSV flit in the mesh, pending at the target,
granted, its data arrived, delivered to the block, answered with the answer in the mesh. -/
inductive TxnStage where
  | held | launched | pending | granted | data | atBlock | answered
deriving DecidableEq, Repr

/-- Which unit of the part launched the transaction and takes its answer. -/
inductive Launcher where
  | outside
  | headgate (r k : Nat)
  | queue (q : Nat)
  | dma (n : Nat)
  | hts
deriving DecidableEq, Repr

/-- A transaction of the network. -/
structure Txn where
  rsv    : Rsv
  op     : OcnOp
  stage  : TxnStage
  who    : Launcher
  /-- Data flits of a write, or of the answer to a read, with their type-specific fields (R248). -/
  data   : List Line := []
  tsf    : List (BitVec 16) := []
  status : Status := .ok
  /-- The answer is a REFUSE. -/
  refused : Bool := false
  /-- The answer's GRANT has reached the initiator. -/
  grantSeen : Bool := false
  poison : Bool := false
  /-- Flits that the block has served. -/
  served : Nat := 0
  /-- The route entry of the initiator's flits, and the target's entry and epoch from its first answer on (R254). -/
  route  : DWord := 0
  ansRoute : Option (DWord × Bool) := none
  /-- The handle that the GRANT carries (R248). -/
  handle : Byte := 0
  /-- The winner of the collision that a COLLIDE names (R275). -/
  win    : Ini := 0
  /-- Flits that the initiator NI and the target NI have handed to their routers. -/
  sentI  : Nat := 0
  sentT  : Nat := 0
deriving DecidableEq, Repr

/-- The states of a port (R263). -/
inductive PortState where
  | opened | closing | draining | down
deriving DecidableEq, Repr

/-- A network interface (R243 to R267). -/
structure NiSt where
  port  : PortState := .opened
  epoch : Bool := false
  /-- A flip waits for the NI's reservations to end (R265). -/
  flip  : Bool := false
  /-- The wake request of this closure has been raised (R264). -/
  woke  : Bool := false
  /-- Statistics (R267): 0 bytes, 1 transactions, 2 to 17 the latency bins. -/
  stats : Tbl DWord := []
  /-- The transactions that the part's units have ended within their own commands: for each the number of the free value that is its
  latency (R267). -/
  lats  : List Nat := []
deriving DecidableEq, Repr

/-- A router (R257 to R265). -/
structure RouterSt where
  /-- Flits at input i on virtual channel v (0 RSV, 1 REQ, 2 RSP) at key 3i + v, oldest first. -/
  bufs   : Tbl (List Flit) := []
  /-- The wheel: owner + 8·valid of slot s of output o at key 64·o + s; the staged wheel likewise, and the one that a pending
  commit has checked (R259). -/
  wheel  : Tbl Nat := []
  staged : Tbl Nat := []
  commit : Tbl Nat := []
  wpend  : Bool := false
  wref   : Nat := 0
  drained : Bool := false
  /-- The input and channel that output o served last, 3i + v, for the round-robin. -/
  last   : Tbl Nat := []
deriving DecidableEq, Repr

/-- The network. -/
structure Ocn where
  txns    : List Txn := []
  nis     : Tbl NiSt := []
  routers : Tbl RouterSt := []
  /-- Route tables: entry j of bank e of NI i at key 512·i + 256·e + j. -/
  routes  : Tbl DWord := []
deriving DecidableEq, Repr

/-! ### Reservoir and DRAM (chapter 12) -/

/-- The reservoir (R272 to R283): bank owners, the full and the secure wipe in progress, a secure wipe asked for, and the
BHAND writes whose DONE has not left, oldest first, with the bank and code of an accepted one (R279). -/
structure Rsvr where
  /-- Owner code of banks 0 to 239; unlisted is unowned (R277). -/
  own   : Tbl Nat := []
  wipe  : Bool := false
  swipe : Bool := false
  swReq : Bool := false
  hand  : List (Option (Nat × Nat)) := []
  /-- The media keys that SEC keeps in the secure banks, by slot; where in them is not stated (R425). -/
  keys  : Tbl (Option (BitVec 512)) := []
deriving DecidableEq, Repr

/-- A back-invalidate exchange (R442, R443): the line, the device write that waits for it, the line whose entry into a full filter
set waits for it, and the unit of the part whose own write waits for it, with how the exchange has ended: answered, or timed out. -/
structure BiEx where
  line  : Nat
  key   : Option TxnKey
  enter : Option Nat
  unit  : Option Ini := none
  ended : Option Bool := none
deriving DecidableEq, Repr

/-- The DRAM controller (R284 to R291): channels trained, zero-fill done, the pre-exposure clear, the lines that the
host-line filter holds, oldest first, and the exchanges in progress. -/
structure Drc where
  trained : BitVec 8 := 0
  /-- The number of the free value that is the first channel's training result (R284, R293). -/
  trn     : Nat := 0
  init    : Bool := false
  clr     : Bool := false
  ready   : Bool := false
  /-- The devices are in self-refresh (R376, R386). -/
  selfref : Bool := false
  /-- Lines whose check word shows an error, by line number (R286). -/
  marks   : Tbl DramErr := []
  filter  : List Nat := []
  bi      : List BiEx := []
deriving DecidableEq, Repr

/-! ### DMA engine (chapter 13) -/

/-- Channel states (R308). -/
inductive DmaState where
  | idle | run | wait | parked | suspended | halting | error | aborting
deriving DecidableEq, Repr

/-- A MOVE whose bursts are being launched (R298 to R300): its words, the transform and the loop offsets it runs with, stream
bytes and bursts launched, and for a packet source the packets not yet begun and the words left of the present one, none
until its length word has been read; `rd` counts the words asked of a queue source. -/
structure DmaMove where
  w0   : DWord
  w1   : DWord
  w2   : DWord
  xf   : DWord := 0
  soff : Int := 0
  doff : Int := 0
  pos  : Nat := 0
  rd   : Nat := 0
  k    : Nat := 0
  pkts : Nat := 0
  left : Option Nat := some 0
deriving DecidableEq, Repr

/-- Where a burst stands (R294, R295): its read launched, its data in the slot, its write issued. -/
inductive BPhase where
  | reading | full | writing
deriving DecidableEq, Repr

/-- A burst in flight: its slot, its MOVE, its index and stream position in it, its bytes, and whether it is the MOVE's first
or last; `head` marks the one-word burst that reads a packet's length word; `drowse` that it waits to be retried; `runs` the
physical addresses and lengths that its read or its write goes to; `words` the read words that it still awaits from a queue. -/
structure DmaBurst where
  slot  : Nat
  mv    : DmaMove
  idx   : Nat
  pos   : Nat
  len   : Nat
  first : Bool
  last  : Bool
  head  : Bool := false
  phase : BPhase := .reading
  drowse : Bool := false
  data  : List Byte := []
  runs  : List (Nat × Nat) := []
  words : Nat := 0
deriving DecidableEq, Repr

/-- An open loop (R301): start of its body, passes left after this one, strides. -/
structure DmaLoop where
  body : Nat
  left : Nat
  ss   : Int
  ds   : Int
deriving DecidableEq, Repr

/-- A DMA channel (R294 to R320). -/
structure DmaSt where
  st    : DmaState := .idle
  pc    : Nat := 0
  tail  : Nat := 0
  err   : Nat := 0
  hcode : Nat := 0
  /-- The error that stops the channel once every answer outstanding has come (R316). -/
  fail  : Option Nat := none
  /-- A go that no WAIT has used; a latched doorbell (R309, R310). -/
  go    : Bool := false
  latch : Bool := false
  /-- Program lines held, and the fetch outstanding with what memory answered it (R296). -/
  lines : List (Nat × List Byte) := []
  fetch : Option (Nat × Status × List Byte) := none
  mv    : Option DmaMove := none
  /-- Bursts in flight, in order of launch. -/
  bursts : List DmaBurst := []
  loop  : Option DmaLoop := none
  soff  : Int := 0
  doff  : Int := 0
  /-- The XFORM word in effect, 0 for class 0. -/
  xf    : DWord := 0
  /-- The WAIT, SIGNAL or HALT word that is being waited for. -/
  wait  : Option DWord := none
  /-- Flushes outstanding by HIF NI, and the last write to each HIF NI since the last drain (R307). -/
  flush : List Nat := []
  hostW : Tbl (Option Nat) := []
  /-- DMAn_FAULT, DMAn_FADDR, and the state that a suspension interrupted (R314, R315). -/
  fault : Word := 0
  faddr : Nat := 0
  before : DmaState := .run
  /-- The latest pace sample of each queue that paces a MOVE or WAIT in progress (R312). -/
  pace  : Tbl (Option Bool) := []
  /-- Bytes that each queue source has given and no burst has taken yet, where a burst's end cuts a word (R295). -/
  carry : Tbl (List Byte) := []
  /-- Counters 0 to 5 of DMA_STSEL. -/
  stats : Tbl Nat := []
deriving DecidableEq, Repr

/-! ### Rider cores and the address translation unit (chapter 14) -/

/-- The states of a context bank (R332). -/
inductive BankState where
  | empty | held | active | saving | loading
deriving DecidableEq, Repr

/-- The four Xkctx instructions (R335). -/
inductive XkOp where
  | svU | svL | ldU | ldL
deriving DecidableEq, Repr

/-- A context bank (R330). -/
structure Bank where
  st   : BankState := .empty
  thr  : Nat := 0
  /-- Slots 0 to 29 of the lower half but slot 16 (R334): x1 to x15, pc, and the banked CSRs. -/
  low  : Tbl DWord := []
  /-- Slots 0 to 111 of the upper half: ring frames 0 to 5 and the trap frame. -/
  up   : Tbl DWord := []
  priv : BitVec 2 := 3
  /-- The banked fields of mstatus at their positions. -/
  mst  : DWord := 0
  nodel : Nat := 0
  nodeu : Nat := 0
  /-- The Xkctx instruction that a switch interrupted, while kfstatus.svc is 1. -/
  cont : Option XkOp := none
deriving DecidableEq, Repr

/-- A request to a context engine (R336, R337): save both halves of a bank (the park cause where a park follows, and whether
one half is done), or load a thread into it (whether the bank is then dispatched to an idle core, and, once the lower half is
loaded, the frames still to come, 6 the trap frame). -/
structure EngJob where
  bank : Nat
  thr  : Nat
  load : Bool
  act  : Bool := false
  park : Option Nat := none
  half : Bool := false
  frames : Option (List Nat) := none
deriving DecidableEq, Repr

/-- A translation held by a TLB or the IOTLB: context or ASID (none for a global page), virtual page number, level (0 for
4 KiB), and the page-table entry it was made from. -/
structure TlbEnt where
  ctx : Option Nat
  vpn : Nat
  level : Nat
  pte : Nat
deriving DecidableEq, Repr

/-- A rider core (R322 to R351). -/
structure CoreSt where
  banks : Tbl Bank := []
  /-- The CSRs that are per core, by number (R330). -/
  csr   : Tbl DWord := []
  /-- f0 to f31 at 0 to 31, fcsr at 32; the owner thread; the unit is available to the active bank (R339). -/
  fp    : Tbl DWord := []
  fpOwn : Option Nat := none
  fpOk  : Bool := false
  eng   : List EngJob := []
  tlb   : List TlbEnt := []
  /-- Counters of CCXc_STSEL. -/
  stats : Tbl Nat := []
deriving DecidableEq, Repr

/-- The ATU (R345, R346): the IOTLB and ATU_INVSTAT.busy. -/
structure Atu where
  tlb  : List TlbEnt := []
  busy : Bool := false
deriving DecidableEq, Repr

/-! ### Hardware task scheduler (chapter 15) -/

/-- The states of a thread (R353). -/
inductive ThrState where
  | free | waiting | ready | running | parked | cancelled
deriving DecidableEq, Repr

/-- A thread descriptor (R355). -/
structure Thr where
  st   : ThrState := .free
  pri  : Nat := 0
  aff  : BitVec 4 := 0
  res  : Bool := false
  bank : Nat := 0
  core : Nat := 0
  esat : Bool := false
  pcause : Nat := 0
  started : Bool := false
  cnt  : Nat := 0
  rld  : Nat := 0
  erl  : Nat := 0
  nodel : DWord := 0
  nodeu : DWord := 0
  xev  : Nat := 0
  xen  : Bool := false
  /-- When the thread began to wait, as a rank, and the event that released it last. -/
  since : Nat := 0
  rel  : Option Nat := none
  /-- Its bank was loaded from its nodes since it last ran. -/
  loaded : Bool := false
deriving DecidableEq, Repr

/-- An event occurrence; `own` marks one of the HTS's own page events (R359). -/
structure Occ where
  ev  : Nat
  own : Bool := false
deriving DecidableEq, Repr

/-- The occurrence in progress: its event, the pool index of its next target and the targets left. -/
structure CurOcc where
  ev   : Nat
  idx  : Nat
  left : Nat
deriving DecidableEq, Repr

/-- A dispatch on its way to a core over the scheduler link (R365). -/
structure LinkCmd where
  bank : Nat
  thr  : Nat
deriving DecidableEq, Repr

/-- A park in progress (R366): its thread, cause and core, and whether its bank is saved. -/
structure Parking where
  thr   : Nat
  cause : Nat
  core  : Nat
  saved : Bool
deriving DecidableEq, Repr

/-- The scheduler (R353 to R373). -/
structure Hts where
  thr   : Tbl Thr := []
  /-- The ready queue of each priority, head first. -/
  rq    : Tbl (List Nat) := []
  /-- The event ports by number of the page that raises, 0x10000 + c for the HEVT port of core c; each holds at most 8
  occurrences, oldest first (R357, R358). -/
  ports : Tbl (List Occ) := []
  /-- The port that the queue served last. -/
  rr    : Nat := 0
  /-- The event queue, oldest first, at most 1,024 occurrences. -/
  queue : List Occ := []
  cur   : Option CurOcc := none
  heads : Tbl Word := []
  pool  : Tbl Word := []
  /-- The command on each core's link. -/
  link  : Tbl (Option LinkCmd) := []
  parking : List Parking := []
  /-- The park log, oldest first, at most 16: thread, cause, core. -/
  plog  : List (Nat × Nat × Nat) := []
  /-- Trace records that wait for their queue, oldest first, at most 32 (R372). -/
  trace : List (BitVec 128) := []
  age   : Nat := 0
  stats : Tbl Nat := []
deriving DecidableEq, Repr

/-! ### Power management and the AON domain (chapter 16, R215) -/

/-- The states of a torn-log entry (R215). -/
inductive TlState where
  | free | issued | void | pollOk | pollFail | timeout
deriving DecidableEq, Repr

/-- A torn-log entry (R215). -/
structure TornEnt where
  state : TlState := .free
  live  : Bool := false
  erase : Bool := false
  chan  : Nat := 0
  lun   : Nat := 0
  mgd   : Bool := false
  seq   : BitVec 16 := 0
  row   : Word := 0
  sec   : Word := 0
  frac  : Nat := 0
  st    : Byte := 0
  npl   : Nat := 0
deriving DecidableEq, Repr

/-- The AON domain (R374 to R379, R393, R467): AON_TIME with a tload that waits for the tick, the torn-operation log with its
sequence count, whether VDD_AON has been lost since porclr, the crystal's state and whether it has failed, the comparators'
outputs (0 to 5) and the alarm (6) as they wake the part from HOLD or DROWSE, cmp0's first rise still to come, a mesh opening
not yet acted on, PWREN_MAIN, and PLY's role and generation. -/
structure Aon where
  time : DWord := 0
  torn : Tbl TornEnt := []
  seq  : BitVec 16 := 0
  tload : Bool := false
  por   : Bool := true
  xtal  : Bool := false
  xfail : Bool := false
  wake  : BitVec 7 := 0
  rise0 : Bool := false
  mesh  : Bool := false
  pwren : Bool := true
  role  : Nat := 0
  gen   : Word := 0
deriving DecidableEq, Repr

/-- The modes (R21). -/
inductive Mode where
  | off | hold | boot | run | drowse | drain | solo | service
deriving DecidableEq, Repr

/-- The PMU (R374 to R407). -/
structure Pmu where
  mode  : Mode := .boot
  /-- The transition in progress, and the mode that DROWSE returns to. -/
  trans : Option Mode := none
  ret   : Option Mode := none
  /-- The step of a DRAIN in progress, 0 for none; the journal pages it writes; pages that ended OK; cmp1 cut it short. -/
  drain : Nat := 0
  jlen  : Nat := 0
  jok   : Nat := 0
  holdup : Bool := false
  /-- A DRAIN request of the levee that has not been acted on. -/
  drainReq : Bool := false
  /-- A cold and a warm reset requested, with their causes; the warm reset's deferral has begun; cause of the latest reset. -/
  cold  : Option Nat := none
  warm  : Option Nat := none
  deferred : Bool := false
  cause : Nat := 2
  /-- Ports and media PHYs that DROWSE closed, the ply PHY, and rider cores whose clock it stopped. -/
  closed : List Nat := []
  gated  : BitVec 32 := 0
  plyGated : Bool := false
  stopped : BitVec 4 := 0
  /-- Throttle levels: regions 0 to 23, the rider cores 24; temperature of the SOC sensor (R390). -/
  levels : Tbl Nat := []
  soc   : Int := 0
  /-- Firmware has been entered; the boot ROM waits in recovery, with its load area (R402, R404). -/
  fwIn  : Bool := false
  recov : Bool := false
  area  : Tbl Byte := []
deriving DecidableEq, Repr

/-! ### Levee and security (chapter 18) -/

/-- An entry of the LVE access log (R409). -/
structure AlogEnt where
  ini  : Ini
  type : Nat
  inst : Nat
  off  : Nat
deriving DecidableEq, Repr

/-- The levee (R408 to R418). -/
structure Lve where
  /-- The access log, oldest first, at most 16 entries. -/
  alog : List AlogEnt := []
  /-- A lockstep mismatch or self-watchdog expiry whose cold reset has not come (R418). -/
  lockstep : Bool := false
  /-- A life-cycle transition is in progress (R418, R421). -/
  lifeCycle : Bool := false
  /-- The first watchdog expiry of each core, with no restart since (R411). -/
  wd1 : BitVec 4 := 0
  /-- The levee image that the ROM has copied into levee SRAM (R408, R410). -/
  sram : List Byte := []
deriving DecidableEq, Repr

/-- A slot of the owner key store (R424). -/
structure KeySlot where
  key      : List Byte := []
  enrolled : Bool := false
  revoked  : Bool := false
deriving DecidableEq, Repr

/-- The security fuses (R419 to R424): state word, burned toggles, owner keys, rollback counters, identity seed (0: blank).
-/
structure Fuses where
  word    : Nat := 0
  toggles : Nat := 0
  keys    : Tbl KeySlot := []
  fwsvn   : Nat := 0
  sksvn   : Nat := 0
  seed    : BitVec 256 := 0
deriving DecidableEq, Repr

/-- What SEC measured of an image (R431): digest, secver and keyidx. -/
structure Meas where
  digest : BitVec 512
  secver : Nat
  keyidx : Nat
deriving DecidableEq, Repr

/-- The SPDM responder (R430): requests of the negotiation answered so far (1 version, 2 capabilities, 3 algorithms), the
session (0 none, 1 in its handshake, 2 established) with its identifier, and the latest response. -/
structure Spdm where
  phase   : Nat := 0
  session : Nat := 0
  sid     : Nat := 0
  resp    : List Byte := []
deriving DecidableEq, Repr

/-- SEC (R419 to R431). -/
structure Sec where
  /-- SEC_NONCE holds a nonce that no command has consumed (R427). -/
  nonce : Bool := false
  /-- A debug token is in force (R428). -/
  dbg   : Bool := false
  /-- Measurements: firmware, levee firmware, the skein chain M (R431). -/
  fw    : Option Meas := none
  lv    : Option Meas := none
  chain : BitVec 512 := 0
  /-- The certificate chain of slot 0 (R430). -/
  cert  : List Byte := []
  spdm  : Spdm := {}
deriving DecidableEq, Repr

/-! ### Host interface (chapter 19) -/

/-- An HDM decoder of PF0 (R440): committed, its size in units of 256 MiB, and Commit Error. -/
structure HdmDec where
  committed : Bool := false
  size      : Nat := 0
  err       : Bool := false
deriving DecidableEq, Repr

/-- The states of the host link (R458). -/
inductive LinkSt where
  | down | l0 | l0p | l11 | l12 | training
deriving DecidableEq, Repr

/-- The NVMe registers of a function (R449, R450). -/
structure NvFn where
  cc   : Word := 0
  csts : Word := 0
  aqa  : Word := 0
  asq  : DWord := 0
  acq  : DWord := 0
deriving DecidableEq, Repr

/-- An outbound request in flight (R438, R439): its tag, requester, HIF NI, requester function, address on the host's side,
kind (0 read, 1 write, 2 flush), length, window mode, IDE stream, the OCN transaction that waits for it, and for a flush that
its zero-length read has completed. -/
structure OutReq where
  tag  : Nat
  ini  : Ini
  ni   : Nat
  fn   : Nat
  addr : Nat
  kind : Nat
  n    : Nat
  mode : Nat
  ide  : Option Nat := none
  key  : Option TxnKey := none
  got  : Bool := false
deriving DecidableEq, Repr

/-- What HIF has sent to the host last on each of its channels: a message for a vector (R436), a BISnpInv (R443), an outbound
request (R438), a RspIHitI (R439), read data with its poison (R441). -/
structure HostOut where
  msi  : Option Nat := none
  bi   : Option Nat := none
  req  : Option OutReq := none
  snp  : Option Nat := none
  drs  : Option (Line × Bool) := none
  /-- The latest peer write completed with UR (R447). -/
  ur   : Bool := false
deriving DecidableEq, Repr

/-- The host interface (R435 to R458). -/
structure Hif where
  hdm : Tbl HdmDec := []
  /-- Host-link training is enabled by the boot ROM; PERST_N is low; link state, rate code and width. -/
  en    : Bool := false
  perst : Bool := false
  link  : LinkSt := .down
  rate  : Nat := 0
  width : Nat := 0
  /-- Host intake is stopped (R386, R400). -/
  closed : Bool := false
  /-- MSI-X: entries that the host has unmasked, functions masked, functions enabled, functions in D3hot; PBA bits. -/
  unmasked : Tbl Bool := []
  fmask : Tbl Bool := []
  msixEn : Tbl Bool := []
  d3    : Tbl Bool := []
  pba   : Tbl Bool := []
  /-- TDI states 0 to 3 (R453), IDE stream keys (R452). -/
  tdi   : Tbl Nat := []
  ide   : Tbl (Option (BitVec 256)) := []
  /-- NVMe registers by function; doorbells at key 256·f + 2·q + (0 tail, 1 head). -/
  nv    : Tbl NvFn := []
  db    : Tbl Nat := []
  lcommit : Bool := false
  /-- Outbound requests in flight, oldest first, and the answer of the latest one. -/
  outq  : List OutReq := []
  out   : HostOut := {}
deriving DecidableEq, Repr

/-! ### Ply link (chapter 20) -/

/-- The link states (R474). -/
inductive PlySt where
  | off | train | hello | replay | sync | down
deriving DecidableEq, Repr

/-- What a HELLO carries (R468). -/
structure Hello where
  die  : Nat
  gen  : Nat
  role : Nat
  rxseq : Nat
  txack : Nat
  txtail : Nat
deriving DecidableEq, Repr

/-- The ply link (R459 to R474). -/
structure Ply where
  st    : PlySt := .off
  present : Bool := false
  gap   : Bool := false
  conflict : Bool := false
  peerdrain : Bool := false
  width : Nat := 0
  txerr : Bool := false
  rxerr : Bool := false
  /-- Frame numbers: of the next frame sent, and expected next; the last 64 frames sent, oldest first; NAKs received in a row. -/
  fseq  : Nat := 0
  rseq  : Nat := 0
  rbuf  : List PlyFrame := []
  naks  : Nat := 0
  /-- What the transmitter sent again at the latest NAK; a HELLO of another die has shut the link. -/
  again : List PlyFrame := []
  shut  : Bool := false
  /-- The record bytes of the frames received so far. -/
  part  : List Byte := []
  /-- Records placed whose writes are not all answered, oldest first. -/
  placed : List Nat := []
  /-- The HELLO exchange: the peer's, whether R468 has been applied, the tail that this part reported, replay's end. -/
  peer  : Option Hello := none
  tail0 : Nat := 0
deriving DecidableEq, Repr

/-! ### Pins (chapter 21) -/

/-- One GP pin: PIO_PINn and PIO_PSRCn as last taken up, whether a switch of its function runs, with the function it leaves
and a write that came during it (R483), and the FOUT latch (R484). -/
structure PinSt where
  pin   : Word := 0
  psrc  : Word := 0
  sw    : Bool := false
  old   : Nat := 0
  stored : Option (Word × Word) := none
  latch : Bool := false
deriving DecidableEq, Repr

/-- The test access port (R487): instruction register (IDCODE in Test-Logic-Reset), boundary-scan register, the word that the
data register shifts out, and the debug module of the rider cores: its registers and the cores that it holds halted. -/
structure Tap where
  ir   : Byte := 0x02
  bsr  : List Bool := []
  out  : Word := 0
  dm   : Tbl Word := []
  halt : BitVec 4 := 0
deriving DecidableEq, Repr

/-- The pins and the test port; the supply of GP banks A to C as sensed (R476: 0 unpowered, 1 1.8 V, 2 3.3 V). -/
structure Pio where
  pins : Tbl PinSt := []
  volt : Tbl Nat := []
  tap  : Tap := {}
deriving DecidableEq, Repr

/-! ### Calibration (chapter 22) -/

/-- What the fuse read of the last cold reset found (R503). -/
structure Cal where
  valid : Bool := true
  bad   : Bool := false
deriving DecidableEq, Repr

/-- What an access of a unit has to wait for: its NI, which launches nothing while an epoch flip is pending (R265) or whose target
cannot take it yet, or the back-invalidate exchange of a line that the unit writes (R443). -/
inductive Hold where
  | net
  | line (l : Nat) (ini : Ini)
deriving DecidableEq, Repr

/-- The machine. -/
structure State where
  /-- Commands waiting, first in first out. -/
  pending : List Instr := []
  /-- Stored registers of the window, keyed by window offset; an unlisted register holds its reset value. -/
  regs : Tbl Word := []
  /-- Reservoir and device DRAM, keyed by plain device physical address; an unlisted byte reads 0 (R282, R287). -/
  mem : Tbl Byte := []
  /-- The latest answered access of the window. -/
  ans : Ans := {}
  /-- The model's own counter for values the spec leaves open. -/
  fresh : Nat := 0
  /-- The model's own: what an access within the present command has to wait for, so that the command does not take place yet; none
  between commands. -/
  hold : Option Hold := none
  fab : Fab := {}
  lve : Lve := {}
  fuses : Fuses := {}
  sec : Sec := {}
  pio : Pio := {}
  ocn : Ocn := {}
  cal : Cal := {}
  sq : Tbl QueueSt := []
  rsvr : Rsvr := {}
  drc : Drc := {}
  fcc : Fcc := {}
  integ : Integ := {}
  med : Tbl MedSt := []
  medc : Medc := {}
  codec : Tbl Codec := []
  dma : Tbl DmaSt := []
  /-- The channel that each NI of the DMA engine has served last (R318). -/
  dmaTurn : Tbl Nat := []
  mgd : Mgd := {}
  aon : Aon := {}
  pmu : Pmu := {}
  hif : Hif := {}
  ply : Ply := {}
  cores : Tbl CoreSt := []
  atu : Atu := {}
  hts : Hts := {}
  /-- DRAM lines held dirty in a rider core's L2 (R342), by line number: the core, and the line as the DRAM behind it holds
  it; `mem` is what every reader sees. -/
  l2 : Tbl (Nat × Line) := []
  /-- The load-reserve reservation of each rider core's running thread: the line it covers. -/
  lr : Tbl (Option Nat) := []
deriving DecidableEq, Repr

/-- Thread 0 after a cold reset: RUNNING on core 0 at priority 63 with aff 0x1 (R373). -/
def bootThread : Thr := { st := .running, pri := 63, aff := 1, res := true, started := true }

/-- The state right after reset: thread 0 is on its way into bank 0 of core 0 (R373), everything else at its default. -/
def State.reset : State :=
  { hts := { thr := [(0, bootThread)], link := [(0, some { bank := 0, thr := 0 })] } }

end Sys2Proof.Machine
end

