-- ==== Sys2Proof/Machine/Operands.lean ====
section
/-!
DEFINITION. Reading the fabric: frames and their fields, tiles and regions, the input ports and operand codes of a tile
(R41, R43, R55), the product-term array and the macrocells (R58 to R64), and the sink sets of a source (R76 to R87).
-/
namespace Sys2Proof.Machine

/-- Region `r`. -/
def State.rgn (s : State) (r : Nat) : RegionSt := tget {} s.fab.rgn r
/-- Tile `t`. -/
def State.tile (s : State) (t : Nat) : Tile := tget {} s.fab.tiles t

/-- Region-local coordinates of a tile (R95). -/
def tileLx (t : Nat) : Nat := t % 16
def tileLy (t : Nat) : Nat := (t % 256) / 16
/-- Device coordinates of a tile (R95). -/
def tileX (t : Nat) : Nat := 16 * ((t / 256) % 6) + tileLx t
def tileY (t : Nat) : Nat := 16 * ((t / 256) / 6) + tileLy t
/-- The tile at device coordinates (R95). -/
def tileAt (x y : Nat) : Nat := 256 * (x / 16 + 6 * (y / 16)) + 16 * (y % 16) + x % 16

/-- Word `w` of the frame of tile `t` for context `c` (R66). -/
def State.frameWord (s : State) (t c w : Nat) : Word := tget 0 s.fab.frames ((8 * t + c) * 32 + w)
/-- The frame payload as one number, frame bit b at bit b (R66). -/
def State.frame (s : State) (t c : Nat) : Nat :=
  ofWords ((List.range 32).map (fun w => s.frameWord t c w))

/-- The active context of tile `t`: the sequencer's, unless an override tile stands elsewhere (R65, R99). -/
def State.ctxOf (s : State) (t : Nat) : Nat := ((s.tile t).octx).getD (s.rgn (t / 256)).sel
/-- The frame of the active context. -/
def State.act (s : State) (t : Nat) : Nat := s.frame t (s.ctxOf t)

/-! Fields of a frame (R67 to R72), by frame bit. -/
def fAct (f : Nat) : Bool := nfld f 0 1 = 1
def fOvr (f : Nat) : Bool := nfld f 1 1 = 1
def fCsSrc (f : Nat) : Bool := nfld f 2 1 = 1
def fCsTgt (f : Nat) : Nat := nfld f 3 3
def fCsReq (f : Nat) : Nat := nfld f 6 4
def fFirePsel (f : Nat) : Nat := nfld f 10 4
def fFireInv (f : Nat) : Bool := nfld f 14 1 = 1
def fHsIa (f : Nat) : Nat := nfld f 16 4
def fHsIb (f : Nat) : Nat := nfld f 20 4
def fHsOa (f : Nat) : Nat := nfld f 24 4
def fHsOb (f : Nat) : Nat := nfld f 28 4
def fOpc (f : Nat) : Nat := nfld f 32 8
def fSrcA (f : Nat) : Nat := nfld f 40 5
def fSrcB (f : Nat) : Nat := nfld f 45 5
def fSrcC (f : Nat) : Nat := nfld f 50 5
def fFw (f : Nat) : Bool := nfld f 55 1 = 1
def fDreg (f : Nat) : Nat := nfld f 56 5
def fDoa (f : Nat) : Bool := nfld f 61 1 = 1
def fDob (f : Nat) : Bool := nfld f 62 1 = 1
def fDtm (f : Nat) : Bool := nfld f 63 1 = 1
def fImm (f : Nat) : Nat := nfld f 64 16
def fIna (f : Nat) : Nat := nfld f 80 5
def fInb (f : Nat) : Nat := nfld f 85 5
def fHi (f : Nat) : Bool := nfld f 90 1 = 1
def fTgate (f : Nat) : Bool := nfld f 91 1 = 1
def fMen (f : Nat) : Bool := nfld f 96 1 = 1
def fMode (f : Nat) : Nat := nfld f 97 2
def fBase (f : Nat) : Nat := nfld f 99 10
def fLen (f : Nat) : Nat := nfld f 109 10 + 1
def fAidx (f : Nat) : Nat := nfld f 119 5
def fLsh (f : Nat) : Nat := nfld f 128 5
def fEw (f : Nat) : Nat := nfld f 133 2
/-- Macrocell field `m` (R70). -/
def fMac (f m : Nat) : Nat := nfld f (160 + 16 * m) 16
def macType (x : Nat) : Nat := nfld x 0 2
def macPol (x : Nat) : Bool := nfld x 2 1 = 1
def macInit (x : Nat) : Bool := nfld x 3 1 = 1
def macPers (x : Nat) : Bool := nfld x 4 1 = 1
def macBorrow (x : Nat) : Bool := nfld x 5 1 = 1
def macCe (x : Nat) : Nat := nfld x 6 6
/-- Product term `k` (R66). -/
def fTerm (f k : Nat) : Nat := nfld f (288 + 18 * k) 18
/-- Drive selector of outgoing channel `n` (R71). -/
def fOsel (f n : Nat) : Nat := nfld f (864 + 4 * n) 4
/-- Furrow tap `k` (R72). -/
def fTap (f k : Nat) : Nat := nfld f (896 + 16 * k) 16
def tapEn (x : Nat) : Bool := nfld x 0 1 = 1
def tapDir (x : Nat) : Nat := nfld x 1 1
def tapSpan (x : Nat) : Nat := nfld x 2 1
def tapDrv (x : Nat) : Bool := nfld x 3 1 = 1
def tapTrack (x : Nat) : Nat := nfld x 4 4
def tapSrc (x : Nat) : Nat := nfld x 8 4
def tapFreg (x : Nat) : Bool := nfld x 12 1 = 1
/-- Channel-line drive slot `j` (R72). -/
def fSlot (f j : Nat) : Nat := nfld f (960 + 12 * j) 12
def slotEn (x : Nat) : Bool := nfld x 0 1 = 1
def slotLine (x : Nat) : Nat := nfld x 1 3
def slotSrc (x : Nat) : Nat := nfld x 4 4
def slotGate (x : Nat) : Nat := nfld x 8 4
/-- CHSEL line and bit of product-term input ch `j`. -/
def fChLine (f j : Nat) : Nat := nfld f (992 + 8 * j) 3
def fChBit (f j : Nat) : Nat := nfld f (995 + 8 * j) 5

/-- Region `g` runs its tiles: out of reset (RUN, or BINDOFF before its reset step), not stalled (R105), not held
(R154). -/
def regionMoves (g : RegionSt) : Bool :=
  (g.st == .run || g.st == .bindoff) && g.stall.isNone && !g.held

/-- Sluice cells of region `g` pass words (R107). -/
def sluicePasses (g : RegionSt) : Bool := regionMoves g && !g.parked

/-! ### Ports and operands -/

/-- The position of tile `t` on line code `c`: its row for a row line, its column for a column line (R85). -/
def linePos (t c : Nat) : Nat := if c < 4 then tileLy t else tileLx t
/-- The index of tile `t` along line code `c` (R87). -/
def lineIdx (t c : Nat) : Nat := if c < 4 then tileLx t else tileLy t
/-- The line of code `c` that tile `t` sees, in this cycle. -/
def State.lineOf (s : State) (t c : Nat) : Option ChLine :=
  tget none ((s.rgn (t / 256)).lines.map (fun e => (e.1, some e.2))) (16 * c + linePos t c)

/-- The buffer of input `n` of tile `t`: channels N0 to W1 are 0 to 7, taps 8 to 11. -/
def State.buf (s : State) (t n : Nat) : EBuf := tget {} (s.tile t).bufs n

/-- The word that input selector `sel` presents now (R43, R77, R88). -/
def State.portWord (s : State) (t sel : Nat) : Option Word :=
  if sel < 12 then (s.buf t sel).buf
  else if sel < 20 then (s.lineOf t (sel - 12)).map (·.word) else none

/-- Whether input selector `sel` has held a valid word in this cycle (va and vb of R58). -/
def State.portSeen (s : State) (t sel : Nat) : Bool :=
  if sel < 12 then (s.buf t sel).full0 || (s.buf t sel).got
  else if sel < 20 then (s.lineOf t (sel - 12)).isSome else false

/-- Entry `e` of a lookup table of width code `ew` from word `base` (R55). -/
def lutEntry (m : Tbl Word) (base ew e : Nat) : Word :=
  if ew = 0 then tget 0 m (base + e)
  else if ew = 1 then BitVec.ofNat 32 (fld (tget 0 m (base + e / 2)) (16 * (e % 2)) 16)
  else BitVec.ofNat 32 (fld (tget 0 m (base + e / 4)) (8 * (e % 4)) 8)

/-- Entries of a lookup table (R55). -/
def lutSize (len ew : Nat) : Nat := len * 2 ^ ew

/-- An operand that is not tile-memory read data (R41), with predicates `pds`. -/
def State.operand0 (s : State) (t f : Nat) (pds : BitVec 8) (code : Nat) : Word :=
  let T := s.tile t
  let c := s.ctxOf t
  if code < 8 then tget 0 T.pr (8 * c + code)
  else if code < 16 then tget 0 T.sh (code - 8)
  else if code = 0x10 then (s.portWord t (fIna f)).getD 0
  else if code = 0x11 then (s.portWord t (fInb f)).getD 0
  else if code = 0x13 then BitVec.ofNat 32 (fImm f)
  else if code = 0x14 then (BitVec.ofNat 16 (fImm f)).signExtend 32
  else if code = 0x15 then BitVec.ofNat 32 (fImm f * 2 ^ 16)
  else if code = 0x16 then (tget 0 T.acc c).setWidth 32
  else if code = 0x17 then ((tget 0 T.acc c) >>> 32).setWidth 32
  else if code = 0x18 then pds.setWidth 32
  else if code = 0x1A then BitVec.ofNat 32 (tileX t + 2 ^ 8 * tileY t + 2 ^ 16 * (t / 256))
  else if code = 0x1B then BitVec.ofNat 32 c
  else 0

/-- The tile-memory word that a fire addresses: RAM by aidx, delay line by ptr, FIFO by head (R55). -/
def State.memAddr (s : State) (t f : Nat) (pds : BitVec 8) : Nat :=
  let T := s.tile t
  match fMode f with
  | 0 => fBase f + (s.operand0 t f pds (fAidx f)).toNat % fLen f
  | 1 => fBase f + T.ptr
  | 3 => fBase f + T.head
  | _ => fBase f

/-- Tile-memory read data (R55). -/
def State.tmrd (s : State) (t f : Nat) (pds : BitVec 8) : Word :=
  if fMen f then
    if fMode f = 2 then
      lutEntry (s.tile t).mem (fBase f) (fEw f)
        (((s.operand0 t f pds (fAidx f)).toNat / 2 ^ fLsh f) % lutSize (fLen f) (fEw f))
    else tget 0 (s.tile t).mem (s.memAddr t f pds)
  else 0

/-- An operand of R41. -/
def State.operand (s : State) (t f : Nat) (pds : BitVec 8) (code : Nat) : Word :=
  if code = 0x12 then s.tmrd t f pds else s.operand0 t f pds code

/-- Port code `p` (0x10 for IA, 0x11 for IB) is used by frame `f` (R44). -/
def portUsed (f p : Nat) : Bool :=
  fSrcA f == p || fSrcB f == p || fSrcC f == p ||
    (fAidx f == p && fMen f && (fMode f == 0 || fMode f == 2))

/-- Frame `f` names TMRD as an operand (R56). -/
def namesTmrd (f : Nat) : Bool := fSrcA f == 0x12 || fSrcB f == 0x12 || fSrcC f == 0x12

/-! ### Sink sets -/

/-- A receiving point of a source (R76). -/
inductive Point where
  | chan (t n : Nat)
  | xing (t n : Nat)
  | freg (t k : Nat)
  | lane (r k i : Nat)
  | slot (t line gate : Nat)
deriving DecidableEq, Repr

/-- The neighbour of tile `t` in direction 0 N, 1 E, 2 S, 3 W (R78, R80). -/
def neighbour (t d : Nat) : Option Nat :=
  let x := tileX t
  let y := tileY t
  match d with
  | 0 => if y = 63 then none else some (tileAt x (y + 1))
  | 1 => if x = 95 then none else some (tileAt (x + 1) y)
  | 2 => if y = 0 then none else some (tileAt x (y - 1))
  | _ => if x = 0 then none else some (tileAt (x - 1) y)

/-- The incoming channel that outgoing channel `n` feeds (R78). -/
def oppChan (n : Nat) : Nat := (n + 4) % 8

/-- The tiles along the segment of a tap of tile `t` (R81). -/
def segTiles (t dir span : Nat) : List Nat :=
  let r := t / 256
  let along := if dir = 0 then tileLx t else tileLy t
  let cs := if span = 1 then List.range 16 else (List.range 4).map (fun j => 4 * (along / 4) + j)
  cs.map (fun c => if dir = 0 then 256 * r + 16 * tileLy t + c else 256 * r + 16 * c + tileLx t)

/-- The headgate whose outbound lanes end on span-16 segments of direction `dir` and `track` (R113). -/
def hgOut (dir track : Nat) : Option Nat :=
  if track = 7 then some dir else if track = 5 then some (2 + dir) else none

/-- Headgate configuration fields in effect (R115, R120). -/
def hgIn (w : Word) : Bool := bit w 0
def hgOutEn (w : Word) : Bool := bit w 1
def hgTag (w : Word) : Bool := bit w 2
def hgPktlock (w : Word) : Bool := bit w 3
def hgCtxbase (w : Word) : Nat := fld w 4 3
def hgOq (w : Word) : Nat := fld w 8 7
def hgLane (w : Word) (i : Nat) : Bool := bit w (16 + i)

/-- Headgate `k` of region `r`. -/
def State.hg (s : State) (r k : Nat) : Headgate := tget {} (s.rgn r).hg k

/-- The receiving points of the segment that a tap of tile `t` attaches to (R82). -/
def State.segPoints (s : State) (t dir span track : Nat) : List Point :=
  let taps := (segTiles t dir span).flatMap (fun u =>
    ((List.range 4).filter (fun k =>
      let x := fTap (s.act u) k
      tapEn x && !tapDrv x && tapDir x == dir && tapSpan x == span && tapTrack x == track)).map
      (fun k => Point.chan u (8 + k)))
  let lane := if span = 1 then
      match hgOut dir track with
      | some k =>
        let i := if dir = 0 then tileLy t else tileLx t
        let c := (s.hg (t / 256) k).cfg
        if hgOutEn c && hgLane c i then [Point.lane (t / 256) k i] else []
      | none => []
    else []
  taps ++ lane

/-- The receiving points of the sink set of source code `src` of tile `t` (R71, R76). -/
def State.sinks (s : State) (t src : Nat) : List Point :=
  let f := s.act t
  let chans := (List.range 8).flatMap (fun n =>
    if fOsel f n = src then
      match neighbour t (n / 2) with
      | some u => [if u / 256 = t / 256 then Point.chan u (oppChan n) else Point.xing u (oppChan n)]
      | none => []
    else [])
  let taps := (List.range 4).flatMap (fun k =>
    let x := fTap f k
    if tapEn x && tapDrv x && tapSrc x == src then
      if tapFreg x then [Point.freg t k] else s.segPoints t (tapDir x) (tapSpan x) (tapTrack x)
    else [])
  let slots := (List.range 2).flatMap (fun j =>
    let x := fSlot f j
    if slotEn x && slotSrc x == src then [Point.slot t (slotLine x) (slotGate x)] else [])
  chans ++ taps ++ slots

/-- The value of a predicate selector (R64). -/
def psel (pds : BitVec 8) (code : Nat) : Bool :=
  if code = 1 then true else if 8 ≤ code then bit pds (code - 8) else false

/-- The gate of a channel-line slot: a constant or a flip-flop's q (R86). -/
def State.gateOf (s : State) (t gate : Nat) : Bool := psel (s.tile t).q gate

/-- Words in the crossing buffer of incoming channel `n` of tile `t` (R106). -/
def State.xing (s : State) (t n : Nat) : List Word := tget [] s.fab.xbuf (8 * t + n)

/-- The region that feeds the crossing buffer of key 8t + n, for a buffer that has one (R78, R106). -/
def xingFrom (k : Nat) : Option Nat := (neighbour (k / 8) (k % 8 / 2)).map (· / 256)

/-- Both regions' cells pass the crossing of key 8t + n (R107). -/
def State.xingPasses (s : State) (k : Nat) : Bool :=
  sluicePasses (s.rgn (k / 2048)) && (xingFrom k).any (fun r => sluicePasses (s.rgn r))

/-- The point is ready (R75, R86, R106, R107); `start` reads readiness as it stood at the start of the cycle. -/
def State.pointReady (s : State) (start : Bool) : Point → Bool
  | .chan t n => !(s.buf t n).full0 && (start || !(s.buf t n).got)
  | .xing t n =>
    let x := tget {} s.fab.xcell (8 * t + n)
    s.xingPasses (8 * t + n) && decide (x.fill0 < 8) && (start || !x.sent)
  | .freg t k =>
    let x := tget {} (s.tile t).fregs k
    decide (x.n0 ≤ 1) && (start || !x.got)
  | .lane r k i =>
    let x := tget {} (s.hg r k).lanes i
    !x.full0 && (start || !x.got)
  | .slot t _ gate => s.gateOf t gate

/-- The output register of source code 1 or 2 is free: empty, or every sink accepts its word in this cycle (R44). -/
def State.outFree (s : State) (t src : Nat) : Bool :=
  let o := if src = 1 then (s.tile t).oa else (s.tile t).ob
  o.val.isNone || (!o.new && (s.sinks t src).all (s.pointReady false))

/-- ra and rb as the product terms see them: from state at the start of the cycle (R58, R75). -/
def State.outFree0 (s : State) (t src : Nat) : Bool :=
  let o := if src = 1 then (s.tile t).oa else (s.tile t).ob
  !o.full0 || (s.sinks t src).all (s.pointReady true)

/-! ### Control plane -/

/-- first: the tile's first cycle in its active context (R58). -/
def State.isFirst (s : State) (t : Nat) : Bool :=
  (s.tile t).entered || ((s.rgn (t / 256)).first && !(s.tile t).stayed)

/-- me and mf (R55) from the pointers at the start of the cycle. DESIGN CHOICE: with men = 0, of which R55's table does not speak, both are 0. -/
def memFlags (T : Tile) (f : Nat) : Bool × Bool :=
  if fMen f then
    match fMode f with
    | 1 => (T.ptr0 == 0, false)
    | 3 => (T.count0 == 0, T.count0 == fLen f)
    | _ => (false, false)
  else (false, false)

/-- Bit `b` of the channel line selected for ch `j`, 0 when not driven (R88). -/
def State.chBit (s : State) (t f j : Nat) : Bool :=
  match s.lineOf t (fChLine f j) with
  | some l => bit l.word (fChBit f j)
  | none => false

/-- The 24 product-term inputs with pd0 to pd7 left at 0 (R58). -/
def State.ptBase (s : State) (t f : Nat) : BitVec 24 :=
  let T := s.tile t
  let c := s.ctxOf t
  let (me, mf) := memFlags T f
  BitVec.ofNat 24 ((tget 0 T.flags0 c).toNat + 2 ^ 5 * b2n me + 2 ^ 6 * b2n mf + 2 ^ 7 * b2n T.fired
    + 2 ^ 16 * b2n (s.portSeen t (fIna f)) + 2 ^ 17 * b2n (s.portSeen t (fInb f))
    + 2 ^ 18 * b2n (s.outFree0 t 1) + 2 ^ 19 * b2n (s.outFree0 t 2)
    + 2 ^ 20 * b2n (c == (s.rgn (t / 256)).sel) + 2 ^ 21 * b2n (s.isFirst t)
    + 2 ^ 22 * b2n (s.chBit t f 0) + 2 ^ 23 * b2n (s.chBit t f 1))

/-- A literal of six bits over the inputs (R59). -/
def literal (inp : BitVec 24) (l : Nat) : Bool :=
  let sel := l % 32
  let v := if sel = 0 then true else if sel ≤ 0x18 then bit inp (sel - 1) else false
  v != (nfld l 5 1 == 1)

/-- A product term: the AND of its three literals (R59). -/
def termVal (inp : BitVec 24) (x : Nat) : Bool :=
  literal inp (nfld x 0 6) && literal inp (nfld x 6 6) && literal inp (nfld x 12 6)

/-- The terms of macrocell `m` (R60). -/
def macTerms (f m : Nat) : List Nat :=
  if m ≠ 0 && macBorrow (fMac f (m - 1)) then []
  else (List.range (if macBorrow (fMac f m) && m != 7 then 8 else 4)).map (fun j => 4 * m + j)

/-- s = sum xor pol of macrocell `m` (R61). -/
def macSum (f : Nat) (inp : BitVec 24) (m : Nat) : Bool :=
  ((macTerms f m).any (fun k => termVal inp (fTerm f k))) != macPol (fMac f m)

/-- The clock enable of macrocell `m` (R61). -/
def macEn (f : Nat) (inp : BitVec 24) (m : Nat) : Bool := literal inp (macCe (fMac f m))

/-- Inputs with the predicates in place. -/
def withPds (base : BitVec 24) (pds : BitVec 8) : BitVec 24 := base ||| (pds.setWidth 24 <<< 8)

/-- One settling pass over the macrocells (R61). -/
def pdPass (f : Nat) (base : BitVec 24) (q pds : BitVec 8) : BitVec 8 :=
  BitVec.ofNat 8 (((List.range 8).map (fun m =>
    let x := fMac f m
    2 ^ m * b2n (match macType x with
      | 0 => false
      | 1 => macSum f (withPds base pds) m
      | _ => bit q m))).sum)

/-- pd0 to pd7 settled: no path passes through more than two combinational macrocells (R62). -/
def pdsOf (f : Nat) (base : BitVec 24) (q : BitVec 8) : BitVec 8 :=
  pdPass f base q (pdPass f base q (pdPass f base q 0))

/-- The predicates of tile `t` in this cycle. -/
def State.pds (s : State) (t : Nat) : BitVec 8 :=
  pdsOf (s.act t) (s.ptBase t (s.act t)) (s.tile t).q

/-- The handshake selector in force: `auto`'s value, never, or pd m (R45, R64). -/
def hsel (auto : Bool) (pds : BitVec 8) (code : Nat) : Bool :=
  if code = 0 then auto else if code = 1 then false else if 8 ≤ code then bit pds (code - 8) else false

end Sys2Proof.Machine
end

