-- ==== Sys2Proof/Machine/FrameCheck.lean ====
section
/-!
DEFINITION. What the FCC checks of one frame (R73: encoding and relational faults with the frame word they are reported
at) and of the frames of a region together (R57, R84, R90 items 1 to 8, R91 to R93).
-/
namespace Sys2Proof.Machine

/-! ### One frame (R73) -/

/-- Opcodes that R49 lists. -/
def opcListed (o : Nat) : Bool :=
  decide (o ≤ 0x0D) || (decide (0x10 ≤ o) && decide (o ≤ 0x19)) || (decide (0x20 ≤ o) && decide (o ≤ 0x28)) ||
  (decide (0x30 ≤ o) && decide (o ≤ 0x35)) || (decide (0x40 ≤ o) && decide (o ≤ 0x49)) ||
  (decide (0x50 ≤ o) && decide (o ≤ 0x55)) || (decide (0x60 ≤ o) && decide (o ≤ 0x63)) ||
  (decide (0x70 ≤ o) && decide (o ≤ 0x72)) || (decide (0x80 ≤ o) && decide (o ≤ 0x88)) ||
  (decide (0x90 ≤ o) && decide (o ≤ 0x95))

/-- Opcodes that write the flag t (R49): the compares, the PASS forms, MINIX and BTHR. -/
def opcWritesT (o : Nat) : Bool :=
  (decide (0x05 ≤ o) && decide (o ≤ 0x0A)) || (decide (0x23 ≤ o) && decide (o ≤ 0x28)) || o == 0x88 || o == 0x92

/-- Reserved PSEL and HSEL codes (R64). -/
def selRsvd (c : Nat) : Bool := decide (2 ≤ c) && decide (c ≤ 7)
/-- Reserved operand codes (R41). -/
def srcRsvd (c : Nat) : Bool := decide (0x1C ≤ c)
/-- Reserved input selectors (R43). -/
def inRsvd (c : Nat) : Bool := decide (0x14 ≤ c) && c != 0x1F
/-- Reserved literals (R59). -/
def litRsvd (l : Nat) : Bool := decide (0x19 ≤ l % 32) && decide (l % 32 ≤ 0x1E)
/-- A reserved drive selector (R71). -/
def drvRsvd (c : Nat) : Bool := c == 3

/-- Literal `j` of term `k`, and the frame word in which its selector begins. -/
def litOf (f k j : Nat) : Nat := nfld (fTerm f k) (6 * j) 6
def litWord (k j : Nat) : Nat := (288 + 18 * k + 6 * j) / 32

/-- Every literal of the frame with the word it is judged at: the cesel fields, then the product terms. -/
def frameLits (f : Nat) : List (Nat × Nat) :=
  (List.range 8).map (fun m => (5 + m / 2, macCe (fMac f m))) ++
  (List.range 32).flatMap (fun k => (List.range 3).map (fun j => (litWord k j, litOf f k j)))

/-- Encoding faults of a frame with the frame word each is reported at (R67 to R73). -/
def encFaults (f : Nat) : List Nat :=
  let at_ := fun (w : Nat) (b : Bool) => if b then [w] else []
  at_ 0 (selRsvd (fCsReq f) || selRsvd (fFirePsel f) || nfld f 15 1 == 1
      || selRsvd (fHsIa f) || selRsvd (fHsIb f) || selRsvd (fHsOa f) || selRsvd (fHsOb f)) ++
  at_ 1 (!opcListed (fOpc f) || srcRsvd (fSrcA f) || srcRsvd (fSrcB f) || srcRsvd (fSrcC f)
      || (decide (0x10 ≤ fDreg f) && fDreg f != 0x1F) || (fDtm f && fMode f == 2)) ++
  at_ 2 (inRsvd (fIna f) || inRsvd (fInb f) || nfld f 92 4 != 0) ++
  at_ 3 (decide (1024 < fBase f + fLen f) || srcRsvd (fAidx f) || nfld f 124 4 != 0) ++
  at_ 4 (fEw f == 3 || nfld f 135 25 != 0) ++
  (List.range 8).flatMap (fun m => at_ (5 + m / 2) (nfld (fMac f m) 12 4 != 0)) ++
  (frameLits f).flatMap (fun p => at_ p.1 (litRsvd p.2)) ++
  at_ 27 ((List.range 8).any (fun n => drvRsvd (fOsel f n))) ++
  (List.range 4).flatMap (fun k => let x := fTap f k
    at_ (28 + k / 2) (nfld x 13 3 != 0 || drvRsvd (tapSrc x) || (tapSpan x == 1 && decide (8 ≤ tapTrack x)))) ++
  at_ 30 (nfld f 984 8 != 0 || (List.range 2).any (fun j => drvRsvd (slotSrc (fSlot f j)) || selRsvd (slotGate (fSlot f j)))) ++
  at_ 31 (nfld f 1008 16 != 0)

/-- Combinational macrocell `m` takes macrocell `k`'s output through its terms or its ce input. -/
def macDep (f m k : Nat) : Bool :=
  macCe (fMac f m) % 32 == 9 + k || (macTerms f m).any (fun t => (List.range 3).any (fun j => litOf f t j % 32 == 9 + k))

/-- Combinational macrocells of the frame (R61). -/
def combMacs (f : Nat) : List Nat := (List.range 8).filter (fun m => macType (fMac f m) == 1)

/-- Relational faults of one frame with the word each is reported at: aidx = TMRD, R54, R60, R62. -/
def relFaults (f : Nat) : List Nat :=
  let at_ := fun (w : Nat) (b : Bool) => if b then [w] else []
  at_ 1 (fTgate f && !opcWritesT (fOpc f)) ++
  at_ 3 (fAidx f == 0x12) ++
  (List.range 7).flatMap (fun m => at_ (5 + m / 2) (macBorrow (fMac f m) && macBorrow (fMac f (m + 1)))) ++
  at_ 8 (macBorrow (fMac f 7)) ++
  -- three combinational macrocells in a row, a cycle being the case in which some coincide (R62)
  (combMacs f).flatMap (fun a => (combMacs f).flatMap (fun b => (combMacs f).flatMap (fun c =>
    at_ (5 + min a (min b c) / 2) (macDep f b a && macDep f c b))))

/-- The least element of a list. -/
def leastOf : List Nat → Option Nat
  | [] => none
  | a :: t => some (t.foldl min a)

/-- The fault of a frame that is reported: FRAMEENC (0x18) before FRAMEREL (0x19), at its lowest frame word (R73). -/
def frameFault (f : Nat) : Option (Nat × Nat) :=
  match leastOf (encFaults f) with
  | some w => some (0x18, w)
  | none => (leastOf (relFaults f)).map (fun w => (0x19, w))

/-! ### The frames of a region together

`fr l c` is the frame of local tile `l` in context `c` as it will stand after the load. A combination `σ` gives each local
tile its context: one context for the tiles that are not override tiles, and one for each override tile (R90). -/

/-- R57 is broken: two frames of one tile enable delay-line or FIFO mode with different mode, base or lenm1. -/
def breaksR57 (fr : Nat → Nat → Nat) : Bool :=
  (List.range 256).any (fun l =>
    let ps := ((List.range 8).map (fr l)).filter (fun f => fMen f && (fMode f == 1 || fMode f == 3))
    match ps with
    | [] => false
    | p :: t => t.any (fun f => !(fMode f == fMode p && fBase f == fBase p && fLen f == fLen p)))

/-- Override tiles: any of the eight frames has ovr = 1 (R84). -/
def overTiles (fr : Nat → Nat → Nat) : List Nat :=
  (List.range 256).filter (fun l => (List.range 8).any (fun c => fOvr (fr l c)))

/-- Every choice of a context for each of the tiles listed. -/
def choices : List Nat → List (List (Nat × Nat))
  | [] => [[]]
  | l :: t => (choices t).flatMap (fun r => (List.range 8).map (fun c => (l, c) :: r))

/-- The frame of local tile `l` in a combination. -/
def comboFrame (fr : Nat → Nat → Nat) (c : Nat) (ov : List (Nat × Nat)) (l : Nat) : Nat :=
  match ov.find? (fun p => p.1 == l) with
  | some p => fr l p.2
  | none => fr l c

/-- Every combination, as the frame that each local tile then has. -/
def combos (fr : Nat → Nat → Nat) : List (Nat → Nat) :=
  (choices (overTiles fr)).flatMap (fun ov => (List.range 8).map (fun c => comboFrame fr c ov))

/-- Enabled drive slots of a frame. -/
def enSlots (f : Nat) : List Nat := ((List.range 2).map (fSlot f)).filter (fun x => slotEn x)
/-- Enabled taps of a frame. -/
def enTaps (f : Nat) : List Nat := ((List.range 4).filter (fun k => tapEn (fTap f k)))

/-- The channel line, by code and position, of a slot of local tile `l`. -/
def slotKey (l x : Nat) : Nat := 16 * slotLine x + linePos l (slotLine x)

/-- Item 1 of R90 in one combination. -/
def item1 (g : Nat → Nat) : Bool :=
  (List.range 256).any (fun l =>
    (match enSlots (g l) with
      | [x, y] => slotLine x == slotLine y
      | _ => false) ||
    (enSlots (g l)).any (fun x => slotGate x == 1 &&
      (List.range 256).any (fun m => m != l && (enSlots (g m)).any (fun y => slotKey m y == slotKey l x && slotGate y != 0))))

/-- Item 2 of R90 in one frame: a gate pd m of a macrocell that is not a D or T flip-flop. -/
def item2 (f : Nat) : Bool :=
  (enSlots f).any (fun x => decide (8 ≤ slotGate x) && decide (macType (fMac f (slotGate x - 8)) < 2))

/-- The segment of tap field `x` of local tile `l`, as a number (R81). -/
def segKey (l x : Nat) : Nat :=
  let along := if tapDir x = 0 then tileLx l else tileLy l
  let across := if tapDir x = 0 then tileLy l else tileLx l
  (((tapDir x * 2 + tapSpan x) * 16 + tapTrack x) * 16 + across) * 4 + (if tapSpan x = 1 then 0 else along / 4)

/-- Segments that a frame of local tile `l` drives, one entry per driving tap. -/
def drives (l f : Nat) : List Nat := (((enTaps f).map (fTap f)).filter (fun x => tapDrv x)).map (segKey l)

/-- A list with a repeated element. -/
def hasDup : List Nat → Bool
  | [] => false
  | a :: t => t.contains a || hasDup t

/-- Item 3 of R90 in one combination: two taps drive one segment. -/
def item3 (g : Nat → Nat) : Bool := hasDup ((List.range 256).flatMap (fun l => drives l (g l)))

/-- R84 is broken: an override tile drives a segment that another tile drives in some context. -/
def breaksR84 (fr : Nat → Nat → Nat) : Bool :=
  let all := fun l => (List.range 8).flatMap (fun c => drives l (fr l c))
  (overTiles fr).any (fun l => (List.range 256).any (fun m => m != l && (all m).any (fun k => (all l).contains k)))

/-- Literal selectors of va, vb, ra, rb, ch0 and ch1 (R58, R59). -/
def namesLit (f sel : Nat) : Bool := (frameLits f).any (fun p => p.2 % 32 == sel)

/-- The frame uses port 0 (IA) or 1 (IB) (R90). -/
def usesPort (f p : Nat) : Bool := portUsed f (0x10 + p) || namesLit f (0x11 + p)
/-- Input selectors of the ports that the frame uses. -/
def usedIns (f : Nat) : List Nat :=
  (if usesPort f 0 then [fIna f] else []) ++ (if usesPort f 1 then [fInb f] else [])

/-- Drive selectors in force: OSEL, driving enabled taps, enabled slots. -/
def passSels (f : Nat) : List Nat :=
  (List.range 8).map (fOsel f) ++ (((enTaps f).map (fTap f)).filter (fun x => tapDrv x)).map tapSrc ++ (enSlots f).map slotSrc

/-- Item 4 of R90 in one frame. -/
def item4 (f : Nat) : Bool :=
  (enTaps f).any (fun k => let x := fTap f k
    (tapFreg x && !tapDrv x) ||
    (tapDrv x && ((passSels f).contains (0xC + k) || (usedIns f).contains (8 + k))))

/-- Item 5 of R90 in one frame: an incoming channel or receiving tap both read and passed through. DESIGN CHOICE: a tap with en = 0, of which
item 5 does not speak, is not judged. -/
def item5 (f : Nat) : Bool :=
  (usedIns f).any (fun i => decide (i < 12) && (passSels f).contains (4 + i) &&
    (decide (i < 8) || (tapEn (fTap f (i - 8)) && !tapDrv (fTap f (i - 8)))))

/-- Item 6 of R90 in one frame of tile `t`: a selector toward the fabric edge, or an input from outside (R80). -/
def item6 (t f : Nat) : Bool :=
  (List.range 8).any (fun n => (neighbour t (n / 2)).isNone && (fOsel f n != 0 || (usedIns f).contains n))

/-! ### Chains (R91)

An input point of a region is 12·l + n: channel n (0 to 7) or tap n − 8 of local tile `l`. -/

/-- Cost of crossing a segment of the tap's span with freg = 0. -/
def spanCost (x : Nat) : Nat := if tapSpan x = 1 then 5 else 2

/-- Receiving taps of segment `key` in a combination, as input points. -/
def segTaps (g : Nat → Nat) (key : Nat) : List Nat :=
  (List.range 256).flatMap (fun l => ((enTaps (g l)).filter (fun k =>
    !tapDrv (fTap (g l) k) && segKey l (fTap (g l) k) == key)).map (fun k => 12 * l + 8 + k))

/-- The segment ends at outbound headgate lanes (R113). DESIGN CHOICE: whether the headgate enables the lane, which R91 does not say, does
not count. -/
def laneSeg (x : Nat) : Bool := tapSpan x == 1 && (tapTrack x == 7 || tapTrack x == 5)

/-- Input points that a source of local tile `l` reaches in the same cycle, each with the cost of the way; the flag says that
the way ends in a storage point other than a tile's elastic buffer. Region `r` decides which links cross its border. -/
def hops (r : Nat) (g : Nat → Nat) (l src : Nat) : List (Nat × Nat) × List Nat :=
  let f := g l
  let chans := (List.range 8).filter (fun n => fOsel f n == src)
  let links := chans.filterMap (fun n => match neighbour (256 * r + l) (n / 2) with
    | some u => if u / 256 = r then some (1, 12 * (u % 256) + oppChan n) else none
    | none => none)
  let cross := chans.filterMap (fun n => match neighbour (256 * r + l) (n / 2) with
    | some u => if u / 256 = r then none else some 1
    | none => none)
  let taps := ((enTaps f).map (fTap f)).filter (fun x => tapDrv x && tapSrc x == src)
  let segs := (taps.filter (fun x => !tapFreg x)).flatMap (fun x => (segTaps g (segKey l x)).map (fun p => (spanCost x, p)))
  let fregs := (taps.filter (fun x => tapFreg x)).map (fun _ => 0)
  let lanes := (taps.filter (fun x => !tapFreg x && laneSeg x)).map (fun _ => 5)
  (links ++ segs, cross ++ fregs ++ lanes)

/-- Costs of the ends that a channel line driven by local tile `l` on line code `c` has: 5 at an operand, 7 at a product-term
input. -/
def lineEnds (g : Nat → Nat) (l c : Nat) : List Nat :=
  (List.range 256).flatMap (fun m =>
    let f := g m
    let onLine := fun (code : Nat) => decide ((code < 4) = (c < 4)) && linePos m code == linePos l c && code == c
    let at_ := fun (b : Bool) (v : Nat) => if b then [v] else []
    at_ (decide (12 ≤ fIna f) && decide (fIna f < 20) && onLine (fIna f - 12) && portUsed f 0x10) 5 ++
    at_ (decide (12 ≤ fInb f) && decide (fInb f < 20) && onLine (fInb f - 12) && portUsed f 0x11) 5 ++
    at_ (decide (12 ≤ fIna f) && decide (fIna f < 20) && onLine (fIna f - 12) && namesLit f 0x11) 7 ++
    at_ (decide (12 ≤ fInb f) && decide (fInb f < 20) && onLine (fInb f - 12) && namesLit f 0x12) 7 ++
    at_ (onLine (fChLine f 0) && namesLit f 0x17) 7 ++ at_ (onLine (fChLine f 1) && namesLit f 0x18) 7)

/-- Ends at slots that a source drives. -/
def slotEnds (g : Nat → Nat) (l src : Nat) : List Nat :=
  ((enSlots (g l)).filter (fun x => slotSrc x == src)).flatMap (fun x => lineEnds g l (slotLine x))

/-- A product-term input va or vb at input point `p`. -/
def termEnd (g : Nat → Nat) (p : Nat) : List Nat :=
  let f := g (p / 12)
  (if fIna f = p % 12 ∧ namesLit f 0x11 then [2] else []) ++ (if fInb f = p % 12 ∧ namesLit f 0x12 then [2] else [])

/-- The highest cost of a chain from the visible word of input point `p` on, none where `fuel` passes do not end it. The
word ends at the point's own elastic buffer or operand at cost 0. -/
def chainFrom (r : Nat) (g : Nat → Nat) : Nat → Nat → Option Nat
  | 0, _ => none
  | fuel + 1, p =>
    let h := hops r g (p / 12) (4 + p % 12)
    let ends := 0 :: termEnd g p ++ h.2 ++ slotEnds g (p / 12) (4 + p % 12)
    h.1.foldl (fun acc q => match acc, chainFrom r g fuel q.2 with
      | some a, some b => some (max a (q.1 + b))
      | _, _ => none) (some (ends.foldl max 0))

/-- Passes after which a chain that has not ended is a loop: every input point of the region once. -/
def chainFuel : Nat := 12 * 256 + 1

/-- Item 7 of R90 in one combination: a combinational loop. -/
def item7 (r : Nat) (g : Nat → Nat) : Bool :=
  (List.range 3072).any (fun p => (chainFrom r g chainFuel p).isNone)

/-- The cost on from an input point. -/
def costFrom (r : Nat) (g : Nat → Nat) (p : Nat) : Nat := (chainFrom r g chainFuel p).getD 0

/-- Costs of the chains that begin at OA (source 1) or OB (source 2) of local tile `l`. -/
def outChains (r : Nat) (g : Nat → Nat) (l src : Nat) : List Nat :=
  let h := hops r g l src
  h.1.map (fun q => q.1 + costFrom r g q.2) ++ h.2 ++ slotEnds g l src

/-- Costs of the chains that end at ra or rb (R91): the word's way to each receiving point that decides, plus 2. -/
def readyChains (r : Nat) (g : Nat → Nat) (l : Nat) : List Nat :=
  (List.range 2).flatMap (fun j =>
    if namesLit (g l) (0x13 + j) then
      let h := hops r g l (1 + j)
      (h.1.map (fun (q : Nat × Nat) => q.1) ++ h.2 ++ ((enSlots (g l)).filter (fun x => slotSrc x == 1 + j)).map (fun _ => 0)).map (· + 2)
    else [])

/-- Costs of the chains that a segment carries from its furrow register or from an inbound headgate lane, which acts as a
driving tap with freg = 1 (R83, R91, R113). -/
def regChains (r : Nat) (g : Nat → Nat) (l : Nat) : List Nat :=
  (enTaps (g l)).flatMap (fun k =>
    let x := fTap (g l) k
    if tapDrv x && tapFreg x then
      (segTaps g (segKey l x)).map (fun p => spanCost x + costFrom r g p) ++ (if laneSeg x then [5] else [])
    else if !tapDrv x && tapSpan x == 1 && (tapTrack x == 6 || tapTrack x == 4) then [5 + costFrom r g (12 * l + 8 + k)]
    else [])

/-- Costs of the chains that begin at the output of a sluice-cell crossing into local tile `l`, over the incoming channels that a
port in use or a pass-through names. -/
def crossChains (r : Nat) (g : Nat → Nat) (l : Nat) : List Nat :=
  (List.range 8).filterMap (fun n => match neighbour (256 * r + l) (n / 2) with
    | some u => if u / 256 = r then none else if (usedIns (g l)).contains n ∨ (passSels (g l)).contains (4 + n)
        then some (1 + costFrom r g (12 * l + n)) else none
    | none => none)

/-- The highest chain cost of one combination (R91). -/
def comboCost (r : Nat) (g : Nat → Nat) : Nat :=
  ((List.range 256).flatMap (fun l =>
    outChains r g l 1 ++ outChains r g l 2 ++ readyChains r g l ++ regChains r g l ++ crossChains r g l ++
    (List.range 12).map (fun n => costFrom r g (12 * l + n)))).foldl max 0

/-- The chain cost of region `r` (R93). -/
def chainCost (r : Nat) (fr : Nat → Nat → Nat) : Nat := ((combos fr).map (comboCost r)).foldl max 0


/-- The first (context, local tile) whose frame meets `p`. -/
def firstFrame (fr : Nat → Nat → Nat) (p : Nat → Nat → Bool) : Option (Nat × Nat) :=
  ((List.range 8).flatMap (fun c => (List.range 256).map (fun l => (c, l)))).find? (fun q => p q.2 (fr q.2 q.1))

/-- The analysis of one region (R136): R57, then items 1 to 8 of R90 in order, stopping at the first failure. -/
def analyse (r budget : Nat) (fr : Nat → Nat → Nat) : Option Finding :=
  if breaksR57 fr then some ⟨0x19, 3, none⟩
  else if (combos fr).any item1 then some ⟨0x1A, 1, none⟩
  else match firstFrame fr (fun _ f => item2 f) with
  | some q => some ⟨0x1A, 2, some q⟩
  | none =>
    if (combos fr).any item3 || breaksR84 fr then some ⟨0x1A, 3, none⟩
    else match firstFrame fr (fun _ f => item4 f) with
    | some q => some ⟨0x1A, 4, some q⟩
    | none => match firstFrame fr (fun _ f => item5 f) with
      | some q => some ⟨0x1A, 5, some q⟩
      | none => match firstFrame fr (fun l f => item6 (256 * r + l) f) with
        | some q => some ⟨0x1A, 6, some q⟩
        | none =>
          if (combos fr).any (item7 r) then some ⟨0x1A, 7, none⟩
          else if budget ≠ 0 ∧ budget < chainCost r fr then some ⟨0x1B, 8, none⟩ else none

end Sys2Proof.Machine
end

