-- ==== Sys2Proof/Machine/Crypto.lean ====
section
/-!
DEFINITION. The functions that the spec takes from published standards and that the part computes itself: SHAKE256 (FIPS 202, R128),
KMAC256 (SP 800-185, R129, R143), AES-256 (FIPS 197) in XTS mode (IEEE 1619-2018, R209) and as key wrap (SP 800-38F, R425). The spec names
them without restating them: they are written here from those standards (PRESUMED).
-/
namespace Sys2Proof.Machine

/-! ### Keccak (FIPS 202) -/

/-- Round constants of Keccak-f[1600]. -/
def keccakRc : List (BitVec 64) :=
  [0x0000000000000001, 0x0000000000008082, 0x800000000000808A, 0x8000000080008000, 0x000000000000808B, 0x0000000080000001] ++
  [0x8000000080008081, 0x8000000000008009, 0x000000000000008A, 0x0000000000000088, 0x0000000080008009, 0x000000008000000A] ++
  [0x000000008000808B, 0x800000000000008B, 0x8000000000008089, 0x8000000000008003, 0x8000000000008002, 0x8000000000000080] ++
  [0x000000000000800A, 0x800000008000000A, 0x8000000080008081, 0x8000000000008080, 0x0000000080000001, 0x8000000080008008]

/-- Rotation of lane x + 5y. -/
def keccakRot : List Nat :=
  [0, 1, 62, 28, 27] ++ [36, 44, 6, 55, 20] ++ [3, 10, 43, 25, 39] ++ [41, 45, 15, 21, 8] ++ [18, 2, 61, 56, 14]

/-- One round on the 25 lanes, lane (x, y) at 5y + x: θ, ρ, π, χ, ι. -/
def keccakRound (a : List (BitVec 64)) (rc : BitVec 64) : List (BitVec 64) :=
  let c := (List.range 5).map (fun x => (List.range 5).foldl (fun v y => v ^^^ a.getD (5 * y + x) 0) 0)
  let d := (List.range 5).map (fun x => c.getD ((x + 4) % 5) 0 ^^^ (c.getD ((x + 1) % 5) 0).rotateLeft 1)
  let t := (List.range 25).map (fun i => (a.getD i 0 ^^^ d.getD (i % 5) 0).rotateLeft (keccakRot.getD i 0))
  let b := (List.range 25).map (fun i => t.getD (5 * (i % 5) + (i % 5 + 3 * (i / 5)) % 5) 0)
  (List.range 25).map (fun i =>
    let at_ := fun x => b.getD (5 * (i / 5) + x % 5) 0
    (at_ (i % 5) ^^^ (~~~(at_ (i % 5 + 1)) &&& at_ (i % 5 + 2))) ^^^ (if i = 0 then rc else 0))

/-- Keccak-f[1600]. -/
def keccakF (a : List (BitVec 64)) : List (BitVec 64) := keccakRc.foldl keccakRound a

/-- Blocks of `n` bytes, at most `k` of them. -/
def chunks (n : Nat) : Nat → List Byte → List (List Byte)
  | 0, _ => []
  | k + 1, l => if l.isEmpty then [] else l.take n :: chunks n k (l.drop n)

/-- A sponge of rate 136 with the domain bits `dom` behind the message: the first 136 bytes of its output. -/
def sponge (dom : Byte) (m : List Byte) : List Byte :=
  let pad := 136 - m.length % 136
  let tail : List Byte := if pad = 1 then [dom ||| 0x80] else dom :: (List.replicate (pad - 2) 0 ++ [0x80])
  let st := (chunks 136 (m.length / 136 + 1) (m ++ tail)).foldl (fun a blk =>
    keccakF ((List.range 25).map (fun i => a.getD i 0 ^^^ BitVec.ofNat 64 (ofBytes ((blk.drop (8 * i)).take 8)))))
    (List.replicate 25 0)
  (st.flatMap (fun v => bytesOf 8 v.toNat)).take 136

/-- SHAKE256 with a 512-bit output, its first byte the least significant. -/
def shake256 (m : List Byte) : BitVec 512 := BitVec.ofNat 512 (ofBytes ((sponge 0x1F m).take 64))

/-- The shortest big-endian bytes of `x`, at least one. -/
def shortBytes (x : Nat) : List Byte :=
  let n := if x = 0 then 1 else Nat.log2 x / 8 + 1
  (bytesOf n x).reverse
/-- left_encode, right_encode, encode_string and bytepad of SP 800-185. -/
def leftEncode (x : Nat) : List Byte := BitVec.ofNat 8 (shortBytes x).length :: shortBytes x
def rightEncode (x : Nat) : List Byte := shortBytes x ++ [BitVec.ofNat 8 (shortBytes x).length]
def encodeString (l : List Byte) : List Byte := leftEncode (8 * l.length) ++ l
def bytePad (l : List Byte) : List Byte :=
  let h := leftEncode 136 ++ l
  h ++ List.replicate ((136 - h.length % 136) % 136) 0

/-- KMAC256 with an output of `bits` bits, at most 1,088: key, input, customization string. -/
def kmac256 (bits : Nat) (k x s : List Byte) : BitVec bits :=
  let kmac : List Byte := [0x4B, 0x4D, 0x41, 0x43]
  let m := bytePad (encodeString kmac ++ encodeString s) ++ bytePad (encodeString k) ++ x ++ rightEncode bits
  BitVec.ofNat bits (ofBytes ((sponge 0x04 m).take (bits / 8)))

/-! ### AES-256 (FIPS 197) -/

/-- Multiplication by x in GF(2^8). -/
def aesX (a : Byte) : Byte := (a <<< 1) ^^^ (if bit a 7 then 0x1B else 0)
/-- Multiplication in GF(2^8). -/
def aesMul (a b : Byte) : Byte :=
  ((List.range 8).foldl (fun (acc : Byte × Byte) i => (if bit b i then acc.1 ^^^ acc.2 else acc.1, aesX acc.2)) (0, a)).1
/-- a^254, the inverse of a. -/
def aesInv (a : Byte) : Byte :=
  ((List.range 7).foldl (fun (acc : Byte × Byte) _ => (aesMul acc.1 acc.2, aesMul acc.2 acc.2)) (1, aesMul a a)).1
/-- SubBytes of one byte, and its inverse. -/
def sBox (a : Byte) : Byte :=
  let b := aesInv a
  b ^^^ b.rotateLeft 1 ^^^ b.rotateLeft 2 ^^^ b.rotateLeft 3 ^^^ b.rotateLeft 4 ^^^ 0x63
def sBoxInv (a : Byte) : Byte := aesInv (a.rotateLeft 1 ^^^ a.rotateLeft 3 ^^^ a.rotateLeft 6 ^^^ 0x05)

/-- XOR of byte lists. -/
def xorBytes (a b : List Byte) : List Byte := List.zipWith (· ^^^ ·) a b

/-- The next `n` words of the key schedule, from word `i` on; `w` holds the words so far, latest first. -/
def keyWords : Nat → Nat → List (List Byte) → List (List Byte)
  | 0, _, w => w
  | n + 1, i, w =>
    let t := w.headD []
    let u := if i % 8 = 0 then xorBytes ((t.drop 1 ++ t.take 1).map sBox) [(List.range (i / 8 - 1)).foldl (fun a _ => aesX a) 1, 0, 0, 0]
      else if i % 8 = 4 then t.map sBox else t
    keyWords n (i + 1) (xorBytes (w.getD 7 []) u :: w)
/-- The 15 round keys. -/
def roundKeys (k : List Byte) : List (List Byte) :=
  let w := (keyWords 52 8 ((chunks 4 8 k).reverse)).reverse
  (List.range 15).map (fun r => ((w.drop (4 * r)).take 4).flatten)

/-- ShiftRows and MixColumns on 16 bytes in column order, and their inverses. -/
def shiftRows (b : List Byte) : List Byte := (List.range 16).map (fun i => b.getD ((i + 4 * (i % 4)) % 16) 0)
def shiftRowsInv (b : List Byte) : List Byte := (List.range 16).map (fun i => b.getD ((i + 12 * (i % 4)) % 16) 0)
def mixWith (c : List Byte) (b : List Byte) : List Byte :=
  (List.range 16).map (fun i => (List.range 4).foldl (fun a j => a ^^^ aesMul (c.getD ((j + 4 - i % 4) % 4) 0) (b.getD (i / 4 * 4 + j) 0)) 0)

/-- Encryption and decryption of one block under round keys. -/
def aesEnc (ks : List (List Byte)) (b : List Byte) : List Byte :=
  let mid := ((ks.drop 1).take 13).foldl (fun x k => xorBytes (mixWith [2, 3, 1, 1] (shiftRows (x.map sBox))) k) (xorBytes b (ks.getD 0 []))
  xorBytes (shiftRows (mid.map sBox)) (ks.getD 14 [])
def aesDec (ks : List (List Byte)) (b : List Byte) : List Byte :=
  let mid := ((ks.drop 1).take 13).reverse.foldl (fun x k => mixWith [14, 11, 13, 9] (xorBytes ((shiftRowsInv x).map sBoxInv) k))
    (xorBytes b (ks.getD 14 []))
  xorBytes ((shiftRowsInv mid).map sBoxInv) (ks.getD 0 [])

/-! ### AES-256-XTS (IEEE 1619-2018, R209) -/

/-- The tweak times α. -/
def xtsNext (t : BitVec 128) : BitVec 128 := (t <<< 1) ^^^ (if bit t 127 then 0x87 else 0)

/-- Blocks of a data unit through `f`, each with its tweak. -/
def xtsRun (f : List Byte → List Byte) : BitVec 128 → List (List Byte) → List Byte
  | _, [] => []
  | t, b :: rest =>
    let tb := bytesOf 16 t.toNat
    xorBytes (f (xorBytes b tb)) tb ++ xtsRun f (xtsNext t) rest

/-- Encryption and decryption of a data unit whose length is a multiple of 16, as every stored codeword's is (R206), under key 1 (low 256
bits) and key 2. -/
def xtsEnc (k : BitVec 512) (tw : BitVec 128) (l : List Byte) : List Byte :=
  let kb := bytesOf 64 k.toNat
  let t := BitVec.ofNat 128 (ofBytes (aesEnc (roundKeys (kb.drop 32)) (bytesOf 16 tw.toNat)))
  xtsRun (aesEnc (roundKeys (kb.take 32))) t (chunks 16 (l.length / 16) l)
def xtsDec (k : BitVec 512) (tw : BitVec 128) (l : List Byte) : List Byte :=
  let kb := bytesOf 64 k.toNat
  let t := BitVec.ofNat 128 (ofBytes (aesEnc (roundKeys (kb.drop 32)) (bytesOf 16 tw.toNat)))
  xtsRun (aesDec (roundKeys (kb.take 32))) t (chunks 16 (l.length / 16) l)

/-! ### AES-256 key wrap (SP 800-38F, R425) -/

/-- One step of the unwrapping: counter `t` on semiblock t of n, in turn (A and the semiblocks). -/
def kwStep (ks : List (List Byte)) (n : Nat) (st : List Byte × List (List Byte)) (t : Nat) : List Byte × List (List Byte) :=
  let i := (t - 1) % n
  let b := aesDec ks (xorBytes st.1 (bytesOf 8 t).reverse ++ st.2.getD i [])
  (b.take 8, lset st.2 i (b.drop 8))

/-- Key unwrap: none when the integrity check fails. -/
def kwUnwrap (k : List Byte) (l : List Byte) : Option (List Byte) :=
  let n := l.length / 8 - 1
  let st := ((List.range (6 * n)).map (fun j => 6 * n - j)).foldl (kwStep (roundKeys k) n) (l.take 8, chunks 8 n (l.drop 8))
  if st.1 = List.replicate 8 0xA6 then some st.2.flatten else none

end Sys2Proof.Machine
end

