-- ==== Sys2Proof/Config.lean ====
section
/-!
DEFINITION. What one part or its makers fix and the spec does not (fuses, the silicon revision), the functions the spec
takes from published standards without restating them, and the free values: constants without a body, so that nothing can
be proved of the value they take.
-/
namespace Sys2Proof.Config

/-- SYS_DIEID, the unique die identifier in the fuses (R38). -/
opaque dieId : BitVec 64
/-- SYS_SILREV: metal and base revision (R38). -/
opaque silRev : BitVec 16
/-- Whether SYS_CAPS.fgrade reports the 1.6 GHz grade (R2). -/
opaque fastGrade : Bool

/-- The free value of a point at which the spec states none: the n-th time one is met. -/
opaque free : Nat → BitVec 64

/-- The factory calibration value in the fuses for the item at CAL page offset 0x040 + 4k (R501, R502). -/
opaque calFact : Nat → BitVec 8
/-- The fuse map revision that CAL_FUSEST reports (R502). -/
opaque fuseMapRev : BitVec 8

/-- mvendorid, marchid, mimpid and mconfigptr of the rider cores, by CSR number. -/
opaque idCsr : Nat → BitVec 64
/-- Whether mtval and stval hold the instruction's bits on an illegal-instruction exception, or 0: the privileged specification
leaves it to the implementation. -/
opaque illegalBits : Bool

/-- The bytes of the boot ROM (R402). -/
opaque romByte : Nat → BitVec 8

/-- ML-DSA-65 verification of FIPS 204, pure form: public key, message, context string, signature (R128). -/
opaque mldsaVerify : List Byte → List Byte → List Byte → List Byte → Bool
/-- Public key of ML-DSA-65 KeyGen from ξ (R423). -/
opaque mldsaPub : BitVec 256 → List Byte
/-- ML-DSA-65 signature under the key of ξ: message, context string (R423, R430). -/
opaque mldsaSign : BitVec 256 → List Byte → List Byte → List Byte
/-- The provisioning key in mask ROM (R419). -/
opaque provKey : List Byte
/-- The ROM program set of the media channels at entry k, for the entries the spec does not print (R202). -/
opaque medRom : Nat → BitVec 64
/-- SET FEATURES for an interface mode at a rate: the feature address, then its parameters P1 to P4 (R194, R196: the ROM program set's). -/
opaque ifFeature : Nat → Nat → BitVec 40
/-- Whether a program position past entry 1,023 is the position modulo 1,024; where it is not, a load drops what lies there and the
fetch reads a word that the spec does not state (R202). -/
opaque programWrap : Bool
opaque programPast : Nat → BitVec 64
/-- Which of several free entries of the torn-operation log is taken (R215 does not say). -/
opaque tornPick : Nat → Nat → Nat
/-- Whether a region temperature between two whole degrees reads the upper one (R119 does not say). -/
opaque tempUp : Int → Bool
/-- The set of the host-line filter that a line belongs to (R442 gives no index function). -/
opaque filterIndex : Nat → Nat
/-- The SEC-DED code over the 512 data bits of a DRAM line, and the check of its line address bits [37:6] (R285 names neither code). -/
opaque secDed : BitVec 512 → BitVec 11
opaque addrCheck : BitVec 32 → BitVec 16
/-- Where HDEC's bit-flipping stops (R233): tier, codeword bytes, iteration cap; the bytes and the iterations taken. -/
opaque hardDecode : Nat → List Byte → Nat → List Byte × Nat
/-- Where SDEC's min-sum stops (R235): tier, the centre, low and high reads, iteration cap. -/
opaque softDecode : Nat → List Byte → List Byte → List Byte → Nat → List Byte × Nat
/-- The tokens that LZE chooses for a block (R237). -/
opaque lzTokens : List Byte → List Byte

/-- Boot ROM and levee ROM versions, as measurement 1 reports them (R431). -/
opaque romVersions : List Byte
/-- The leaf key of an SPDM certificate chain (R430). -/
opaque leafKey : List Byte → List Byte
/-- The fields after the header of an SPDM response of DSP0274: request code, request, what SEC answers from. -/
opaque spdmBody : Nat → List Byte → List Byte → List Byte

end Sys2Proof.Config
end

