-- ==== Sys2Proof/Machine/RegMap.lean ====
section
/-!
DEFINITION. The block page map (R36), the page header (R28) and every register of the window with its access masks and
reset value (R9), transcribed from the register tables of the chapters.
-/
namespace Sys2Proof.Machine

/-- The blocks that own pages of the window (R36). -/
inductive Block where
  | sys | pmu | lve | sec | cal | aon | pio | hts | ccx | atu | dma | dmac | ocn | rsv | sq | fcc | frg | med | medc | mgd | drc | hif | ply | trc
deriving DecidableEq, Repr

/-- A row of the block page map: type code, base, number of 4 KiB pages, one instance per page or one block. -/
structure BlockRow where
  blk  : Block
  type : Nat
  base : Nat
  n    : Nat
  inst : Bool
deriving DecidableEq, Repr

/-- A register word: window page of its block, page offset, bits that take the written value (`rw`), that a 1 clears
(`w1c`), that only the levee writes (`sp`), that LOCK closes (`rwl`), that act and read zero (`wo`); the reset value; and
whether it is a word of a declared 64-bit register. -/
structure RegDef where
  off   : Nat
  rw    : Nat := 0
  w1c   : Nat := 0
  sp    : Nat := 0
  rwl   : Nat := 0
  wo    : Nat := 0
  reset : Nat := 0
  wide  : Bool := false
deriving DecidableEq, Repr

/-- The block page map (R36). -/
def blockMap : List BlockRow :=
  [ ⟨.sys, 0x0001, 0x0000000, 1, false⟩
  , ⟨.pmu, 0x0002, 0x0001000, 3, false⟩
  , ⟨.lve, 0x0003, 0x0008000, 2, false⟩
  , ⟨.sec, 0x0004, 0x0010000, 4, false⟩
  , ⟨.cal, 0x0005, 0x0018000, 1, false⟩
  , ⟨.aon, 0x0006, 0x001C000, 1, false⟩
  , ⟨.pio, 0x0007, 0x0020000, 2, false⟩
  , ⟨.hts, 0x0008, 0x0040000, 4, false⟩
  , ⟨.ccx, 0x0009, 0x0050000, 4, true⟩
  , ⟨.atu, 0x000A, 0x0058000, 1, false⟩
  , ⟨.dma, 0x000B, 0x0100000, 64, true⟩
  , ⟨.dmac, 0x000C, 0x0140000, 1, false⟩
  , ⟨.ocn, 0x000D, 0x0200000, 48, true⟩
  , ⟨.rsv, 0x000E, 0x0300000, 4, false⟩
  , ⟨.sq, 0x000F, 0x0400000, 128, true⟩
  , ⟨.fcc, 0x0010, 0x0500000, 4, false⟩
  , ⟨.frg, 0x0011, 0x0600000, 24, true⟩
  , ⟨.med, 0x0012, 0x0700000, 32, true⟩
  , ⟨.medc, 0x0013, 0x0740000, 1, false⟩
  , ⟨.mgd, 0x0014, 0x0750000, 1, false⟩
  , ⟨.drc, 0x0015, 0x0800000, 2, false⟩
  , ⟨.hif, 0x0016, 0x0900000, 4, false⟩
  , ⟨.ply, 0x0017, 0x0A00000, 1, false⟩
  , ⟨.trc, 0x0018, 0x0B00000, 2, false⟩ ]

/-- Window offset of the first page of a block. -/
def blockBase (b : Block) : Nat := ((blockMap.find? (fun r => r.blk == b)).map (·.base)).getD 0

/-- Window offset of page `n` (instance or page index) of a block. -/
def page (b : Block) (n : Nat) : Nat := blockBase b + 0x1000 * n

/-- `n` copies of a register at a stride. -/
def copies (d : RegDef) (n stride : Nat) : List RegDef := (List.range n).map (fun i => { d with off := d.off + stride * i })

/-- The two words of `n` 64-bit registers at a stride. -/
def copies64 (d : RegDef) (n stride : Nat) : List RegDef :=
  (List.range n).flatMap (fun i => [{ d with off := d.off + stride * i, wide := true },
    { d with off := d.off + stride * i + 4, wide := true, reset := 0 }])

/-! Page offsets of the header registers (R28). -/
def hId : Nat := 0x000
def hCaps : Nat := 0x004
def hCtrl : Nat := 0x008
def hStat : Nat := 0x00C
def hEvtRaw : Nat := 0x010
def hEvtEn : Nat := 0x014
def hEvtBase : Nat := 0x018
def hErr : Nat := 0x01C
def hOwner : Nat := 0x020
def hLock : Nat := 0x024

/-! Page offsets of the blocks' registers. -/
/-- SYS_WERR (R39). -/
def sysWerr : Nat := 0x40
/-- SYS_WERR_ADDR (R39). -/
def sysWerrAddr : Nat := 0x44
/-- SYS_DIEID (R38). -/
def sysDieid : Nat := 0x48
/-- SYS_SILREV (R38). -/
def sysSilrev : Nat := 0x50
/-- SYS_FWREV (R38). -/
def sysFwrev : Nat := 0x54
/-- SYS_BOOTSTAT (R38). -/
def sysBootstat : Nat := 0x58
/-- SYS_HOSTDB (R38). -/
def sysHostdb : Nat := 0x5C
/-- SYS_SCRATCH (R38). -/
def sysScratch : Nat := 0x60
/-- SYS_MBOX (R38). -/
def sysMbox : Nat := 0x80
/-- FRGn_CTRL (R120). -/
def frgCtrl : Nat := 0x8
/-- FRGn_STAT (R120). -/
def frgStat : Nat := 0xC
/-- FRGn_CTXSEL (R120). -/
def frgCtxsel : Nat := 0x40
/-- FRGn_SEQCFG (R120). -/
def frgSeqcfg : Nat := 0x44
/-- FRGn_CTXSTAT (R120). -/
def frgCtxstat : Nat := 0x48
/-- FRGn_STALL (R120). -/
def frgStall : Nat := 0x4C
/-- FRGn_HG_CFG (R120). -/
def frgHgCfg : Nat := 0x50
/-- FRGn_HGSTAT (R120). -/
def frgHgstat : Nat := 0x60
/-- FRGn_PARK (R120). -/
def frgPark : Nat := 0x64
/-- FRGn_CYCLE (R120). -/
def frgCycle : Nat := 0x68
/-- FRGn_OPSEL (R120). -/
def frgOpsel : Nat := 0x70
/-- FRGn_OPSTAT (R120). -/
def frgOpstat : Nat := 0x74
/-- FRGn_TEMP (R120). -/
def frgTemp : Nat := 0x78
/-- FRGn_LINE_FAULT (R89). -/
def frgLineFault : Nat := 0x200
/-- FRGn_LINE_TILES (R89). -/
def frgLineTiles : Nat := 0x204
/-- FRGn_LINE_CYCLE (R89). -/
def frgLineCycle : Nat := 0x208
/-- FRGn_CHAIN (R93). -/
def frgChain : Nat := 0x210
/-- PMU_STAT (R392). -/
def pmuStat : Nat := 0xC
/-- PMU_MODEREQ (R392). -/
def pmuModereq : Nat := 0x40
/-- PMU_MODESTAT (R392). -/
def pmuModestat : Nat := 0x44
/-- PMU_CFG (R392). -/
def pmuCfg : Nat := 0x48
/-- PMU_DRMASK (R392). -/
def pmuDrmask : Nat := 0x4C
/-- PMU_WAKESRC (R392). -/
def pmuWakesrc : Nat := 0x50
/-- PMU_TRLAT (R392). -/
def pmuTrlat : Nat := 0x54
/-- PMU_RSTREQ (R407). -/
def pmuRstreq : Nat := 0x80
/-- PMU_FRGRST (R407). -/
def pmuFrgrst : Nat := 0x84
/-- PMU_CORERST (R407). -/
def pmuCorerst : Nat := 0x88
/-- PMU_RSTCAUSE (R407). -/
def pmuRstcause : Nat := 0x8C
/-- PMU_RSTCNT (R407). -/
def pmuRstcnt : Nat := 0x90
/-- PMU_STRAP (R407). -/
def pmuStrap : Nat := 0x94
/-- PMU_FPLLA (R392). -/
def pmuFplla : Nat := 0x40
/-- PMU_FPLLB (R392). -/
def pmuFpllb : Nat := 0x44
/-- PMU_CPLL (R392). -/
def pmuCpll : Nat := 0x48
/-- PMU_PLLSTAT (R392). -/
def pmuPllstat : Nat := 0x4C
/-- PMU_AVS (R392). -/
def pmuAvs : Nat := 0x50
/-- PMU_RAIL (R392). -/
def pmuRail : Nat := 0x60
/-- PMU_PMBCMD (R392). -/
def pmuPmbcmd : Nat := 0x80
/-- PMU_PMBDATA (R392). -/
def pmuPmbdata : Nat := 0x84
/-- PMU_PMBSTAT (R392). -/
def pmuPmbstat : Nat := 0x88
/-- PMU_PWR (R392). -/
def pmuPwr : Nat := 0x90
/-- PMU_DRNCFG (R392). -/
def pmuDrncfg : Nat := 0x40
/-- PMU_DRNJLEN (R392). -/
def pmuDrnjlen : Nat := 0x44
/-- PMU_DRNTBL (R392). -/
def pmuDrntbl : Nat := 0x48
/-- PMU_DRNTCNT (R392). -/
def pmuDrntcnt : Nat := 0x50
/-- PMU_DRNPROG (R392). -/
def pmuDrnprog : Nat := 0x54
/-- PMU_DRNSTAT (R392). -/
def pmuDrnstat : Nat := 0x58
/-- PMU_THRCFG (R392). -/
def pmuThrcfg : Nat := 0x60
/-- PMU_THRSTAT (R392). -/
def pmuThrstat : Nat := 0x64
/-- PMU_TEMPMAX (R392). -/
def pmuTempmax : Nat := 0x68
/-- LVE_CTRL (R433). -/
def lveCtrl : Nat := 0x8
/-- LVE_STAT (R433). -/
def lveStat : Nat := 0xC
/-- LVE_WDCFG (R433). -/
def lveWdcfg : Nat := 0x40
/-- LVE_WDTO (R433). -/
def lveWdto : Nat := 0x44
/-- LVE_WDHTS (R433). -/
def lveWdhts : Nat := 0x54
/-- LVE_WDSTAT (R433). -/
def lveWdstat : Nat := 0x58
/-- LVE_TRIP (R433). -/
def lveTrip : Nat := 0x5C
/-- LVE_VMON (R433). -/
def lveVmon : Nat := 0x60
/-- LVE_WINH (R433). -/
def lveWinh : Nat := 0x64
/-- LVE_WINHSTAT (R433). -/
def lveWinhstat : Nat := 0x68
/-- LVE_WINHCFG (R433). -/
def lveWinhcfg : Nat := 0x6C
/-- LVE_ALOG0 (R433). -/
def lveAlog0 : Nat := 0x70
/-- LVE_ALOG1 (R433). -/
def lveAlog1 : Nat := 0x74
/-- LVE_ALOGCTL (R433). -/
def lveAlogctl : Nat := 0x78
/-- LVE_LASTFLT (R433). -/
def lveLastflt : Nat := 0x7C
/-- LVE_SELFWD (R433). -/
def lveSelfwd : Nat := 0x80
/-- LVE_SELFKICK (R433). -/
def lveSelfkick : Nat := 0x84
/-- LVE_MBOX (R433). -/
def lveMbox : Nat := 0x40
/-- SEC_STAT (R434). -/
def secStat : Nat := 0xC
/-- SEC_CMD (R434). -/
def secCmd : Nat := 0x40
/-- SEC_ARG (R434). -/
def secArg : Nat := 0x48
/-- SEC_RES (R434). -/
def secRes : Nat := 0x50
/-- SEC_KEYSTAT (R434). -/
def secKeystat : Nat := 0x54
/-- SEC_FWSVN (R434). -/
def secFwsvn : Nat := 0x58
/-- SEC_NONCE (R434). -/
def secNonce : Nat := 0x60
/-- SEC_TAMPER (R434). -/
def secTamper : Nat := 0x80
/-- SEC_DBGEXP (R434). -/
def secDbgexp : Nat := 0x88
/-- SEC_DBGPERM (R434). -/
def secDbgperm : Nat := 0x90
/-- SEC_IDPUB (R434). -/
def secIdpub : Nat := 0x100
/-- CAL_TS (R502). -/
def calTs : Nat := 0x40
/-- CAL_LDO (R502). -/
def calLdo : Nat := 0xA4
/-- CAL_CMP0 (R502). -/
def calCmp0 : Nat := 0x104
/-- CAL_CMP2 (R502). -/
def calCmp2 : Nat := 0x10C
/-- CAL_CMP3 (R502). -/
def calCmp3 : Nat := 0x110
/-- CAL_CMP4 (R502). -/
def calCmp4 : Nat := 0x114
/-- CAL_RCOSC (R502). -/
def calRcosc : Nat := 0x11C
/-- CAL_SOCV (R502). -/
def calSocv : Nat := 0x120
/-- CAL_PEZ (R502). -/
def calPez : Nat := 0x124
/-- CAL_FUSEST (R502). -/
def calFusest : Nat := 0x134
/-- CAL_XTAL (R502). -/
def calXtal : Nat := 0x138
/-- CAL_CLRALL (R502). -/
def calClrall : Nat := 0x13C
/-- AON_CTRL (R393). -/
def aonCtrl : Nat := 0x8
/-- AON_STAT (R393). -/
def aonStat : Nat := 0xC
/-- AON_TIME (R393). -/
def aonTime : Nat := 0x40
/-- AON_TSET (R393). -/
def aonTset : Nat := 0x48
/-- AON_ALARM (R393). -/
def aonAlarm : Nat := 0x50
/-- AON_WAKE (R393). -/
def aonWake : Nat := 0x58
/-- AON_DRNLOG (R393). -/
def aonDrnlog : Nat := 0x5C
/-- AON_TLSEL (R218). -/
def aonTlsel : Nat := 0x60
/-- AON_TLD (R218). -/
def aonTld : Nat := 0x64
/-- AON_TLCTRL (R218). -/
def aonTlctrl : Nat := 0x74
/-- AON_TLSTAT (R218). -/
def aonTlstat : Nat := 0x78
/-- AON_CMP0_CFG (R393). -/
def aonCmp0Cfg : Nat := 0x80
/-- AON_CMP0_STAT (R393). -/
def aonCmp0Stat : Nat := 0x84
/-- AON_CMP1_CFG (R393). -/
def aonCmp1Cfg : Nat := 0x88
/-- AON_CMP1_STAT (R393). -/
def aonCmp1Stat : Nat := 0x8C
/-- AON_CMP2_CFG (R393). -/
def aonCmp2Cfg : Nat := 0x90
/-- AON_CMP2_STAT (R393). -/
def aonCmp2Stat : Nat := 0x94
/-- AON_CMP3_CFG (R393). -/
def aonCmp3Cfg : Nat := 0x98
/-- AON_CMP3_STAT (R393). -/
def aonCmp3Stat : Nat := 0x9C
/-- AON_CMP4_CFG (R393). -/
def aonCmp4Cfg : Nat := 0xA0
/-- AON_CMP4_STAT (R393). -/
def aonCmp4Stat : Nat := 0xA4
/-- AON_CMP5_CFG (R393). -/
def aonCmp5Cfg : Nat := 0xA8
/-- AON_CMP5_STAT (R393). -/
def aonCmp5Stat : Nat := 0xAC
/-- PIO_PIN (R489). -/
def pioPin : Nat := 0x40
/-- PIO_PSRC (R489). -/
def pioPsrc : Nat := 0x100
/-- PIO_PINSTAT (R489). -/
def pioPinstat : Nat := 0x200
/-- PIO_IN0 (R489). -/
def pioIn0 : Nat := 0x300
/-- PIO_IN1 (R489). -/
def pioIn1 : Nat := 0x304
/-- PIO_OUT0 (R489). -/
def pioOut0 : Nat := 0x308
/-- PIO_OUT1 (R489). -/
def pioOut1 : Nat := 0x30C
/-- PIO_OE0 (R489). -/
def pioOe0 : Nat := 0x310
/-- PIO_OE1 (R489). -/
def pioOe1 : Nat := 0x314
/-- PIO_OUTSET0 (R489). -/
def pioOutset0 : Nat := 0x318
/-- PIO_OUTSET1 (R489). -/
def pioOutset1 : Nat := 0x31C
/-- PIO_OUTCLR0 (R489). -/
def pioOutclr0 : Nat := 0x320
/-- PIO_OUTCLR1 (R489). -/
def pioOutclr1 : Nat := 0x324
/-- PIO_BANKSTAT (R489). -/
def pioBankstat : Nat := 0x328
/-- PIO_CONFLICT (R489). -/
def pioConflict : Nat := 0x32C
/-- PIO_CFLTPIN (R489). -/
def pioCfltpin : Nat := 0x330
/-- PIO_EVLOST (R489). -/
def pioEvlost : Nat := 0x334
/-- PIO_SWBUSY (R489). -/
def pioSwbusy : Nat := 0x338
/-- PIO_EVIN_CFG (R489). -/
def pioEvinCfg : Nat := 0x40
/-- PIO_EVTS (R489). -/
def pioEvts : Nat := 0x80
/-- HTS_CTRL (R373). -/
def htsCtrl : Nat := 0x8
/-- HTS_STAT (R373). -/
def htsStat : Nat := 0xC
/-- HTS_CMD (R373). -/
def htsCmd : Nat := 0x40
/-- HTS_CMDSTAT (R373). -/
def htsCmdstat : Nat := 0x44
/-- HTS_EQHWM (R373). -/
def htsEqhwm : Nat := 0x48
/-- HTS_EQHELD (R373). -/
def htsEqheld : Nat := 0x4C
/-- HTS_TRQ (R373). -/
def htsTrq : Nat := 0x50
/-- HTS_TRLOST (R373). -/
def htsTrlost : Nat := 0x54
/-- HTS_UNRT (R373). -/
def htsUnrt : Nat := 0x58
/-- HTS_STRAY (R373). -/
def htsStray : Nat := 0x5C
/-- HTS_SIGERR (R373). -/
def htsSigerr : Nat := 0x60
/-- HTS_CORE (R373). -/
def htsCore : Nat := 0x64
/-- HTS_PARKLOG (R373). -/
def htsParklog : Nat := 0x74
/-- HTS_PARKCTL (R373). -/
def htsParkctl : Nat := 0x78
/-- HTS_TSEL (R373). -/
def htsTsel : Nat := 0x40
/-- HTS_TDR (R373). -/
def htsTdr : Nat := 0x44
/-- HTS_TDW (R373). -/
def htsTdw : Nat := 0x80
/-- HTS_RSEL (R373). -/
def htsRsel : Nat := 0x40
/-- HTS_RHEAD (R373). -/
def htsRhead : Nat := 0x44
/-- HTS_PSEL (R373). -/
def htsPsel : Nat := 0x48
/-- HTS_PTGT (R373). -/
def htsPtgt : Nat := 0x4C
/-- HTS_STSEL (R373). -/
def htsStsel : Nat := 0x40
/-- HTS_STDATA (R373). -/
def htsStdata : Nat := 0x48
/-- HTS_DLAT (R373). -/
def htsDlat : Nat := 0x50
/-- CCXc_CTRL (R351). -/
def ccxCtrl : Nat := 0x8
/-- CCXc_STAT (R351). -/
def ccxStat : Nat := 0xC
/-- CCXc_BANKSTAT (R351). -/
def ccxBankstat : Nat := 0x40
/-- CCXc_BANKTHR (R351). -/
def ccxBankthr : Nat := 0x44
/-- CCXc_FPOWN (R351). -/
def ccxFpown : Nat := 0x54
/-- CCXc_WBERR (R351). -/
def ccxWberr : Nat := 0x58
/-- CCXc_WBADDR (R351). -/
def ccxWbaddr : Nat := 0x60
/-- CCXc_FFLT (R351). -/
def ccxFflt : Nat := 0x68
/-- CCXc_FFPC (R351). -/
def ccxFfpc : Nat := 0x70
/-- CCXc_STSEL (R351). -/
def ccxStsel : Nat := 0x78
/-- CCXc_STDATA (R351). -/
def ccxStdata : Nat := 0x80
/-- ATU_CTXBASE (R352). -/
def atuCtxbase : Nat := 0x40
/-- ATU_CTXN (R352). -/
def atuCtxn : Nat := 0x48
/-- ATU_INVAL (R352). -/
def atuInval : Nat := 0x4C
/-- ATU_INVADDR (R352). -/
def atuInvaddr : Nat := 0x50
/-- ATU_INVSTAT (R352). -/
def atuInvstat : Nat := 0x58
/-- ATU_FLT (R352). -/
def atuFlt : Nat := 0x5C
/-- ATU_FADDR (R352). -/
def atuFaddr : Nat := 0x60
/-- DMAn_CTRL (R320). -/
def dmaCtrl : Nat := 0x8
/-- DMAn_STAT (R320). -/
def dmaStat : Nat := 0xC
/-- DMAn_PC (R320). -/
def dmaPc : Nat := 0x40
/-- DMAn_TAIL (R320). -/
def dmaTail : Nat := 0x48
/-- DMAn_CFG (R320). -/
def dmaCfg : Nat := 0x50
/-- DMAn_APPEND (R320). -/
def dmaAppend : Nat := 0x54
/-- DMAn_FAULT (R320). -/
def dmaFault : Nat := 0x58
/-- DMAn_FADDR (R320). -/
def dmaFaddr : Nat := 0x60
/-- DMA_PACECFG (R321). -/
def dmaPacecfg : Nat := 0x40
/-- DMA_STSEL (R321). -/
def dmaStsel : Nat := 0x44
/-- DMA_STDATA (R321). -/
def dmaStdata : Nat := 0x48
/-- DMA_ACTIVE (R321). -/
def dmaActive : Nat := 0x50
/-- DMA_PARKED (R321). -/
def dmaParked : Nat := 0x58
/-- DMA_SUSP (R321). -/
def dmaSusp : Nat := 0x60
/-- DMA_ERRMAP (R321). -/
def dmaErrmap : Nat := 0x68
/-- DMA_BUFUSE (R321). -/
def dmaBufuse : Nat := 0x70
/-- OCNr_CTRL (R270). -/
def ocnCtrl : Nat := 0x8
/-- OCNr_STAT (R270). -/
def ocnStat : Nat := 0xC
/-- OCNr_PORT (R270). -/
def ocnPort : Nat := 0x40
/-- OCNr_TMO (R270). -/
def ocnTmo : Nat := 0x44
/-- OCNr_DEAD (R270). -/
def ocnDead : Nat := 0x48
/-- OCNr_CLOSE (R270). -/
def ocnClose : Nat := 0x4C
/-- OCNr_EPOCH (R270). -/
def ocnEpoch : Nat := 0x50
/-- OCNr_WHEEL (R270). -/
def ocnWheel : Nat := 0x54
/-- OCNr_STSEL (R270). -/
def ocnStsel : Nat := 0x58
/-- OCNr_STDATA (R270). -/
def ocnStdata : Nat := 0x60
/-- RSV_STAT (R292). -/
def rsvStat : Nat := 0xC
/-- RSV_BHAND (R292). -/
def rsvBhand : Nat := 0x40
/-- RSV_HSTAT (R292). -/
def rsvHstat : Nat := 0x44
/-- RSV_VIOL (R292). -/
def rsvViol : Nat := 0x48
/-- RSV_VWORD (R292). -/
def rsvVword : Nat := 0x4C
/-- RSV_COLL (R292). -/
def rsvColl : Nat := 0x50
/-- RSV_CWORD (R292). -/
def rsvCword : Nat := 0x54
/-- RSV_CNT (R292). -/
def rsvCnt : Nat := 0x58
/-- RSV_BOWN (R292). -/
def rsvBown : Nat := 0x100
/-- SQq_CTRL (R191). -/
def sqCtrl : Nat := 0x8
/-- SQq_STAT (R191). -/
def sqStat : Nat := 0xC
/-- SQq_WEIR (R191). -/
def sqWeir : Nat := 0x40
/-- SQq_XCNT (R191). -/
def sqXcnt : Nat := 0x44
/-- SQq_LOST (R191). -/
def sqLost : Nat := 0x48
/-- FCC_CTRL (R146). -/
def fccCtrl : Nat := 0x8
/-- FCC_STAT (R146). -/
def fccStat : Nat := 0xC
/-- FCC_STGCFG (R146). -/
def fccStgcfg : Nat := 0x40
/-- FCC_LRES (R146). -/
def fccLres : Nat := 0x44
/-- FCC_LREC (R146). -/
def fccLrec : Nat := 0x48
/-- FCC_LLOC (R146). -/
def fccLloc : Nat := 0x4C
/-- FCC_LPOS (R146). -/
def fccLpos : Nat := 0x50
/-- FCC_LLEN (R146). -/
def fccLlen : Nat := 0x54
/-- FCC_LDONE (R146). -/
def fccLdone : Nat := 0x58
/-- FCC_SVN (R146). -/
def fccSvn : Nat := 0x5C
/-- FCC_SESS (R146). -/
def fccSess : Nat := 0x60
/-- FCC_SPICFG (R146). -/
def fccSpicfg : Nat := 0x64
/-- FCC_LCNT (R146). -/
def fccLcnt : Nat := 0x68
/-- FCC_LTIME (R146). -/
def fccLtime : Nat := 0x6C
/-- FCC_DIGEST (R146). -/
def fccDigest : Nat := 0x80
/-- FCC_TAG (R146). -/
def fccTag : Nat := 0xC0
/-- FCC_SCRCTRL (R169). -/
def fccScrctrl : Nat := 0x40
/-- FCC_SCRRATE (R169). -/
def fccScrrate : Nat := 0x44
/-- FCC_SCRCLS (R169). -/
def fccScrcls : Nat := 0x48
/-- FCC_SCRPOS (R169). -/
def fccScrpos : Nat := 0x4C
/-- FCC_SCRPASS (R169). -/
def fccScrpass : Nat := 0x50
/-- FCC_SCRCORR (R169). -/
def fccScrcorr : Nat := 0x54
/-- FCC_SCRUNC (R169). -/
def fccScrunc : Nat := 0x58
/-- FCC_SCRSKIP (R169). -/
def fccScrskip : Nat := 0x5C
/-- FCC_SCRLAST (R169). -/
def fccScrlast : Nat := 0x60
/-- FCC_UCQ (R169). -/
def fccUcq : Nat := 0x64
/-- FCC_UCQPASS (R169). -/
def fccUcqpass : Nat := 0x68
/-- FCC_UCQCTL (R169). -/
def fccUcqctl : Nat := 0x6C
/-- FCC_SCRHOLD (R169). -/
def fccScrhold : Nat := 0x70
/-- FCC_INTEG (R169). -/
def fccInteg : Nat := 0x74
/-- FCC_CANARY (R169). -/
def fccCanary : Nat := 0x78
/-- FCC_SCRTMR (R169). -/
def fccScrtmr : Nat := 0x7C
/-- FCC_UCLOST (R169). -/
def fccUclost : Nat := 0x80
/-- FCC_CAPCTRL (R169). -/
def fccCapctrl : Nat := 0x8
/-- FCC_CAPSTAT (R169). -/
def fccCapstat : Nat := 0xC
/-- FCC_CAPREG (R169). -/
def fccCapreg : Nat := 0x40
/-- FCC_CAPCFG (R169). -/
def fccCapcfg : Nat := 0x44
/-- FCC_CAPMATCH (R169). -/
def fccCapmatch : Nat := 0x48
/-- FCC_CAPDST (R169). -/
def fccCapdst : Nat := 0x50
/-- FCC_CAPAT (R169). -/
def fccCapat : Nat := 0x58
/-- MEDn_CTRL (R222). -/
def medCtrl : Nat := 0x8
/-- MEDn_STAT (R222). -/
def medStat : Nat := 0xC
/-- MEDn_CMD (R222). -/
def medCmd : Nat := 0x40
/-- MEDn_CMDGO (R222). -/
def medCmdgo : Nat := 0x60
/-- MEDn_CFG (R222). -/
def medCfg : Nat := 0x64
/-- MEDn_IFCFG (R222). -/
def medIfcfg : Nat := 0x68
/-- MEDn_GEOM (R222). -/
def medGeom : Nat := 0x6C
/-- MEDn_TIM (R222). -/
def medTim : Nat := 0x70
/-- MEDn_BBBASE (R222). -/
def medBbbase : Nat := 0xB0
/-- MEDn_PATBASE (R222). -/
def medPatbase : Nat := 0xB8
/-- MEDn_PATCTL (R222). -/
def medPatctl : Nat := 0xC0
/-- MEDn_PATINT (R222). -/
def medPatint : Nat := 0xC4
/-- MEDn_PATPOS (R222). -/
def medPatpos : Nat := 0xC8
/-- MEDn_RLSEL (R222). -/
def medRlsel : Nat := 0xCC
/-- MEDn_RLA (R222). -/
def medRla : Nat := 0xD0
/-- MEDn_RLB (R222). -/
def medRlb : Nat := 0xD4
/-- MEDn_LUNSEL (R222). -/
def medLunsel : Nat := 0xD8
/-- MEDn_LUNSTAT (R222). -/
def medLunstat : Nat := 0xDC
/-- MEDn_LUNTIME (R222). -/
def medLuntime : Nat := 0xE0
/-- MEDn_TRNSTAT (R222). -/
def medTrnstat : Nat := 0xE4
/-- MEDn_CNT (R222). -/
def medCnt : Nat := 0xE8
/-- MED_PCTRL (R223). -/
def medPctrl : Nat := 0x40
/-- MED_PSTAT (R223). -/
def medPstat : Nat := 0x44
/-- MED_PLSRC (R223). -/
def medPlsrc : Nat := 0x48
/-- MED_PLCTL (R223). -/
def medPlctl : Nat := 0x50
/-- MED_PLSTAT (R223). -/
def medPlstat : Nat := 0x54
/-- MED_RTYSEL (R223). -/
def medRtysel : Nat := 0x58
/-- MED_RTYA (R223). -/
def medRtya : Nat := 0x5C
/-- MED_RTYB (R223). -/
def medRtyb : Nat := 0x60
/-- MED_KEYSEL (R223). -/
def medKeysel : Nat := 0x64
/-- MED_KEYSTAT (R223). -/
def medKeystat : Nat := 0x68
/-- MED_INHIBIT (R223). -/
def medInhibit : Nat := 0x70
/-- MED_KEY (R223). -/
def medKey : Nat := 0x80
/-- MGD_STAT (R223). -/
def mgdStat : Nat := 0xC
/-- MGD_CORR (R223). -/
def mgdCorr : Nat := 0x44
/-- MGD_DEFER (R223). -/
def mgdDefer : Nat := 0x48
/-- MGD_CNT (R223). -/
def mgdCnt : Nat := 0x4C
/-- DRC_STAT (R293). -/
def drcStat : Nat := 0xC
/-- DRC_CFG (R293). -/
def drcCfg : Nat := 0x40
/-- DRC_HVBASE (R293). -/
def drcHvbase : Nat := 0x44
/-- DRC_HVSIZE (R293). -/
def drcHvsize : Nat := 0x48
/-- DRC_HVCTRL (R293). -/
def drcHvctrl : Nat := 0x4C
/-- DRC_HVSTAT (R293). -/
def drcHvstat : Nat := 0x50
/-- DRC_CECNT (R293). -/
def drcCecnt : Nat := 0x58
/-- DRC_UECNT (R293). -/
def drcUecnt : Nat := 0x5C
/-- DRC_UELOG (R293). -/
def drcUelog : Nat := 0x60
/-- DRC_UEADDR (R293). -/
def drcUeaddr : Nat := 0x68
/-- DRC_TRN (R293). -/
def drcTrn : Nat := 0x40
/-- HIF_STAT (R458). -/
def hifStat : Nat := 0xC
/-- HIF_MSIX (R458). -/
def hifMsix : Nat := 0x40
/-- HIF_MSIXDROP (R458). -/
def hifMsixdrop : Nat := 0x44
/-- HIF_DCMD (R458). -/
def hifDcmd : Nat := 0x48
/-- HIF_DBBASE (R458). -/
def hifDbbase : Nat := 0x4C
/-- HIF_BITMO (R458). -/
def hifBitmo : Nat := 0x50
/-- HIF_BICNT (R458). -/
def hifBicnt : Nat := 0x54
/-- HIF_PABASE (R458). -/
def hifPabase : Nat := 0x58
/-- HIF_PBRID (R458). -/
def hifPbrid : Nat := 0x60
/-- HIF_MEMDROP (R458). -/
def hifMemdrop : Nat := 0x64
/-- HIF_PTMT (R458). -/
def hifPtmt : Nat := 0x68
/-- HIF_PTMA (R458). -/
def hifPtma : Nat := 0x70
/-- HIF_OW_LO (R458). -/
def hifOwLo : Nat := 0x40
/-- HIF_OW_GEOM (R458). -/
def hifOwGeom : Nat := 0x44
/-- HIF_OW_HOST (R458). -/
def hifOwHost : Nat := 0x48
/-- HIF_PW_CFG (R458). -/
def hifPwCfg : Nat := 0x40
/-- HIF_PW_BASE (R458). -/
def hifPwBase : Nat := 0x44
/-- HIF_PW_SIZE (R458). -/
def hifPwSize : Nat := 0x48
/-- HIF_PW_TGT (R458). -/
def hifPwTgt : Nat := 0x50
/-- HIF_PWDROP (R458). -/
def hifPwdrop : Nat := 0x140
/-- HIF_DBSEL (R458). -/
def hifDbsel : Nat := 0x40
/-- HIF_DBVAL (R458). -/
def hifDbval : Nat := 0x44
/-- HIF_NVSEL (R458). -/
def hifNvsel : Nat := 0x48
/-- HIF_NVCC (R458). -/
def hifNvcc : Nat := 0x4C
/-- HIF_NVCSTS (R458). -/
def hifNvcsts : Nat := 0x50
/-- HIF_NVAQA (R458). -/
def hifNvaqa : Nat := 0x54
/-- HIF_NVASQ (R458). -/
def hifNvasq : Nat := 0x58
/-- HIF_NVACQ (R458). -/
def hifNvacq : Nat := 0x60
/-- HIF_NVPEND (R458). -/
def hifNvpend : Nat := 0x68
/-- HIF_NVCAPTO (R458). -/
def hifNvcapto : Nat := 0x70
/-- HIF_TDISEL (R458). -/
def hifTdisel : Nat := 0x74
/-- HIF_TDISTAT (R458). -/
def hifTdistat : Nat := 0x78
/-- PLY_CTRL (R474). -/
def plyCtrl : Nat := 0x8
/-- PLY_STAT (R474). -/
def plyStat : Nat := 0xC
/-- PLY_GEN (R474). -/
def plyGen : Nat := 0x40
/-- PLY_TAKE (R474). -/
def plyTake : Nat := 0x44
/-- PLY_PEERID (R474). -/
def plyPeerid : Nat := 0x48
/-- PLY_PEERSEEN (R474). -/
def plyPeerseen : Nat := 0x50
/-- PLY_TXBASE (R474). -/
def plyTxbase : Nat := 0x58
/-- PLY_TXCFG (R474). -/
def plyTxcfg : Nat := 0x60
/-- PLY_TXTAIL (R474). -/
def plyTxtail : Nat := 0x68
/-- PLY_TXACK (R474). -/
def plyTxack : Nat := 0x70
/-- PLY_TXSENT (R474). -/
def plyTxsent : Nat := 0x78
/-- PLY_RXBASE (R474). -/
def plyRxbase : Nat := 0x80
/-- PLY_RXDATA (R474). -/
def plyRxdata : Nat := 0x88
/-- PLY_RXCFG (R474). -/
def plyRxcfg : Nat := 0x90
/-- PLY_RXSEQ (R474). -/
def plyRxseq : Nat := 0x98
/-- PLY_RXFREE (R474). -/
def plyRxfree : Nat := 0xA0
/-- PLY_LOSTTO (R474). -/
def plyLostto : Nat := 0xA8
/-- PLY_ERR (R474). -/
def plyErr : Nat := 0xAC
/-- PLY_TRN (R474). -/
def plyTrn : Nat := 0xB0
/-- TRC_OP_CFG (R271). -/
def trcOpCfg : Nat := 0x40
/-- TRC_OP_MATCH (R271). -/
def trcOpMatch : Nat := 0x44
/-- TRC_OP_CNT (R271). -/
def trcOpCnt : Nat := 0x48
/-- TRC_OPQ (R271). -/
def trcOpq : Nat := 0x80
/-- TRC_PRB (R168). -/
def trcPrb : Nat := 0x40
/-- TRC_PRBSTAT (R168). -/
def trcPrbstat : Nat := 0x80

/-- Registers of SYS page 0. -/
def defsSys0 : List RegDef :=
  [{ off := 0x40, w1c := 0x3 },
    { off := 0x44 }] ++
  copies64 { off := 0x48 } 1 0x8 ++
  [{ off := 0x50 },
    { off := 0x54, rw := 0xFFFFFFFF, rwl := 0xFFFFFFFF },
    { off := 0x58 },
    { off := 0x5C, wo := 0xFFFFFFFF }] ++
  copies { off := 0x60, rw := 0xFFFFFFFF } 8 0x4 ++
  copies { off := 0x80, rw := 0xFFFFFFFF } 32 0x4

/-- Registers of PMU page 0. -/
def defsPmu0 : List RegDef :=
  [{ off := 0xC },
    { off := 0x40, wo := 0xF },
    { off := 0x44 },
    { off := 0x48, rw := 0x1, rwl := 0x1 },
    { off := 0x4C, rw := 0xFFFFFF, rwl := 0xFFFFFF },
    { off := 0x50 },
    { off := 0x54 },
    { off := 0x80, sp := 0x1, wo := 0x3 },
    { off := 0x84, wo := 0xFFFFFF },
    { off := 0x88, wo := 0xF },
    { off := 0x8C },
    { off := 0x90, rw := 0xFFFF, rwl := 0xFFFF },
    { off := 0x94 }]

/-- Registers of PMU page 1. -/
def defsPmu1 : List RegDef :=
  [{ off := 0x40, rw := 0x1FF, rwl := 0x1FF, reset := 0x80 },
    { off := 0x44, rw := 0x1FF, rwl := 0x1FF, reset := 0x80 },
    { off := 0x48, rw := 0x3F, rwl := 0x3F, reset := 0x3C },
    { off := 0x4C }] ++
  copies { off := 0x50 } 2 0x4 ++
  copies { off := 0x60, rw := 0xFFFFF, rwl := 0xFFFFF } 8 0x4 ++
  [{ off := 0x80, rw := 0x77FF, rwl := 0x77FF, wo := 0x80000000 },
    { off := 0x84, rw := 0xFFFF, rwl := 0xFFFF },
    { off := 0x88 },
    { off := 0x90 }]

/-- Registers of PMU page 2. -/
def defsPmu2 : List RegDef :=
  [{ off := 0x40, rw := 0x11FFF, sp := 0x11FFF },
    { off := 0x44, rw := 0x1FF, rwl := 0x1FF }] ++
  copies64 { off := 0x48, rw := 0xFFFFFFFF, rwl := 0xFFFFFFFF } 1 0x8 ++
  [{ off := 0x50, rw := 0x3F, rwl := 0x3F },
    { off := 0x54, rw := 0x7FF, rwl := 0x7FF, reset := 0x30 },
    { off := 0x58 },
    { off := 0x60, rw := 0xF0FFFFF, rwl := 0xF0FFFFF, reset := 0xC020564 },
    { off := 0x64 },
    { off := 0x68 }]

/-- Registers of LVE page 0. -/
def defsLve0 : List RegDef :=
  [{ off := 0x8, rw := 0x2, sp := 0x3, wo := 0x1 },
    { off := 0xC },
    { off := 0x40, rw := 0x3F, sp := 0x3F }] ++
  copies { off := 0x44, rw := 0xFFFFFF, sp := 0xFFFFFF, reset := 0x2710 } 4 0x4 ++
  [{ off := 0x54, rw := 0xFFFFFF, sp := 0xFFFFFF, reset := 0x3E8 },
    { off := 0x58, w1c := 0xF, sp := 0xF },
    { off := 0x5C, rw := 0x1FF, sp := 0x1FF, reset := 0x170 },
    { off := 0x60, rw := 0xFF01, sp := 0xFF01, reset := 0x3201 },
    { off := 0x64, rw := 0xFFFFFFFF, sp := 0xFFFFFFFF },
    { off := 0x68 },
    { off := 0x6C, rw := 0x1, sp := 0x1 },
    { off := 0x70 },
    { off := 0x74 },
    { off := 0x78, w1c := 0x100, sp := 0x101, wo := 0x1 },
    { off := 0x7C, rw := 0x3F, sp := 0x3F },
    { off := 0x80, rw := 0xFFFFFF, sp := 0xFFFFFF, reset := 0x186A0 },
    { off := 0x84, sp := 0xFFFFFFFF, wo := 0xFFFFFFFF }]

/-- Registers of LVE page 1. -/
def defsLve1 : List RegDef :=
  copies { off := 0x40, rw := 0xFFFFFFFF, sp := 0xFFFFFFFF } 32 0x4

/-- Registers of SEC page 0. -/
def defsSec0 : List RegDef :=
  [{ off := 0xC },
    { off := 0x40, wo := 0x8000000F }] ++
  copies64 { off := 0x48, rw := 0xFFFFFFFF } 1 0x8 ++
  [{ off := 0x50 },
    { off := 0x54 },
    { off := 0x58 }] ++
  copies { off := 0x60 } 8 0x4 ++
  [{ off := 0x80, w1c := 0x1, sp := 0x1 }] ++
  copies64 { off := 0x88 } 1 0x8 ++
  [{ off := 0x90 }]

/-- Registers of SEC page 3. -/
def defsSec3 : List RegDef :=
  copies { off := 0x100 } 488 0x4

/-- Registers of CAL page 0. -/
def defsCal0 : List RegDef :=
  copies { off := 0x40, rw := 0xFF } 25 0x4 ++
  copies { off := 0xA4, rw := 0xFF } 24 0x4 ++
  copies { off := 0x104, rw := 0xFF, sp := 0xFF } 2 0x4 ++
  [{ off := 0x10C, rw := 0xFF },
    { off := 0x110, rw := 0xFF, sp := 0xFF }] ++
  copies { off := 0x114, rw := 0xFF } 2 0x4 ++
  [{ off := 0x11C, rw := 0xFF },
    { off := 0x120, rw := 0xFF, sp := 0xFF }] ++
  copies { off := 0x124, rw := 0xFF } 4 0x4 ++
  [{ off := 0x134 },
    { off := 0x138, rw := 0xFF },
    { off := 0x13C, wo := 0x1 }]

/-- Registers of AON page 0. -/
def defsAon0 : List RegDef :=
  [{ off := 0x8, rw := 0x2, wo := 0x5 },
    { off := 0xC }] ++
  copies64 { off := 0x40 } 1 0x8 ++
  copies64 { off := 0x48, rw := 0xFFFFFFFF } 1 0x8 ++
  copies64 { off := 0x50, rw := 0xFFFFFFFF } 1 0x8 ++
  [{ off := 0x58, rw := 0xFF, reset := 0x1 },
    { off := 0x5C },
    { off := 0x60, rw := 0x3F }] ++
  copies { off := 0x64 } 4 0x4 ++
  [{ off := 0x74, wo := 0x1 },
    { off := 0x78 },
    { off := 0x80, rw := 0xFFFFF, sp := 0xFFFFF, reset := 0x48C39 },
    { off := 0x84 },
    { off := 0x88, rw := 0xFFFFF, sp := 0xFFFFF, reset := 0x48801 },
    { off := 0x8C },
    { off := 0x90, rw := 0xFFFFF, reset := 0xF8B43 },
    { off := 0x94 },
    { off := 0x98, rw := 0xFFFFF, sp := 0xFFFFF, reset := 0x1 },
    { off := 0x9C },
    { off := 0xA0, rw := 0xFFFFF },
    { off := 0xA4 },
    { off := 0xA8, rw := 0xFFFFF },
    { off := 0xAC }]

/-- Registers of PIO page 0. -/
def defsPio0 : List RegDef :=
  copies { off := 0x40, rw := 0xFFF, rwl := 0xFFF } 48 0x4 ++
  copies { off := 0x100, rw := 0x1FFFF, rwl := 0x1FFFF } 48 0x4 ++
  copies { off := 0x200 } 48 0x4 ++
  [{ off := 0x300 },
    { off := 0x304 },
    { off := 0x308, rw := 0xFFFFFFFF, rwl := 0xFFFFFFFF },
    { off := 0x30C, rw := 0xFFFF, rwl := 0xFFFF },
    { off := 0x310, rw := 0xFFFFFFFF, rwl := 0xFFFFFFFF },
    { off := 0x314, rw := 0xFFFF, rwl := 0xFFFF },
    { off := 0x318, wo := 0xFFFFFFFF },
    { off := 0x31C, wo := 0xFFFF },
    { off := 0x320, wo := 0xFFFFFFFF },
    { off := 0x324, wo := 0xFFFF },
    { off := 0x328 },
    { off := 0x32C, w1c := 0xFFFF },
    { off := 0x330 },
    { off := 0x334, rw := 0xFFFF, rwl := 0xFFFF }] ++
  copies64 { off := 0x338 } 1 0x8

/-- Registers of PIO page 1. -/
def defsPio1 : List RegDef :=
  copies { off := 0x40, rw := 0xF3, rwl := 0xF3 } 16 0x4 ++
  copies64 { off := 0x80 } 16 0x8

/-- Registers of HTS page 0. -/
def defsHts0 : List RegDef :=
  [{ off := 0x8, rw := 0x7, reset := 0x3 },
    { off := 0xC },
    { off := 0x40, wo := 0xFFFF },
    { off := 0x44, w1c := 0x1 },
    { off := 0x48, rw := 0x7FF },
    { off := 0x4C, rw := 0xFFFFFFFF },
    { off := 0x50, rw := 0x7F, rwl := 0x7F },
    { off := 0x54, rw := 0xFFFFFFFF },
    { off := 0x58, rw := 0xFFFF },
    { off := 0x5C, rw := 0xFFFF },
    { off := 0x60, rw := 0xFFFF }] ++
  copies { off := 0x64 } 4 0x4 ++
  [{ off := 0x74 },
    { off := 0x78, w1c := 0x10000, wo := 0x1 }]

/-- Registers of HTS page 1. -/
def defsHts1 : List RegDef :=
  [{ off := 0x40, rw := 0xFFF }] ++
  copies { off := 0x44 } 8 0x4 ++
  copies { off := 0x80, rw := 0xFFFFFFFF } 8 0x4

/-- Registers of HTS page 2. -/
def defsHts2 : List RegDef :=
  [{ off := 0x40, rw := 0x1FFF },
    { off := 0x44, rw := 0xFFFFFFFF, rwl := 0xFFFFFFFF },
    { off := 0x48, rw := 0x3FFF },
    { off := 0x4C, rw := 0xFFFFFFFF, rwl := 0xFFFFFFFF }]

/-- Registers of HTS page 3. -/
def defsHts3 : List RegDef :=
  [{ off := 0x40, rw := 0xF }] ++
  copies64 { off := 0x48 } 1 0x8 ++
  [{ off := 0x50, rw := 0xFFFFFFFF }]

/-- Registers of CCX page 0. -/
def defsCcx0 : List RegDef :=
  [{ off := 0x8, rw := 0x1 },
    { off := 0xC },
    { off := 0x40 }] ++
  copies { off := 0x44 } 4 0x4 ++
  [{ off := 0x54 },
    { off := 0x58, w1c := 0x3 }] ++
  copies64 { off := 0x60 } 1 0x8 ++
  [{ off := 0x68 }] ++
  copies64 { off := 0x70 } 1 0x8 ++
  [{ off := 0x78, rw := 0x7, rwl := 0x7 }] ++
  copies64 { off := 0x80 } 1 0x8

/-- Registers of ATU page 0. -/
def defsAtu0 : List RegDef :=
  copies { off := 0x40, rw := 0xFFFFFFF0, rwl := 0xFFFFFFF0, wide := true } 1 0x8 ++
  copies { off := 0x44, rw := 0xFFFF, rwl := 0xFFFF, wide := true } 1 0x8 ++
  [{ off := 0x48, rw := 0x7FF, rwl := 0x7FF },
    { off := 0x4C, rw := 0x303FF, rwl := 0x303FF, wo := 0x80000000 }] ++
  copies { off := 0x50, rw := 0xFFFFF000, rwl := 0xFFFFF000, wide := true } 1 0x8 ++
  copies { off := 0x54, rw := 0xFFFF, rwl := 0xFFFF, wide := true } 1 0x8 ++
  [{ off := 0x58 },
    { off := 0x5C, w1c := 0x3 }] ++
  copies64 { off := 0x60 } 1 0x8

/-- Registers of DMA page 0. -/
def defsDma0 : List RegDef :=
  [{ off := 0x8, wo := 0xF },
    { off := 0xC }] ++
  copies { off := 0x40, rw := 0xFFFFFFF8, rwl := 0xFFFFFFF8, wide := true } 1 0x8 ++
  copies { off := 0x44, rw := 0xFFFF, rwl := 0xFFFF, wide := true } 1 0x8 ++
  copies64 { off := 0x48 } 1 0x8 ++
  [{ off := 0x50, rw := 0xFFFF0007, rwl := 0xFFFF0007 },
    { off := 0x54, wo := 0x1 },
    { off := 0x58 }] ++
  copies64 { off := 0x60 } 1 0x8

/-- Registers of DMAC page 0. -/
def defsDmac0 : List RegDef :=
  [{ off := 0x40, rw := 0xFF, reset := 0x20 },
    { off := 0x44, rw := 0x73F }] ++
  copies64 { off := 0x48 } 1 0x8 ++
  copies64 { off := 0x50 } 1 0x8 ++
  copies64 { off := 0x58 } 1 0x8 ++
  copies64 { off := 0x60 } 1 0x8 ++
  copies64 { off := 0x68 } 1 0x8 ++
  [{ off := 0x70 }]

/-- Registers of OCN page 0. -/
def defsOcn0 : List RegDef :=
  [{ off := 0x8, wo := 0x3 },
    { off := 0xC },
    { off := 0x40 },
    { off := 0x44, rw := 0x3FF, rwl := 0x3FF, reset := 0x64 },
    { off := 0x48, rw := 0xFFFFFF00, w1c := 0xF, rwl := 0xFFFFFF00 },
    { off := 0x4C, rw := 0x100, rwl := 0x100 },
    { off := 0x50, wo := 0xF },
    { off := 0x54, rw := 0x1FF, rwl := 0x1FFF, wo := 0x2000 },
    { off := 0x58, rw := 0x1F3, rwl := 0x1F3 }] ++
  copies64 { off := 0x60 } 1 0x8

/-- Registers of RSV page 0. -/
def defsRsv0 : List RegDef :=
  [{ off := 0xC },
    { off := 0x40, wo := 0xFFFF },
    { off := 0x44, w1c := 0x1 },
    { off := 0x48, w1c := 0x83 },
    { off := 0x4C },
    { off := 0x50, w1c := 0x3 },
    { off := 0x54 },
    { off := 0x58, rw := 0xFFFFFFFF }] ++
  copies { off := 0x100 } 64 0x4

/-- Registers of SQ page 0. -/
def defsSq0 : List RegDef :=
  [{ off := 0x8, rw := 0x7F3F, rwl := 0x7F3F, wo := 0xC0 },
    { off := 0xC },
    { off := 0x40, rw := 0x3FF03FF, rwl := 0x3FF03FF, reset := 0x8 },
    { off := 0x44, rw := 0xFFFFFFFF },
    { off := 0x48, rw := 0xFFFFFFFF }]

/-- Registers of FCC page 0. -/
def defsFcc0 : List RegDef :=
  [{ off := 0x8, wo := 0xF },
    { off := 0xC },
    { off := 0x40, rw := 0xFFFF, rwl := 0xFFFF, reset := 0x20C0 },
    { off := 0x44 },
    { off := 0x48, reset := 0xFFFFFF },
    { off := 0x4C },
    { off := 0x50 },
    { off := 0x54 },
    { off := 0x58 },
    { off := 0x5C },
    { off := 0x60 },
    { off := 0x64, rw := 0x1, rwl := 0x1 },
    { off := 0x68, rw := 0xFFFFFFFF, rwl := 0xFFFFFFFF },
    { off := 0x6C }] ++
  copies { off := 0x80 } 16 0x4 ++
  copies { off := 0xC0 } 16 0x4

/-- Registers of FCC page 1. -/
def defsFcc1 : List RegDef :=
  [{ off := 0x40, rw := 0x1, sp := 0x1, reset := 0x1 },
    { off := 0x44, rw := 0xFFF, sp := 0xFFF, reset := 0xCB },
    { off := 0x48, rw := 0xFFFFFF, sp := 0xFFFFFF, reset := 0xFFFFFF },
    { off := 0x4C },
    { off := 0x50 },
    { off := 0x54, rw := 0xFFFFFFFF, rwl := 0xFFFFFFFF },
    { off := 0x58, rw := 0xFFFFFFFF, rwl := 0xFFFFFFFF },
    { off := 0x5C },
    { off := 0x60 },
    { off := 0x64 },
    { off := 0x68 },
    { off := 0x6C, wo := 0x1 },
    { off := 0x70, w1c := 0xFFFFFF },
    { off := 0x74, rw := 0x1, sp := 0x1, wo := 0x1C },
    { off := 0x78 },
    { off := 0x7C, rw := 0xFF, rwl := 0xFF },
    { off := 0x80, w1c := 0xFFFFFF }]

/-- Registers of FCC page 2. -/
def defsFcc2 : List RegDef :=
  [{ off := 0x8, wo := 0x3 },
    { off := 0xC },
    { off := 0x40, rw := 0xFFFFFF, rwl := 0xFFFFFF },
    { off := 0x44, rw := 0x7F, rwl := 0x7F }] ++
  copies64 { off := 0x48, rw := 0xFFFFFFFF, rwl := 0xFFFFFFFF } 1 0x8 ++
  [{ off := 0x50, rw := 0xFFFF, rwl := 0xFFFF }] ++
  copies64 { off := 0x58 } 1 0x8

/-- Registers of FRG page 0. -/
def defsFrg0 : List RegDef :=
  [{ off := 0x8, wo := 0x3 },
    { off := 0xC },
    { off := 0x40, wo := 0x7 },
    { off := 0x44, rw := 0x3FFFF, rwl := 0x3FFFF, reset := 0xFF04 },
    { off := 0x48 },
    { off := 0x4C, rw := 0xFFFF0FFF, w1c := 0xFFF }] ++
  copies { off := 0x50, rw := 0xFFFF7F7F, rwl := 0xFFFF7F7F, reset := 0xFFFF0000 } 4 0x4 ++
  [{ off := 0x60 },
    { off := 0x64, rw := 0xFFFFFFFF, rwl := 0xFFFFFFFF }] ++
  copies64 { off := 0x68 } 1 0x8 ++
  [{ off := 0x70, rw := 0xFFFF3F, rwl := 0xFFFF3F },
    { off := 0x74, rw := 0xFF000000, w1c := 0xFF000000 },
    { off := 0x78 },
    { off := 0x200, w1c := 0x3 },
    { off := 0x204 }] ++
  copies64 { off := 0x208 } 1 0x8 ++
  [{ off := 0x210 }]

/-- Registers of MED page 0. -/
def defsMed0 : List RegDef :=
  [{ off := 0x8, rw := 0x1, wo := 0x6 },
    { off := 0xC }] ++
  copies { off := 0x40, rw := 0xFFFFFFFF } 8 0x4 ++
  [{ off := 0x60, wo := 0x1 },
    { off := 0x64, rw := 0x7F7F, rwl := 0x7F7F },
    { off := 0x68, rw := 0xFFF3, rwl := 0xFFF3, reset := 0xA0 },
    { off := 0x6C, rw := 0x7FFF, rwl := 0x7FFF }] ++
  copies { off := 0x70, rw := 0xFFFF, rwl := 0xFFFF, reset := 0x1F4 } 16 0x4 ++
  copies64 { off := 0xB0, rw := 0xFFFFFFFF, rwl := 0xFFFFFFFF } 1 0x8 ++
  copies64 { off := 0xB8, rw := 0xFFFFFFFF, rwl := 0xFFFFFFFF } 1 0x8 ++
  [{ off := 0xC0, rw := 0xFFFF0FFF, rwl := 0xFFFF0FFF },
    { off := 0xC4, rw := 0xFFFFFF, rwl := 0xFFFFFF },
    { off := 0xC8 },
    { off := 0xCC, rw := 0x3FF },
    { off := 0xD0, rw := 0xFFFFFFFF },
    { off := 0xD4, rw := 0xFFFFFF },
    { off := 0xD8, rw := 0x1F },
    { off := 0xDC },
    { off := 0xE0 },
    { off := 0xE4 }] ++
  copies { off := 0xE8, rw := 0xFFFFFFFF } 4 0x4

/-- Registers of MEDC page 0. -/
def defsMedc0 : List RegDef :=
  [{ off := 0x40, wo := 0x2 },
    { off := 0x44 }] ++
  copies64 { off := 0x48, rw := 0xFFFFFFFF } 1 0x8 ++
  [{ off := 0x50, rw := 0xFFFFF, wo := 0x80000000 },
    { off := 0x54 },
    { off := 0x58, rw := 0xF },
    { off := 0x5C, rw := 0xFFFFFFFF },
    { off := 0x60, rw := 0xFFFFFF },
    { off := 0x64, wo := 0x13F }] ++
  copies64 { off := 0x68 } 1 0x8 ++
  [{ off := 0x70 }] ++
  copies { off := 0x80, wo := 0xFFFFFFFF } 16 0x4

/-- Registers of MGD page 0. -/
def defsMgd0 : List RegDef :=
  [{ off := 0xC },
    { off := 0x44 },
    { off := 0x48 },
    { off := 0x4C, rw := 0xFFFFFFFF }]

/-- Registers of DRC page 0. -/
def defsDrc0 : List RegDef :=
  [{ off := 0xC },
    { off := 0x40, rw := 0x3F, rwl := 0x3F },
    { off := 0x44, rw := 0xFF, rwl := 0xFF },
    { off := 0x48, rw := 0xFF, rwl := 0xFF },
    { off := 0x4C, rw := 0x1, rwl := 0x1 },
    { off := 0x50 },
    { off := 0x58, rw := 0xFFFFFFFF, rwl := 0xFFFFFFFF },
    { off := 0x5C, rw := 0xFFFFFFFF, rwl := 0xFFFFFFFF },
    { off := 0x60, w1c := 0x3 }] ++
  copies64 { off := 0x68 } 1 0x8

/-- Registers of DRC page 1. -/
def defsDrc1 : List RegDef :=
  copies { off := 0x40 } 8 0x4

/-- Registers of HIF page 0. -/
def defsHif0 : List RegDef :=
  [{ off := 0xC },
    { off := 0x40, wo := 0x7FF },
    { off := 0x44, rw := 0xFFFFFFFF, rwl := 0xFFFFFFFF },
    { off := 0x48, rw := 0xFFFF, rwl := 0xFFFF },
    { off := 0x4C, rw := 0x1FFF, rwl := 0x1FFF },
    { off := 0x50, rw := 0x3FF, rwl := 0x3FF, reset := 0x32 },
    { off := 0x54, rw := 0xFFFFFFFF, rwl := 0xFFFFFFFF }] ++
  copies64 { off := 0x58, rw := 0xFFFFFFFF, rwl := 0xFFFFFFFF } 1 0x8 ++
  [{ off := 0x60 },
    { off := 0x64, rw := 0xFFFFFFFF, rwl := 0xFFFFFFFF }] ++
  copies64 { off := 0x68 } 1 0x8 ++
  copies64 { off := 0x70 } 1 0x8

/-- Registers of HIF page 1. -/
def defsHif1 : List RegDef :=
  copies { off := 0x40, rw := 0xFFF07, rwl := 0xFFF07 } 16 0x10 ++
  copies { off := 0x44, rw := 0xFFFFFFFF, rwl := 0xFFFFFFFF } 16 0x10 ++
  copies { off := 0x48, rw := 0xC0000000, rwl := 0xC0000000, wide := true } 16 0x10 ++
  copies { off := 0x4C, rw := 0xFFFFFFFF, rwl := 0xFFFFFFFF, wide := true } 16 0x10

/-- Registers of HIF page 2. -/
def defsHif2 : List RegDef :=
  copies { off := 0x40, rw := 0xFFF3, rwl := 0xFFF3 } 8 0x20 ++
  copies { off := 0x44, rw := 0x3FFFFF, rwl := 0x3FFFFF } 8 0x20 ++
  copies { off := 0x48, rw := 0x3FFFFF, rwl := 0x3FFFFF } 8 0x20 ++
  copies { off := 0x50, rw := 0xFFFFF000, rwl := 0xFFFFF000, wide := true } 8 0x20 ++
  copies { off := 0x54, rw := 0xFFFF, rwl := 0xFFFF, wide := true } 8 0x20 ++
  [{ off := 0x140, rw := 0xFFFFFFFF, rwl := 0xFFFFFFFF }]

/-- Registers of HIF page 3. -/
def defsHif3 : List RegDef :=
  [{ off := 0x40, rw := 0x3FFF, rwl := 0x3FFF },
    { off := 0x44 },
    { off := 0x48, rw := 0x3F, rwl := 0x3F },
    { off := 0x4C },
    { off := 0x50, rw := 0x1F, rwl := 0x1F },
    { off := 0x54 }] ++
  copies64 { off := 0x58 } 1 0x8 ++
  copies64 { off := 0x60 } 1 0x8 ++
  copies64 { off := 0x68, w1c := 0xFFFFFFFF } 1 0x8 ++
  [{ off := 0x70, rw := 0xFF, rwl := 0xFF, reset := 0x28 },
    { off := 0x74, rw := 0x3F, rwl := 0x3F },
    { off := 0x78 }]

/-- Registers of PLY page 0. -/
def defsPly0 : List RegDef :=
  [{ off := 0x8, rw := 0x1, wo := 0xE },
    { off := 0xC },
    { off := 0x40 },
    { off := 0x44, wo := 0xFFFFFFFF }] ++
  copies64 { off := 0x48, rw := 0xFFFFFFFF, rwl := 0xFFFFFFFF } 1 0x8 ++
  copies64 { off := 0x50 } 1 0x8 ++
  copies64 { off := 0x58, rw := 0xFFFFFFFF, rwl := 0xFFFFFFFF } 1 0x8 ++
  [{ off := 0x60, rw := 0xF, rwl := 0xF, reset := 0x4 }] ++
  copies64 { off := 0x68, rw := 0xFFFFFFFF } 1 0x8 ++
  copies64 { off := 0x70 } 1 0x8 ++
  copies64 { off := 0x78 } 1 0x8 ++
  copies64 { off := 0x80, rw := 0xFFFFFFFF, rwl := 0xFFFFFFFF } 1 0x8 ++
  copies64 { off := 0x88, rw := 0xFFFFFFFF, rwl := 0xFFFFFFFF } 1 0x8 ++
  [{ off := 0x90, rw := 0xF, rwl := 0xF, reset := 0x4 }] ++
  copies64 { off := 0x98, rw := 0xFFFFFFFF, rwl := 0xFFFFFFFF } 1 0x8 ++
  copies64 { off := 0xA0, rw := 0xFFFFFFFF } 1 0x8 ++
  [{ off := 0xA8, rw := 0x3FF, rwl := 0x3FF, reset := 0x64 },
    { off := 0xAC, rw := 0xFFFFFFFF, w1c := 0xFFFFFFFF },
    { off := 0xB0 }]

/-- Registers of TRC page 0. -/
def defsTrc0 : List RegDef :=
  copies { off := 0x40, rw := 0xFFFF } 4 0x10 ++
  copies { off := 0x44, rw := 0xFFFFF } 4 0x10 ++
  copies { off := 0x48, rw := 0xFFFFFFFF } 4 0x10 ++
  [{ off := 0x80, rw := 0x7F }]

/-- Registers of TRC page 1. -/
def defsTrc1 : List RegDef :=
  copies { off := 0x40, rw := 0x1FFFFFF } 16 0x4 ++
  [{ off := 0x80 }]

/-- The registers of page index `p` of a block (every instance alike). -/
def blockDefs (b : Block) (p : Nat) : List RegDef :=
  match b, p with
  | .sys, 0 => defsSys0
  | .pmu, 0 => defsPmu0
  | .pmu, 1 => defsPmu1
  | .pmu, 2 => defsPmu2
  | .lve, 0 => defsLve0
  | .lve, 1 => defsLve1
  | .sec, 0 => defsSec0
  | .sec, 3 => defsSec3
  | .cal, 0 => defsCal0
  | .aon, 0 => defsAon0
  | .pio, 0 => defsPio0
  | .pio, 1 => defsPio1
  | .hts, 0 => defsHts0
  | .hts, 1 => defsHts1
  | .hts, 2 => defsHts2
  | .hts, 3 => defsHts3
  | .ccx, _ => defsCcx0
  | .atu, 0 => defsAtu0
  | .dma, _ => defsDma0
  | .dmac, 0 => defsDmac0
  | .ocn, _ => defsOcn0
  | .rsv, 0 => defsRsv0
  | .sq, _ => defsSq0
  | .fcc, 0 => defsFcc0
  | .fcc, 1 => defsFcc1
  | .fcc, 2 => defsFcc2
  | .frg, _ => defsFrg0
  | .med, _ => defsMed0
  | .medc, 0 => defsMedc0
  | .mgd, 0 => defsMgd0
  | .drc, 0 => defsDrc0
  | .drc, 1 => defsDrc1
  | .hif, 0 => defsHif0
  | .hif, 1 => defsHif1
  | .hif, 2 => defsHif2
  | .hif, 3 => defsHif3
  | .ply, 0 => defsPly0
  | .trc, 0 => defsTrc0
  | .trc, 1 => defsTrc1
  | _, _ => []

/-- CAPS of a block's first page (fixed for the part; R2 and the blocks' chapters). -/
def blockCaps (b : Block) (i : Nat) : Nat :=
  match b with
  | .pio => if i = 0 then 0x00001030 else 0
  | .hts => if i = 0 then 0x00401000 else 0
  | .ccx => 0x10202068
  | .dmac => 0x00200040
  | .rsv => if i = 0 then 0x00100100 else 0
  | .sq => 0x00324000
  | .fcc => if i = 0 then 0x00010180 else 0
  | .frg => 0x01000408
  | .med => 0x00400408
  | .drc => if i = 0 then 0x00082155 else 0
  | .hif => if i = 0 then 0x08102104 else 0
  | .ply => 0x00002008
  | _ => 0

end Sys2Proof.Machine
end

