-- ==== Sys2Proof/Machine/Ops.lean ====
section
/-!
DEFINITION. The named operations over the register window and memory: what a stored register holds, events and violation
capture (R29, R34), ownership and lock (R30 to R32), the field-by-field write (R9), and bytes of memory.
-/
namespace Sys2Proof.Machine

/-- The outcome of a command. -/
abbrev Out := Host.Outcome State Fault Refusal

/-- The levee lockstep pair's identifier (R27). -/
def levee : Ini := 0x30

/-! ### Where an offset of the window lies -/

/-- The block map row that holds window offset `off`, none for a hole (R36). -/
def blockAt (off : Nat) : Option BlockRow :=
  blockMap.find? (fun r => decide (r.base ≤ off) && decide (off < r.base + 0x1000 * r.n))

/-- Page index of `off` within its row. -/
def pageIdx (r : BlockRow) (off : Nat) : Nat := (off - r.base) / 0x1000

/-- Window offset of the page that holds OWNER and LOCK for `off` (R28). -/
def headPage (off : Nat) : Nat :=
  match blockAt off with
  | some r => if r.inst then off / 0x1000 * 0x1000 else r.base
  | none => off / 0x1000 * 0x1000

/-- The definition of the block register at `off`, none where the page holds no register there. -/
def regDefAt (off : Nat) : Option RegDef :=
  match blockAt off with
  | some r => (blockDefs r.blk (pageIdx r off)).find? (fun d => d.off == off % 0x1000)
  | none => none

/-- What the register word at `off` holds after reset. -/
def regReset (off : Nat) : Word :=
  -- CCX0_CTRL.en is 1, those of the other cores are 0 (R351)
  if off = page .ccx 0 + ccxCtrl then 1 else
  match regDefAt off with
  | some d => BitVec.ofNat 32 d.reset
  | none => 0

/-- The stored word of a register. -/
def State.reg (s : State) (off : Nat) : Word := tget (regReset off) s.regs off

/-- Store a register word; the reset value is not listed. -/
def State.setReg (s : State) (off : Nat) (v : Word) : State := { s with regs := tset (regReset off) s.regs off v }

/-- A 64-bit register: the word at `off` is its low half. -/
def State.reg64 (s : State) (off : Nat) : Nat := (s.reg off).toNat + 2 ^ 32 * (s.reg (off + 4)).toNat

/-- Store a 64-bit register. -/
def State.setReg64 (s : State) (off v : Nat) : State :=
  (s.setReg off (BitVec.ofNat 32 v)).setReg (off + 4) (BitVec.ofNat 32 (v / 2 ^ 32))

/-- Update a register word. -/
def State.modReg (s : State) (off : Nat) (f : Word → Word) : State := s.setReg off (f (s.reg off))

/-- Add `k` to a saturating counter in bits [lo+n-1:lo] of a register. -/
def State.countUp (s : State) (off lo n k : Nat) : State :=
  s.modReg off (fun w => setFld w lo n (satAdd (2 ^ n - 1) (fld w lo n) k))

/-! ### Events and violations -/

/-- An occurrence enters an event port (R357). -/
def State.toPort (s : State) (k : Nat) (o : Occ) : State :=
  { s with hts := { s.hts with ports := tset [] s.hts.ports k (tget [] s.hts.ports k ++ [o]) } }

/-- Occurrence `i` of the page at `pg`: EVT_RAW bit i becomes 1, and with EVT_EN bit i the event EVT_BASE + i goes to the
scheduler (R34). -/
def State.raise (s : State) (pg i : Nat) : State :=
  let s1 := s.modReg (pg + hEvtRaw) (fun w => setBit w i)
  if bit (s.reg (pg + hEvtEn)) i then
    s1.toPort (pg / 0x1000) ⟨fld (s.reg (pg + hEvtBase)) 0 13 + i, pg == page .hts 0⟩
  else s1

/-- Every event port holds at most 8 occurrences (R357). -/
def State.portsOk (s : State) : Bool := s.hts.ports.all (fun p => decide (p.2.length ≤ 8))

/-- The main rails are up: in HOLD and OFF only the AON domain has power (R374, R406). -/
def State.powered (s : State) : Bool := s.pmu.mode != .hold && s.pmu.mode != .off

/-- A back-invalidate exchange begins: BISnpInv to the host (R443). -/
def State.biSend (s : State) (e : BiEx) : State :=
  ({ s with drc := { s.drc with bi := s.drc.bi ++ [e] }, hif := { s.hif with out := { s.hif.out with bi := some e.line } } }).countUp
    (page .hif 0 + hifBicnt) 0 16 1

/-- A command does not take place because an access of it has to wait; a write that the host-line filter stops has begun its exchange
(R443). -/
def State.await (s : State) : Hold → State
  | .net => s
  | .line l ini => if s.drc.bi.any (fun e => e.line == l) then s else s.biSend { line := l, key := none, enter := none, unit := some ini }

/-- A command of a block: it takes place with the main rails up. One that would raise an event for which its port has no room is not
performed (R358), nor one of which an access has to wait. -/
def State.gate (s t : State) : State :=
  if s.powered then
    match t.hold with
    | none => if t.portsOk then t else s
    | some h => s.await h
  else s

/-- A command of the AON domain, which has power in HOLD too. -/
def State.gateAon (s t : State) : State := if t.portsOk then t else s

/-- A violation on the page at `pg` (R29): flag 0 width, 1 owner, 2 lock, 3 sp, 4 range. The first is captured, a further
one sets ovf; EVT_RAW.err is set in every case. -/
def State.violate (s : State) (pg flag : Nat) (ini : Ini) (off : Nat) (wr : Bool) : State :=
  let e := s.reg (pg + hErr)
  let e' := if (e &&& 0x8000001F) = 0 then
      BitVec.ofNat 32 (2 ^ flag + 2 ^ 8 * ini.toNat + 2 ^ 16 * (off % 0x1000) + 2 ^ 28 * b2n wr)
    else setBit (setBit e flag) 31
  (s.setReg (pg + hErr) e').raise pg 31

/-- A refused SP write takes an entry in the LVE access log (R409): a full log discards it and sets LVE_ALOGCTL.lost;
EVT_RAW.splog of the LVE page is set on every entry. -/
def State.logSp (s : State) (ini : Ini) (off : Nat) : State :=
  match blockAt off with
  | none => s
  | some r =>
    let e : AlogEnt := ⟨ini, r.type, pageIdx r off, off % 0x1000⟩
    let s1 := if s.lve.alog.length < 16 then { s with lve := { s.lve with alog := s.lve.alog ++ [e] } }
      else s.modReg (page .lve 0 + lveAlogctl) (fun w => setBit w 8)
    s1.raise (page .lve 0) 8

/-- A refused write of an SP field: ERR.sp of its page and the access log (R33). -/
def State.refuseSp (s : State) (ini : Ini) (off : Nat) : State :=
  (s.violate (off / 0x1000 * 0x1000) 3 ini off true).logSp ini off

/-- SYS_WERR's capture of a hole access (R39). -/
def State.holeCapture (s : State) (ini : Ini) (off : Nat) (wr : Bool) : State :=
  let e := s.reg (page .sys 0 + sysWerr)
  let s1 := if (e &&& 3) = 0 then
      (s.setReg (page .sys 0 + sysWerr) (BitVec.ofNat 32 (1 + 4 * b2n wr + 2 ^ 8 * ini.toNat))).setReg
        (page .sys 0 + sysWerrAddr) (BitVec.ofNat 32 off)
    else s.setReg (page .sys 0 + sysWerr) (setBit (setBit e 0) 1)
  s1.raise (page .sys 0) 16

/-- The next free value, 0 to `m` - 1, and the state that has met it. -/
def State.freeNat (s : State) (m : Nat) : Nat × State := ((Config.free s.fresh).toNat % m, { s with fresh := s.fresh + 1 })

/-- Record the answer to an access. -/
def State.answer (s : State) (st : Status) (d : DWord) : State := { s with ans := ⟨st, d⟩ }

/-- What the host sees of an access to the window that a device initiator sees fail: a successful completion with zero data, or an
accepted posted write (R33). -/
def State.hostSees (s : State) (ini : Ini) : State :=
  if ini = 0x20 ∧ (s.ans.status = .decErr ∨ s.ans.status = .slvErr) then s.answer .ok 0 else s

/-! ### Ownership and lock -/

/-- OWNER.id that governs the page of `off` (R28). -/
def State.owner (s : State) (off : Nat) : Ini := (s.reg (headPage off + hOwner)).setWidth 8

/-- LOCK.lock that governs the page of `off` (R28). -/
def State.locked (s : State) (off : Nat) : Bool := bit (s.reg (headPage off + hLock)) 0

/-- The initiator may write the page (R31). -/
def State.mayWrite (s : State) (ini : Ini) (off : Nat) : Bool :=
  s.owner off == 0 || s.owner off == ini || ini == levee

/-- The bits of a written value that the access codes let through: SP bits only from the levee, RWL bits only while LOCK
is clear (R9, R32). -/
def State.passMask (s : State) (ini : Ini) (off : Nat) (d : RegDef) : Word :=
  ~~~((if ini = levee then 0 else BitVec.ofNat 32 d.sp) ||| (if s.locked off then BitVec.ofNat 32 d.rwl else 0))

/-- The field-by-field write of a block register (R9): fields that the codes let through take the value, a 1 clears a
W1C bit, each refusal is recorded once. A bit listed as RW and W1C is a counter's, which any write clears (R120, R474). -/
def State.fieldWrite (s : State) (ini : Ini) (off : Nat) (val : Word) : State :=
  match regDefAt off with
  | none => s
  | some d =>
    let m := s.passMask ini off d
    let rw := BitVec.ofNat 32 d.rw &&& m
    let wc := BitVec.ofNat 32 d.w1c &&& m
    let old := s.reg off
    let new := ((old &&& ~~~rw) ||| (val &&& rw &&& ~~~wc)) &&& ~~~(val &&& wc)
    let s1 := s.setReg off new
    let s2 := if d.sp ≠ 0 && ini != levee then s1.refuseSp ini off else s1
    if d.rwl ≠ 0 && s.locked off then s2.violate (off / 0x1000 * 0x1000) 2 ini off true else s2

/-- The bits of a written value that act: those the codes let through. -/
def State.actBits (s : State) (ini : Ini) (off : Nat) (val : Word) : Word :=
  match regDefAt off with
  | none => 0
  | some d => val &&& s.passMask ini off d

/-- A write of a register that acts: ownership first (R31), then the field-by-field write, then the action on the bits
that the codes let through. The access is answered OK (R33). -/
def State.regWrite (s : State) (ini : Ini) (off : Nat) (val : Word) (act : Word → State → State) : State :=
  if s.mayWrite ini off then
    (act (s.actBits ini off val) (s.fieldWrite ini off val)).answer .ok 0
  else (s.violate (off / 0x1000 * 0x1000) 1 ini off true).answer .ok 0

/-- A write of a register whose stored value the action itself decides: the action runs only when ownership, SP and LOCK
let the whole write through (R31, R32, R9). -/
def State.regGuard (s : State) (ini : Ini) (off : Nat) (act : State → State) : State :=
  match regDefAt off with
  | none => s.answer .ok 0
  | some d =>
    if !s.mayWrite ini off then (s.violate (off / 0x1000 * 0x1000) 1 ini off true).answer .ok 0
    else if d.sp ≠ 0 && ini != levee then (s.refuseSp ini off).answer .ok 0
    else if d.rwl ≠ 0 && s.locked off then (s.violate (off / 0x1000 * 0x1000) 2 ini off true).answer .ok 0
    else (act s).answer .ok 0

/-! ### Probe signals -/

/-- TRC_PRBk. -/
def State.prbCfg (s : State) (k : Nat) : Word := s.reg (page .trc 1 + trcPrb + 4 * k)

/-- Probe `k` is enabled on signal `g` of unit `u` of class `c` (R168); the HTS and the FCC have no unit. -/
def State.probes (s : State) (c u g k : Nat) : Bool :=
  let w := s.prbCfg k
  bit w 0 && fld w 2 3 == c && fld w 19 5 == g && (decide (3 ≤ c) || fld w 5 6 == u)

/-- The probes of which `p` holds note that their signal has been asserted. -/
def State.notePrb (s : State) (p : Nat → Bool) : State :=
  let seen := ((List.range 16).filter p).foldl (fun t k => tset {} t k { tget {} t k with seen := true }) s.integ.prb
  { s with integ := { s.integ with prb := seen } }

/-- A signal of R168 that lasts one cycle of its clock is asserted. -/
def State.pulse (s : State) (c u g : Nat) : State := s.notePrb (s.probes c u g)

/-! ### Memory -/

/-- The byte at plain device physical address `a` of the reservoir or the DRAM. -/
def State.byteAt (s : State) (a : Nat) : Byte := tget 0 s.mem a

/-- Write one byte. -/
def State.setByte (s : State) (a : Nat) (b : Byte) : State := { s with mem := tset 0 s.mem a b }

/-- `n` bytes from `a`. -/
def State.bytesAt (s : State) (a n : Nat) : List Byte := (List.range n).map (fun i => s.byteAt (a + i))

/-- Write bytes from `a` upward. -/
def State.setBytes (s : State) (a : Nat) (l : List Byte) : State :=
  (l.zipIdx).foldl (fun t p => t.setByte (a + p.2) p.1) s

/-- The `n`-byte little-endian number at `a` (R6). -/
def State.memNat (s : State) (a n : Nat) : Nat := ofBytes (s.bytesAt a n)

/-- Store an `n`-byte little-endian number at `a`. -/
def State.setMemNat (s : State) (a n v : Nat) : State := s.setBytes a (bytesOf n v)

/-- Base of the reservoir's plain range (R17). -/
def rsvBase : Nat := 0x20000000
/-- Address of a reservoir bank (R17). -/
def bankAddr (b : Nat) : Nat := rsvBase + 0x40000 * b
/-- Base of the DRAM range (R17). -/
def dramBase : Nat := 0x1000000000

end Sys2Proof.Machine
end

