-- ==== Sys2Proof/Machine/Keys.lean ====
section
/-!
DEFINITION. Life cycle, keys and the FCC session (R143, R144, R419 to R424): what SEC and the FCC both consult.
-/
namespace Sys2Proof.Machine

/-- ASCII bytes of a string (context and customization strings). -/
def ascii (l : List Nat) : List Byte := l.map (fun n => BitVec.ofNat 8 n)

/-- Bytes of a 512-bit digest, in the order in which the function outputs them. -/
def digestBytes (d : BitVec 512) : List Byte := bytesOf 64 d.toNat

/-- The life-cycle state: the state word, with an odd count of toggles the other of DEVELOP and PRODUCTION (R420). -/
def State.lcState (s : State) : Nat :=
  let w := s.fuses.word
  if (w = 2 ∨ w = 3) ∧ s.fuses.toggles % 2 = 1 then 5 - w else w

/-- What a key index names (R419): a key, an index not enrolled, or a revoked key. -/
inductive KeyRef where
  | key (k : List Byte)
  | missing
  | revoked
deriving DecidableEq, Repr

/-- The key that keyidx names in the present state: the provisioning key in BLANK, FACTORY and RETURN, an owner slot in
DEVELOP and PRODUCTION (R419, R424). -/
def State.keyRef (s : State) (idx : Nat) : KeyRef :=
  let lc := s.lcState
  if lc = 0 ∨ lc = 1 ∨ lc = 4 then (if idx = 0 then .key Config.provKey else .missing)
  else if lc = 2 ∨ lc = 3 then
    let k := tget {} s.fuses.keys idx
    if 3 < idx ∨ k.enrolled = false then .missing else if k.revoked then .revoked else .key k.key
  else .missing

/-- The class byte of R422. -/
def State.devClass (s : State) : Byte := if s.lcState = 3 then 1 else if s.lcState = 2 then 2 else 3

/-- K_dev = SHAKE256(seed ‖ "EZKDEV" ‖ cls), truncated to 256 bits (R422). -/
def State.kDev (s : State) : BitVec 256 :=
  (shake256 (bytesOf 32 s.fuses.seed.toNat ++ ascii [0x45, 0x5A, 0x4B, 0x44, 0x45, 0x56] ++ [s.devClass])).setWidth 256

/-- ξ of the device identity key (R423). -/
def State.identSeed (s : State) : BitVec 256 :=
  (shake256 (bytesOf 32 s.fuses.seed.toNat ++ ascii [0x45, 0x5A, 0x49, 0x44, 0x45, 0x4E, 0x54])).setWidth 256

/-- FCC page 0. -/
def fccPg : Nat := page .fcc 0

/-- Set the 16 words of FCC_DIGEST or FCC_TAG. -/
def State.setFcc16 (s : State) (off : Nat) (d : BitVec 512) : State :=
  (List.range 16).foldl (fun u i => u.setReg (fccPg + off + 4 * i) (BitVec.ofNat 32 (fld d (32 * i) 32))) s

/-- The 16 words as one number. -/
def State.fcc16 (s : State) (off : Nat) : BitVec 512 :=
  BitVec.ofNat 512 (ofWords ((List.range 16).map (fun i => s.reg (fccPg + off + 4 * i))))

/-- The FCC session ends (R144): its key, the published tag and tagval are gone and sessend is set. -/
def State.endSession (s : State) : State :=
  if s.fcc.sess then
    (({ s with fcc := { s.fcc with sess := false, ks := 0, tagval := false } }).setFcc16 fccTag 0).raise fccPg 5
  else s

/-! ### The TAP's instructions (R487) -/

/-- The instruction of code `i` is accepted in the standing life-cycle state. -/
def State.tapOk (s : State) (i : Byte) : Bool :=
  let lc := s.lcState
  let tok := s.sec.dbg && bit (s.reg (page .sec 0 + secDbgperm)) 1
  if i = 0x01 then lc != 5
  else if i = 0x10 then lc == 2 || tok
  else if i = 0x00 ∨ (0x03 ≤ i ∧ i ≤ 0x06) then lc == 0 || lc == 1 || lc == 2 || lc == 4 || (lc == 3 && tok)
  else true

/-- A token ended or the life-cycle state changed: a loaded instruction that is no longer accepted puts the TAP into
Test-Logic-Reset, whose instruction is IDCODE. -/
def State.tapDrop (s : State) : State :=
  if s.tapOk s.pio.tap.ir then s else { s with pio := { s.pio with tap := { s.pio.tap with ir := 0x02 } } }

end Sys2Proof.Machine
end

