-- ==== Sys2Proof/Machine/Calibration.lean ====
section
/-!
DEFINITION. Calibration values (R501 to R503): the effective value of each item, and the clocks that the fabric PLLs give
(R380, R381).
-/
namespace Sys2Proof.Machine

/-- Item k lies at CAL page offset 0x040 + 4k, and the last, CAL_XTAL, at 0x138 (R502). -/
def calOff (k : Nat) : Nat := page .cal 0 + 0x40 + 4 * (if k < 61 then k else k + 1)

/-- Range of the effective value of item `k` (R502). -/
def calRange (k : Nat) : Int × Int :=
  if k < 25 then (-128, 127)
  else if k < 49 then (-8, 8)
  else if k < 55 then (-32, 31)
  else if k = 55 then (-16, 15)
  else if k = 56 then (0, 16)
  else if k < 61 then (-31, 31)
  else (-8, 7)

/-- Factory value of item `k`: from the fuses, or the values of R503 when the fuse map is bad. -/
def State.calFact (s : State) (k : Nat) : BitVec 8 :=
  if s.cal.bad then (if k = 56 then 16 else 0) else Config.calFact k

/-- Effective value of item `k`: fact + user, saturated (R501); CAL_SOCV.fact is unsigned. -/
def State.calEff (s : State) (k : Nat) : Int :=
  let user := sx 8 (fld (s.reg (calOff k)) 0 8)
  let fact : Int := if k = 56 then ((s.calFact k).toNat : Int) else (s.calFact k).toInt
  let (lo, hi) := calRange k
  let v := fact + user
  if v < lo then lo else if hi < v then hi else v

/-- The register's value: user, fact, eff (R501). -/
def State.calWord (s : State) (k : Nat) : Word :=
  BitVec.ofNat 32 (fld (s.reg (calOff k)) 0 8 + 2 ^ 8 * (s.calFact k).toNat + 2 ^ 16 * (s.calEff k % 256).toNat)

/-- CAL item of region sensor `r` (24 for the SOC sensor), of comparator `k`. -/
def calItemTs (r : Nat) : Nat := r
def calItemCmp (k : Nat) : Nat := 49 + k

/-- Fabric PLL A (false) or B (true) in kHz: 25 MHz × n (R380). -/
def State.fpllKhz (s : State) (b : Bool) : Nat :=
  25000 * fld (s.reg (page .pmu 1 + (if b then pmuFpllb else pmuFplla))) 0 8
/-- The PLL is locked (PMU_PLLSTAT bits 3 and 4). -/
def State.fpllLocked (s : State) (b : Bool) : Bool := bit (s.reg (page .pmu 1 + pmuPllstat)) (if b then 4 else 3)

/-- PLL `p`, numbered as in PMU_PLLSTAT, runs: its first consumer needs it and its last is not gone; a fabric PLL while enabled (R380).
The DRAM PLL stops with self-refresh and starts with its exit, the media PLL serves the enabled channels in a mode other than SDR. -/
def State.pllRuns (s : State) (p : Nat) : Bool :=
  if p = 3 then bit (s.reg (page .pmu 1 + pmuFplla)) 8
  else if p = 4 then bit (s.reg (page .pmu 1 + pmuFpllb)) 8
  else if p = 5 then s.drc.trained != 0 && (!s.drc.selfref || (s.pmu.mode == .drowse && s.pmu.trans.isSome))
  else if p = 6 then (List.range 32).any (fun m => bit (s.reg (page .med m + medCtrl)) 0 && fld (s.reg (page .med m + medIfcfg)) 0 2 != 0)
  else if p = 7 then bit (s.reg (page .ply 0 + plyCtrl)) 0 && !s.pmu.plyGated
  else true

/-- The PLLs whose last consumer is gone have stopped: their lock bits read 0. -/
def State.pllSettle (s : State) : State :=
  s.modReg (page .pmu 1 + pmuPllstat) (fun w => [5, 6, 7].foldl (fun u p => if s.pllRuns p then u else clrBit u p) w)

/-- The PLL that media channel `m` uses is locked; SDR, and a channel that is not enabled, use none (R380). -/
def State.mediaClock (s : State) (m : Nat) : Bool :=
  !bit (s.reg (page .med m + medCtrl)) 0 || fld (s.reg (page .med m + medIfcfg)) 0 2 == 0 || bit (s.reg (page .pmu 1 + pmuPllstat)) 6

end Sys2Proof.Machine
end

