-- ==== Sys2Proof/Machine/Fabric.lean ====
section
/-!
DEFINITION. The fabric's events (chapters 3 and 4): words moving from a source to its sink set, furrow registers, channel
lines and their collisions, sluice crossings, the second stage, the macrocells at a fabric clock edge, and an override
tile's own context switch.

Order of commands inside one fabric cycle of a region: transfers and fires in any order that the wires allow, then the
second-stage results that leave at the edge, then MACROCELL_UPDATE, which is the edge.
-/
namespace Sys2Proof.Machine

/-- Replace region `r`. -/
def State.setRgn (s : State) (r : Nat) (g : RegionSt) : State :=
  { s with fab := { s.fab with rgn := tset {} s.fab.rgn r g } }
/-- Update region `r`. -/
def State.modRgn (s : State) (r : Nat) (f : RegionSt → RegionSt) : State := s.setRgn r (f (s.rgn r))
/-- Replace tile `t`. -/
def State.setTile (s : State) (t : Nat) (T : Tile) : State :=
  { s with fab := { s.fab with tiles := tset {} s.fab.tiles t T } }
/-- Update tile `t`. -/
def State.modTile (s : State) (t : Nat) (f : Tile → Tile) : State := s.setTile t (f (s.tile t))
/-- Update headgate `k` of region `r`. -/
def State.modHg (s : State) (r k : Nat) (f : Headgate → Headgate) : State :=
  s.modRgn r (fun g => { g with hg := tset {} g.hg k (f (tget {} g.hg k)) })
/-- Window page of region `r`. -/
def frgPage (r : Nat) : Nat := page .frg r

/-! ### FOUT latches -/

/-- FOUT function code of a pin (R480). -/
def fselFout : Nat := 2

/-- Pin `p` shows a bit of the given line (R484). -/
def foutOf (p : PinSt) (r line pos : Nat) : Bool :=
  fld p.pin 0 4 == fselFout && fld p.psrc 0 5 == r && fld p.psrc 5 3 == line && fld p.psrc 8 4 == pos

/-- Pin `p` is a FOUT pin of region `r`. -/
def foutPinOf (p : PinSt) (r : Nat) : Bool := fld p.pin 0 4 == fselFout && fld p.psrc 0 5 == r

/-- Apply `f` to every listed pin. -/
def State.mapPins (s : State) (f : PinSt → PinSt) : State :=
  { s with pio := { s.pio with pins := tmap {} (fun _ => true) (fun _ p => f p) s.pio.pins } }

/-- A driven line loads the latches of the FOUT pins that show it (R484). -/
def State.foutLoad (s : State) (r line pos : Nat) (w : Word) : State :=
  s.mapPins (fun p => if foutOf p r line pos then { p with latch := bit w (fld p.psrc 12 5) } else p)

/-- The region's FOUT pins take their park bit (R107, R484). -/
def State.foutPark (s : State) (r : Nat) : State :=
  s.mapPins (fun p => if foutPinOf p r then { p with latch := bit p.pin 10 } else p)

/-! ### Transfers -/

/-- Insert into a rising list. -/
def insertPos (l : List Nat) (p : Nat) : List Nat :=
  match l with
  | [] => [p]
  | a :: t => if p < a then p :: a :: t else if p = a then a :: t else a :: insertPos t p

/-- A drive slot of tile `t` puts `w` on a line: the lowest-indexed driver's word stands (R87). -/
def ChLine.drive (l : Option ChLine) (i : Nat) (w : Word) : ChLine :=
  match l with
  | none => ⟨w, [i]⟩
  | some l => ⟨if l.drv.all (fun j => decide (i < j)) then w else l.word, insertPos l.drv i⟩

/-- Line key of code `c` at position `p`. -/
def lineKey (c p : Nat) : Nat := 16 * c + p

/-- Read a driven line. -/
def lineGet (ls : Tbl ChLine) (k : Nat) : Option ChLine := (ls.find? (fun e => e.1 == k)).map (·.2)

/-- Tile `i` along line code `c` at position `p` of region `r`, lowest index first (R85). -/
def lineTile (r c p i : Nat) : Nat := if c < 4 then 256 * r + 16 * p + i else 256 * r + 16 * i + p

/-- Load the LINE_FAULT registers from a collision of `drv` (R89). -/
def State.loadLine (s : State) (r c p : Nat) (drv : List Nat) (ovf : Bool) : State :=
  let pg := frgPage r
  let win := lineTile r c p (drv.headD 0)
  let lose := lineTile r c p ((drv.drop 1).headD 0)
  ((s.setReg (pg + frgLineFault) (BitVec.ofNat 32 (1 + 2 * b2n ovf + 4 * c + 2 ^ 5 * p + 2 ^ 9 * min 15 drv.length))).setReg
    (pg + frgLineTiles) (BitVec.ofNat 32 (tileX win + 2 ^ 8 * tileY win + 2 ^ 16 * tileX lose + 2 ^ 24 * tileY lose))).setReg64
    (pg + frgLineCycle) (s.rgn r).cyc.toNat

/-- The level of signal `g` of tile `t` in this cycle (R58, R168). An outgoing channel is valid while the source that its OSEL names holds a
word. -/
def State.tileSignal (s : State) (t g : Nat) : Bool :=
  let f := s.act t
  let T := s.tile t
  if g = 0 then T.firedNow
  else if 0x10 ≤ g then
    let src := fOsel f (g - 0x10)
    decide (g < 0x18) && (if src = 1 then T.oa.full0 else if src = 2 then T.ob.full0 else decide (4 ≤ src ∧ src < 16) && s.portSeen t (src - 4))
  else
    let i := if g ≤ 4 then 15 + g else if g ≤ 0xC then 3 + g else if g ≤ 0xE then 7 + g else 4
    bit (withPds (s.ptBase t f) (s.pds t)) i

/-- The level of signal `g` of region `r` (R168); a context switch and a collision last one cycle. -/
def State.regionSignal (s : State) (r g : Nat) : Bool :=
  if g = 0 then (s.rgn r).stall.isSome
  else if 2 ≤ g ∧ g < 6 then (s.hg r (g - 2)).mid
  else if g = 6 then (s.rgn r).held
  else g == 7 && (s.rgn r).st == .frozen

/-- The level of the signal that probe `k` selects, for a signal with a level: none with a reserved class or an unlisted code (R168). -/
def State.probeSignal (s : State) (k : Nat) : Bool :=
  let w := s.prbCfg k
  let c := fld w 2 3
  let u := fld w 5 6
  let g := fld w 19 5
  if c = 0 then decide (u < 24) && s.tileSignal (256 * u + fld w 11 8) g
  else if c = 1 then decide (u < 24) && s.regionSignal u g
  else c == 3 && g == 2 && decide (1024 ≤ s.hts.queue.length)

/-- The probes of region `r` take its signals in the cycle that ends. -/
def State.probeCycle (s : State) (r : Nat) : State :=
  s.notePrb (fun k => let w := s.prbCfg k; bit w 0 && decide (fld w 2 3 ≤ 1) && fld w 5 6 == r && s.probeSignal k)

/-- The capture of a collision (R29, R89): the first violation is held; within one cycle the lowest line code at the lowest
position is the one captured. -/
def State.captureLine (s : State) (r c p : Nat) (drv : List Nat) : State :=
  let pg := frgPage r
  let f := s.reg (pg + frgLineFault)
  let s1 :=
    if (f &&& 3) = 0 then s.loadLine r c p drv false
    else if s.reg64 (pg + frgLineCycle) = (s.rgn r).cyc.toNat ∧ lineKey c p < lineKey (fld f 2 3) (fld f 5 4) then s.loadLine r c p drv true
    else s.setReg (pg + frgLineFault) (setBit (setBit f 0) 1)
  s1.raise pg 8

/-- A further driver joins the collision on a line: the capture that holds it takes the new drivers (R87, R89). -/
def State.joinLine (s : State) (r c p : Nat) (drv : List Nat) : State :=
  let f := s.reg (frgPage r + frgLineFault)
  if bit f 0 ∧ s.reg64 (frgPage r + frgLineCycle) = (s.rgn r).cyc.toNat ∧ fld f 2 3 = c ∧ fld f 5 4 = p then
    s.loadLine r c p drv (bit f 1)
  else s

/-- Tile index `i` drives line code `c` at position `p` of region `r` with `w` (R86 to R89): the lowest-indexed driver's word
stands and loads the FOUT latches (R484), and the second driver makes a collision. -/
def State.driveOn (s : State) (r c p i : Nat) (w : Word) : State :=
  let old := lineGet (s.rgn r).lines (lineKey c p)
  let l := ChLine.drive old i w
  let s1 := (s.modRgn r (fun g => { g with lines := tput g.lines (lineKey c p) l })).foutLoad r c p l.word
  if l.drv = (old.map (·.drv)).getD [] then s1
  else if l.drv.length = 2 then (s1.captureLine r c p l.drv).pulse 1 r 8
  else if 2 < l.drv.length then s1.joinLine r c p l.drv
  else s1

/-- A word arrives at a receiving point. -/
def State.deliver (s : State) (w : Word) : Point → State
  | .chan t n => s.modTile t (fun T =>
      { T with bufs := tset {} T.bufs n { tget {} T.bufs n with buf := some w, got := true } })
  | .xing t n => { s with fab := { s.fab with
      xbuf := tset [] s.fab.xbuf (8 * t + n) (s.xing t n ++ [w])
      xcell := tset {} s.fab.xcell (8 * t + n) { tget {} s.fab.xcell (8 * t + n) with sent := true } } }
  | .freg t k => s.modTile t (fun T =>
      let x := tget {} T.fregs k
      { T with fregs := tset {} T.fregs k { x with words := x.words ++ [w], got := true } })
  | .lane r k i => s.modHg r k (fun h =>
      { h with lanes := tset {} h.lanes i { tget {} h.lanes i with buf := some w, got := true } })
  | .slot t c _ => s.driveOn (t / 256) c (linePos t c) (lineIdx t c) w

/-- A selector of frame `f` names drive source `src`: OSEL, an enabled driving tap or an enabled slot (R71, R76). -/
def srcNamed (f src : Nat) : Bool :=
  (List.range 8).any (fun n => fOsel f n == src) ||
  (List.range 4).any (fun k => let x := fTap f k; tapEn x && tapDrv x && tapSrc x == src) ||
  (List.range 2).any (fun j => let x := fSlot f j; slotEn x && slotSrc x == src)

/-- The word a source holds (R71, R76): OA and OB from the cycle after the fire that loaded them; the visible word of a channel
or tap where it is passed through. -/
def State.sourceWord (s : State) (t src : Nat) : Option Word :=
  let T := s.tile t
  if src = 1 then (if T.oa.new then none else T.oa.val)
  else if src = 2 then (if T.ob.new then none else T.ob.val)
  else if 4 ≤ src ∧ src < 16 ∧ srcNamed (s.act t) src then (s.buf t (src - 4)).buf
  else none

/-- The source's word leaves it. -/
def State.takeSource (s : State) (t src : Nat) : State :=
  s.modTile t (fun T =>
    if src = 1 then { T with oa := { T.oa with val := none } }
    else if src = 2 then { T with ob := { T.ob with val := none } }
    else { T with bufs := tset {} T.bufs (src - 4) { tget {} T.bufs (src - 4) with buf := none } })

/-- A source transfers its word to every member of its sink set, when all are ready (R74, R76, R77); a source with an
empty sink set discards its word. -/
def State.transfer (s : State) (t src : Nat) : State :=
  match s.sourceWord t src with
  | none => s
  | some w =>
    if regionMoves (s.rgn (t / 256)) && (s.sinks t src).all (s.pointReady false) then
      (s.sinks t src).foldl (fun u p => u.deliver w p) (s.takeSource t src)
    else s

/-- A point is a channel-line slot. -/
def isSlot : Point → Bool
  | .slot _ _ _ => true
  | _ => false

/-- LINK_TRANSFER: a source whose sink set holds links, segments and crossings transfers (R74). Sources that drive a
channel line transfer with that line. -/
def linkTransfer (t src : Nat) (s : State) : State :=
  if (s.sinks t src).any isSlot then s else s.transfer t src

/-- FURROW_REGISTER_EMIT: the furrow register of driving tap `k` presents its oldest word, which transfers when every
receiving point of the segment is ready (R82, R83). A word that a switch leaves in the register of a tap whose new fields do not
drive through it waits there. -/
def furrowEmit (t k : Nat) (s : State) : State :=
  let x := tget {} (s.tile t).fregs k
  let f := fTap (s.act t) k
  let pts := s.segPoints t (tapDir f) (tapSpan f) (tapTrack f)
  match x.words with
  | [] => s
  | w :: rest =>
    if regionMoves (s.rgn (t / 256)) && tapEn f && tapDrv f && tapFreg f && decide (0 < x.n0) && !x.out && pts.all (s.pointReady false) then
      pts.foldl (fun u p => u.deliver w p)
        (s.modTile t (fun T => { T with fregs := tset {} T.fregs k { x with words := rest, out := true } }))
    else s

/-- The tiles along line code `c` at position `p` of region `r`, lowest index first (R85). -/
def lineTiles (r c p : Nat) : List Nat :=
  (List.range 16).map (lineTile r c p)

/-- The sources of tile `t` whose enabled slots drive line code `c` now: gate 1, a word held, every sink ready (R86). -/
def State.lineSources (s : State) (t c : Nat) : List Nat :=
  let f := s.act t
  (((List.range 2).filter (fun j => let x := fSlot f j; slotEn x && slotLine x == c)).map (fun j => slotSrc (fSlot f j))).filter
    (fun src => (s.sourceWord t src).isSome && (s.sinks t src).all (s.pointReady false))

/-- Every tile on line code `c` at position `p` whose slot drives it transfers (R86). -/
def State.driveLine (s : State) (r c p : Nat) : State :=
  (lineTiles r c p).foldl (fun u t => (u.lineSources t c).foldl (fun v src => v.transfer t src) u) s

/-- CHANNEL_LINE_DRIVE: every tile on the line whose slot drives it transfers (R86 to R89). -/
def channelLineDrive (r c p : Nat) (s : State) : State :=
  if regionMoves (s.rgn r) then s.driveLine r c p else s

/-- The oldest word leaves crossing buffer n of tile t, whose rest is given; the running cycle keeps it in mind (R105, R106). -/
def State.takeXing (s : State) (t n : Nat) (w : Word) (rest : List Word) : State :=
  ({ s with fab := { s.fab with xbuf := tset [] s.fab.xbuf (8 * t + n) rest } }).modRgn (t / 256) (fun g =>
    { g with mark := { g.mark with took := g.mark.took ++ [(8 * t + n, w)] } })

/-- SLUICE_CROSSING_DELIVER: the oldest word of a crossing buffer becomes visible on its incoming channel (R106), when the
receiving region passes words and the channel is ready (R75, R107). -/
def sluiceDeliver (t n : Nat) (s : State) : State :=
  match s.xing t n with
  | [] => s
  | w :: rest =>
    if sluicePasses (s.rgn (t / 256)) && s.pointReady false (.chan t n) then
      (s.takeXing t n w rest).deliver w (.chan t n)
    else s

/-! ### The second stage -/

/-- The output registers a result loads are free (R47). -/
def State.stageFree (s : State) (t : Nat) (e : Stage2) : Bool :=
  (!e.doa || s.outFree t 1) && (!e.dob || s.outFree t 2)

/-- Load output register 1 (OA) or 2 (OB), after the word it still holds has left to its sinks. -/
def State.loadOut (s : State) (t src : Nat) (w : Word) : State :=
  (s.transfer t src).modTile t (fun T =>
    if src = 1 then { T with oa := { T.oa with val := some w, new := true } }
    else { T with ob := { T.ob with val := some w, new := true } })

/-- Write a register by destination code: pr of context `c`, or sh (R42). -/
def Tile.writeReg (T : Tile) (c d : Nat) (w : Word) : Tile :=
  if d < 8 then { T with pr := tset 0 T.pr (8 * c + d) w }
  else if d < 16 then { T with sh := tset 0 T.sh (d - 8) w } else T

/-- The word of tile memory that a write reaches: in FIFO mode the one at the tail, else the one that the address names (R55, R56). -/
def Tile.memTarget (T : Tile) (mode base addr : Nat) : Nat := if mode = 3 then base + T.tail else addr

/-- Write tile memory as the mode says and advance the pointer (R55, R56). -/
def Tile.writeMem (T : Tile) (mode base len addr : Nat) (w : Word) : Tile :=
  match mode with
  | 0 => { T with mem := tset 0 T.mem addr w }
  | 1 => { T with mem := tset 0 T.mem addr w, ptr := (T.ptr + 1) % len }
  | 3 => { T with mem := tset 0 T.mem (T.memTarget 3 base addr) w, tail := (T.tail + 1) % len, count := T.count + 1 }
  | _ => T

/-- z and n of a 32-bit result over the flags it does not touch (R50). -/
def znFlags (old : BitVec 5) (res : Word) : BitVec 5 := putBit (putBit old 0 (res == 0)) 1 (bit res 31)

/-- A second-stage result writes its register, ACC, flags and memory in the context of its fire (R48). -/
def Tile.retire (T : Tile) (e : Stage2) : Tile :=
  let T1 := { T with acc := tset 0 T.acc e.ctx e.acc }
  let T2 := T1.writeReg e.ctx e.dreg e.res
  let T3 := if e.fw then { T2 with flags := tset 0 T2.flags e.ctx (znFlags (tget 0 T2.flags e.ctx) e.res) } else T2
  if e.dtm then T3.writeMem e.mode e.base e.len e.addr e.res else T3

/-- The result is loaded into OA and OB where the fire drives them (R45). -/
def State.loadOuts (s : State) (t : Nat) (goA goB : Bool) (w : Word) : State :=
  let s1 := if goA then s.loadOut t 1 w else s
  if goB then s1.loadOut t 2 w else s1

/-- SECOND_STAGE_RETIRE: the oldest result leaves at the edge once its output registers are free (R47) and writes its
register, ACC, flags, outputs and memory in the context of its fire (R48). A fire of the same cycle takes the result out before
it writes, so that at one edge the value of the later fire stands and memory pointers move for both. -/
def secondStageRetire (t : Nat) (s : State) : State :=
  match (s.tile t).stage2 with
  | [] => s
  | e :: rest =>
    if regionMoves (s.rgn (t / 256)) && !e.new && s.stageFree t e then
      ((s.modTile t (fun T => { T with stage2 := rest })).modTile t (fun T => T.retire e)).loadOuts t e.doa e.dob e.res
    else s

/-! ### The edge -/

/-- q0 to q7 at the edge (R61). -/
def nextQ (f : Nat) (inp : BitVec 24) (q : BitVec 8) : BitVec 8 :=
  BitVec.ofNat 8 (((List.range 8).map (fun m =>
    2 ^ m * b2n (match macType (fMac f m) with
      | 2 => if macEn f inp m then macSum f inp m else bit q m
      | 3 => if macEn f inp m && macSum f inp m then !(bit q m) else bit q m
      | _ => bit q m))).sum)

/-- A buffer at the edge: what has not left stands in it at the start of the next cycle (R77). -/
def EBuf.edge (b : EBuf) : EBuf := { buf := b.buf, full0 := b.buf.isSome, got := false }

/-- A word that a pd-selected input ready consumes in every cycle in which the port holds it (R45). -/
def Tile.consume (T : Tile) (sel : Nat) (go : Bool) : Tile :=
  if go && decide (sel < 12) then { T with bufs := tset {} T.bufs sel { tget {} T.bufs sel with buf := none } } else T

/-- A tile at a fabric clock edge of a region that is not stopped, its context apart: flip-flops, buffers, registers and the
start-of-cycle values of the next cycle. -/
def State.edgeBase (s : State) (t : Nat) : Tile :=
  let f := s.act t
  let pds := s.pds t
  let inp := withPds (s.ptBase t f) pds
  let T := s.tile t
  let T0 := (T.consume (fIna f) (8 ≤ fHsIa f && hsel false pds (fHsIa f))).consume (fInb f) (8 ≤ fHsIb f && hsel false pds (fHsIb f))
  { T0 with
    q := nextQ f inp T.q
    entered := false
    stayed := false
    fired := T.firedOne
    firedNow := false
    firedOne := false
    lock := T.lock - 1
    oa := { T.oa with full0 := T.oa.val.isSome, new := false }
    ob := { T.ob with full0 := T.ob.val.isSome, new := false }
    bufs := tmap {} (fun _ => true) (fun _ b => b.edge) T0.bufs
    fregs := tmap {} (fun _ => true) (fun _ x => { words := x.words, n0 := x.words.length, got := false, out := false }) T.fregs
    stage2 := T.stage2.map (fun e => { e with new := false })
    flags0 := T.flags
    ptr0 := T.ptr
    count0 := T.count
    own := none }

/-- A tile at the edge that ends a stall: nothing moved in the cycle (R105). -/
def State.stoppedBase (s : State) (t : Nat) : Tile := { s.tile t with entered := false, stayed := false, own := none }

/-- q m when context `c` is entered: kept with pers, else the entering frame's init bit (R63). -/
def State.enterQ (s : State) (t c : Nat) : BitVec 8 :=
  BitVec.ofNat 8 (((List.range 8).map (fun m => 2 ^ m * b2n (let x := fMac (s.frame t c) m
    if macPers x then bit (s.tile t).q m else macInit x))).sum)

/-- Tile `t`, left as `B` by the cycle, passes an edge at which the sequencer selects `c` (R65): a tile that switches alone enters its target, a tile whose
active frame has ovr = 0 and whose context is not the selected one enters `c`, every other keeps its context. -/
def State.edgeTile (s : State) (B : Tile) (t c : Nat) : Tile :=
  let x := s.ctxOf t
  match (s.tile t).own with
  | some d => { B with q := s.enterQ t d, octx := if d = c then none else some d, entered := true }
  | none =>
    if !fOvr (s.act t) && x != (s.rgn (t / 256)).sel && x != c then { B with q := s.enterQ t c, octx := none, entered := true }
    else { B with octx := if x = c then none else some x }

/-- The tiles of region `r` that are listed or hold a frame word. -/
def State.regionTiles (s : State) (r : Nat) : List Nat :=
  ((tkeys (fun k => k / 256 == r) s.fab.tiles) ++
    ((tkeys (fun k => k / 65536 == r) s.fab.frames).map (· / 256))).dedup

/-- Tiles of a region, by key. -/
def ofRegionTile (r k : Nat) : Bool := k / 256 == r

/-- A headgate at an edge: mid-packet as the cycle left it, lanes ready again (R102). -/
def Headgate.edge (h : Headgate) : Headgate :=
  { h with req := false, mid := h.midN, shown := none, formed := false, lanes := tmap {} (fun _ => true) (fun _ b => b.edge) h.lanes }

/-- The sending cells of region `r` at its edge (R75, R106). -/
def State.cellEdge (s : State) (r : Nat) : State :=
  let rest := tkeep (fun k => xingFrom k != some r) s.fab.xcell
  let cells := (s.fab.xbuf.filter (fun e => xingFrom e.1 == some r)).foldl
    (fun (x : Tbl XCell) e => tset {} x e.1 { fill0 := e.2.length }) rest
  { s with fab := { s.fab with xcell := cells } }

/-- What a stop of the next cycle's edge puts back (R105). -/
def State.markCycle (s : State) (r : Nat) : State :=
  s.modRgn r (fun g => { g with mark :=
    { tiles := tkeep (ofRegionTile r) s.fab.tiles
      lanes := g.hg.map (fun e => (e.1, e.2.lanes))
      latch := (s.pio.pins.filter (fun e => foutPinOf e.2 r)).map (fun e => (e.1, e.2.latch)) } })

/-- What every edge of region `r` does beside its tiles: the cycle count, the channel lines, the headgates' lanes. -/
def RegionSt.edge (g : RegionSt) : RegionSt :=
  { g with cyc := g.cyc + 1, first := false, lines := [], hg := tmap {} (fun _ => true) (fun _ h => h.edge) g.hg }

/-- A fabric clock edge of a region that is not stopped: every tile, the channel lines, the outbound lanes and the cycle count;
`base` is what the cycle leaves of a tile. -/
def State.regionEdge (s : State) (base : Nat → Tile) (r : Nat) : State :=
  let s1 := (s.regionTiles r).foldl (fun u t => u.setTile t (s.edgeTile (base t) t (s.rgn r).sel)) (s.probeCycle r)
  ((s1.modRgn r RegionSt.edge).cellEdge r).markCycle r

/-- The edge of region `r` at which a stall, a hold or a freeze begins: nothing of the cycle takes place, so tiles, lanes, crossings
and latches stand as at its start, while flits keep arriving and formed flits keep leaving (R105, R154, R162). -/
def State.unwind (s : State) (r : Nat) : State :=
  let m := (s.rgn r).mark
  let back := fun (k : Nat) (h : Headgate) =>
    let held := if h.formed && h.sent && h.outb.length = 1 then h
      else { h with lanes := tget [] m.lanes k, outb := if h.formed then h.outb.dropLast else h.outb }
    { held with req := false, midN := h.mid, shown := none, formed := false, inb := h.shown.toList ++ h.inb }
  let unsent := tmap [] (fun k => xingFrom k == some r && (tget {} s.fab.xcell k).sent) (fun _ ws => ws.dropLast) s.fab.xbuf
  let xb := m.took.foldl (fun x e => tset [] x e.1 (e.2 :: tget [] x e.1)) unsent
  let tl := m.tiles.foldl (fun (T : Tbl Tile) e => tset {} T e.1 e.2) (tkeep (fun k => !ofRegionTile r k) s.fab.tiles)
  let pn := m.latch.foldl (fun (P : Tbl PinSt) e => tmap {} (fun k => k == e.1) (fun _ p => { p with latch := e.2 }) P) s.pio.pins
  let s1 := { s with fab := { s.fab with tiles := tl, xbuf := xb }, pio := { s.pio with pins := pn } }
  ((s1.modRgn r (fun g => { g with lines := [], hg := tmap {} (fun _ => true) back g.hg })).cellEdge r).markCycle r

/-- MACROCELL_UPDATE: a fabric clock edge of region `r` out of reset: FRGn_CYCLE counts (stalled cycles too, R120), and
unless the region is stalled or held every flip-flop, buffer and start-of-cycle value moves on (R61, R105, R154). -/
def macrocellUpdate (r : Nat) (s : State) : State :=
  let g := s.rgn r
  if g.st == .run || g.st == .bindoff then
    if regionMoves g then s.regionEdge s.edgeBase r
    else (s.modRgn r (fun g => { g with cyc := g.cyc + 1, stallCyc := if g.stall.isSome then g.stallCyc + 1 else g.stallCyc })).cellEdge r
  else s

/-! ### Context switches of one tile -/

/-- The context tile `t` asks for in this cycle, none when it makes no request (R65). -/
def State.switchReq (s : State) (t : Nat) : Option Nat :=
  let f := s.act t
  let pds := s.pds t
  if psel pds (fCsReq f) then
    let tgt := if fCsSrc f then 4 * b2n (bit pds 6) + 2 * b2n (bit pds 5) + b2n (bit pds 4) else fCsTgt f
    if tgt = s.ctxOf t then none else some tgt
  else none

/-- A switch stalls the region (R105): at that edge nothing of the cycle takes place, the target is latched, the stall is recorded
and EVT_RAW.stall is set; the cycle counts (R120). -/
def State.stallRegion (s : State) (r target : Nat) (tile : Option Nat) : State :=
  (((s.unwind r).modRgn r (fun g => { g with cyc := g.cyc + 1, stall := some ⟨target, tile⟩, stallCyc := 0 })).modReg (frgPage r + frgStall)
    (fun w => setFld (setFld w 0 12 (satAdd 0xFFF (fld w 0 12) 1)) 12 3 target)).raise (frgPage r) 2

/-- Tile `t` switches alone: it enters context `c` at the region's next edge (R65). -/
def State.ownSwitch (s : State) (t c : Nat) : State := s.modTile t (fun T => { T with own := some c })

end Sys2Proof.Machine
end

