-- ==== Sys2Proof/Machine/Flags.lean ====
section
/-!
DEFINITION. The results and flags of the tile function unit (R49 to R53): what each opcode computes from its operands.
-/
namespace Sys2Proof.Machine

/-- What a fire's operation reads: operands A, B, C, ACC with forwarding, the flags and predicates at the start of the
cycle, the immediate and the hi bit (R41, R47, R68). -/
structure FuIn where
  a   : Word
  b   : Word
  c   : Word
  acc : DWord
  fl  : BitVec 5
  pds : BitVec 8
  imm : Nat
  hi  : Bool
deriving DecidableEq, Repr

/-- What an operation produces: the 32-bit result, the new ACC where it writes ACC, and the flags c, v and t where it
writes them. `idle` is the operation that writes nothing (NOP). -/
structure FuOut where
  res  : Word
  acc  : Option DWord := none
  fc   : Option Bool := none
  fv   : Option Bool := none
  ft   : Option Bool := none
  idle : Bool := false
deriving DecidableEq, Repr

/-- An operation: opcode, latency, function. -/
structure FuOp where
  code : Nat
  lat2 : Bool
  run  : FuIn → FuOut

/-- Flag c at the start of the cycle. -/
def carryIn (i : FuIn) : Bool := bit i.fl 2

/-- A + B + k with carry out of bit 31 and signed overflow (R50). -/
def addCV (a b : Word) (k : Nat) : FuOut :=
  { res := BitVec.ofNat 32 (a.toNat + b.toNat + k)
    fc := some (decide (2 ^ 32 ≤ a.toNat + b.toNat + k))
    fv := some (decide (a.toInt + b.toInt + k < -2 ^ 31 ∨ 2 ^ 31 ≤ a.toInt + b.toInt + k)) }

/-- A − B − k: c = 1 when no borrow (A ≥ B unsigned for k = 0), v the signed overflow (R49, R50). -/
def subCV (a b : Word) (k : Nat) : FuOut :=
  { res := a - b - BitVec.ofNat 32 k
    fc := some (decide (b.toNat + k ≤ a.toNat))
    fv := some (decide (a.toInt - b.toInt - k < -2 ^ 31 ∨ 2 ^ 31 ≤ a.toInt - b.toInt - k)) }

/-- The six comparisons: 0 EQ, 1 NE, 2 LT, 3 LTU, 4 LE, 5 LEU (R49). -/
def compareOp (k : Nat) (a b : Word) : Bool :=
  match k with
  | 0 => a == b
  | 1 => a != b
  | 2 => decide (a.toInt < b.toInt)
  | 3 => decide (a.toNat < b.toNat)
  | 4 => decide (a.toInt ≤ b.toInt)
  | _ => decide (a.toNat ≤ b.toNat)

/-- A compare: result 1 or 0, t the same, c and v as SUB. -/
def cmpOut (k : Nat) (i : FuIn) : FuOut :=
  { subCV i.a i.b 0 with res := BitVec.ofNat 32 (b2n (compareOp k i.a i.b)), ft := some (compareOp k i.a i.b) }

/-- A pass: result A, t the comparison, c and v as SUB. -/
def passOut (k : Nat) (i : FuIn) : FuOut :=
  { subCV i.a i.b 0 with res := i.a, ft := some (compareOp k i.a i.b) }

/-- A result with no flag beside z and n. -/
def plain (w : Word) : FuOut := { res := w }

/-- Bit `k` of A by number, false outside the word. -/
def bitAt (a : Word) (k : Int) : Bool := if k < 0 then false else bit a k.toNat

/-- SHL, SHR, SAR, ROL, ROR (0 to 4) by s = B[4:0] with c as R49 says. -/
def shiftOut (k : Nat) (i : FuIn) : FuOut :=
  let s := fld i.b 0 5
  let r := match k with
    | 0 => i.a <<< s
    | 1 => i.a >>> s
    | 2 => i.a.sshiftRight s
    | 3 => i.a.rotateLeft s
    | _ => i.a.rotateRight s
  let c := if s = 0 then false else if k = 0 ∨ k = 3 then bit i.a (32 - s) else bit i.a (s - 1)
  { res := r, fc := some c }

/-- The ACC half that is the result of group 0x3 and the DOT forms (R49). -/
def accHalf (hi : Bool) (v : DWord) : Word := if hi then (v >>> 32).setWidth 32 else v.setWidth 32

/-- An operation that writes ACC. -/
def accOut (i : FuIn) (v : DWord) : FuOut := { res := accHalf i.hi v, acc := some v }

/-- Signed and unsigned 64-bit products. -/
def mulS (a b : Word) : DWord := BitVec.ofInt 64 (a.toInt * b.toInt)
def mulU (a b : Word) : DWord := BitVec.ofNat 64 (a.toNat * b.toNat)

/-- Lane `k` of `n` bits, unsigned and signed. -/
def lane (w : Word) (n k : Nat) : Nat := fld w (n * k) n
def laneS (w : Word) (n k : Nat) : Int := sx n (lane w n k)

/-- Put lanes of `n` bits together. -/
def packLanes (n : Nat) (l : List Nat) : Word :=
  BitVec.ofNat 32 ((l.zipIdx.map (fun p => (p.1 % 2 ^ n) * 2 ^ (n * p.2))).sum)

/-- Wrapping lane sums. -/
def laneAdd (n : Nat) (i : FuIn) : FuOut :=
  plain (packLanes n ((List.range (32 / n)).map (fun k => lane i.a n k + lane i.b n k)))

/-- Clamp into [lo, hi]. -/
def clampI (lo hi v : Int) : Int := if v < lo then lo else if hi < v then hi else v

/-- The `n`-bit pattern of an integer. -/
def patI (n : Nat) (v : Int) : Nat := (v % 2 ^ n).toNat

/-- Saturating signed lane sums; v when any lane saturated. -/
def laneAddS (n : Nat) (i : FuIn) : FuOut :=
  let sums := (List.range (32 / n)).map (fun k => laneS i.a n k + laneS i.b n k)
  let cl := sums.map (clampI (-2 ^ (n - 1)) (2 ^ (n - 1) - 1))
  { res := packLanes n (cl.map (patI n)), fv := some (sums != cl) }

/-- The sum of lane products, signed or unsigned. -/
def dot (signed : Bool) (n : Nat) (a b : Word) : Int :=
  ((List.range (32 / n)).map (fun k =>
    if signed then laneS a n k * laneS b n k else ((lane a n k * lane b n k : Nat) : Int))).sum

/-- ACC plus a dot product. -/
def dotOut (signed : Bool) (n : Nat) (i : FuIn) : FuOut := accOut i (i.acc + BitVec.ofInt 64 (dot signed n i.a i.b))

/-- The two-sum form: each half of ACC wraps at 32 bits. -/
def ddotOut (signed : Bool) (i : FuIn) : FuOut :=
  let lo : Word := i.acc.setWidth 32 + BitVec.ofInt 32 (dot signed 8 i.a i.b)
  let hi : Word := (i.acc >>> 32).setWidth 32 + BitVec.ofInt 32 (dot signed 8 i.a i.c)
  accOut i (hi ++ lo)

/-- Number of one bits. -/
def popc (w : Word) : Nat := ((List.range 32).filter (fun k => bit w k)).length
/-- Leading zeros, 32 for 0. -/
def clz (w : Word) : Nat := ((List.range 32).find? (fun k => bit w (31 - k))).getD 32
/-- Trailing zeros, 32 for 0. -/
def ctz (w : Word) : Nat := ((List.range 32).find? (fun k => bit w k)).getD 32
/-- Bit order reversed. -/
def brev (w : Word) : Word := BitVec.ofNat 32 (((List.range 32).map (fun k => 2 ^ (31 - k) * b2n (bit w k))).sum)

/-- Multiplication in GF(2^8): the polynomial's low byte is 0x1D or 0x1B (R51). -/
def gfMulStep (poly : Nat) (x : Nat) : Nat := if x < 128 then 2 * x else Nat.xor (2 * x - 256) poly
def gfMulN (poly : Nat) : Nat → Nat → Nat → Nat
  | 0, _, _ => 0
  | n + 1, x, y => Nat.xor (if y % 2 = 1 then x else 0) (gfMulN poly n (gfMulStep poly x) (y / 2))
def gfMul (poly x y : Nat) : Nat := gfMulN poly 8 x y
/-- The polynomial that imm[8] selects (R51). -/
def gfPoly (imm : Nat) : Nat := if nfld imm 8 1 = 1 then 0x1B else 0x1D

/-- Lanewise GF product, with C added when `acc`. -/
def gfOut (i : FuIn) (scalar acc : Bool) : FuOut :=
  plain (packLanes 8 ((List.range 4).map (fun k =>
    Nat.xor (if acc then lane i.c 8 k else 0)
      (gfMul (gfPoly i.imm) (lane i.a 8 k) (if scalar then i.imm % 256 else lane i.b 8 k)))))

/-- CRC-32C, reflected, one byte, no inversion (R52). -/
def crcBit (c : Nat) : Nat := if c % 2 = 1 then Nat.xor (c / 2) 0x82F63B78 else c / 2
def crcBits : Nat → Nat → Nat
  | 0, c => c
  | n + 1, c => crcBits n (crcBit c)
def crcByte (c b : Nat) : Nat := crcBits 8 (Nat.xor c b)
/-- CRC-32C of a byte list from an initial value. -/
def crc32cFrom (c : Nat) (l : List Byte) : Nat := l.foldl (fun c b => crcByte c b.toNat) c
/-- CRC-32C of B updated with the low `n` bytes of A. -/
def crcOut (n : Nat) (i : FuIn) : FuOut :=
  plain (BitVec.ofNat 32 (crc32cFrom i.b.toNat (bytesOf n i.a.toNat)))

/-- Signed saturation to 32 bits. -/
def satS (v : Int) : FuOut :=
  let c := clampI (-2 ^ 31) (2 ^ 31 - 1) v
  { res := BitVec.ofInt 32 c, fv := some (decide (c ≠ v)) }
/-- Unsigned saturation to 32 bits. -/
def satU (v : Int) : FuOut :=
  let c := clampI 0 (2 ^ 32 - 1) v
  { res := BitVec.ofInt 32 c, fv := some (decide (c ≠ v)) }

/-- Min-with-index update (R53). -/
def minixOut (i : FuIn) : FuOut :=
  let a := fld i.a 0 8
  let min1 := fld i.b 0 8
  let min2 := fld i.b 8 8
  let idx := fld i.b 16 8
  let pos := fld i.b 24 8
  let pack := fun (m1 m2 ix : Nat) => BitVec.ofNat 32 (m1 + 2 ^ 8 * m2 + 2 ^ 16 * ix + 2 ^ 24 * ((pos + 1) % 256))
  if a < min1 then { res := pack a min1 pos, ft := some true }
  else if a < min2 then { res := pack min1 a idx, ft := some false }
  else { res := pack min1 min2 idx, ft := some false }

/-- Bit i of the result is 1 when the three operand bits sum to at least imm[1:0]. -/
def bthrOut (i : FuIn) : FuOut :=
  let r := BitVec.ofNat 32 (((List.range 32).map (fun k =>
    2 ^ k * b2n (decide (i.imm % 4 ≤ b2n (bit i.a k) + b2n (bit i.b k) + b2n (bit i.c k))))).sum)
  { res := r, ft := some (decide (r ≠ 0)) }

/-- The mask of a bit field (BEXT, BINS): p = imm[4:0], w = imm[9:5] + 1. -/
def fieldP (i : FuIn) : Nat := i.imm % 32
def fieldW (i : FuIn) : Nat := nfld i.imm 5 5 + 1

end Sys2Proof.Machine
end

