-- ==== Sys2Proof/Machine/FabricFire.lean ====
section
/-!
DEFINITION. Fires of the tile function unit: when one takes place (R44 to R47), what it reads and writes (R41, R42, R45,
R46, R50, R54 to R56), and the 77 operations of the opcode table (R49).
-/
namespace Sys2Proof.Machine

/-- memory_ok: in FIFO mode a pop needs count > 0 and a push needs count < len or a pop in the same fire; a push still in
the second stage is counted (R56). -/
def State.memoryOk (s : State) (t f : Nat) : Bool :=
  let T := s.tile t
  if fMen f && fMode f == 3 then
    let n := T.count + (T.stage2.filter (fun e => e.dtm && e.mode == 3)).length
    (!namesTmrd f || decide (0 < T.count)) && (!fDtm f || namesTmrd f || decide (n < fLen f))
  else true

/-- A latency-2 operation that names in an operand the register it writes, or an ACC half (R47); aidx counts in
RAM and LUT mode with men = 1 alone (R69). -/
def selfDependent (f : Nat) : Bool :=
  ([fSrcA f, fSrcB f, fSrcC f] ++ (if fMen f && (fMode f == 0 || fMode f == 2) then [fAidx f] else [])).any (fun c => (decide (c < 16) && c == fDreg f) || c == 0x16 || c == 0x17)

/-- The second stage lets frame `f` fire an operation of latency 2 or 1 (R47): it is empty, or its one result leaves in
this cycle and loads no output register that a latency-1 fire would load. -/
def State.stageOk (s : State) (t f : Nat) (lat2 : Bool) : Bool :=
  match (s.tile t).stage2 with
  | [] => true
  | [e] => !e.new && s.stageFree t e && (lat2 || (!(e.doa && fDoa f) && !(e.dob && fDob f)))
  | _ => false

/-- fire of R44 for tile `t` under its active frame, for an operation of opcode `code`. -/
def State.canFire (s : State) (t : Nat) (op : FuOp) : Bool :=
  let f := s.act t
  let pds := s.pds t
  regionMoves (s.rgn (t / 256)) && fAct f && fOpc f == op.code && !(s.tile t).firedNow
    && (psel pds (fFirePsel f) != fFireInv f)
    && (!portUsed f 0x10 || (s.portWord t (fIna f)).isSome) && (!portUsed f 0x11 || (s.portWord t (fInb f)).isSome)
    && (!fDoa f || s.outFree t 1) && (!fDob f || s.outFree t 2)
    && s.memoryOk t f && (s.tile t).lock == 0 && s.stageOk t f op.lat2

/-- What the operation reads (R41, R46, R47): ACC is forwarded from a result of the same context still in the second
stage. -/
def State.fuIn (s : State) (t : Nat) : FuIn :=
  let f := s.act t
  let pds := s.pds t
  let c := s.ctxOf t
  let T := s.tile t
  let fwd := (T.stage2.filter (fun e => e.ctx == c)).getLast?
  { a := s.operand t f pds (fSrcA f), b := s.operand t f pds (fSrcB f), c := s.operand t f pds (fSrcC f)
    acc := match fwd with
      | some e => e.acc
      | none => tget 0 T.acc c
    fl := tget 0 T.flags0 c, pds := pds, imm := fImm f, hi := fHi f }

/-- The flags after a fire with fw = 1 (R50). -/
def newFlags (old : BitVec 5) (o : FuOut) : BitVec 5 :=
  if o.idle then old
  else
    let f1 := znFlags old o.res
    let f2 := match o.fc with
      | some b => putBit f1 2 b
      | none => f1
    let f3 := match o.fv with
      | some b => putBit f2 3 b
      | none => f2
    match o.ft with
    | some b => putBit f3 4 b
    | none => f3

/-- Input `sel` is consumed by a fire when its ready is auto and its port is used (R45). -/
def State.consumePort (s : State) (t f hs port sel : Nat) : State :=
  s.modTile t (fun T => T.consume sel (hs == 0 && portUsed f port))

/-- What every fire does to its tile at once: the fired bit, the interlock of R47 and the pop of R56. -/
def Tile.startFire (T : Tile) (f : Nat) (lat2 : Bool) : Tile :=
  let T1 := { T with firedNow := true, firedOne := !lat2, lock := if lat2 && selfDependent f then 2 else 0 }
  if fMen f && fMode f == 3 && namesTmrd f then { T1 with head := (T1.head + 1) % fLen f, count := T1.count - 1 } else T1

/-- A latency-1 result `o` is written in context `c` under frame `f`: register (R42), flags (R50) and, where `goM`, the tile-memory
word that `addr` or the tail names (R55). -/
def Tile.writeResult (T : Tile) (c f addr : Nat) (o : FuOut) (goM : Bool) : Tile :=
  let T1 := if o.idle then T else T.writeReg c (fDreg f) o.res
  let T2 := if fFw f then { T1 with flags := tset 0 T1.flags c (newFlags (tget 0 T1.flags c) o) } else T1
  if goM then T2.writeMem (fMode f) (fBase f) (fLen f) addr o.res else T2

/-- tgate of R54 leaves OA, OB and tile memory open to a fire that produced `o`; NOP writes nothing (R49). -/
def gateOpen (f : Nat) (o : FuOut) : Bool := !(fTgate f && o.ft != some true) && !o.idle

/-- The state in which a fire writes: its inputs consumed (R45), its tile started. -/
def State.fireStart (s : State) (t : Nat) (lat2 : Bool) : State :=
  let f := s.act t
  ((s.consumePort t f (fHsIa f) 0x10 (fIna f)).consumePort t f (fHsIb f) 0x11 (fInb f)).modTile t (fun T => T.startFire f lat2)

/-- The effect of a fire (R45 to R50, R54 to R56). A result that leaves the second stage in this cycle is written first (R48); then a
latency-1 result is written and a latency-2 result enters the second stage. -/
def State.fireEffect (s : State) (t : Nat) (op : FuOp) : State :=
  let f := s.act t
  let pds := s.pds t
  let c := s.ctxOf t
  let o := op.run (s.fuIn t)
  let addr := s.memAddr t f pds
  let goA := fDoa f && hsel true pds (fHsOa f) && gateOpen f o
  let goB := fDob f && hsel true pds (fHsOb f) && gateOpen f o
  let goM := fDtm f && fMen f && gateOpen f o
  let s0 := secondStageRetire t s
  if op.lat2 then
    (s0.fireStart t true).modTile t (fun T => { T with stage2 := T.stage2 ++
      [{ ctx := c, acc := o.acc.getD (tget 0 T.acc c), res := o.res, dreg := fDreg f, doa := goA, dob := goB, dtm := goM,
         addr := addr, mode := fMode f, len := fLen f, base := fBase f, fw := fFw f, new := true }] })
  else
    ((s0.fireStart t false).modTile t (fun T => T.writeResult c f addr o goM)).loadOuts t goA goB o.res

/-- A fire of the operation, where R44 lets it take place. -/
def fire (t : Nat) (op : FuOp) (s : State) : State := if s.canFire t op then s.fireEffect t op else s

/-- NOP (R49): A fire of NOP writes nothing and applies the handshakes. -/
def fuNop : FuOp := ⟨0x00, false, fun _ => { res := 0, idle := true }⟩
/-- NOP. -/
def execNop (t : TileId) (s : State) : Out := .next (s.gate (fire t.val fuNop s))

/-- ADD (R49): A fire of ADD produces A + B. -/
def fuAdd : FuOp := ⟨0x01, false, fun i => addCV i.a i.b 0⟩
/-- ADD. -/
def execAdd (t : TileId) (s : State) : Out := .next (s.gate (fire t.val fuAdd s))

/-- ADDC (R49): A fire of ADDC produces A + B + c. -/
def fuAddc : FuOp := ⟨0x02, false, fun i => addCV i.a i.b (b2n (carryIn i))⟩
/-- ADDC. -/
def execAddc (t : TileId) (s : State) : Out := .next (s.gate (fire t.val fuAddc s))

/-- SUB (R49): A fire of SUB produces A − B. -/
def fuSub : FuOp := ⟨0x03, false, fun i => subCV i.a i.b 0⟩
/-- SUB. -/
def execSub (t : TileId) (s : State) : Out := .next (s.gate (fire t.val fuSub s))

/-- SUBB (R49): A fire of SUBB produces A − B − (1 − c). -/
def fuSubb : FuOp := ⟨0x04, false, fun i => subCV i.a i.b (1 - b2n (carryIn i))⟩
/-- SUBB. -/
def execSubb (t : TileId) (s : State) : Out := .next (s.gate (fire t.val fuSubb s))

/-- CMPEQ (R49): A fire of CMPEQ produces 1 when A equals B and sets t. -/
def fuCmpeq : FuOp := ⟨0x05, false, fun i => cmpOut 0 i⟩
/-- CMPEQ. -/
def execCmpeq (t : TileId) (s : State) : Out := .next (s.gate (fire t.val fuCmpeq s))

/-- CMPNE (R49): A fire of CMPNE produces 1 when A differs from B and sets t. -/
def fuCmpne : FuOp := ⟨0x06, false, fun i => cmpOut 1 i⟩
/-- CMPNE. -/
def execCmpne (t : TileId) (s : State) : Out := .next (s.gate (fire t.val fuCmpne s))

/-- CMPLT (R49): A fire of CMPLT produces 1 when A is below B signed and sets t. -/
def fuCmplt : FuOp := ⟨0x07, false, fun i => cmpOut 2 i⟩
/-- CMPLT. -/
def execCmplt (t : TileId) (s : State) : Out := .next (s.gate (fire t.val fuCmplt s))

/-- CMPLTU (R49): A fire of CMPLTU produces 1 when A is below B unsigned and sets t. -/
def fuCmpltu : FuOp := ⟨0x08, false, fun i => cmpOut 3 i⟩
/-- CMPLTU. -/
def execCmpltu (t : TileId) (s : State) : Out := .next (s.gate (fire t.val fuCmpltu s))

/-- CMPLE (R49): A fire of CMPLE produces 1 when A is at most B signed and sets t. -/
def fuCmple : FuOp := ⟨0x09, false, fun i => cmpOut 4 i⟩
/-- CMPLE. -/
def execCmple (t : TileId) (s : State) : Out := .next (s.gate (fire t.val fuCmple s))

/-- CMPLEU (R49): A fire of CMPLEU produces 1 when A is at most B unsigned and sets t. -/
def fuCmpleu : FuOp := ⟨0x0A, false, fun i => cmpOut 5 i⟩
/-- CMPLEU. -/
def execCmpleu (t : TileId) (s : State) : Out := .next (s.gate (fire t.val fuCmpleu s))

/-- MOV (R49): A fire of MOV produces A. -/
def fuMov : FuOp := ⟨0x0B, false, fun i => plain i.a⟩
/-- MOV. -/
def execMov (t : TileId) (s : State) : Out := .next (s.gate (fire t.val fuMov s))

/-- NEG (R49): A fire of NEG produces 0 − A. -/
def fuNeg : FuOp := ⟨0x0C, false, fun i => subCV 0 i.a 0⟩
/-- NEG. -/
def execNeg (t : TileId) (s : State) : Out := .next (s.gate (fire t.val fuNeg s))

/-- ABS (R49): A fire of ABS produces the absolute value of A. -/
def fuAbs : FuOp := ⟨0x0D, false, fun i => { res := if bit i.a 31 then 0 - i.a else i.a, fv := some (decide (i.a = 0x80000000)) }⟩
/-- ABS. -/
def execAbs (t : TileId) (s : State) : Out := .next (s.gate (fire t.val fuAbs s))

/-- AND (R49): A fire of AND produces A & B. -/
def fuAnd : FuOp := ⟨0x10, false, fun i => plain (i.a &&& i.b)⟩
/-- AND. -/
def execAnd (t : TileId) (s : State) : Out := .next (s.gate (fire t.val fuAnd s))

/-- OR (R49): A fire of OR produces A | B. -/
def fuOr : FuOp := ⟨0x11, false, fun i => plain (i.a ||| i.b)⟩
/-- OR. -/
def execOr (t : TileId) (s : State) : Out := .next (s.gate (fire t.val fuOr s))

/-- XOR (R49): A fire of XOR produces A ^ B. -/
def fuXor : FuOp := ⟨0x12, false, fun i => plain (i.a ^^^ i.b)⟩
/-- XOR. -/
def execXor (t : TileId) (s : State) : Out := .next (s.gate (fire t.val fuXor s))

/-- ANDN (R49): A fire of ANDN produces A & ~B. -/
def fuAndn : FuOp := ⟨0x13, false, fun i => plain (i.a &&& ~~~i.b)⟩
/-- ANDN. -/
def execAndn (t : TileId) (s : State) : Out := .next (s.gate (fire t.val fuAndn s))

/-- NOT (R49): A fire of NOT produces ~A. -/
def fuNot : FuOp := ⟨0x14, false, fun i => plain (~~~i.a)⟩
/-- NOT. -/
def execNot (t : TileId) (s : State) : Out := .next (s.gate (fire t.val fuNot s))

/-- SHL (R49): A fire of SHL shifts A left by B[4:0]. -/
def fuShl : FuOp := ⟨0x15, false, fun i => shiftOut 0 i⟩
/-- SHL. -/
def execShl (t : TileId) (s : State) : Out := .next (s.gate (fire t.val fuShl s))

/-- SHR (R49): A fire of SHR shifts A right logically by B[4:0]. -/
def fuShr : FuOp := ⟨0x16, false, fun i => shiftOut 1 i⟩
/-- SHR. -/
def execShr (t : TileId) (s : State) : Out := .next (s.gate (fire t.val fuShr s))

/-- SAR (R49): A fire of SAR shifts A right arithmetically by B[4:0]. -/
def fuSar : FuOp := ⟨0x17, false, fun i => shiftOut 2 i⟩
/-- SAR. -/
def execSar (t : TileId) (s : State) : Out := .next (s.gate (fire t.val fuSar s))

/-- ROL (R49): A fire of ROL rotates A left by B[4:0]. -/
def fuRol : FuOp := ⟨0x18, false, fun i => shiftOut 3 i⟩
/-- ROL. -/
def execRol (t : TileId) (s : State) : Out := .next (s.gate (fire t.val fuRol s))

/-- ROR (R49): A fire of ROR rotates A right by B[4:0]. -/
def fuRor : FuOp := ⟨0x19, false, fun i => shiftOut 4 i⟩
/-- ROR. -/
def execRor (t : TileId) (s : State) : Out := .next (s.gate (fire t.val fuRor s))

/-- SEL (R49): A fire of SEL produces A when C is nonzero, else B. -/
def fuSel : FuOp := ⟨0x20, false, fun i => plain (if i.c ≠ 0 then i.a else i.b)⟩
/-- SEL. -/
def execSel (t : TileId) (s : State) : Out := .next (s.gate (fire t.val fuSel s))

/-- SELP (R49): A fire of SELP produces A when pd imm[2:0] is 1, else B. -/
def fuSelp : FuOp := ⟨0x21, false, fun i => plain (if bit i.pds (i.imm % 8) then i.a else i.b)⟩
/-- SELP. -/
def execSelp (t : TileId) (s : State) : Out := .next (s.gate (fire t.val fuSelp s))

/-- SELT (R49): A fire of SELT produces A when t is 1, else B. -/
def fuSelt : FuOp := ⟨0x22, false, fun i => plain (if bit i.fl 4 then i.a else i.b)⟩
/-- SELT. -/
def execSelt (t : TileId) (s : State) : Out := .next (s.gate (fire t.val fuSelt s))

/-- PASSEQ (R49): A fire of PASSEQ passes A and sets t when A equals B. -/
def fuPasseq : FuOp := ⟨0x23, false, fun i => passOut 0 i⟩
/-- PASSEQ. -/
def execPasseq (t : TileId) (s : State) : Out := .next (s.gate (fire t.val fuPasseq s))

/-- PASSNE (R49): A fire of PASSNE passes A and sets t when A differs from B. -/
def fuPassne : FuOp := ⟨0x24, false, fun i => passOut 1 i⟩
/-- PASSNE. -/
def execPassne (t : TileId) (s : State) : Out := .next (s.gate (fire t.val fuPassne s))

/-- PASSLT (R49): A fire of PASSLT passes A and sets t when A is below B signed. -/
def fuPasslt : FuOp := ⟨0x25, false, fun i => passOut 2 i⟩
/-- PASSLT. -/
def execPasslt (t : TileId) (s : State) : Out := .next (s.gate (fire t.val fuPasslt s))

/-- PASSLTU (R49): A fire of PASSLTU passes A and sets t when A is below B unsigned. -/
def fuPassltu : FuOp := ⟨0x26, false, fun i => passOut 3 i⟩
/-- PASSLTU. -/
def execPassltu (t : TileId) (s : State) : Out := .next (s.gate (fire t.val fuPassltu s))

/-- PASSLE (R49): A fire of PASSLE passes A and sets t when A is at most B signed. -/
def fuPassle : FuOp := ⟨0x27, false, fun i => passOut 4 i⟩
/-- PASSLE. -/
def execPassle (t : TileId) (s : State) : Out := .next (s.gate (fire t.val fuPassle s))

/-- PASSLEU (R49): A fire of PASSLEU passes A and sets t when A is at most B unsigned. -/
def fuPassleu : FuOp := ⟨0x28, false, fun i => passOut 5 i⟩
/-- PASSLEU. -/
def execPassleu (t : TileId) (s : State) : Out := .next (s.gate (fire t.val fuPassleu s))

/-- MUL (R49): A fire of MUL sets ACC to the signed product of A and B. -/
def fuMul : FuOp := ⟨0x30, true, fun i => accOut i (mulS i.a i.b)⟩
/-- MUL. -/
def execMul (t : TileId) (s : State) : Out := .next (s.gate (fire t.val fuMul s))

/-- MULU (R49): A fire of MULU sets ACC to the unsigned product of A and B. -/
def fuMulu : FuOp := ⟨0x31, true, fun i => accOut i (mulU i.a i.b)⟩
/-- MULU. -/
def execMulu (t : TileId) (s : State) : Out := .next (s.gate (fire t.val fuMulu s))

/-- MAC (R49): A fire of MAC adds the signed product of A and B to ACC. -/
def fuMac : FuOp := ⟨0x32, true, fun i => accOut i (i.acc + mulS i.a i.b)⟩
/-- MAC. -/
def execMac (t : TileId) (s : State) : Out := .next (s.gate (fire t.val fuMac s))

/-- MACU (R49): A fire of MACU adds the unsigned product of A and B to ACC. -/
def fuMacu : FuOp := ⟨0x33, true, fun i => accOut i (i.acc + mulU i.a i.b)⟩
/-- MACU. -/
def execMacu (t : TileId) (s : State) : Out := .next (s.gate (fire t.val fuMacu s))

/-- MSU (R49): A fire of MSU subtracts the signed product of A and B from ACC. -/
def fuMsu : FuOp := ⟨0x34, true, fun i => accOut i (i.acc - mulS i.a i.b)⟩
/-- MSU. -/
def execMsu (t : TileId) (s : State) : Out := .next (s.gate (fire t.val fuMsu s))

/-- ACCLD (R49): A fire of ACCLD loads ACC with B × 2^32 + A. -/
def fuAccld : FuOp := ⟨0x35, true, fun i => accOut i (i.b ++ i.a)⟩
/-- ACCLD. -/
def execAccld (t : TileId) (s : State) : Out := .next (s.gate (fire t.val fuAccld s))

/-- ADD4 (R49): A fire of ADD4 produces four wrapping 8-bit lane sums. -/
def fuAdd4 : FuOp := ⟨0x40, false, fun i => laneAdd 8 i⟩
/-- ADD4. -/
def execAdd4 (t : TileId) (s : State) : Out := .next (s.gate (fire t.val fuAdd4 s))

/-- ADD2 (R49): A fire of ADD2 produces two wrapping 16-bit lane sums. -/
def fuAdd2 : FuOp := ⟨0x41, false, fun i => laneAdd 16 i⟩
/-- ADD2. -/
def execAdd2 (t : TileId) (s : State) : Out := .next (s.gate (fire t.val fuAdd2 s))

/-- ADDS4 (R49): A fire of ADDS4 produces four saturating signed 8-bit lane sums. -/
def fuAdds4 : FuOp := ⟨0x42, false, fun i => laneAddS 8 i⟩
/-- ADDS4. -/
def execAdds4 (t : TileId) (s : State) : Out := .next (s.gate (fire t.val fuAdds4 s))

/-- ADDS2 (R49): A fire of ADDS2 produces two saturating signed 16-bit lane sums. -/
def fuAdds2 : FuOp := ⟨0x43, false, fun i => laneAddS 16 i⟩
/-- ADDS2. -/
def execAdds2 (t : TileId) (s : State) : Out := .next (s.gate (fire t.val fuAdds2 s))

/-- DOT4 (R49): A fire of DOT4 adds a signed four-lane 8-bit dot product to ACC. -/
def fuDot4 : FuOp := ⟨0x44, true, fun i => dotOut true 8 i⟩
/-- DOT4. -/
def execDot4 (t : TileId) (s : State) : Out := .next (s.gate (fire t.val fuDot4 s))

/-- DOT4U (R49): A fire of DOT4U adds an unsigned four-lane 8-bit dot product to ACC. -/
def fuDot4u : FuOp := ⟨0x45, true, fun i => dotOut false 8 i⟩
/-- DOT4U. -/
def execDot4u (t : TileId) (s : State) : Out := .next (s.gate (fire t.val fuDot4u s))

/-- DOT2 (R49): A fire of DOT2 adds a signed two-lane 16-bit dot product to ACC. -/
def fuDot2 : FuOp := ⟨0x46, true, fun i => dotOut true 16 i⟩
/-- DOT2. -/
def execDot2 (t : TileId) (s : State) : Out := .next (s.gate (fire t.val fuDot2 s))

/-- DOT2U (R49): A fire of DOT2U adds an unsigned two-lane 16-bit dot product to ACC. -/
def fuDot2u : FuOp := ⟨0x47, true, fun i => dotOut false 16 i⟩
/-- DOT2U. -/
def execDot2u (t : TileId) (s : State) : Out := .next (s.gate (fire t.val fuDot2u s))

/-- DDOT4 (R49): A fire of DDOT4 accumulates two signed 8-bit dot products into the two ACC halves. -/
def fuDdot4 : FuOp := ⟨0x48, true, fun i => ddotOut true i⟩
/-- DDOT4. -/
def execDdot4 (t : TileId) (s : State) : Out := .next (s.gate (fire t.val fuDdot4 s))

/-- DDOT4U (R49): A fire of DDOT4U accumulates two unsigned 8-bit dot products into the two ACC halves. -/
def fuDdot4u : FuOp := ⟨0x49, true, fun i => ddotOut false i⟩
/-- DDOT4U. -/
def execDdot4u (t : TileId) (s : State) : Out := .next (s.gate (fire t.val fuDdot4u s))

/-- POPC (R49): A fire of POPC produces the number of one bits of A. -/
def fuPopc : FuOp := ⟨0x50, false, fun i => plain (BitVec.ofNat 32 (popc i.a))⟩
/-- POPC. -/
def execPopc (t : TileId) (s : State) : Out := .next (s.gate (fire t.val fuPopc s))

/-- CLZ (R49): A fire of CLZ produces the leading zeros of A. -/
def fuClz : FuOp := ⟨0x51, false, fun i => plain (BitVec.ofNat 32 (clz i.a))⟩
/-- CLZ. -/
def execClz (t : TileId) (s : State) : Out := .next (s.gate (fire t.val fuClz s))

/-- CTZ (R49): A fire of CTZ produces the trailing zeros of A. -/
def fuCtz : FuOp := ⟨0x52, false, fun i => plain (BitVec.ofNat 32 (ctz i.a))⟩
/-- CTZ. -/
def execCtz (t : TileId) (s : State) : Out := .next (s.gate (fire t.val fuCtz s))

/-- BEXT (R49): A fire of BEXT extracts a bit field of A. -/
def fuBext : FuOp := ⟨0x53, false, fun i => plain (BitVec.ofNat 32 (fld i.a (fieldP i) (fieldW i)))⟩
/-- BEXT. -/
def execBext (t : TileId) (s : State) : Out := .next (s.gate (fire t.val fuBext s))

/-- BINS (R49): A fire of BINS inserts B into a bit field of A. -/
def fuBins : FuOp := ⟨0x54, false, fun i => plain (setFld i.a (fieldP i) (fieldW i) i.b.toNat)⟩
/-- BINS. -/
def execBins (t : TileId) (s : State) : Out := .next (s.gate (fire t.val fuBins s))

/-- BREV (R49): A fire of BREV reverses the bit order of A. -/
def fuBrev : FuOp := ⟨0x55, false, fun i => plain (brev i.a)⟩
/-- BREV. -/
def execBrev (t : TileId) (s : State) : Out := .next (s.gate (fire t.val fuBrev s))

/-- GFMUL (R51): A fire of GFMUL multiplies the byte lanes of A and B in GF(2^8). -/
def fuGfmul : FuOp := ⟨0x60, false, fun i => gfOut i false false⟩
/-- GFMUL. -/
def execGfmul (t : TileId) (s : State) : Out := .next (s.gate (fire t.val fuGfmul s))

/-- GFMULS (R51): A fire of GFMULS multiplies the byte lanes of A by a constant in GF(2^8). -/
def fuGfmuls : FuOp := ⟨0x61, false, fun i => gfOut i true false⟩
/-- GFMULS. -/
def execGfmuls (t : TileId) (s : State) : Out := .next (s.gate (fire t.val fuGfmuls s))

/-- GFMAD (R51): A fire of GFMAD adds C to the GF(2^8) lane products of A and B. -/
def fuGfmad : FuOp := ⟨0x62, false, fun i => gfOut i false true⟩
/-- GFMAD. -/
def execGfmad (t : TileId) (s : State) : Out := .next (s.gate (fire t.val fuGfmad s))

/-- GFMADS (R51): A fire of GFMADS adds C to the GF(2^8) lane products of A and a constant. -/
def fuGfmads : FuOp := ⟨0x63, false, fun i => gfOut i true true⟩
/-- GFMADS. -/
def execGfmads (t : TileId) (s : State) : Out := .next (s.gate (fire t.val fuGfmads s))

/-- CRCB (R52): A fire of CRCB updates CRC-32C B with one byte of A. -/
def fuCrcb : FuOp := ⟨0x70, false, fun i => crcOut 1 i⟩
/-- CRCB. -/
def execCrcb (t : TileId) (s : State) : Out := .next (s.gate (fire t.val fuCrcb s))

/-- CRCH (R52): A fire of CRCH updates CRC-32C B with two bytes of A. -/
def fuCrch : FuOp := ⟨0x71, false, fun i => crcOut 2 i⟩
/-- CRCH. -/
def execCrch (t : TileId) (s : State) : Out := .next (s.gate (fire t.val fuCrch s))

/-- CRCW (R52): A fire of CRCW updates CRC-32C B with four bytes of A. -/
def fuCrcw : FuOp := ⟨0x72, false, fun i => crcOut 4 i⟩
/-- CRCW. -/
def execCrcw (t : TileId) (s : State) : Out := .next (s.gate (fire t.val fuCrcw s))

/-- ADDS (R49): A fire of ADDS produces the saturating signed sum of A and B. -/
def fuAdds : FuOp := ⟨0x80, false, fun i => satS (i.a.toInt + i.b.toInt)⟩
/-- ADDS. -/
def execAdds (t : TileId) (s : State) : Out := .next (s.gate (fire t.val fuAdds s))

/-- SUBS (R49): A fire of SUBS produces the saturating signed difference of A and B. -/
def fuSubs : FuOp := ⟨0x81, false, fun i => satS (i.a.toInt - i.b.toInt)⟩
/-- SUBS. -/
def execSubs (t : TileId) (s : State) : Out := .next (s.gate (fire t.val fuSubs s))

/-- ADDUS (R49): A fire of ADDUS produces the saturating unsigned sum of A and B. -/
def fuAddus : FuOp := ⟨0x82, false, fun i => satU ((i.a.toNat : Int) + i.b.toNat)⟩
/-- ADDUS. -/
def execAddus (t : TileId) (s : State) : Out := .next (s.gate (fire t.val fuAddus s))

/-- SUBUS (R49): A fire of SUBUS produces the unsigned difference of A and B saturating at 0. -/
def fuSubus : FuOp := ⟨0x83, false, fun i => satU ((i.a.toNat : Int) - i.b.toNat)⟩
/-- SUBUS. -/
def execSubus (t : TileId) (s : State) : Out := .next (s.gate (fire t.val fuSubus s))

/-- MIN (R49): A fire of MIN produces the signed smaller of A and B. -/
def fuMin : FuOp := ⟨0x84, false, fun i => plain (if i.b.toInt < i.a.toInt then i.b else i.a)⟩
/-- MIN. -/
def execMin (t : TileId) (s : State) : Out := .next (s.gate (fire t.val fuMin s))

/-- MAX (R49): A fire of MAX produces the signed larger of A and B. -/
def fuMax : FuOp := ⟨0x85, false, fun i => plain (if i.a.toInt < i.b.toInt then i.b else i.a)⟩
/-- MAX. -/
def execMax (t : TileId) (s : State) : Out := .next (s.gate (fire t.val fuMax s))

/-- MINU (R49): A fire of MINU produces the unsigned smaller of A and B. -/
def fuMinu : FuOp := ⟨0x86, false, fun i => plain (if i.b.toNat < i.a.toNat then i.b else i.a)⟩
/-- MINU. -/
def execMinu (t : TileId) (s : State) : Out := .next (s.gate (fire t.val fuMinu s))

/-- MAXU (R49): A fire of MAXU produces the unsigned larger of A and B. -/
def fuMaxu : FuOp := ⟨0x87, false, fun i => plain (if i.a.toNat < i.b.toNat then i.b else i.a)⟩
/-- MAXU. -/
def execMaxu (t : TileId) (s : State) : Out := .next (s.gate (fire t.val fuMaxu s))

/-- MINIX (R53): A fire of MINIX updates a min-with-index state word with a magnitude. -/
def fuMinix : FuOp := ⟨0x88, false, fun i => minixOut i⟩
/-- MINIX. -/
def execMinix (t : TileId) (s : State) : Out := .next (s.gate (fire t.val fuMinix s))

/-- BXOR3 (R49): A fire of BXOR3 produces A ⊕ B ⊕ C. -/
def fuBxor3 : FuOp := ⟨0x90, false, fun i => plain (i.a ^^^ i.b ^^^ i.c)⟩
/-- BXOR3. -/
def execBxor3 (t : TileId) (s : State) : Out := .next (s.gate (fire t.val fuBxor3 s))

/-- BMAJ3 (R49): A fire of BMAJ3 produces the bitwise majority of A, B and C. -/
def fuBmaj3 : FuOp := ⟨0x91, false, fun i => plain ((i.a &&& i.b) ||| (i.a &&& i.c) ||| (i.b &&& i.c))⟩
/-- BMAJ3. -/
def execBmaj3 (t : TileId) (s : State) : Out := .next (s.gate (fire t.val fuBmaj3 s))

/-- BTHR (R49): A fire of BTHR sets each bit whose count over A, B and C reaches a threshold. -/
def fuBthr : FuOp := ⟨0x92, false, fun i => bthrOut i⟩
/-- BTHR. -/
def execBthr (t : TileId) (s : State) : Out := .next (s.gate (fire t.val fuBthr s))

/-- BMUX (R49): A fire of BMUX selects bits of A or B under mask C. -/
def fuBmux : FuOp := ⟨0x93, false, fun i => plain ((i.a &&& i.c) ||| (i.b &&& ~~~i.c))⟩
/-- BMUX. -/
def execBmux (t : TileId) (s : State) : Out := .next (s.gate (fire t.val fuBmux s))

/-- BAND3 (R49): A fire of BAND3 produces A & B & C. -/
def fuBand3 : FuOp := ⟨0x94, false, fun i => plain (i.a &&& i.b &&& i.c)⟩
/-- BAND3. -/
def execBand3 (t : TileId) (s : State) : Out := .next (s.gate (fire t.val fuBand3 s))

/-- BOR3 (R49): A fire of BOR3 produces A | B | C. -/
def fuBor3 : FuOp := ⟨0x95, false, fun i => plain (i.a ||| i.b ||| i.c)⟩
/-- BOR3. -/
def execBor3 (t : TileId) (s : State) : Out := .next (s.gate (fire t.val fuBor3 s))

end Sys2Proof.Machine
end

