-- ==== Sys2Proof/Machine/Net.lean ====
section
/-!
DEFINITION. The network's addressing (R242 to R244), its routes (R250 to R253), ports (R261, R263), transactions and their flits
(R245 to R249, R254 to R256) and bridges (R260): what the units that launch or take transactions share.
-/
namespace Sys2Proof.Machine

/-- NI index of port `p` of router `r` (R243). -/
def niAt (r p : Nat) : Nat := 4 * r + p
/-- The router of region `n` (R10). -/
def regionRouter (n : Nat) : Nat := (n / 6 + 1) * 8 + n % 6 + 1
/-- NI of headgate `k` of region `r` (R243). -/
def hgNi (r k : Nat) : Nat := niAt (regionRouter r) k
/-- Region and headgate at an NI. -/
def headgateAt (t : Nat) : Option (Nat × Nat) := ((List.range 24).find? (fun r => regionRouter r == t / 4)).map (fun r => (r, t % 4))

/-- NI of SQ NI `j` (R243). -/
def sqNi (j : Nat) : Nat :=
  if j < 12 then niAt (1 + j / 2) (1 + j % 2)
  else if j < 24 then niAt (41 + (j - 12) / 2) (1 + j % 2)
  else if j < 28 then niAt (8 * (j - 23)) 1
  else if j < 30 then niAt (15 + 8 * (j - 28)) 1
  else niAt (31 + 8 * (j - 30)) 0
/-- NI of queue `q`. -/
def queueNi (q : Nat) : Nat := sqNi (q / 4)
/-- NI of RSV NI `j` (R243). -/
def rsvNi (j : Nat) : Nat :=
  if j < 6 then niAt (1 + j) 3
  else if j < 12 then niAt (41 + (j - 6)) 3
  else if j < 14 then niAt 47 (2 + (j - 12))
  else if j < 22 then niAt (8 * (1 + (j - 14) / 2)) (2 + j % 2)
  else if j < 26 then niAt (15 + 8 * ((j - 22) / 2)) (2 + j % 2)
  else niAt (31 + 8 * ((j - 26) / 3)) (1 + (j - 26) % 3)
/-- NI of MED NI `j` (R243). -/
def medNi (j : Nat) : Nat := if j < 4 then niAt (1 + j) 0 else niAt (41 + (j - 4)) 0
/-- NI of DRC NI `j`. -/
def drcNi (j : Nat) : Nat := niAt (15 + 8 * j) 0
/-- NI of HIF NI `j`. -/
def hifNi (j : Nat) : Nat := niAt (8 * (j + 1)) 0

/-- NIs of the DMA's read and write engines for channel `n` (R243). -/
def dmaReadNi (n : Nat) : Nat := if n % 2 = 0 then 180 else 184
def dmaWriteNi (n : Nat) : Nat := if n % 2 = 0 then 188 else 189

/-- The NI from which an initiator of R27 launches a request to address `a` (R243, R507), none for a value that is not issued. -/
def unitNi (src : Ini) (a : Nat) (wr : Bool) : Option Nat :=
  let c := src.toNat
  if 1 ≤ c ∧ c ≤ 2 then some (niAt 7 (c + 1))
  else if 3 ≤ c ∧ c ≤ 4 then some (niAt 40 (c - 3))
  else if c = 0x20 then some (hifNi 0)
  else if c = 0x21 then some (hifNi (if 0x10000000 ≤ a ∧ a < 0x12000000 then 0 else nfld a 8 2))
  else if c = 0x30 then some (niAt 0 1)
  else if c = 0x31 then some (niAt 7 1)
  else if c = 0x32 then some (niAt 6 0)
  else if c = 0x33 then some (niAt 40 2)
  else if c = 0x34 then some (niAt 0 2)
  else if c = 0x35 then some (niAt 5 0)
  else if c = 0x36 then some (niAt 0 3)
  else if 0x40 ≤ c ∧ c < 0x80 then some (if wr then dmaWriteNi (c - 0x40) else dmaReadNi (c - 0x40))
  else if 0x80 ≤ c ∧ c < 0x98 then some (niAt (regionRouter (c - 0x80)) 0)
  else if 0xA0 ≤ c ∧ c < 0xC0 then some (medNi ((c - 0xA0) / 4))
  else none

/-- NI that serves a register page (R243, R244); a hole goes to NI 0. -/
def pageNi (off : Nat) : Nat :=
  if 0x240000 ≤ off ∧ off < 0x300000 then niAt ((off - 0x240000) / 0x1000 / 4) 0
  else if 0x1000000 ≤ off ∧ off < 0x1100000 then niAt 7 1
  else match blockAt off with
    | none => 0
    | some r =>
      let i := pageIdx r off
      match r.blk with
      | .lve => niAt 0 1
      | .sec => niAt 0 2
      | .trc => niAt 0 3
      | .medc | .mgd => niAt 5 0
      | .hts => niAt 6 0
      | .atu => niAt 7 0
      | .fcc => niAt 7 1
      | .ccx => if i < 2 then niAt 7 (2 + i) else niAt 40 (i - 2)
      | .ply => niAt 40 2
      | .dma | .dmac => niAt 45 0
      | .rsv => rsvNi 0
      | .drc => drcNi 0
      | .hif => hifNi 0
      | .med => medNi (i / 4)
      | .sq => queueNi i
      | .frg => niAt (regionRouter i) 0
      | .ocn => niAt i 0
      | _ => 0

/-- The ranges of the device physical address space (R17). -/
inductive Target where
  | rom (off : Nat)
  | window (off : Nat)
  /-- Reservoir byte offset, plain 0, bit-set 1 or bit-clear 2. -/
  | reservoir (off view : Nat)
  | dram (off : Nat)
  | host (off : Nat)
  | peer (id off : Nat)
  | unmapped
deriving DecidableEq, Repr

/-- Installed DRAM bytes: DRC_CFG.capacity 0 to 3 is 8, 16, 32, 64 GiB (R293). -/
def State.dramBytes (s : State) : Nat := 2 ^ 33 * 2 ^ (min 3 (fld (s.reg (page .drc 0 + drcCfg)) 0 3))

/-- Where a device physical address lies (R17). -/
def State.target (s : State) (a : Nat) : Target :=
  if a < 0x20000 then .rom a
  else if 0x10000000 ≤ a ∧ a < 0x12000000 then .window (a - 0x10000000)
  else if 0x20000000 ≤ a ∧ a < 0x2C000000 then .reservoir ((a - 0x20000000) % 0x4000000) ((a - 0x20000000) / 0x4000000)
  else if dramBase ≤ a ∧ a < dramBase + s.dramBytes then .dram (a - dramBase)
  else if 0x400000000000 ≤ a ∧ a < 0x800000000000 then .host (a - 0x400000000000)
  else if 0x800000000000 ≤ a ∧ a < 0xC00000000000 then .peer (nfld a 34 12) (nfld a 0 34)
  else .unmapped

/-- The NI that serves an address (R244), none when it is unmapped. -/
def State.addrNi (s : State) (a : Nat) : Option Nat :=
  match s.target a with
  | .rom _ => some 0
  | .window o => some (pageNi o)
  | .reservoir o _ => some (rsvNi (o / 0x40000 / 8))
  | .dram _ => some (drcNi (nfld a 8 1))
  | .host _ | .peer _ _ => some (hifNi (nfld a 8 2))
  | .unmapped => none

/-- A network interface and a router. -/
def State.ni (s : State) (n : Nat) : NiSt := tget {} s.ocn.nis n
def State.modNi (s : State) (n : Nat) (f : NiSt → NiSt) : State :=
  { s with ocn := { s.ocn with nis := tset {} s.ocn.nis n (f (s.ni n)) } }
def State.router (s : State) (r : Nat) : RouterSt := tget {} s.ocn.routers r
def State.modRouter (s : State) (r : Nat) (f : RouterSt → RouterSt) : State :=
  { s with ocn := { s.ocn with routers := tset {} s.ocn.routers r (f (s.router r)) } }
/-- Window page of router `r`. -/
def ocnPage (r : Nat) : Nat := page .ocn r

/-- The key of a transaction. -/
def Txn.key (x : Txn) : TxnKey := ⟨x.rsv.ini, x.rsv.txn⟩

/-- The transaction of a key. -/
def State.txn (s : State) (k : TxnKey) : Option Txn := s.ocn.txns.find? (fun x => x.key == k)

/-- Replace the list of transactions. -/
def State.setTxns (s : State) (l : List Txn) : State := { s with ocn := { s.ocn with txns := l } }

/-- Update the transaction of a key. -/
def State.modTxn (s : State) (k : TxnKey) (f : Txn → Txn) : State :=
  s.setTxns (s.ocn.txns.map (fun x => if x.key = k then f x else x))

/-- Remove the transaction of a key. -/
def State.dropTxn (s : State) (k : TxnKey) : State := s.setTxns (s.ocn.txns.filter (fun x => x.key != k))

/-- Ports that carry an NI (R243): all but port 3 of router 40. -/
def hasNi (n : Nat) : Bool := n != 163

/-- A plain reservation of one flit with every field but those named at zero. -/
def Rsv.base (src : Ini) (ini tgt : Nat) : Rsv :=
  { src := src, ini := Fin.ofNat 192 ini, txn := 0, tgt := Fin.ofNat 192 tgt, gt := false, ep := false, addr := 0,
    nfm1 := 0, wake := false, queue := 0, sctx := 0, bm0 := 0, bm1 := 0 }

/-- The block behind the target has answered: DONE or the read's flits are on their way with `st`. -/
def Txn.done (x : Txn) (st : Status) : Txn := { x with stage := .answered, status := st }

/-- The target refuses: REFUSE with `st` (R254). -/
def Txn.refuse (x : Txn) (st : Status) : Txn := { x with stage := .answered, status := st, refused := true }

/-- Status codes (R249). -/
def statusCode : Status → Nat
  | .ok => 0 | .decErr => 1 | .slvErr => 2 | .drowse => 3 | .dead => 4 | .empty => 5 | .collide => 6

/-- The type-specific field of a word that leaves (R180, R248). -/
def wordTsf (first last : Bool) (tag vbytes : Nat) (st poison : Nat) : BitVec 16 :=
  BitVec.ofNat 16 (b2n first + 2 * b2n last + 4 * (tag % 8) + 2 ^ 5 * (vbytes % 64) + 2 ^ 11 * st + 2 ^ 15 * poison)

/-- Operations that carry data to the target. -/
def OcnOp.writes : OcnOp → Bool
  | .write | .qwrite | .qpush => true
  | _ => false

/-! ### Routes (R250 to R253) -/

/-- The router one hop from `r` in direction 0 N, 1 E, 2 S, 3 W (R242). -/
def meshHop (r d : Nat) : Option Nat :=
  match d with
  | 0 => if r < 40 then some (r + 8) else none
  | 1 => if r % 8 ≠ 7 then some (r + 1) else none
  | 2 => if 8 ≤ r then some (r - 8) else none
  | _ => if r % 8 ≠ 0 then some (r - 1) else none

/-- Direction after a turn code: 0 straight, 1 left, 2 right (R250). -/
def turn (d code : Nat) : Nat := if code = 1 then (d + 3) % 4 else if code = 2 then (d + 1) % 4 else d

/-- Fields of a route entry (R251). -/
def rtCodes (e : DWord) : Nat := fld e 0 24
def rtDport (e : DWord) : Nat := fld e 24 3
def rtFirst (e : DWord) : Nat := fld e 27 3
def rtGt (e : DWord) : Bool := bit e 30
def rtValid (e : DWord) : Bool := bit e 31
def rtNhop (e : DWord) : Nat := fld e 32 4

/-- Follow `n` routers from `r` entered in direction `d`: the last code must exit, the others must not; no turn into W after
a hop in another direction (R252). The answer is the last router. -/
def walkRoute : Nat → Nat → Nat → Nat → Option Nat
  | 0, _, _, _ => none
  | n + 1, r, d, codes =>
    match meshHop r d with
    | none => none
    | some r' =>
      let code := codes % 4
      if n = 0 then (if code = 3 then some r' else none)
      else if code = 3 then none
      else if turn d code = 3 ∧ d ≠ 3 then none
      else walkRoute n r' (turn d code) (codes / 4)

/-- The router at which the route of an entry of NI `i` ends, none when a condition of R252 fails. -/
def routeEnd (i : Nat) (e : DWord) : Option Nat :=
  if 12 < rtNhop e then none
  else if rtNhop e = 0 then (if rtFirst e = 4 ∧ rtCodes e = 0 then some (i / 4) else none)
  else if rtFirst e < 4 ∧ rtCodes e < 4 ^ rtNhop e then walkRoute (rtNhop e) (i / 4) (rtFirst e) (rtCodes e) else none

/-- The check of a written entry `j` of NI `i` (R252). -/
def routeOk (i j : Nat) (e : DWord) : Bool :=
  match routeEnd i e with
  | none => false
  | some r => decide (rtDport e < 4) && hasNi (niAt r (rtDport e)) && (decide (192 ≤ j) || (r == j / 4 && rtDport e == j % 4))

/-- The directions of the dimension-ordered route: E or W hops, then N or S hops (R253). -/
def dorDirs (r t : Nat) : List Nat :=
  (if t % 8 < r % 8 then List.replicate (r % 8 - t % 8) 3 else List.replicate (t % 8 - r % 8) 1) ++
  (if t / 8 < r / 8 then List.replicate (r / 8 - t / 8) 2 else List.replicate (t / 8 - r / 8) 0)

/-- The code that takes a flit from direction `a` to direction `b`. -/
def codeOf (a b : Nat) : Nat := if a = b then 0 else if (a + 3) % 4 = b then 1 else 2

/-- Codes of a list of directions: one for each later hop, then the exit. -/
def codesOf : List Nat → Nat
  | [] => 0
  | [_] => 3
  | a :: b :: t => codeOf a b + 4 * codesOf (b :: t)

/-- The entry that a cold reset writes (R253). -/
def dorEntry (i j : Nat) : DWord :=
  if j < 192 then
    let ds := dorDirs (i / 4) (j / 4)
    BitVec.ofNat 64 (codesOf ds + 2 ^ 24 * (j % 4) + 2 ^ 27 * (ds.headD 4) + 2 ^ 31 + 2 ^ 32 * ds.length)
  else 0

/-- Entry `j` of bank `e` of NI `i`. -/
def State.route (s : State) (i e j : Nat) : DWord := tget (dorEntry i j) s.ocn.routes (512 * i + 256 * e + j)

/-! ### Ports -/

/-- The dead bit of NI `n`'s port (OCNr_DEAD[3:0], R261). -/
def State.portDead (s : State) (n : Nat) : Bool := bit (s.reg (ocnPage (n / 4) + ocnDead)) (n % 4)

/-- The status with which NI `n`'s port refuses, none when it takes reservations (R261, R263). -/
def State.portRefuses (s : State) (n : Nat) : Option Status :=
  if s.portDead n then some .dead
  else if (s.ni n).port = .opened then none else some .drowse

/-- The reservation reads or writes the register window. -/
def State.atWindow (s : State) (op : OcnOp) (x : Rsv) : Bool :=
  (op == .read || op == .write) && (match s.target x.addr.toNat with
    | .window _ => true
    | _ => false)

/-- An address in a page of a region's registers. -/
def State.regionPageAt (s : State) (a : Nat) : Bool :=
  match s.target a with
  | .window o => (blockAt o).any (fun b => b.blk == .frg)
  | _ => false

/-- The reservation reads or writes a page of a region's registers. These stand on the network's side of the region's bridge: the PMU
acts on them while the region is off (R117, R120). DEDUCED: a closed port takes them, so that FRGn_OPSEL can power the region on. -/
def State.atRegionPage (s : State) (op : OcnOp) (x : Rsv) : Bool := (op == .read || op == .write) && s.regionPageAt x.addr.toNat

/-- The status with which the port of its target refuses reservation `x`, none when it takes it. -/
def State.rsvRefused (s : State) (op : OcnOp) (x : Rsv) : Option Status :=
  if s.atRegionPage op x && !s.portDead x.tgt.val then none else s.portRefuses x.tgt.val

/-- A pending entry that is neither granted nor delivered, a SIGNAL that waits for its latch among them (R99). -/
def Txn.notAdmitted (x : Txn) : Bool := x.stage == .pending || (x.stage == .atBlock && x.op == .signal)

/-- A wake reservation refused at a closing or closed port raises the port's wake request, once for each closure (R264). -/
def State.wakeAt (s : State) (n : Nat) (wake : Bool) : State :=
  if wake && (s.ni n).port != .opened && !(s.ni n).woke then
    (s.modNi n (fun x => { x with woke := true })).raise (ocnPage (n / 4)) 5
  else s

/-- PORT_CLOSE: the NI enters CLOSING and refuses what it has not granted or delivered with DROWSE. -/
def portClose (n : Nat) (s : State) : State :=
  if (s.ni n).port = .opened ∧ hasNi n then
    let hit := fun (x : Txn) => x.rsv.tgt.val == n && x.notAdmitted && !s.atRegionPage x.op x.rsv
    let out := s.ocn.txns.filter hit
    let st : Status := if s.portDead n then .dead else .drowse
    let s1 := (s.modNi n (fun x => { x with port := .closing, woke := false })).modReg (ocnPage (n / 4) + ocnClose)
      (fun w => setBit w (n % 4))
    let s2 := s1.setTxns (s1.ocn.txns.map (fun x => if hit x then x.refuse st else x))
    s2.wakeAt n (out.any (fun x => x.rsv.wake))
  else s

/-! ### Launching (R254 to R256, R260, R265) -/

/-- NIs whose block lies outside the OCN clock domain and is met through a bridge (R260): regions, HIF, DRC, MED, PLY, the rider
cores, the levee, and NI 0 for its AON side. -/
def bridged (n : Nat) : Bool :=
  n == 0 || n == niAt 0 1 || n == niAt 7 2 || n == niAt 7 3 || n == niAt 40 0 || n == niAt 40 1 || n == niAt 40 2 ||
  (List.range 24).any (fun r => regionRouter r == n / 4) || (List.range 8).any (fun j => medNi j == n) ||
  (List.range 2).any (fun j => drcNi j == n) || (List.range 4).any (fun j => hifNi j == n)

/-- Flits that a bridge buffers in each direction (R260). -/
def bridgeDepth : Nat := 4

/-- Flits of a delivered transaction that the block has yet to take. -/
def Txn.toBlock (x : Txn) : Nat := if x.stage == .atBlock then (if x.op.writes then x.rsv.nfm1.val + 1 - x.served else 1) else 0

/-- The flits that stand in the bridge from NI `t` to its block, by transaction, oldest first: of what the NI has delivered the first
four (R260). -/
def State.bridgeIn (s : State) (t : Nat) : List TxnKey :=
  ((s.ocn.txns.filter (fun x => x.rsv.tgt.val == t)).flatMap (fun x => List.replicate x.toBlock x.key)).take bridgeDepth

/-- The block can take the next flit of the transaction of key `k` from NI `t`: it stands in the bridge, where there is one. -/
def State.bridgeHas (s : State) (t : Nat) (k : TxnKey) : Bool := !bridged t || (s.bridgeIn t).contains k

/-- The reservations that stand in the bridge from a block to its NI `i`, oldest first (R260). -/
def State.bridgeOut (s : State) (i : Nat) : List TxnKey :=
  ((s.ocn.txns.filter (fun x => x.stage == .held && x.rsv.ini.val == i)).map Txn.key).take bridgeDepth

/-- A transaction that is outstanding at its target: launched and without its first answer, which for a write is its GRANT (R255). -/
def Txn.outstanding (x : Txn) : Bool :=
  x.stage == .launched || x.stage == .pending || (x.stage == .atBlock && !x.op.writes)

/-- Reservations of NI `i` outstanding at NI `t`. -/
def State.outstandingAt (s : State) (i t : Nat) : Nat :=
  (s.ocn.txns.filter (fun x => x.outstanding && x.rsv.ini.val == i && x.rsv.tgt.val == t)).length

/-- The initiator NI may launch toward the target (R255, R265). -/
def State.mayLaunch (s : State) (i t : Nat) : Bool := decide (s.outstandingAt i t < 4) && !(s.ni i).flip

/-- The first transaction number that NI `i` has free. -/
def State.freeTxn (s : State) (i : Nat) : Byte :=
  match (List.range 256).find? (fun n => s.ocn.txns.all (fun x => !(x.rsv.ini.val == i && x.rsv.txn.toNat == n))) with
  | some n => BitVec.ofNat 8 n
  | none => 0

/-- The route entry in force from NI `i` to NI `t`. -/
def State.routeNow (s : State) (i t : Nat) : DWord := s.route i (b2n (s.ni i).epoch) t

/-- The RSV flit of a held transaction leaves under the entry in force; where that entry is invalid the NI answers its block DECERR and
sends nothing (R249, R254). -/
def State.leave (s : State) (x : Txn) : Txn :=
  let e := s.routeNow x.rsv.ini.val x.rsv.tgt.val
  if rtValid e then { x with stage := .launched, route := e, rsv := { x.rsv with ep := (s.ni x.rsv.ini.val).epoch, gt := rtGt e } }
  else x.done .decErr

/-- A unit of the part launches a reservation. One that its NI may not launch yet, or that follows a held one to the same target or
through the same bridge, is held (R255, R256, R260, R265). -/
def State.launch (s : State) (op : OcnOp) (r : Rsv) (who : Launcher) (data : List Line) (tsf : List (BitVec 16)) : State :=
  let i := r.ini.val
  let x : Txn := { rsv := { r with txn := s.freeTxn i }, op := op, stage := .held, who := who, data := data, tsf := tsf }
  let behind := s.ocn.txns.any (fun y => y.stage == .held && y.rsv.ini.val == i && (bridged i || y.rsv.tgt.val == r.tgt.val))
  s.setTxns (s.ocn.txns ++ [if s.mayLaunch i r.tgt.val && !behind then s.leave x else x])

/-- The first held reservation that may now be launched is launched: through a bridge only the oldest. -/
def State.unhold (s : State) (i : Nat) : State :=
  let held := s.ocn.txns.filter (fun x => x.stage == .held && x.rsv.ini.val == i)
  match (if bridged i then held.take 1 else held).find? (fun x => s.mayLaunch i x.rsv.tgt.val) with
  | some x => s.modTxn x.key (fun y => s.leave y)
  | none => s

/-! ### The flits of a transaction (R245 to R248, R254) -/

/-- A sideband: route and port of entry `e`, flit type, epoch, source, number and type-specific field. -/
def sideOf (e : DWord) (type : Nat) (ep : Bool) (src : Ini) (txn : Byte) (tsf : BitVec 16) : BitVec 64 :=
  BitVec.ofNat 64 (rtCodes e + 2 ^ 24 * rtDport e + 2 ^ 27 * type + 2 ^ 30 * b2n ep + 2 ^ 31 * b2n (rtGt e) + 2 ^ 32 * src.toNat +
    2 ^ 40 * txn.toNat + 2 ^ 48 * tsf.toNat)

/-- Operation codes (R247). -/
def OcnOp.code : OcnOp → Nat
  | .read => 1 | .write => 2 | .qread => 3 | .qwrite => 4 | .qpush => 5 | .signal => 6

/-- The payload of an RSV flit; fields that the operation does not use are zero (R247). -/
def Txn.rsvPayload (x : Txn) : Line :=
  let r := x.rsv
  let mem := x.op == .read || x.op == .write
  BitVec.ofNat 512 ((if mem then r.addr.toNat else 0) + 2 ^ 64 * x.op.code + 2 ^ 68 * r.nfm1.val + 2 ^ 71 * b2n r.wake +
    2 ^ 72 * (if x.op == .qread || x.op == .qwrite then r.queue.val else 0) + 2 ^ 80 * (if x.op == .signal then r.sctx.val else 0) +
    2 ^ 88 * r.ini.val + (if mem then 2 ^ 128 * r.bm0.toNat + 2 ^ 192 * r.bm1.toNat else 0))

/-- A flit under route entry `e`. -/
def flitOf (e : DWord) (side : BitVec 64) (d : Line) : Flit := { side := side, payload := d, first := Fin.ofNat 8 (rtFirst e) }

/-- The flits that the initiator NI sends: the reservation, and after the GRANT the data with the grant handle, WSTR for a push and WDAT
else; a WDAT of a QWRITE carries its control word, one of a WRITE zero. -/
def Txn.iniFlits (x : Txn) : List Flit :=
  let rsv := flitOf x.route (sideOf x.route 0 x.rsv.ep x.rsv.src x.rsv.txn 0) x.rsvPayload
  let data := x.data.zipIdx.map (fun p =>
    flitOf x.route (sideOf x.route (if x.op == .qpush then 2 else 1) x.rsv.ep x.rsv.src x.handle (if x.op == .write then 0 else x.tsf.getD p.2 0)) p.1)
  if x.stage == .held || !rtValid x.route then [] else rsv :: (if x.op.writes && x.grantSeen then data else [])

/-- A RESP flit's type-specific field: kind 0 GRANT, 1 DONE, 2 REFUSE, status, and the handle or the winner (R248). -/
def respTsf (kind : Nat) (st : Status) (h : Nat) : BitVec 16 := BitVec.ofNat 16 (kind + 2 ^ 2 * statusCode st + 2 ^ 6 * h)

/-- The flits that the target NI sends along its own entry `e` in epoch `ep`: GRANT, then DONE, REFUSE or the read's data. -/
def Txn.tgtFlits (x : Txn) (e : DWord) (ep : Bool) : List Flit :=
  let resp := fun (t : BitVec 16) => flitOf e (sideOf e 4 ep x.rsv.src x.rsv.txn t) 0
  let went := x.who == .outside || rtValid x.route
  let granted := went && x.op.writes && !x.refused && x.stage != .held && x.stage != .launched && x.stage != .pending
  let answer := if !went || x.stage != .answered then []
    else if x.refused then [resp (respTsf 2 x.status 0)]
    else if x.op == .read || x.op == .qread then
      x.data.zipIdx.map (fun p => flitOf e (sideOf e 3 ep x.rsv.src x.rsv.txn (x.tsf.getD p.2 0)) p.1)
    else [resp (respTsf 1 x.status (if x.status == .collide then x.win.toNat else 0))]
  (if granted then [resp (respTsf 0 .ok x.handle.toNat)] else []) ++ answer

end Sys2Proof.Machine
end

