-- ==== Sys2Proof/Machine/Capture.lean ====
section
/-!
DEFINITION. What a region shows of itself: its status registers (R120), and the section that a capture writes of it (R164 to R166).
-/
namespace Sys2Proof.Machine

/-! ### Status registers (R120) -/

/-- V = 600 mV + vsel × 20 mV. -/
def opMv (p : OpPoint) : Nat := 600 + 20 * p.vsel

/-- f in kHz as a fraction: f_PLL × 256 / (256·divi + divf) (R116). -/
def State.opFreq (s : State) (p : OpPoint) : Nat × Nat := (s.fpllKhz p.pll * 256, 256 * p.divi + p.divf)

/-- The neighbours of a region: N, E, S, W (R95). -/
def regionNbr (n d : Nat) : Option Nat :=
  match d with
  | 0 => if n < 18 then some (n + 6) else none
  | 1 => if n % 6 ≠ 5 then some (n + 1) else none
  | 2 => if 6 ≤ n then some (n - 6) else none
  | _ => if n % 6 ≠ 0 then some (n - 1) else none
/-- All neighbours. -/
def regionNbrs (n : Nat) : List Nat := (List.range 4).filterMap (regionNbr n)

/-- FRGn_SEQCFG. -/
def State.seqcfg (s : State) (r : Nat) : Word := s.reg (frgPage r + frgSeqcfg)

/-- The context that headgate `k`'s waiting first flit asks for (R103). -/
def State.hgWants (s : State) (r k : Nat) : Option Nat :=
  let h := s.hg r k
  match h.inb with
  | [] => none
  | fl :: _ => if fl.first && hgTag h.cfg then some ((hgCtxbase h.cfg + fl.tag) % 8) else none

/-- A headgate admits packets in RUN and refuses everywhere else (R115). -/
def State.hgAdmits (s : State) (r : Nat) : Bool := (s.rgn r).st == .run

/-- FRGn_STAT. -/
def State.frgStatWord (s : State) (r : Nat) : Word :=
  let g := s.rgn r
  let code : Nat := match g.st with
    | .off => 0 | .empty => 1 | .loading => 2 | .ready => 3 | .caston => 4 | .run => 5 | .bindoff => 6 | .frozen => 7
  BitVec.ofNat 32 (code + 2 ^ 4 * b2n g.stall.isSome + 2 ^ 5 * g.stage + 2 ^ 8 * g.xdrop + 2 ^ 16 * g.hgdrop)

/-- FRGn_CTXSTAT. -/
def State.ctxstatWord (s : State) (r : Nat) : Word :=
  let g := s.rgn r
  BitVec.ofNat 32 (g.loaded.toNat + 2 ^ 8 * g.loading.toNat + 2 ^ 16 * g.sel +
    2 ^ 19 * (match g.stall with | some x => x.target | none => 0))

/-- FRGn_HGSTAT. -/
def State.hgstatWord (s : State) (r : Nat) : Word :=
  BitVec.ofNat 32 (((List.range 4).map (fun k =>
    let h := s.hg r k
    let hold := match s.hgWants r k with
      | some c => c != (s.rgn r).sel
      | none => false
    2 ^ (8 * k) * (b2n h.mid + 2 * b2n hold + 4 * b2n (!s.hgAdmits r) + 8 * h.inb.length))).sum)

/-- FRGn_OPSTAT: busy from the acceptance of a change to its completion (R118); the refusal count is the stored field. -/
def State.opstatWord (s : State) (r : Nat) : Word :=
  let g := s.rgn r
  let f := s.opFreq g.op
  let mhz := if g.op.pwr ∧ f.2 ≠ 0 then f.1 / f.2 / 1000 else 0
  BitVec.ofNat 32 (g.op.vsel + 2 ^ 4 * b2n g.op.pll + 2 ^ 5 * b2n g.op.pwr + 2 ^ 6 * b2n (s.fab.opq.any (fun e => e.1 == r)) +
    2 ^ 8 * (mhz % 2048) + 2 ^ 20 * g.ref + 2 ^ 24 * fld (s.reg (frgPage r + frgOpstat)) 24 8)

/-! ### Capture (R160 to R166) -/

/-- The queue control word of a headgate's flit: nitems = 16 and no other bit (R114, R172). -/
def hgCw : BitVec 16 := 64

/-- Update the integrity state. -/
def State.modInteg (s : State) (f : Integ → Integ) : State := { s with integ := f s.integ }

/-- FCC page 2. -/def capPg : Nat := page .fcc 2
/-- FCC_CAPSTAT.state. -/
def State.capState (s : State) : Nat := fld (s.reg (capPg + fccCapstat)) 0 3
/-- Banks per section. -/
def capStep (tm : Bool) : Nat := if tm then 5 else 1
/-- The named regions, ascending. -/
def rgnList (m : BitVec 24) : List Nat := (List.range 24).filter (fun r => bit m r)

/-- A capture ends with `code` (R160, R163, R164): done for OK, fail for every other code. -/
def State.captureEnd (s : State) (code : Nat) : State :=
  (s.modReg (page .fcc 2 + fccCapstat) (fun w => setFld (setFld w 0 3 0) 8 4 code)).raise (page .fcc 2) (if code = 0 then 0 else 1)

/-- The words at 0x04 to 0x20 of a region's section, as they stand at its freeze (R165). -/
def State.sectionHead (s : State) (r : Nat) : List Word :=
  let g := s.rgn r
  let latch := fun (o : Option Nat) => match o with
    | some c => c % 8 + 8
    | none => 0
  [ BitVec.ofNat 32 (r + 2 ^ 8 * b2n s.integ.capTm + 2 ^ 9 * g.sel + 2 ^ 12 * b2n (bit (s.reg (capPg + fccCapstat)) 12) +
      2 ^ 13 * b2n g.heldLatch),
    BitVec.ofNat 32 g.cyc.toNat, BitVec.ofNat 32 (g.cyc.toNat / 2 ^ 32),
    s.ctxstatWord r, s.seqcfg r, s.opstatWord r, s.hgstatWord r,
    BitVec.ofNat 32 (latch g.regReq + 16 * latch g.sigReq) ]

/-- One value of a section: offset, bytes, the value, and the bits of it that the spec leaves open. -/
structure SecVal where
  off  : Nat
  n    : Nat
  val  : Nat
  free : Nat := 0
deriving DecidableEq, Repr

/-- A value that may be absent: the spec states none for a register whose full bit is 0. -/
def secOpt (off n : Nat) (o : Option Nat) : SecVal := { off := off, n := n, val := o.getD 0, free := if o.isSome then 0 else 2 ^ (8 * n) - 1 }
def secWord (off : Nat) (o : Option Word) : SecVal := secOpt off 4 (o.map (·.toNat))

/-- The record of tile `t` (R166), offsets from the record's base. -/
def State.tileRecord (s : State) (t : Nat) : List SecVal :=
  let T := s.tile t
  let st := T.stage2.head?
  let ebuf := fun k => (tget {} T.bufs k).buf
  let freg := fun k => (tget {} T.fregs k).words
  (List.range 64).map (fun i => ⟨4 * i, 4, (tget 0 T.pr i).toNat, 0⟩) ++
  (List.range 8).map (fun r => ⟨0x100 + 4 * r, 4, (tget 0 T.sh r).toNat, 0⟩) ++
  (List.range 8).map (fun c => ⟨0x120 + 8 * c, 8, (tget 0 T.acc c).toNat, 0⟩) ++
  (List.range 8).map (fun c => ⟨0x160 + c, 1, (tget 0 T.flags c).toNat, 0⟩) ++
  [ secWord 0x168 T.oa.val, secWord 0x16C T.ob.val, secOpt 0x170 8 (st.map (·.acc.toNat)),
    ⟨0x178, 4, (match st with
      | none => 0
      | some e => 1 + 2 + 2 ^ 2 * e.ctx + 2 ^ 5 * e.dreg + 2 ^ 10 * b2n e.doa + 2 ^ 11 * b2n e.dob + 2 ^ 12 * b2n e.dtm +
          2 ^ 13 * b2n e.fw), 0⟩,
    ⟨0x17C, 4, (b2n T.oa.val.isSome + 2 * b2n T.ob.val.isSome + 4 * T.q.toNat + 2 ^ 10 * b2n T.fired +
      2 ^ 11 * b2n (s.isFirst t) + 2 ^ 12 * s.ctxOf t), 0⟩ ] ++
  (List.range 8).map (fun n => secWord (0x180 + 4 * n) (ebuf n)) ++
  (List.range 4).map (fun k => secWord (0x1A0 + 4 * k) (ebuf (8 + k))) ++
  (List.range 8).map (fun j => secWord (0x1B0 + 4 * j) ((freg (j / 2))[j % 2]?)) ++
  [ ⟨0x1D0, 4, (((List.range 12).map (fun n => 2 ^ n * b2n (ebuf n).isSome)).sum +
      ((List.range 4).map (fun k => 2 ^ (12 + 2 * k) * (freg k).length)).sum), 0⟩,
    ⟨0x1D4, 4, (T.ptr + 2 ^ 10 * T.head + 2 ^ 20 * T.tail), 0⟩, ⟨0x1D8, 4, T.count, 0⟩ ]

/-- The border tile at position `pos` of side N, E, S, W of region `r`. -/
def borderTile (r side pos : Nat) : Nat :=
  256 * r + (if side = 0 then 240 + pos else if side = 1 then 16 * pos + 15 else if side = 2 then pos else 16 * pos)

/-- The crossing buffers of a section; a side on the fabric edge is zero (R165). -/
def State.crossRecord (s : State) (r : Nat) : List SecVal :=
  (List.range 128).flatMap (fun ch =>
    let side := ch / 32
    let b := 0x1000 + 64 * ch
    match regionNbr r side with
    | none => []
    | some _ =>
      let ws := tget [] s.fab.xbuf (8 * borderTile r side (ch / 2 % 16) + 2 * side + ch % 2)
      (List.range 8).map (fun j => secWord (b + 4 * j) ws[j]?) ++ [⟨b + 0x20, 4, ws.length, 0⟩])

/-- The 64-bit sideband (R245) of the `j`-th stored flit at `off`: `tsf` stands in its type-specific field, and the bits `known` of that
field; what a headgate keeps of the other fields is not stated. -/
def secSide (off j tsf known : Nat) : SecVal :=
  { off := off + 8 * j, n := 8, val := 2 ^ 48 * tsf, free := 2 ^ 64 - 1 - 2 ^ 48 * known }

/-- Headgate `h` of a section, oldest flit first: payloads, and sidebands with the marks and tag of an inbound flit (R102, R248) and the
queue control word of an outbound one (R114). -/
def State.hgRecord (s : State) (r h : Nat) : List SecVal :=
  let x := s.hg r h
  let b := 0x3000 + 0x1000 * h
  x.inb.zipIdx.flatMap (fun p => [⟨b + 64 * p.2, 64, p.1.data.toNat, 0⟩,
    secSide (b + 0x400) p.2 (b2n p.1.first + 2 * b2n p.1.last + 4 * p.1.tag) 0x1F]) ++
  x.outb.zipIdx.flatMap (fun p => [⟨b + 0x800 + 64 * p.2, 64, p.1.toNat, 0⟩, secSide (b + 0xC00) p.2 hgCw.toNat 0xFFFF])

/-- Everything in region `r`'s section (R165). -/
def State.sectionVals (s : State) (r : Nat) : List SecVal :=
  let h := tget [] s.integ.capSnap r
  [⟨0, 4, 0x50435A45, 0⟩] ++ h.zipIdx.map (fun p => ⟨4 + 4 * p.2, 4, p.1.toNat, 0⟩) ++ s.crossRecord r ++
  (List.range 4).flatMap (fun k => s.hgRecord r k) ++
  (List.range 256).flatMap (fun i => (s.tileRecord (256 * r + i)).map (fun v => { v with off := 0x8000 + 0x200 * i + v.off })) ++
  (if s.integ.capTm then (List.range 256).flatMap (fun i =>
      (s.tile (256 * r + i)).mem.map (fun e => ⟨0x40000 + 0x1000 * i + 4 * e.1, 4, e.2.toNat, 0⟩)) else [])

/-- The FCC writes one section: every byte of it, reserved bytes zero (R164). -/
def State.writeSection (s : State) (r base size : Nat) : State :=
  let s1 := { s with mem := tkeep (fun a => !(decide (base ≤ a) && decide (a < base + size))) s.mem }
  (s.sectionVals r).foldl (fun u v =>
    let k := (v.n + 3) / 4
    let left := ((List.range k).map (fun i => 2 ^ (32 * i) * ((Config.free (u.fresh + i)).toNat % 2 ^ 32))).sum
    { (u.setMemNat (base + v.off) v.n (Nat.lor v.val (Nat.land left v.free))) with fresh := u.fresh + k }) s1

/-- The first `n` sections of the capture are written, in ascending region order (R164). -/
def State.writeSections (s : State) (n : Nat) : State :=
  let k := capStep s.integ.capTm
  ((rgnList s.integ.capRgn).zipIdx.take n).foldl (fun u p =>
    u.writeSection p.1 (bankAddr (s.integ.capBase + p.2 * k)) (0x40000 * k)) s

/-- A named region of a capture that freezes or copies is reset or loses its power: the capture ends with RESET. During the copy the
destination keeps the sections already written; how many those are is not stated (R164). -/
def State.captureReset (s : State) (r : Nat) : State :=
  if 2 ≤ s.capState ∧ bit s.integ.capRgn r = true then
    if s.capState = 3 then
      let (n, s1) := s.freeNat (rgnList s.integ.capRgn).length
      (s1.writeSections n).captureEnd 7
    else s.captureEnd 7
  else s

end Sys2Proof.Machine
end

