-- ==== Sys2Proof/Machine/Regions.lean ====
section
/-!
DEFINITION. Regions (chapter 5): selection requests and the sequencer's switch, stalls, cast-on and bind-off, headgates,
operating points, region power and the temperature samples; and the commands of the fabric's own events.
-/
namespace Sys2Proof.Machine

/-! ### Wiping a region -/

/-- Key ranges of a region's frames, checks and crossing buffers. -/
def ofRegionFrame (r k : Nat) : Bool := k / 65536 == r
def ofRegionCheck (r k : Nat) : Bool := k / 2048 == r
def ofRegionXbuf (r k : Nat) : Bool := k / 2048 == r

/-- Words in the region's own crossing buffers. -/
def State.xingWords (s : State) (r : Nat) : Nat :=
  ((s.fab.xbuf.filter (fun e => ofRegionXbuf r e.1)).map (fun e => e.2.length)).sum

/-- Discard the words of the region's crossing buffers, counted in STAT.xdrop with EVT_RAW.xdrop (R107). -/
def State.dropXing (s : State) (r : Nat) : State :=
  let n := s.xingWords r
  let s1 := ({ s with fab := { s.fab with xbuf := tkeep (fun k => !ofRegionXbuf r k) s.fab.xbuf } }).modRgn r
    (fun g => { g with xdrop := satAdd 255 g.xdrop n })
  if n = 0 then s1 else s1.raise (frgPage r) 7

/-- Flits that a headgate still holds: inbound, formed outbound, and a partly formed one. -/
def Headgate.flits (h : Headgate) : Nat :=
  h.inb.length + h.outb.length + b2n (h.lanes.any (fun e => e.2.buf.isSome))

/-- Discard what the headgates hold, counted in STAT.hgdrop with EVT_RAW.hgdrop (R111). -/
def State.dropHg (s : State) (r : Nat) : State :=
  let n := ((s.rgn r).hg.map (fun e => e.2.flits)).sum
  let s1 := s.modRgn r (fun g => { g with
    hgdrop := satAdd 255 g.hgdrop n
    hg := tmap {} (fun _ => true) (fun _ h => { ({} : Headgate) with cfg := h.cfg }) g.hg })
  if n = 0 then s1 else s1.raise (frgPage r) 6

/-- Every tile of the region takes its reset values; tile memory stays (R108), and with it what a personality keeps there; its packets on
their way are lost (R240). -/
def State.resetTiles (s : State) (r : Nat) : State :=
  { s with codec := tmap {} (fun k => k == r) (fun _ c => { c with outs := [], encNext := 0, encHeld := [] }) s.codec, fab := { s.fab with
      tiles := tmap {} (ofRegionTile r) (fun _ T => { ({} : Tile) with mem := T.mem }) s.fab.tiles } }

/-- The region loses its configuration, tile memory and registers (R98). -/
def State.wipeRegion (s : State) (r : Nat) : State :=
  { s with codec := tset {} s.codec r {}, fab := { s.fab with
      tiles := tkeep (fun k => !ofRegionTile r k) s.fab.tiles
      frames := tkeep (fun k => !ofRegionFrame r k) s.fab.frames
      checks := tkeep (fun k => !ofRegionCheck r k) s.fab.checks
      xbuf := tkeep (fun k => !ofRegionXbuf r k) s.fab.xbuf } }

/-! ### Operating points -/

/-- The fields of FRGn_OPSEL (R116, R120). -/
def opPoint (w : Word) : OpPoint :=
  { vsel := fld w 0 4, pll := bit w 4, pwr := bit w 5, divi := fld w 8 8, divf := fld w 16 8 }

/-- The grade's region clock rating in MHz (R2, R3). -/
def ratingMhz : Nat := if Config.fastGrade then 1600 else 1200

/-- f1 ≤ k × f2 for fractions. -/
def freqLe (f1 : Nat × Nat) (k : Nat) (f2 : Nat × Nat) : Bool := decide (f1.1 * f2.2 ≤ k * f2.1 * f1.2)

/-- The budget of R92. -/
def State.opBudget (s : State) (p : OpPoint) : Nat :=
  let f := s.opFreq p
  let row := if freqLe f 1 (400000, 1) then (32, 24, 16)
    else if freqLe f 1 (800000, 1) then (16, 12, 8)
    else if freqLe f 1 (1200000, 1) then (10, 7, 4) else (6, 4, 2)
  if 800 ≤ opMv p then row.1 else if 700 ≤ opMv p then row.2.1 else row.2.2

/-- The last accepted point with power of region `r`, where it is powered or its power-on is pending (R117). -/
def State.lastPoint (s : State) (r : Nat) : Option OpPoint :=
  match (s.fab.opq.filter (fun e => e.1 == r && e.2.pwr)).getLast? with
  | some e => some e.2
  | none => if (s.rgn r).op.pwr then some (s.rgn r).op else none

/-- The lowest refusal code of R117 that a point meets at region `r`, 0 when it is accepted. -/
def State.opRefusal (s : State) (r : Nat) (p : OpPoint) : Nat :=
  if !p.pwr then 0
  else if p.vsel = 15 ∨ p.divi = 0 then 5
  else
    let f := s.opFreq p
    let nb := (regionNbrs r).filterMap s.lastPoint
    if nb.any (fun q => decide (160 < (opMv p - opMv q) + (opMv q - opMv p))) then 1
    else if nb.any (fun q => !freqLe f 4 (s.opFreq q) || !freqLe (s.opFreq q) 4 f) then 2
    else if !freqLe (200000, 1) 1 f || !freqLe f 1 (1000 * ratingMhz, 1) then 3
    else if s.opBudget p < max (s.rgn r).cost (s.rgn r).pcost then 4
    else if s.fab.opq.any (fun e => e.1 == r) then 6
    else if !s.fpllLocked p.pll then 7 else 0

/-- The PMU's judgement of an OPSEL write: accepted it is stored and queued, refused it changes nothing but the report
(R117). -/
def State.opselAct (s : State) (r : Nat) (val : Word) : State :=
  let p := opPoint val
  let code := s.opRefusal r p
  if code = 0 then
    let s1 := s.setReg (frgPage r + frgOpsel) (val &&& 0x00FFFF3F)
    { s1 with fab := { s1.fab with opq := s1.fab.opq ++ [(r, p)] } }
  else
    (((s.modRgn r (fun g => { g with ref := code })).countUp (frgPage r + frgOpstat) 24 8 1)).raise (frgPage r) 4

/-- OPSEL_WRITE. -/
def opselWrite (ini : Ini) (r : Nat) (val : Word) (s : State) : State :=
  s.regGuard ini (frgPage r + frgOpsel) (fun u => u.opselAct r val)

/-- The oldest accepted change is region `r`'s (R118). -/
def State.opHead (s : State) (r : Nat) : Option OpPoint :=
  match s.fab.opq with
  | [] => none
  | e :: _ => if e.1 = r then some e.2 else none

/-- Remove the oldest change, which is complete. -/
def State.popOp (s : State) : State := { s with fab := { s.fab with opq := s.fab.opq.tail, opRun := false } }

/-- The headgates refuse the reservations they have not granted (R111, R115). -/
def State.hgRefuse (s : State) (r : Nat) : State :=
  s.setTxns (s.ocn.txns.map (fun x =>
    if (x.stage == .pending) && x.op == .qpush && (List.range 4).any (fun k => x.rsv.tgt.val == hgNi r k) then x.refuse .drowse else x))

/-- Region `r` leaves RUN: its hold bit clears itself (R154), its headgates refuse what they have not granted (R111, R115), and an
armed capture that it anchors ends (R163). -/
def State.leaveRun (s : State) (r : Nat) : State :=
  let s1 := (s.modRgn r (fun g => { g with held := false, heldLatch := false })).hgRefuse r
  if fld (s.reg (page .fcc 2 + fccCapstat)) 0 3 = 1 ∧ s.integ.capAnchor = r then s1.captureEnd 5 else s1

/-- The drain step of bind-off ends: what the headgates still hold is discarded, the sluice cells park, their words are
discarded and the pins take their park state (R107, R111). -/
def State.endDrain (s : State) (r : Nat) : State :=
  (((s.dropHg r).dropXing r).modRgn r (fun g => { g with parked := true })).foutPark r

/-- Bind-off begins; that of a held region does not drain (R111, R154). -/
def State.beginBindoff (s : State) (r : Nat) : State :=
  let s1 := (s.leaveRun r).modRgn r (fun g => { g with st := .bindoff, parked := false })
  if (s.rgn r).held then s1.endDrain r else s1

/-- The region enters OFF: its LDO is off, its configuration lost, its sluice cells isolated (R98, R107, R117). DESIGN CHOICE: its own
FRGn_TEMP, of which R119 does not speak, reads 0. -/
def State.regionOff (s : State) (r : Nat) : State :=
  let s1 := (((s.captureReset r).wipeRegion r).foutPark r).hgRefuse r
  let s2 := s1.modRgn r (fun g => { ({} : RegionSt) with
    ref := g.ref, xdrop := g.xdrop, hgdrop := g.hgdrop, pcost := g.pcost })
  -- neighbours' temperature bits for it clear (R119)
  let clr := fun (u : State) (d : Nat) => match regionNbr r d with
    | some n => u.modReg (frgPage n + frgTemp) (fun w => let w1 := clrBit w (9 + (d + 2) % 4)
        if fld w1 9 4 = 0 then clrBit w1 8 else w1)
    | none => u
  ((List.range 4).foldl clr s2).setReg (frgPage r + frgTemp) 0

/-- A power-off of region `r` by its state (R117): in RUN a bind-off begins, in CASTON and BINDOFF it waits, else the
region goes OFF at once. -/
def State.powerOff (s : State) (r : Nat) : State :=
  match (s.rgn r).st with
  | .run => (s.beginBindoff r).modRgn r (fun g => { g with offReq := true })
  | .caston | .bindoff => s.modRgn r (fun g => { g with offReq := true })
  | _ => s.regionOff r

/-- The oldest change, of region `r`, completes: OPSTAT.busy falls and opdone is set (R118). -/
def State.opEnd (s : State) (r : Nat) : State := s.popOp.raise (frgPage r) 3

/-- The region's four NIs are down, so that the PMU may remove its power (R263). -/
def State.regionQuiet (s : State) (r : Nat) : Bool := (List.range 4).all (fun k => (s.ni (hgNi r k)).port == .down)

/-- The PMU starts to close the region's NIs (R263). -/
def State.closePorts (s : State) (r : Nat) : State := (List.range 4).foldl (fun u k => portClose (hgNi r k) u) s

/-- A step of a power-off (R117, R263): in RUN, CASTON and BINDOFF it waits for the reset step of a bind-off; else the region goes OFF
once its NIs are down. The NIs begin to close at once. -/
def State.offStep (s : State) (r : Nat) : State :=
  match (s.rgn r).st with
  | .run | .caston | .bindoff => (s.powerOff r).closePorts r
  | _ => if s.regionQuiet r then s.regionOff r else s.closePorts r

/-- The queued pwr = 0 write of region `r` is complete. -/
def State.dropOff (s : State) (r : Nat) : State :=
  match s.opHead r with
  | some p => if p.pwr then s else s.opEnd r
  | none => s

/-- OPERATING_POINT_CHANGE: the PMU takes the oldest accepted change of a powered region in its turn (R118). -/
def operatingPointChange (r : Nat) (s : State) : State :=
  match s.opHead r with
  | some p =>
    if s.fab.opRun then s
    else if !p.pwr then { (s.offStep r) with fab := { (s.offStep r).fab with opRun := true } }
    else if (s.rgn r).op.pwr then { s with fab := { s.fab with opRun := true } } else s
  | none => s

/-- OPERATING_POINT_DONE: the change completes: the new voltage, clock and budget stand and opdone is set (R92, R118). -/
def operatingPointDone (r : Nat) (s : State) : State :=
  match s.opHead r with
  | some p =>
    if s.fab.opRun && p.pwr then
      (s.modRgn r (fun g => { g with op := p, budget := s.opBudget p })).opEnd r
    else s
  | none => s

/-- REGION_POWER_ON: the oldest accepted change powers region `r` on from OFF; it enters EMPTY wiped and opdone is set
(R98, R512). -/
def regionPowerOn (r : Nat) (s : State) : State :=
  match s.opHead r with
  | some p =>
    if p.pwr && (s.rgn r).st == .off && !s.fab.opRun then
      ((s.wipeRegion r).modRgn r (fun g => { g with st := .empty, op := p, budget := s.opBudget p })).opEnd r
    else s
  | none => s

/-- REGION_POWER_OFF: an accepted pwr = 0 change of region `r` is carried out (R117), or its next step taken. -/
def regionPowerOff (r : Nat) (s : State) : State :=
  match s.opHead r with
  | some p => if p.pwr then s else
    let t := s.offStep r
    if (t.rgn r).st == .off then t.opEnd r else t
  | none => s

/-! ### Temperature -/

/-- A sample in quarter degrees with the sensor's calibration, in °C (R119, R501). -/
def State.tempOf (s : State) (k : Nat) (code : BitVec 12) : Int :=
  let q := code.toInt + s.calEff (calItemTs k)
  clampI (-128) 127 (if q % 4 = 0 ∨ Config.tempUp q = false then q / 4 else q / 4 + 1)

/-- The two regions stood more than 20 °C apart in the last sample, in which both took part; `last` reads its FRGn_TEMP. -/
def State.wasApart (s : State) (last : Nat → Word) (r n : Nat) : Bool :=
  (s.rgn r).sampled && (s.rgn n).sampled && decide (20 < (sx 8 (fld (last r) 0 8) - sx 8 (fld (last n) 0 8)).natAbs)

/-- The gradient bits of region `r` against its neighbour in direction `d`, given this sample's temperatures: set, with the
event, when the difference rises above 20 °C (R119). -/
def State.gradStep (s : State) (last : Nat → Word) (temps : Nat → Int) (r d : Nat) : State :=
  match regionNbr r d with
  | none => s
  | some n =>
    if (s.rgn r).st == .off || (s.rgn n).st == .off then s
    else if 20 < (temps r - temps n).natAbs ∧ !s.wasApart last r n then
      (s.modReg (frgPage r + frgTemp) (fun w => setBit (setBit w 8) (9 + d))).raise (frgPage r) 5
    else s

/-- The bits clear when every difference of the region is 18 °C or less (R119). -/
def State.gradClear (s : State) (temps : Nat → Int) (r : Nat) : State :=
  if (regionNbrs r).all (fun n => (s.rgn n).st == .off || decide ((temps r - temps n).natAbs ≤ 18)) then
    s.modReg (frgPage r + frgTemp) (fun w => setFld w 8 5 0)
  else s

/-- REGION_TEMP_SAMPLE: each powered region's sensor is read, and neighbour differences are checked (R119). `codes` are
the sensors' readings in quarter degrees, region 0 first, the SOC sensor last; the hottest goes to PMU_TEMPMAX (R390). -/
def regionTempSample (codes : List (BitVec 12)) (s : State) : State :=
  let temp := fun r => s.tempOf r (codes.getD r 0)
  let on := fun r => decide ((s.rgn r).st ≠ .off)
  let s1 := (List.range 24).foldl (fun u r =>
    if on r then u.modReg (frgPage r + frgTemp) (fun w => setFld w 0 8 (temp r % 256).toNat) else u) s
  let last := fun r => s.reg (frgPage r + frgTemp)
  let s2 := (List.range 24).foldl (fun u r => (List.range 4).foldl (fun v d => v.gradStep last temp r d) u) s1
  let s3 := (List.range 24).foldl (fun u r => if on r then (u.gradClear temp r).modRgn r (fun g => { g with sampled := true }) else u) s2
  let hot := (((List.range 24).filter (fun r => on r)).foldl (fun (b : Nat × Int) r => if b.2 < temp r then (r, temp r) else b)
    (0x1F, temp 24))
  let s4 := s3.setReg (page .pmu 2 + pmuTempmax) (BitVec.ofNat 32 ((hot.2 % 256).toNat + 2 ^ 8 * hot.1))
  { s4 with pmu := { s4.pmu with soc := temp 24 } }

/-! ### Selection requests and the switch -/

/-- A region whose sequencer runs: RUN, or BINDOFF before its reset step. -/
def sequencerOn (g : RegionSt) : Bool := g.st == .run || g.st == .bindoff

/-- CTXSEL_REQUEST: a write to FRGn_CTXSEL becomes the register request, replacing one still latched (R99, R509). -/
def ctxselRequest (ini : Ini) (r : Nat) (val : Word) (s : State) : State :=
  s.regWrite ini (frgPage r + frgCtxsel) val (fun v u =>
    if sequencerOn (u.rgn r) then u.modRgn r (fun g => { g with regReq := some (fld v 0 3) }) else u)

/-- The signal latch takes a context, when signals are enabled and the latch is free (R99). -/
def State.signalReady (s : State) (r : Nat) : Bool := bit (s.seqcfg r) 0 && (s.rgn r).sigReq.isNone && sequencerOn (s.rgn r)

/-- The oldest SIGNAL reservation that waits at region `r`'s interface for the latch. -/
def State.waitingSignal (s : State) (r : Nat) : Option Txn :=
  s.ocn.txns.find? (fun x => x.op == .signal && x.stage == .atBlock && x.rsv.tgt.val == niAt (regionRouter r) 0)

/-- SEQUENCER_SIGNAL: a sequencer-signal packet arriving at region `r` is latched (R99). One that waits for the latch in the network
is the next to be taken, and is answered DONE (R254). -/
def sequencerSignal (r ctx : Nat) (s : State) : State :=
  if s.signalReady r then
    let t := s.modRgn r (fun g => { g with sigReq := some ctx })
    match s.waitingSignal r with
    | some x => if x.rsv.sctx.val = ctx then t.modTxn x.key (fun y => { y with stage := .answered, status := .ok }) else s
    | none => t
  else s

/-- HEADGATE_TAG_REQUEST: a headgate whose next packet's context is not selected asks the sequencer for it, while
SEQCFG.tag is 1, and holds the flit (R103). -/
def headgateTagRequest (r k : Nat) (s : State) : State :=
  match s.hgWants r k with
  | some c =>
    if bit (s.seqcfg r) 1 && regionMoves (s.rgn r) && c != (s.rgn r).sel then s.modHg r k (fun h => { h with req := true }) else s
  | none => s

/-- The request of the tile with the lowest local index among tiles with ovr = 0 (R65, R99). -/
def State.tileReq (s : State) (r : Nat) : Option Nat :=
  if bit (s.seqcfg r) 2 then
    ((s.regionTiles r).mergeSort (· ≤ ·)).findSome? (fun t => if fOvr (s.act t) then none else s.switchReq t)
  else none

/-- The four sources of R99. -/
inductive SelSource where
  | register | signal | tag | tile
deriving DecidableEq, Repr

/-- The winning request of this cycle (R99). -/
def State.winner (s : State) (r : Nat) : Option (SelSource × Nat) :=
  let g := s.rgn r
  match g.regReq with
  | some c => some (.register, c)
  | none =>
    match g.sigReq with
    | some c => some (.signal, c)
    | none =>
      match ((List.range 4).findSome? (fun k => if (s.hg r k).req then s.hgWants r k else none)) with
      | some c => some (.tag, c)
      | none => (s.tileReq r).map (fun c => (.tile, c))

/-- The winning request is consumed: its latch is free. -/
def State.consumeReq (s : State) (r : Nat) (src : SelSource) : State :=
  s.modRgn r (fun g => match src with
    | .register => { g with regReq := none }
    | .signal => { g with sigReq := none }
    | _ => g)

/-- A headgate with pktlock is mid-packet: no switch (R102). -/
def State.pktHold (s : State) (r : Nat) : Bool :=
  (List.range 4).any (fun k => (s.hg r k).mid && hgPktlock (s.hg r k).cfg)

/-- An override tile (R84). -/
def State.isOver (s : State) (t : Nat) : Bool := (List.range 8).any (fun c => fOvr (s.frame t c))

/-- Tile `t`, left as `B` by the cycle, at the edge at which the sequencer switches to context `c`: a tile that is not an override tile enters it (R63, R100,
R101), an override tile goes by R65. -/
def State.switchTile (s : State) (B : Tile) (t c : Nat) : Tile :=
  if s.isOver t then { s.edgeTile B t c with stayed := true }
  else { B with q := s.enterQ t c, octx := none }

/-- The edge at which the sequencer selects `c` (R100): the region's edge with every non-override tile entering. -/
def State.enterRegion (s : State) (base : Nat → Tile) (r c : Nat) : State :=
  let s1 := (s.regionTiles r).foldl (fun u t => u.setTile t (s.switchTile (base t) t c)) ((s.probeCycle r).pulse 1 r 1)
  ((s1.modRgn r (fun g => { g.edge with sel := c, first := true })).cellEdge r).markCycle r

/-- The sequencer's winning request stalls the region (R105). -/
def State.seqStalls (s : State) (r : Nat) : Bool :=
  match s.winner r with
  | some (_, c) => c != (s.rgn r).sel && !s.pktHold r && bit (s.rgn r).loading c
  | none => false

/-- The own switch of a tile of the region stalls it (R105). -/
def State.tileStalls (s : State) (r : Nat) : Bool :=
  (s.regionTiles r).any (fun t => fOvr (s.act t) && (s.switchReq t).any (fun c => bit (s.rgn r).loading c))

/-- TILE_CONTEXT_SWITCH: an override tile with ovr = 1 switches alone to its requested context (R65). A target that is being
written stalls the region, and no switch of any kind takes effect at an edge that stalls (R105). The command puts the switch
on the region's next edge, at which the tile enters the target. -/
def tileContextSwitch (t : Nat) (s : State) : State :=
  let r := t / 256
  if regionMoves (s.rgn r) && fOvr (s.act t) then
    match s.switchReq t with
    | none => s
    | some c =>
      if s.seqStalls r then s
      else if bit (s.rgn r).loading c then s.stallRegion r c (some (t % 256))
      else if s.tileStalls r then s
      else s.ownSwitch t c
  else s

/-- SEQUENCER_SWITCH: the winning request's target is selected at the edge (R100); a target equal to the selected context
only frees its request; pktlock holds every request (R102); a target being written stalls the region, and a stall by a tile's own
switch leaves the request latched (R105). -/
def sequencerSwitch (r : Nat) (s : State) : State :=
  if regionMoves (s.rgn r) then
    match s.winner r with
    | none => s
    | some (src, c) =>
      if s.pktHold r then s
      else if s.seqStalls r then (s.consumeReq r src).stallRegion r c none
      else if s.tileStalls r then s
      else if c = (s.rgn r).sel then s.consumeReq r src
      else (s.consumeReq r src).enterRegion s.edgeBase r c
  else s

/-- The stall of region r is over: the longest stall (FRGn_STALL[31:16]) is raised to its length, which takes in this cycle (R104). -/
def State.stallOver (s : State) (r : Nat) : State :=
  let n := min 0xFFFF ((s.rgn r).stallCyc + 1)
  (s.modRgn r (fun g => { g with stall := none, stallCyc := 0 })).modReg (frgPage r + frgStall)
    (fun w => if fld w 16 16 < n then setFld w 16 16 n else w)

/-- STALL_END: the latched target's loading bit has cleared: the sequencer selects it, or the override tile whose switch
stalled enters it, and the region runs again; FRGn_STALL.maxcyc keeps the longest stall (R105). A held or frozen region stays
stopped (R154, R162). -/
def stallEnd (r : Nat) (s : State) : State :=
  match (s.rgn r).stall with
  | none => s
  | some x =>
    if bit (s.rgn r).loading x.target || (s.rgn r).held || (s.rgn r).st == .frozen then s
    else
      let s1 := s.stallOver r
      match x.tile with
      | none => s1.enterRegion s1.stoppedBase r x.target
      | some l =>
        let s2 := s1.ownSwitch (256 * r + l) x.target
        s2.regionEdge s2.stoppedBase r

/-! ### Cast-on and bind-off -/

/-- The stored configuration of headgate `k`. -/
def State.hgCfg (s : State) (r k : Nat) : Word := s.reg (frgPage r + frgHgCfg + 4 * k)

/-- Direction and track of headgate `k`'s inbound segments (R113). -/
def hgInDir (k : Nat) : Nat := k % 2
def hgInTrack (k : Nat) : Nat := if k < 2 then 6 else 4

/-- A tile on lane `i`'s segment of direction `dir`. -/
def laneTile (r dir i : Nat) : Nat := if dir = 0 then 256 * r + 16 * i else 256 * r + i

/-- Some frame of region `r` drives, from a tap, the inbound segment of lane `i` of headgate `k` (R109). -/
def State.laneDriven (s : State) (r k i : Nat) : Bool :=
  (segTiles (laneTile r (hgInDir k) i) (hgInDir k) 1).any (fun t => (List.range 8).any (fun c => (List.range 4).any (fun j =>
    let x := fTap (s.frame t c) j
    tapEn x && tapDrv x && tapDir x == hgInDir k && tapSpan x == 1 && tapTrack x == hgInTrack k)))

/-- The check of R109: no enabled inbound lane has a segment that a frame drives. -/
def State.castOk (s : State) (r : Nat) : Bool :=
  (List.range 4).all (fun k => !hgIn (s.hgCfg r k) || (List.range 16).all (fun i => !hgLane (s.hgCfg r k) i || !s.laneDriven r k i))

/-- Cast-on starts from READY when the check passes: stage 1 (R109, R110). -/
def State.castStart (s : State) (r : Nat) : State :=
  if s.castOk r then s.modRgn r (fun g => { g with st := .caston, stage := 1 })
  else s.raise (frgPage r) 9

/-- A write of FRGn_CTRL (R109, R111, R120): caston and bindoff act in the states that accept them; together, or in
another state, they are ignored and set cmdig. -/
def State.frgCtrl (s : State) (r : Nat) (v : Word) : State :=
  let st := (s.rgn r).st
  match bit v 0, bit v 1 with
  | false, false => s
  | true, true => s.raise (frgPage r) 10
  | true, false => if st = .ready then s.castStart r else s.raise (frgPage r) 10
  | false, true => if st = .run then s.beginBindoff r else s.raise (frgPage r) 10

/-- CASTON: a write of 1 to FRGn_CTRL.caston. -/
def castonWrite (ini : Ini) (r : Nat) (val : Word) (s : State) : State :=
  s.regWrite ini (frgPage r + frgCtrl) val (fun v u => u.frgCtrl r v)
/-- BINDOFF: a write of 1 to FRGn_CTRL.bindoff. -/
def bindoffWrite (ini : Ini) (r : Nat) (val : Word) (s : State) : State :=
  s.regWrite ini (frgPage r + frgCtrl) val (fun v u => u.frgCtrl r v)

/-- CASTON_WRITE_ENABLE: stage 2 (R110). -/
def castonWriteEnable (r : Nat) (s : State) : State :=
  if (s.rgn r).st == .caston && (s.rgn r).stage == 1 then s.modRgn r (fun g => { g with stage := 2 }) else s

/-- q of tile `t` at release: the init bits of the cast-on context's frame (R108). -/
def State.castQ (s : State) (t c : Nat) : BitVec 8 :=
  BitVec.ofNat 8 (((List.range 8).map (fun m => 2 ^ m * b2n (macInit (fMac (s.frame t c) m)))).sum)

/-- CASTON_RESET_RELEASE: stage 3 (R108, R110): tiles leave reset in context castctx, headgate configuration takes effect,
the drop counts clear, cycle 0 begins and the region is in RUN; a power-off that waited binds it off (R117). -/
def castonResetRelease (r : Nat) (s : State) : State :=
  if (s.rgn r).st == .caston && (s.rgn r).stage == 2 then
    let c := fld (s.seqcfg r) 3 3
    let s1 := (s.regionTiles r).foldl (fun u t => u.setTile t { ({} : Tile) with mem := (s.tile t).mem, q := s.castQ t c }) s
    let s2 := s1.modRgn r (fun g => { g with
      st := if g.offReq then .bindoff else .run
      stage := 3, sel := c, cyc := 0, first := true, lines := [], parked := false
      xdrop := 0, hgdrop := 0, regReq := none, sigReq := none, stall := none
      hg := ((List.range 4).map (fun k => (k, ({ ({} : Headgate) with cfg := s.hgCfg r k })))).filter (fun e => decide (e.2 ≠ {})) })
    ((s2.cellEdge r).markCycle r).raise (frgPage r) 0
  else s

/-- A push that a headgate of the region has granted is still to arrive. -/
def State.hgComing (s : State) (r : Nat) : Bool :=
  s.ocn.txns.any (fun x => x.op == .qpush && (x.stage == .granted || x.stage == .data) && x.rsv.tgt.val / 4 == regionRouter r)

/-- All four headgates are empty, with every flit that they have admitted presented (R111). -/
def State.hgEmpty (s : State) (r : Nat) : Bool := (s.rgn r).hg.all (fun e => e.2.flits == 0) && !s.hgComing r

/-- BINDOFF_DRAIN_END: the drain ends when the headgates are empty, or at the timeout with the rest discarded (R111). -/
def bindoffDrainEnd (r : Nat) (timeout : Bool) (s : State) : State :=
  let g := s.rgn r
  if g.st == .bindoff && !g.parked && (timeout || s.hgEmpty r) then
    s.endDrain r
  else s

/-- BINDOFF_RESET: tile reset asserts; the region enters READY, or OFF after a power-off request, and EVT_RAW.ready is
set when it enters READY (R111, R120). Power goes only with the region's NIs down (R263). -/
def bindoffReset (r : Nat) (s : State) : State :=
  let g := s.rgn r
  if g.st == .bindoff && g.parked then
    let s1 := s.resetTiles r
    if g.offReq then (if s.regionQuiet r then (s1.regionOff r).dropOff r else s.closePorts r)
    else
      (s1.modRgn r (fun g => { g with
        st := .ready
        stage := 0, parked := false, stall := none, regReq := none, sigReq := none, first := false
        lines := [], hg := tmap {} (fun _ => true) (fun _ h => { ({} : Headgate) with cfg := h.cfg }) g.hg })).raise (frgPage r) 1
  else s

/-! ### Headgates -/

/-- The lanes by which a headgate of this configuration presents inbound words (R114). -/
def hgInLanes (cfg : Word) : List Nat := (List.range 16).filter (fun i => hgIn cfg && hgLane cfg i)

/-- The receiving points of lane i of headgate k (R98). -/
def State.lanePoints (s : State) (r k i : Nat) : List Point := s.segPoints (laneTile r (hgInDir k) i) (hgInDir k) 1 (hgInTrack k)

/-- The flit at the head of headgate k is presented: it leaves the buffer, and lane i's word of it goes to the lane's points (R114). -/
def State.hgShow (s : State) (r k : Nat) (fl : HgFlit) (rest : List HgFlit) : State :=
  (hgInLanes (s.hg r k).cfg).foldl (fun u i => (s.lanePoints r k i).foldl (fun v p => v.deliver (BitVec.ofNat 32 (fld fl.data (32 * i) 32)) p) u)
    (s.modHg r k (fun h => { h with inb := rest, midN := !fl.last, shown := some fl, req := false }))

/-- HEADGATE_INBOUND_PRESENT: the oldest flit is presented on the enabled lanes in a cycle in which every lane's segment is
ready and its packet's context is selected (R102, R103, R114). The words of disabled lanes are discarded. -/
def headgateInboundPresent (r k : Nat) (s : State) : State :=
  let h := s.hg r k
  match h.inb with
  | [] => s
  | fl :: rest =>
    let ctxOk := match s.hgWants r k with
      | some c => c == (s.rgn r).sel
      | none => true
    if regionMoves (s.rgn r) && !(s.rgn r).parked && ctxOk && h.shown.isNone &&
        (hgInLanes h.cfg).all (fun i => (s.lanePoints r k i).all (s.pointReady false)) then s.hgShow r k fl rest
    else s

/-- Send the oldest formed flit of a headgate as a QWRITE to its queue (R114). -/
def State.hgSend (s : State) (r k : Nat) : State :=
  let h := s.hg r k
  match h.outb with
  | [] => s
  | d :: _ =>
    if h.sent || h.again then s
    else
      let q := hgOq h.cfg
      let x := { Rsv.base (BitVec.ofNat 8 (0x80 + r)) (hgNi r k) (queueNi q) with queue := Fin.ofNat 128 q }
      (s.modHg r k (fun h => { h with sent := true })).launch .qwrite x (.headgate r k) [d] [hgCw]

/-- When every enabled lane has supplied its word the headgate forms a flit of 16 items, those of disabled lanes zero
(R114). -/
def State.hgForm (s : State) (r k : Nat) : State :=
  let h := s.hg r k
  let lanes := (List.range 16).filter (fun i => hgLane h.cfg i)
  let full := hgOutEn h.cfg && !lanes.isEmpty && lanes.all (fun i => (tget {} h.lanes i).buf.isSome) && decide (h.outb.length < 16)
  if full && regionMoves (s.rgn r) && !h.formed then
    let d : Line := BitVec.ofNat 512 (ofWords ((List.range 16).map (fun i =>
      if hgLane h.cfg i then ((tget {} h.lanes i).buf).getD 0 else 0)))
    s.modHg r k (fun h => { h with
      outb := h.outb ++ [d], formed := true
      lanes := tmap {} (fun i => hgLane h.cfg i) (fun _ b => { b with buf := none }) h.lanes })
  else s

/-- HEADGATE_OUTBOUND_SEND: the headgate forms a flit from its lanes (R114), and the oldest formed flit is sent. -/
def headgateOutboundSend (r k : Nat) (s : State) : State :=
  if (s.rgn r).held || (s.rgn r).st == .frozen then s.hgForm r k else (s.hgForm r k).hgSend r k

/-- HEADGATE_RESEND: the reservation of the held flit is sent again (R508). -/
def headgateResend (r k : Nat) (s : State) : State :=
  if (s.hg r k).again && !(s.rgn r).held && (s.rgn r).st != .frozen then
    (s.modHg r k (fun h => { h with again := false })).hgSend r k
  else s

/-- The answer to a headgate's QWRITE (R508): OK frees the flit, a DROWSE refusal keeps it for sending again, any other
status discards it and counts it in STAT.hgdrop. -/
def State.hgAnswer (s : State) (r k : Nat) (st : Status) : State :=
  match st with
  | .ok => s.modHg r k (fun h => { h with outb := h.outb.tail, sent := false })
  | .drowse => s.modHg r k (fun h => { h with sent := false, again := true })
  | _ => ((s.modHg r k (fun h => { h with outb := h.outb.tail, sent := false })).modRgn r
      (fun g => { g with hgdrop := satAdd 255 g.hgdrop 1 })).raise (frgPage r) 6

/-! ### The commands -/

/-- SECOND_STAGE_RETIRE (R47). A latency-2 result leaves the second stage into its destinations once its output registers are free. -/
def execSecondStageRetire (t : TileId) (s : State) : Out :=
  .next (s.gate (secondStageRetire t.val s))

/-- TILE_CONTEXT_SWITCH (R65). An override tile with ovr = 1 switches alone to its requested context. -/
def execTileContextSwitch (t : TileId) (s : State) : Out :=
  .next (s.gate (tileContextSwitch t.val s))

/-- MACROCELL_UPDATE (R61). At every fabric clock edge of a region out of reset, each D or T flip-flop macrocell updates from its sum and clock enable, whatever act and fire are. -/
def execMacrocellUpdate (r : Region) (s : State) : Out :=
  .next (s.gate (macrocellUpdate r.val s))

/-- LINK_TRANSFER (R74). A word transfers on a neighbour link or furrow segment when valid and ready are both 1. -/
def execLinkTransfer (t : TileId) (src : BitVec 4) (s : State) : Out :=
  .next (s.gate (linkTransfer t.val src.toNat s))

/-- FURROW_REGISTER_EMIT (R83). A furrow register presents its oldest word to its segment the cycle after it entered. -/
def execFurrowRegisterEmit (t : TileId) (tap : Fin 4) (s : State) : Out :=
  .next (s.gate (furrowEmit t.val tap.val s))

/-- CHANNEL_LINE_DRIVE (R87). A drive slot places its source's word on a channel line, lowest-indexed driver winning. -/
def execChannelLineDrive (r : Region) (line : Fin 8) (pos : Fin 16) (s : State) : Out :=
  .next (s.gate (channelLineDrive r.val line.val pos.val s))

/-- SLUICE_CROSSING_DELIVER (R106). A word crossing a region border becomes visible to the receiving tile three slower-clock cycles after it was sent. -/
def execSluiceCrossingDeliver (t : TileId) (ch : Fin 8) (s : State) : Out :=
  .next (s.gate (sluiceDeliver t.val ch.val s))

/-- CTXSEL_REQUEST (R99). A write to FRGn_CTXSEL crosses the region bridge and becomes a register request to the sequencer. -/
def execCtxselRequest (ini : Ini) (r : Region) (val : Word) (s : State) : Out :=
  .next (s.gate (ctxselRequest ini r.val val s))

/-- SEQUENCER_SIGNAL (R99). A sequencer-signal packet arriving at the region is latched as a signal request. -/
def execSequencerSignal (r : Region) (ctx : BitVec 3) (s : State) : Out :=
  .next (s.gate (sequencerSignal r.val ctx.toNat s))

/-- HEADGATE_TAG_REQUEST (R103). A headgate whose next packet carries a tag requests its context and waits to present the first flit. -/
def execHeadgateTagRequest (r : Region) (k : Fin 4) (s : State) : Out :=
  .next (s.gate (headgateTagRequest r.val k.val s))

/-- SEQUENCER_SWITCH (R100). The sequencer selects the winning request's target and every non-override tile enters it at the edge. -/
def execSequencerSwitch (r : Region) (s : State) : Out :=
  .next (s.gate (sequencerSwitch r.val s))

/-- CASTON (R109). A write of FRGn_CTRL.caston checks the region and releases stage 1 of cast-on. -/
def execCaston (ini : Ini) (r : Region) (val : Word) (s : State) : Out :=
  .next (s.gate (castonWrite ini r.val val s))

/-- CASTON_WRITE_ENABLE (R110). g cycles after stage 1, cast-on stage 2 enables write ports. -/
def execCastonWriteEnable (r : Region) (s : State) : Out :=
  .next (s.gate (castonWriteEnable r.val s))

/-- BINDOFF (R111). A write of FRGn_CTRL.bindoff, or a power-off request, starts the bind-off drain. -/
def execBindoff (ini : Ini) (r : Region) (val : Word) (s : State) : Out :=
  .next (s.gate (bindoffWrite ini r.val val s))

/-- BINDOFF_DRAIN_END (R111). The drain ends when the headgates are empty or the timeout expires, and the sluice cells park. -/
def execBindoffDrainEnd (r : Region) (timeout : Bool) (s : State) : Out :=
  .next (s.gate (bindoffDrainEnd r.val timeout s))

/-- HEADGATE_INBOUND_PRESENT (R114). A headgate presents an inbound flit's words on its enabled lanes when all lane segments are ready. -/
def execHeadgateInboundPresent (r : Region) (k : Fin 4) (s : State) : Out :=
  .next (s.gate (headgateInboundPresent r.val k.val s))

/-- HEADGATE_OUTBOUND_SEND (R114). A headgate forms an outbound flit from its lanes and sends it as a QWRITE to its queue. -/
def execHeadgateOutboundSend (r : Region) (k : Fin 4) (s : State) : Out :=
  .next (s.gate (headgateOutboundSend r.val k.val s))

/-- HEADGATE_RESEND (R508). 64 OCN cycles after a DROWSE refusal, the headgate sends the reservation of its held flit again. -/
def execHeadgateResend (r : Region) (k : Fin 4) (s : State) : Out :=
  .next (s.gate (headgateResend r.val k.val s))

/-- OPERATING_POINT_CHANGE (R118). The PMU carries out an accepted change in its turn, moving the LDO and switching the clock. -/
def execOperatingPointChange (r : Region) (s : State) : Out :=
  .next (s.gate (operatingPointChange r.val s))

/-- OPERATING_POINT_DONE (R118). An operating-point change completes and opdone is set. -/
def execOperatingPointDone (r : Region) (s : State) : Out :=
  .next (s.gate (operatingPointDone r.val s))

/-- REGION_POWER_ON (R512). A region is powered on from OFF, its LDO ramps and it enters EMPTY wiped. -/
def execRegionPowerOn (r : Region) (s : State) : Out :=
  .next (s.gate (regionPowerOn r.val s))

/-- REGION_POWER_OFF (R117). A pwr = 0 change is carried out and the region enters OFF, losing its configuration. -/
def execRegionPowerOff (r : Region) (s : State) : Out :=
  .next (s.gate (regionPowerOff r.val s))

/-- REGION_TEMP_SAMPLE (R119). Every 100 µs the PMU samples each region sensor and checks neighbour gradients. -/
def execRegionTempSample (codes : List (BitVec 12)) (s : State) : Out :=
  .next (s.gate (regionTempSample codes s))

end Sys2Proof.Machine
end

