-- ==== Sys2Proof/Machine/Queues.lean ====
section
/-!
DEFINITION. Stream queues (chapter 8): framing and packing, banks, reading and pushing, weir marks, flush, spill and
clear. Each command on a queue is one OCN cycle for the crossings of R182.
-/
namespace Sys2Proof.Machine

/-- Queue `q`. -/
def State.queue (s : State) (q : Nat) : QueueSt := tget {} s.sq q
/-- Replace queue `q`. -/
def State.setQueue (s : State) (q : Nat) (x : QueueSt) : State := { s with sq := tset {} s.sq q x }
/-- Window page of queue `q`. -/
def sqPage (q : Nat) : Nat := page .sq q

/-- SQq_CTRL fields (R191). -/
def State.sqCtl (s : State) (q : Nat) : Word := s.reg (sqPage q + sqCtrl)
def sqEn (w : Word) : Bool := bit w 0
def sqSpill (w : Word) : Bool := bit w 1
def sqW64 (w : Word) : Bool := bit w 2
def sqCounted (w : Word) : Bool := bit w 3
def sqPush (w : Word) : Bool := bit w 4
def sqWsel (w : Word) : Bool := bit w 5
def sqDreg (w : Word) : Nat := fld w 8 5
def sqDhg (w : Word) : Nat := fld w 13 2

/-! ### Counts -/

/-- Words of complete packets (R182). -/
def QueueSt.avail (x : QueueSt) : Nat := (x.pkts.map (fun p => p.words.length)).sum
/-- Every packet that holds committed words, oldest first. -/
def QueueSt.all (x : QueueSt) : List QPkt := x.pkts ++ x.closing ++ x.opn.toList
/-- Words committed and not yet read or discarded (R182). -/
def QueueSt.level (x : QueueSt) : Nat := (x.all.map (fun p => p.words.length)).sum
/-- Words awaiting in bank `b`. -/
def QueueSt.inBank (x : QueueSt) (b : Bool) : Nat := (x.all.map (fun p => (p.words.filter (fun w => w.2 == b)).length)).sum
/-- The write side is full (R178). -/
def QueueSt.full (x : QueueSt) : Bool := decide (256 ≤ x.inBank x.fb) && decide (0 < x.inBank !x.fb)
/-- The count that the weir marks watch. -/
def QueueSt.watched (x : QueueSt) (wsel : Bool) : Nat := if wsel then x.level else x.avail

/-- pace after a change (R183). -/
def paceOf (high low m : Nat) (old : Bool) : Bool := if high ≤ m then true else if m ≤ low then false else old

/-- Store a queue's new state: crossings of the marks, pace, and EVT_RAW.full when the write side becomes full (R182,
R183). -/
def State.queueStep (s : State) (q : Nat) (x : QueueSt) : State :=
  let old := s.queue q
  let ctl := s.sqCtl q
  let w := s.reg (sqPage q + sqWeir)
  let high := fld w 0 10
  let low := fld w 16 10
  let a := old.watched (sqWsel ctl)
  let b := x.watched (sqWsel ctl)
  let x1 := { x with pace := paceOf high low b x.pace }
  let s1 := s.setQueue q x1
  let s2 := if a < high ∧ high ≤ b then (s1.countUp (sqPage q + sqXcnt) 0 16 1).raise (sqPage q) 1 else s1
  let s3 := if b < high ∧ high ≤ a then s2.raise (sqPage q) 2 else s2
  let s4 := if b ≤ low ∧ low < a then (s3.countUp (sqPage q + sqXcnt) 16 16 1).raise (sqPage q) 3 else s3
  let s5 := if a ≤ low ∧ low < b then s4.raise (sqPage q) 4 else s4
  if x.full && !old.full then s5.raise (sqPage q) 9 else s5

/-! ### Writing -/

/-- The length word (R171). -/
def QPkt.lenWord (p : QPkt) : Nat :=
  p.len % 2 ^ 14 + 2 ^ 14 * (p.tag % 8) + 2 ^ 17 * (p.flags % 64) + 2 ^ 23 * b2n p.ovf + 2 ^ 24 * p.src.toNat

/-- One read word from up to 64 bytes, zero-filled. -/
def lineOfBytes (l : List Byte) : Line := BitVec.ofNat 512 (ofBytes l)

/-- `n` bytes of `l` from `a`, zero past its end. -/
def sliceBytes (l : List Byte) (a n : Nat) : List Byte := (List.range n).map (fun i => (l.drop a).getD i 0)

/-- A swap where the drain bank is empty and the fill bank is full or holds a complete packet (R177). -/
def QueueSt.maySwap (x : QueueSt) : Bool :=
  x.inBank !x.fb == 0 && (decide (256 ≤ x.inBank x.fb) || x.pkts.any (fun p => p.words.any (fun w => w.2 == x.fb)))

/-- Commit one word of the open packet to the fill bank; a full fill bank over an empty drain bank swaps first. -/
def QueueSt.commit (x : QueueSt) (l : List Byte) : QueueSt :=
  match x.opn with
  | none => x
  | some p =>
    let x1 := if decide (256 ≤ x.inBank x.fb) && x.inBank (!x.fb) == 0 then { x with fb := !x.fb } else x
    { x1 with opn := some { p with words := p.words ++ [(lineOfBytes l, x1.fb)] } }

/-- Append bytes to the open packet: each full 64 bytes commits a word (R175). -/
def QueueSt.append (x : QueueSt) : List Byte → QueueSt
  | [] => x
  | b :: rest =>
    let pk := x.pack ++ [b]
    let x1 := { x with opn := x.opn.map (fun (p : QPkt) => { p with len := p.len + 1 }) }
    let y := x1.commit pk
    let x2 := if pk.length = 64 then { y with pack := [] } else { x1 with pack := pk }
    x2.append rest

/-- A packet opens: its length slot is reserved at the head of the packing buffer and its tag is recorded (R172, R175). -/
def QueueSt.openPkt (x : QueueSt) (src : Ini) (tag : Nat) : QueueSt :=
  { x with opn := some { src := src, tag := tag }, pack := List.replicate 4 0, skip := x.skip.filter (fun p => p != src), want := none }

/-- Put the length word into the first word of a packet (R176). -/
def QPkt.withLen (p : QPkt) : QPkt :=
  match p.words with
  | [] => p
  | (d, b) :: t => { p with words := ((d &&& ~~~(maskOf 512 0 32)) ||| BitVec.ofNat 512 p.lenWord, b) :: t }

/-- Close the open packet (R172, R175, R176): the rest of the packing buffer is committed. A packet whose first word is in the packing
buffer in this cycle (`now`) takes its length at once and is complete, another waits for its length slot; one that a flush has cut is
discarded (R185). The second component says the packet became complete, the third that it was discarded. -/
def QueueSt.close (x : QueueSt) (flags : Nat) (ovf now : Bool) : QueueSt × Bool × Bool :=
  match x.opn with
  | none => (x, false, false)
  | some p =>
    let p1 := { p with flags := flags, ovf := ovf }
    let one := p.words.isEmpty || (now && p.words.length == 1 && x.pack.isEmpty)
    let x1 := if x.pack.isEmpty then { x with opn := some p1 } else ({ x with opn := some p1 }).commit x.pack
    let p2 := x1.opn.getD p1
    let x2 := { x1 with opn := none, pack := [], want := none }
    if p2.cut then (x2, false, true)
    else if one then ({ x2 with pkts := x2.pkts ++ [p2.withLen] }, true, false)
    else ({ x2 with closing := x2.closing ++ [p2] }, false, false)

/-- No packet that a flush has cut remains. -/
def QueueSt.noCut (x : QueueSt) : Bool := !x.all.any (fun p => p.cut)

/-- The flush ends when its last cut packet is gone (R185). -/
def State.flushEnd (s : State) (q : Nat) : State :=
  let x := s.queue q
  if x.flushing && x.noCut then (s.setQueue q { x with flushing := false }).raise (sqPage q) 5 else s

/-- A queue being written in one OCN cycle: the queue, packets completed and discarded, whether a framing error arose, and whether a
word has been committed. -/
structure WriteAcc where
  x    : QueueSt
  comp : Nat := 0
  disc : Nat := 0
  perr : Bool := false
  word : Bool := false
deriving DecidableEq, Repr

/-- Close within a flit. -/
def WriteAcc.close (a : WriteAcc) (flags : Nat) (ovf : Bool) : WriteAcc :=
  let (x, c, d) := a.x.close flags ovf a.word
  { a with x := x, comp := a.comp + b2n c, disc := a.disc + b2n d }

/-- Bytes of one item in explicit framing (R173): past 16,380 bytes the packet is closed with ovf and the producer's
further items are discarded. -/
def WriteAcc.item (a : WriteAcc) (src : Ini) (bs : List Byte) : WriteAcc :=
  if a.x.skip.contains src then a
  else match a.x.opn with
  | none => { a with perr := true }
  | some p =>
    let room := 16380 - p.len
    if bs.length ≤ room then { a with x := a.x.append bs }
    else
      let b := ({ a with x := a.x.append (bs.take room), perr := true }).close 0 true
      { b with x := { b.x with skip := b.x.skip ++ [src] } }

/-- One byte of counted framing (R172): the first four are the length word, then `len` bytes follow, at most 16,380 of them. -/
def WriteAcc.countedByte (src : Ini) (a : WriteAcc) (b : Byte) : WriteAcc :=
  match a.x.opn with
  | none =>
    -- the length word's first byte opens the packet for its producer (R174)
    { a with x := { a.x with opn := some { src := src }, pack := [b], want := none } }
  | some p =>
    match a.x.want with
    | none =>
      let pk := a.x.pack ++ [b]
      if pk.length < 4 then { a with x := { a.x with pack := pk } }
      else
        let w := ofBytes pk
        let n := nfld w 0 14
        let p1 := { p with tag := nfld w 14 3, flags := nfld w 17 6, ovf := decide (16380 < n) }
        let a1 := { a with x := { a.x with opn := some p1, pack := List.replicate 4 0, want := some (min n 16380) },
                           perr := a.perr || decide (16380 < n) }
        if n = 0 then a1.close p1.flags false else a1
    | some n =>
      let a1 := { a with x := ({ a.x with want := some (n - 1) }).append [b] }
      if n ≤ 1 then a1.close p.flags p.ovf else a1

/-- An item's first byte in counted framing, and what is left of the item: once the packet whose bytes began it has closed, the rest is
discarded (R172), but after a cut the next byte is that of the next length word (R173). -/
def WriteAcc.counted (src : Ini) (a : WriteAcc) : List Byte → WriteAcc × List Byte
  | [] => (a, [])
  | b :: rest =>
    let a1 := a.countedByte src b
    (a1, if a1.x.opn.isNone && !a.x.opn.any (fun p => p.ovf) then [] else rest)

/-- The items of a flit, lowest first: 16 of 32 bits or 8 of 64 (R172). -/
def flitItems (w64 : Bool) (n : Nat) (d : Line) : List (List Byte) :=
  let k := if w64 then 8 else 4
  (List.range n).map (fun i => bytesOf k (fld d (8 * k * i) (8 * k)))

/-- Fields of the queue control word (R172). -/
def cwOpen (w : BitVec 16) : Bool := bit w 0
def cwClose (w : BitVec 16) : Bool := bit w 1
def cwItems (w : BitVec 16) : Nat := fld w 2 5
def cwTag (w : BitVec 16) : Nat := fld w 7 3
def cwFlags (w : BitVec 16) : Nat := fld w 10 6

/-- Items of a flit that the queue takes: 16 of 32 bits or 8 of 64 (R173). -/
def itemLimit (ctl : Word) : Nat := if sqW64 ctl then 8 else 16

/-- What an accepted write flit has the queue do, in order (R172). -/
def flitActs (ctl : Word) (src : Ini) (cw : BitVec 16) (d : Line) : List QAct :=
  let items := (flitItems (sqW64 ctl) (min (itemLimit ctl) (cwItems cw)) d).map (QAct.item src)
  if sqCounted ctl then items
  else (if cwOpen cw then [.opn src (cwTag cw)] else []) ++ items ++ (if cwClose cw then [.close src (cwFlags cw)] else [])

/-- One action, and what is left of it (R172, R173). -/
def WriteAcc.act (counted : Bool) (a : WriteAcc) : QAct → WriteAcc × List QAct
  | .opn src tag =>
    let b := if a.x.opn.isSome then { a.close 0 false with perr := true } else a
    ({ b with x := b.x.openPkt src tag }, [])
  | .item src bs =>
    if counted then
      match a.counted src bs with
      | (b, []) => (b, [])
      | (b, rest) => (b, [.item src rest])
    else (a.item src bs, [])
  | .close src flags =>
    if a.x.opn.isSome && !a.x.skip.contains src then (a.close flags false, [])
    else if a.x.skip.contains src then ({ a with x := { a.x with skip := a.x.skip.filter (fun p => p != src) } }, [])
    else ({ a with perr := true }, [])

/-- No bank holds more than its 256 words. -/
def QueueSt.fitsBanks (x : QueueSt) : Bool := decide (x.inBank false ≤ 256) && decide (x.inBank true ≤ 256)

/-- The write port goes on with its flit within one OCN cycle: up to the first word committed, and as far as a bank has room for it
(R175, R178). -/
def WriteAcc.run (counted : Bool) : Nat → WriteAcc → WriteAcc
  | 0, a => a
  | n + 1, a =>
    match a.x.todo with
    | [] => a
    | t :: rest =>
      match a.act counted t with
      | (b, l) =>
        let words := a.x.level < b.x.level || a.disc < b.disc
        if !b.x.fitsBanks || (a.word && words) then a
        else WriteAcc.run counted n { b with x := { b.x with todo := l ++ rest }, word := a.word || words }

/-- Steps that a flit can need. -/
def todoSize (l : List QAct) : Nat := (l.map (fun t => match t with
  | .item _ bs => bs.length + 1
  | _ => 1)).sum

/-- One OCN cycle of the write side: a closed packet gets its length slot and is complete (R176), and the write port goes on. -/
def QueueSt.cycle (x : QueueSt) (ctl : Word) : WriteAcc :=
  let a : WriteAcc := { x := { x with closing := [], pkts := x.pkts ++ x.closing.map QPkt.withLen }, comp := x.closing.length }
  WriteAcc.run (sqCounted ctl) (todoSize x.todo) a

/-- One OCN cycle of queue `q`, which other commands' effect `x` on it shares: the net change is judged against the marks (R182), each
packet that becomes complete raises its notice (R181), and discarded ones are counted (R185). -/
def State.queueCycle (s : State) (q : Nat) (x : QueueSt) : State :=
  let a := x.cycle (s.sqCtl q)
  let s1 := s.queueStep q a.x
  let s2 := if a.perr then s1.raise (sqPage q) 7 else s1
  let s3 := (List.range a.comp).foldl (fun u _ => u.raise (sqPage q) 0) s2
  (s3.countUp (sqPage q + sqLost) 16 16 a.disc).flushEnd q

/-- The cycles that the flit at the write port still takes, as far as the banks have room and the event port takes its events. -/
def State.queueRun (q : Nat) : Nat → State → State
  | 0, s => s
  | n + 1, s =>
    let u := s.queueCycle q (s.queue q)
    if (s.queue q).todo.isEmpty || !u.portsOk || (u.queue q).todo == (s.queue q).todo then s else State.queueRun q n u

/-- The queue's write port once the flit in it has gone on as far as it can. -/
def State.queuePort (s : State) (q : Nat) : State := if (s.queue q).todo.isEmpty then s else State.queueRun q 72 s

/-- The queue takes a flit of this producer now: enabled, its write port free, no other producer's packet open, not full (R174, R186). -/
def State.queueTakes (s : State) (q : Nat) (src : Ini) : Bool :=
  let x := (s.queuePort q).queue q
  sqEn (s.sqCtl q) && x.todo.isEmpty && (match x.opn with
    | some p => p.src == src
    | none => true) && !x.full

/-- A flit that leaves NI `i` of a unit of the part goes to queue `q` now: the NI has a route, the queue's NI is open, and the queue takes
it or, being disabled, discards it (R188, R249, R263). DESIGN CHOICE: otherwise the unit keeps its flit and sends it later. -/
def State.queueReachAt (s : State) (i : Option Nat) (q : Nat) (src : Ini) : Bool :=
  (s.portRefuses (queueNi q)).isNone && i.all (fun n => rtValid (s.routeNow n (queueNi q))) &&
  (!sqEn (s.sqCtl q) || s.queueTakes q src)

/-- The same for the NI of an initiator; a DMA channel's instructions choose their routes themselves (R298). -/
def State.queueReach (s : State) (q : Nat) (src : Ini) : Bool :=
  s.queueReachAt (if 0x40 ≤ src.toNat ∧ src.toNat < 0x80 then none else unitNi src 0 true) q src

/-- One OCN cycle of every queue with a flit at its write port, as far as its event port takes the cycle's events. -/
def State.queueTick (s : State) : State :=
  (List.range 128).foldl (fun u q =>
    let v := u.queueCycle q (u.queue q)
    if (u.queue q).todo.isEmpty || !v.portsOk then u else v) s

/-- QUEUE_WRITE_FLIT: a write flit reaches the queue's write port (R172 to R176, R188). A disabled queue discards it and
sets cmdig; another producer's open packet or a full queue makes it wait. What it cannot do in its first cycle follows (R175). -/
def queueWriteFlit (q : Nat) (src : Ini) (cw : BitVec 16) (d : Line) (s : State) : State :=
  if !sqEn (s.sqCtl q) then s.raise (sqPage q) 8
  else if s.queueTakes q src then
    let s0 := s.queuePort q
    let s1 := s0.queueCycle q { s0.queue q with todo := flitActs (s.sqCtl q) src cw d }
    if itemLimit (s.sqCtl q) < cwItems cw then s1.raise (sqPage q) 7 else s1
  else s

/-- LENGTH_SLOT_WRITE: the closed packet gets its length word and is complete: EVT_RAW.pkt (R176, R181); one that a
flush has cut meanwhile is complete too and is discarded on the read side (R190). -/
def lengthSlotWrite (q : Nat) (s : State) : State :=
  if (s.queue q).closing.isEmpty then s else s.queueCycle q (s.queue q)

/-- BANK_SWAP (R177). -/
def bankSwap (q : Nat) (s : State) : State :=
  let x := s.queue q
  if x.maySwap then s.queueStep q { x with fb := !x.fb } else s

/-! ### Reading -/

/-- The field of a flit with status EMPTY. -/
def emptyTsf : BitVec 16 := wordTsf false false 0 0 5 0

/-- Take the oldest readable word: of the oldest complete packet, in the drain bank (R177, R179). -/
def QueueSt.take (x : QueueSt) : Option (Line × BitVec 16 × QueueSt) :=
  match x.pkts with
  | [] => none
  | p :: rest =>
    match p.words with
    | [] => none
    | (d, b) :: ws =>
      if b = x.fb then none
      else
        let last := ws.isEmpty
        let first := p.nread == 0
        let tsf := wordTsf first last (if first then p.tag else 0) (if last then ((4 + p.len - 1) % 64 + 1) else 0) 0 0
        some (d, tsf, { x with pkts := if last then rest else { p with words := ws, nread := p.nread + 1 } :: rest })

/-- Cut packets that are the oldest unread are gone before their reading can begin (R185): the queue without them, and how many. -/
def QueueSt.dropCut (x : QueueSt) : QueueSt × Nat :=
  let keep := x.pkts.dropWhile (fun p => p.cut && p.nread == 0)
  ({ x with pkts := keep }, x.pkts.length - keep.length)

/-- The edge after a cycle in which a response flit has left: the banks swap where they may (R177). -/
def QueueSt.edge (x : QueueSt) : QueueSt := if x.maySwap then { x with fb := !x.fb } else x

/-- The queue sends up to `n` words, one in each OCN cycle: the oldest readable as the cycle finds it, none where there is none. In the same
cycle a word may be committed, and at its edge the banks may swap (R177, R179, R190). -/
def State.sendWords (s : State) (q : Nat) : Nat → State × List (Option (Line × BitVec 16))
  | 0 => (s, [])
  | n + 1 =>
    let (x, k) := (s.queue q).dropCut
    let s0 := if k = 0 then s else ((s.queueStep q x).countUp (sqPage q + sqLost) 16 16 k).flushEnd q
    let (y, w) := match x.take with
      | some (d, t, y) => (y, some (d, t))
      | none => (x, none)
    let s1 := s0.queueCycle q y
    let s2 := if n = 0 then s1 else s1.setQueue q (s1.queue q).edge
    let (u, l) := s2.sendWords q n
    (u, w :: l)

/-- A read request of `n` words: the queue after it and the flits that leave, EMPTY with zero payload where no word is readable; a push or
disabled queue answers EMPTY and sets cmdig (R179, R188). -/
def State.queueRead (s : State) (q n : Nat) : State × List (Line × BitVec 16) :=
  if !sqEn (s.sqCtl q) || sqPush (s.sqCtl q) then (s.raise (sqPage q) 8, List.replicate n (0, emptyTsf))
  else
    let (u, l) := s.sendWords q n
    (u, l.map (fun w => w.getD (0, emptyTsf)))

/-- The oldest QREAD of the queue that its NI holds pending. -/
def State.pendingRead (s : State) (q : Nat) : Option Txn :=
  s.ocn.txns.find? (fun x => x.op == .qread && x.stage == .atBlock && x.rsv.queue.val == q)

/-- QUEUE_READ: the queue serves its oldest pending read request, or hands the words to a consumer outside the network's
transactions (R179, R180). -/
def queueRead (q n : Nat) (s : State) : State :=
  let (s1, l) := s.queueRead q n
  match s.pendingRead q with
  | some x => if x.rsv.nfm1.val + 1 = n then
      s1.modTxn x.key (fun y => { y.done .ok with data := l.map (·.1), tsf := l.map (·.2) })
    else s1
  | none => s1

/-! ### Pushing -/

/-- Words that may be pushed: readable and not covered by a reservation or waiting for one (R179). -/
def QueueSt.pushable (x : QueueSt) : Nat :=
  (((x.pkts.flatMap (fun p => p.words)).takeWhile (fun w => w.2 != x.fb)).length) - x.resv - x.retry

/-- Producer of the word `n` places from the oldest. -/
def QueueSt.srcAt (x : QueueSt) (n : Nat) : Ini :=
  ((x.pkts.flatMap (fun p => p.words.map (fun _ => p.src))).getD n 0)

/-- Launch a QPUSH reservation for `n` words that begin `k` places from the oldest. -/
def State.pushReserve (s : State) (q n k : Nat) : State :=
  let ctl := s.sqCtl q
  let x := { Rsv.base ((s.queue q).srcAt k) (queueNi q) (hgNi (sqDreg ctl) (sqDhg ctl)) with
    nfm1 := Fin.ofNat 8 (n - 1), queue := Fin.ofNat 128 q }
  s.launch .qpush x (.queue q) [] []

/-- QUEUE_PUSH: a push queue reserves at its headgate for `n` readable words, 1 to 8 (R179). -/
def queuePush (q n : Nat) (s : State) : State :=
  let ctl := s.sqCtl q
  let x := s.queue q
  if sqEn ctl && sqPush ctl && decide (n ≤ x.pushable) && x.retry == 0 then
    (s.pushReserve q n x.resv).setQueue q { x with resv := x.resv + n }
  else s

/-- QUEUE_PUSH_RETRY: 64 OCN cycles after a refusal a new reservation goes out for the refused words (R179). -/
def queuePushRetry (q : Nat) (s : State) : State :=
  let x := s.queue q
  if sqEn (s.sqCtl q) && sqPush (s.sqCtl q) && decide (0 < x.retry) then
    let n := min 8 x.retry
    (s.pushReserve q n x.resv).setQueue q { x with resv := x.resv + n, retry := x.retry - n }
  else s

/-- A push reservation of `n` words was granted: the queue's oldest words leave (R179). -/
def State.pushGranted (s : State) (q n : Nat) : State × List (Line × BitVec 16) :=
  let x := s.queue q
  let (u, l) := (s.setQueue q { x with resv := x.resv - n }).sendWords q n
  (u, l.filterMap id)

/-- A push reservation of `n` words was refused: its words wait (R179). -/
def State.pushRefused (s : State) (q n : Nat) : State :=
  let x := s.queue q
  s.setQueue q { x with resv := x.resv - n, retry := x.retry + n }

/-! ### Configuration, flush, spill and clear -/

/-- The configuration fields of SQq_CTRL that R188 guards. -/
def sqCfgMask : Word := 0x7F3E

/-- Mark every packet as cut (R185). -/
def QueueSt.cutAll (x : QueueSt) : QueueSt :=
  { x with pkts := x.pkts.map (fun p => { p with cut := true }), closing := x.closing.map (fun p => { p with cut := true })
           opn := x.opn.map (fun p => { p with cut := true }), flushing := true }

/-- The queue after CTRL.clr (R189): a push packet already begun stays to its last word; a flit in the write port goes with everything
else. -/
def QueueSt.cleared (x : QueueSt) (push : Bool) : QueueSt :=
  match x.pkts with
  | p :: _ => if push && decide (0 < p.nread) then
      { pkts := [{ p with words := p.words.map (fun w => (w.1, true)), cut := false }], resv := x.resv, retry := x.retry }
    else {}
  | [] => {}

/-- STAT.pace after a change of the marks or of the count that they watch (R183, R184). -/
def State.paceAgain (s : State) (q : Nat) : State :=
  let x := s.queue q
  let w := s.reg (sqPage q + sqWeir)
  s.setQueue q { x with pace := paceOf (fld w 0 10) (fld w 16 10) (x.watched (sqWsel (s.sqCtl q))) x.pace }

/-- The clr and flush bits of a written CTRL word (R185, R189). -/
def State.sqCmdAct (s : State) (q : Nat) (cfg val : Word) : State :=
  if bit val 7 then s.setQueue q ((s.queue q).cleared (sqPush cfg))
  else if bit val 6 then (s.setQueue q (s.queue q).cutAll).flushEnd q
  else s

/-- The effect of a write of SQq_CTRL that ownership and lock let through (R185, R188, R189). -/
def State.sqCtrlAct (s : State) (q : Nat) (val : Word) : State :=
  let off := sqPage q + sqCtrl
  let old := s.reg off
  if !sqEn old && sqEn val && sqPush val && decide (23 < sqDreg val) then s.raise (sqPage q) 8
  else
    let cfg := if sqEn old then old &&& sqCfgMask else val &&& sqCfgMask
    let bad := sqEn old && (old &&& sqCfgMask) != (val &&& sqCfgMask)
    let s1 := s.setReg off (cfg ||| (val &&& 1))
    let s2 := if bad then s1.raise (sqPage q) 8 else s1
    (s2.paceAgain q).sqCmdAct q cfg val

/-- SQ_CTRL_WRITE, SQ_FLUSH and SQ_CLEAR: a write of SQq_CTRL. -/
def sqCtrlWrite (ini : Ini) (q : Nat) (val : Word) (s : State) : State :=
  let off := sqPage q + sqCtrl
  if s.mayWrite ini off && s.locked off then
    ((s.violate (sqPage q) 2 ini off true).sqCmdAct q (s.reg off) val).answer .ok 0
  else s.regGuard ini off (fun u => u.sqCtrlAct q val)
/-- A write whose flush bit acts. -/
def sqFlush (ini : Ini) (q : Nat) (val : Word) (s : State) : State := sqCtrlWrite ini q val s
/-- A write whose clr bit acts. -/
def sqClear (ini : Ini) (q : Nat) (val : Word) (s : State) : State := sqCtrlWrite ini q val s

/-- FLUSH_DISCARD: the oldest unread packet is cut and its reading has not begun: it is discarded and counted (R185). -/
def flushDiscard (q : Nat) (s : State) : State :=
  let x := s.queue q
  match x.pkts with
  | p :: rest =>
    if p.cut && p.nread == 0 then
      ((s.queueStep q { x with pkts := rest }).countUp (sqPage q + sqLost) 16 16 1).flushEnd q
    else s
  | [] => s

/-- Discard the oldest complete packet whose reading has not begun. -/
def spillFrom : List QPkt → Option (List QPkt)
  | [] => none
  | p :: rest => if p.nread = 0 then some rest else (spillFrom rest).map (fun l => p :: l)

/-- A full spill queue discards one packet to make room for a flit (R187). -/
def State.spillOne (s : State) (q : Nat) : State :=
  let x := s.queue q
  if sqSpill (s.sqCtl q) && sqEn (s.sqCtl q) && x.full then
    match spillFrom x.pkts with
    | some l => (((s.queueStep q { x with pkts := l }).countUp (sqPage q + sqLost) 0 16 1).raise (sqPage q) 6).flushEnd q
    | none => s
  else s

/-- One packet in each cycle, until the queue is no longer full or has none to discard (R187). -/
def State.spillRoom (q : Nat) : Nat → State → State
  | 0, s => s
  | n + 1, s => if (s.spillOne q).queue q = s.queue q ∨ (s.spillOne q).portsOk = false then s else State.spillRoom q n (s.spillOne q)

/-- A flit waits at the write port of queue `q`: one in the port, a write whose data have arrived, a DMA channel's burst, a media channel's
DIN, or a personality's packet. -/
def State.flitWaits (s : State) (q : Nat) : Bool :=
  !(s.queue q).todo.isEmpty ||
  s.ocn.txns.any (fun x => x.op == .qwrite && x.stage == .data && x.rsv.queue.val == q) ||
  s.dma.any (fun e => e.2.bursts.any (fun b => b.phase == .writing && fld b.mv.w0 10 2 == 1 && fld b.mv.w2 0 7 == q)) ||
  s.med.any (fun e => e.2.pool.any (fun d => d.phase == .din && fld (d.words.headD 0) 24 7 == q)) ||
  s.codec.any (fun e => e.2.outs.head?.any (fun o => o.1 == q))

/-- SPILL_DISCARD: a flit that finds a spill queue full makes it discard one packet (R187). -/
def spillDiscard (q : Nat) (s : State) : State := if s.flitWaits q then s.spillOne q else s

/-- WEIR_WRITE: marks with low ≥ high or high above 512 are ignored and set cmdig (R184). -/
def weirWrite (ini : Ini) (q : Nat) (val : Word) (s : State) : State :=
  s.regGuard ini (sqPage q + sqWeir) (fun u =>
    let high := fld val 0 10
    let low := fld val 16 10
    if high ≤ low ∨ 512 < high then u.raise (sqPage q) 8
    else (u.setReg (sqPage q + sqWeir) (val &&& 0x03FF03FF)).paceAgain q)

/-- A unit of the part writes one packet of one flit to a spill queue, discarding old packets while it is full (R187). -/
def State.queueRecord (s : State) (q : Nat) (src : Ini) (tag n : Nat) (d : Line) : State :=
  queueWriteFlit q src (BitVec.ofNat 16 (3 + 4 * n + 2 ^ 7 * tag)) d (State.spillRoom q 512 s)

/-- SQq_STAT (R191). -/
def State.sqStatWord (s : State) (q : Nat) : Word :=
  let x := s.queue q
  BitVec.ofNat 32 (x.level % 1024 + 2 ^ 10 * (x.avail % 1024) + 2 ^ 20 * b2n x.fb + 2 ^ 21 * b2n x.opn.isSome
    + 2 ^ 22 * b2n (match x.pkts with
        | p :: _ => decide (0 < p.nread)
        | [] => false)
    + 2 ^ 23 * b2n x.flushing + 2 ^ 24 * b2n x.pace + 2 ^ 25 * b2n x.full)

/-! ### The commands -/

/-- LENGTH_SLOT_WRITE (R176). The queue writes a closed packet's length slot and the packet becomes complete. -/
def execLengthSlotWrite (q : Queue) (s : State) : Out :=
  .next (s.gate (lengthSlotWrite q.val s))

/-- BANK_SWAP (R177). The fill and drain banks swap when the drain bank is empty. -/
def execBankSwap (q : Queue) (s : State) : Out :=
  .next (s.gate (bankSwap q.val s))

/-- QUEUE_READ (R179). A pull queue serves a read request with response flits of its oldest readable words. -/
def execQueueRead (q : Queue) (nm1 : Fin 8) (s : State) : Out :=
  .next (s.gate (queueRead q.val (nm1.val + 1) s))

/-- QUEUE_PUSH (R179). A push queue sends readable words to its destination headgate under a grant. -/
def execQueuePush (q : Queue) (nm1 : Fin 8) (s : State) : Out :=
  .next (s.gate (queuePush q.val (nm1.val + 1) s))

/-- QUEUE_PUSH_RETRY (R179). 64 OCN cycles after a refusal the push queue reserves again for the waiting words. -/
def execQueuePushRetry (q : Queue) (s : State) : Out :=
  .next (s.gate (queuePushRetry q.val s))

/-- SQ_CTRL_WRITE (R188). A write to SQq_CTRL sets en and the configuration fields under the enable rules. -/
def execSqCtrlWrite (ini : Ini) (q : Queue) (val : Word) (s : State) : Out :=
  .next (s.gate (sqCtrlWrite ini q.val val s))

/-- SQ_FLUSH (R185). A write of CTRL.flush cuts every complete or open packet. -/
def execSqFlush (ini : Ini) (q : Queue) (val : Word) (s : State) : Out :=
  .next (s.gate (sqFlush ini q.val val s))

/-- FLUSH_DISCARD (R185). A cut packet is discarded at its packet boundary and flushed is set when the last goes. -/
def execFlushDiscard (q : Queue) (s : State) : Out :=
  .next (s.gate (flushDiscard q.val s))

/-- SPILL_DISCARD (R187). A spill queue discards its oldest unread complete packet to accept a waiting flit. -/
def execSpillDiscard (q : Queue) (s : State) : Out :=
  .next (s.gate (spillDiscard q.val s))

/-- SQ_CLEAR (R189). A write of CTRL.clr empties the queue at the next edge. -/
def execSqClear (ini : Ini) (q : Queue) (val : Word) (s : State) : Out :=
  .next (s.gate (sqClear ini q.val val s))

/-- WEIR_WRITE (R184). A write to SQq_WEIR sets the marks or is ignored, and pace is re-evaluated. -/
def execWeirWrite (ini : Ini) (q : Queue) (val : Word) (s : State) : Out :=
  .next (s.gate (weirWrite ini q.val val s))

end Sys2Proof.Machine
end

