-- ==== Sys2Proof/Machine/Ocn.lean ====
section
/-!
DEFINITION. The network's own machinery (chapter 11): grants and ingress space, answers of blocks, refusals at closed and
dead ports, timeouts, closing of ports, route tables and epochs, router closing, wheels, flit forwarding with its probes,
and the statistics.
-/
namespace Sys2Proof.Machine

/-! ### Answers of blocks -/

/-- The block's answer to the transaction of key `k`; a dead port discards it (R261). -/
def State.blockAnswer (s : State) (k : TxnKey) (f : Txn → Txn) : State :=
  match s.txn k with
  | none => s
  | some x => if s.portDead x.rsv.tgt.val then s else s.modTxn k (fun y => { f y with stage := .answered })

/-- A transaction that its target has not yet delivered to its block. -/
def Txn.undelivered (x : Txn) : Bool := x.stage == .pending || x.stage == .granted || x.stage == .data
/-- A transaction that the target has admitted: granted or delivered (R263). -/
def Txn.admitted (x : Txn) : Bool := x.stage == .granted || x.stage == .data || x.stage == .atBlock

/-! ### Ingress space (R510) -/

/-- The part of a target's ingress buffer that a write uses, and its size in flits: a queue, a bank, or the whole buffer. What an SQ
or RSV NI sets aside for its queues and banks is none of a register write's, which has one flit of its own there. -/
def State.ingress (s : State) (x : Txn) : Nat × Nat :=
  match x.op with
  | .qwrite => (x.rsv.queue.val, 8)
  | .write => match s.target x.rsv.addr.toNat with
    | .reservoir o _ => (o / 0x40000, 8)
    | .window _ => if (List.range 32).any (fun j => sqNi j == x.rsv.tgt.val || rsvNi j == x.rsv.tgt.val) then (256, 1) else (256, 16)
    | _ => (256, 16)
  | _ => (256, 16)

/-- Flits of the space reserved by granted writes whose data the block has not taken. -/
def State.ingressUsed (s : State) (t part : Nat) : Nat :=
  ((s.ocn.txns.filter (fun x => x.rsv.tgt.val == t && x.op.writes && x.admitted && (s.ingress x).1 == part)).map
    (fun x => x.rsv.nfm1.val + 1 - x.served)).sum

/-- Transactions older than that of key `k`. -/
def State.olderThan (s : State) (k : TxnKey) : List Txn := s.ocn.txns.takeWhile (fun x => x.key != k)

/-- The write port of a queue is free for this producer (R174), and a queue that does not spill is not full (R186). -/
def State.portFree (s : State) (x : Txn) : Bool :=
  match x.op with
  | .qwrite =>
    let q := x.rsv.queue.val
    (match (s.queue q).opn with
      | some p => p.src == x.rsv.src
      | none => true) && (!sqEn (s.sqCtl q) || sqSpill (s.sqCtl q) || !(s.queue q).full)
  | _ => true

/-- Flits that a headgate's inbound buffer, which is its NI's ingress buffer, still holds (R112, R510). -/
def State.hgHeld (s : State) (x : Txn) : Nat :=
  match headgateAt x.rsv.tgt.val with
  | some (r, k) => (s.hg r k).inb.length
  | none => 0

/-- The block admits the data of a write now: a headgate those of its region's RUN (R115), the reservoir none while it is wiped
(R282). -/
def State.admits (s : State) (x : Txn) : Bool :=
  match x.op with
  | .qpush => (headgateAt x.rsv.tgt.val).all (fun p => s.hgAdmits p.1)
  | .write => match s.target x.rsv.addr.toNat with
    | .reservoir _ _ => !s.rsvr.wipe
    | _ => true
  | _ => true

/-- GRANT: a pending write gets its grant once its flits of ingress space are free, in order of age, with a handle that the spec
leaves open (R254, R255, R510). -/
def grant (k : TxnKey) (s : State) : State :=
  match s.txn k with
  | none => s
  | some x =>
    let (part, size) := s.ingress x
    let t := x.rsv.tgt.val
    let blocked := (s.olderThan k).any (fun y => y.rsv.tgt.val == t && y.op.writes && y.stage == .pending &&
      (s.ingress y).1 == part && s.portFree y)
    if x.stage == .pending && x.op.writes && !blocked && s.portFree x && (s.rsvRefused x.op x.rsv).isNone && s.admits x
        && decide (s.ingressUsed t part + s.hgHeld x + x.rsv.nfm1.val + 1 ≤ size) then
      let (h, s1) := s.freeNat 256
      s1.modTxn k (fun y => { y with stage := .granted, handle := BitVec.ofNat 8 h })
    else s

/-! ### Timeouts -/

/-- Count a dropped write flit or a poisoned read at the dead port (R261). -/
def State.countDead (s : State) (n : Nat) (read : Bool) (k : Nat) : State :=
  s.countUp (ocnPage (n / 4) + ocnDead) (if read then 20 else 8) 12 k

/-- Operations that are answered with read data. -/
def OcnOp.reads : OcnOp → Bool
  | .read | .qread => true
  | _ => false

/-- The answer that the NI itself gives to an expired or absorbed request: poisoned RDAT flits, or DONE, of status DEAD (R261). -/
def Txn.deadAnswer (x : Txn) : Txn :=
  let n := if x.op.reads then x.rsv.nfm1.val + 1 else 0
  { x with stage := .answered, status := .dead, poison := x.op.reads, data := List.replicate n 0
           tsf := (List.range n).map (fun i => wordTsf (i == 0) (i + 1 == n) 0 0 (statusCode .dead) 1) }

/-- TARGET_TIMEOUT: a delivered request exceeds OCNr_TMO: the NI answers it, refuses every pending entry with DEAD, answers
delivered reads with poisoned flits, and sets the port's dead bit (R261). -/
def targetTimeout (k : TxnKey) (s : State) : State :=
  match s.txn k with
  | none => s
  | some x =>
    let t := x.rsv.tgt.val
    if (x.stage == .atBlock || x.stage == .data) && s.portDead t then s.modTxn k Txn.deadAnswer
    else if x.stage == .atBlock || x.stage == .data then
      let pg := ocnPage (t / 4)
      let rd := (s.ocn.txns.filter (fun y => y.rsv.tgt.val == t && y.stage == .atBlock && y.op.reads && y.key != k)).length
      let s1 := s.setTxns (s.ocn.txns.map (fun y =>
        if y.key = k then y.deadAnswer
        else if y.rsv.tgt.val = t ∧ y.stage = .pending then y.refuse .dead
        else if y.rsv.tgt.val = t ∧ y.stage = .atBlock ∧ y.op.reads = true then y.deadAnswer else y))
      let s2 := (s1.modReg (pg + ocnDead) (fun w => setBit w (t % 4))).countDead t true rd
      s2.raise pg 2
    else s

/-- DEAD_REOPEN: a write of OCNr_DEAD; a 1 to a dead bit reopens that port (R261). -/
def deadReopen (ini : Ini) (r : Nat) (val : Word) (s : State) : State :=
  s.regWrite ini (ocnPage r + ocnDead) val (fun _ u => u)

/-! ### Statistics -/

/-- Bin of a latency in OCN cycles (R267). -/
def latencyBin (n : Nat) : Nat := if n < 32 then 0 else if 2 ^ 19 ≤ n then 15 else Nat.log2 n - 4

/-- Add to a saturating 64-bit counter. -/
def addStat (t : Tbl DWord) (c n : Nat) : Tbl DWord := tset 0 t c (BitVec.ofNat 64 (satAdd (2 ^ 64 - 1) (tget 0 t c).toNat n))

/-- The initiator NI counts a completed transaction with its data flits and latency; refusals are not binned (R267). -/
def State.countTxn (s : State) (x : Txn) (latency : Nat) : State :=
  s.modNi x.rsv.ini.val (fun n =>
    let t1 := addStat n.stats 1 1
    let t2 := if x.refused then t1 else addStat (addStat t1 0 (64 * (if x.op = .signal then 0 else x.rsv.nfm1.val + 1))) (2 + latencyBin latency) 1
    { n with stats := t2 })

/-- STATS_CLEAR: CTRL.stclr clears the counters of the port that STSEL names (R267). -/
def State.clearStats (s : State) (r : Nat) : State :=
  s.modNi (niAt r (fld (s.reg (ocnPage r + ocnStsel)) 0 2)) (fun n => { n with stats := [], lats := [] })

/-- Counter `k` of an NI: the latency bins count the free latencies of the units' own accesses too. -/
def NiSt.stat (n : NiSt) (k : Nat) : DWord :=
  let l := n.lats.filter (fun i => 2 + latencyBin (Config.free i).toNat == k)
  if l.isEmpty then tget 0 n.stats k else BitVec.ofNat 64 (satAdd (2 ^ 64 - 1) (tget 0 n.stats k).toNat l.length)

/-- OCNr_STDATA (R267). -/
def State.statWord (s : State) (r : Nat) : DWord :=
  let w := s.reg (ocnPage r + ocnStsel)
  (s.ni (niAt r (fld w 0 2))).stat (fld w 4 5)

/-! ### Closing a port (R263) -/

/-- Nothing admitted remains at target NI `n`. -/
def State.noneAdmitted (s : State) (n : Nat) : Bool := s.ocn.txns.all (fun x => !(x.rsv.tgt.val == n && x.admitted))
/-- NI `n` has no reservation outstanding. -/
def State.noneOutstanding (s : State) (n : Nat) : Bool := s.ocn.txns.all (fun x => !(x.rsv.ini.val == n && x.outstanding))
/-- No transaction that NI `n` has begun still waits for an answer. -/
def State.noneOpen (s : State) (n : Nat) : Bool := s.ocn.txns.all (fun x => x.rsv.ini.val != n)

/-- Pages of the block in the power domain behind NI `n`, where the PMU powers that domain down: a region, the DRC. -/
def domainPages (n : Nat) : List Nat :=
  match headgateAt n with
  | some (r, _) => [frgPage r / 0x1000]
  | none => if (List.range 2).any (fun j => drcNi j == n) then [page .drc 0 / 0x1000] else []

/-- No event of the domain behind NI `n` waits in its event port (R16). -/
def State.eventsOut (s : State) (n : Nat) : Bool := (domainPages n).all (fun p => (tget [] s.hts.ports p).isEmpty)

/-- The domain behind NI `n` has power (R263). -/
def State.domainOn (s : State) (n : Nat) : Bool :=
  match headgateAt n with
  | some (r, _) => (s.rgn r).st != .off
  | none => !((List.range 2).any (fun j => drcNi j == n) && s.drc.selfref)

/-- PORT_DOWN: with nothing admitted the port drains, and with no answer awaited, and every event that the domain has raised
delivered (R16), it is down and EVT_RAW.down is set. -/
def portDown (n : Nat) (s : State) : State :=
  let p := (s.ni n).port
  if (p = .closing ∨ p = .draining) ∧ s.noneAdmitted n then
    if s.noneOpen n && s.eventsOut n then (s.modNi n (fun x => { x with port := .down })).raise (ocnPage (n / 4)) 4
    else s.modNi n (fun x => { x with port := .draining })
  else s

/-- PORT_REOPEN: the domain is powered and out of reset. -/
def portReopen (n : Nat) (s : State) : State :=
  if (s.ni n).port = .down ∧ s.domainOn n = true then
    (s.modNi n (fun x => { x with port := .opened, woke := false })).modReg (ocnPage (n / 4) + ocnClose) (fun w => clrBit w (n % 4))
  else s

/-- ROUTE_TABLE_WRITE: an aligned 64-bit write of an entry in the bank that the NI's epoch does not name; every other write
is ignored and sets tblig (R251, R252). OWNER of router 0 governs the tables (R37). DESIGN CHOICE: the tables have no ERR register; an
owner violation is recorded in ERR of router 0's page with the table's page offset, and is judged before the width. -/
def routeTableWrite (ini : Ini) (n off len : Nat) (val : DWord) (s : State) : State :=
  let pg := ocnPage (n / 4)
  if !s.mayWrite ini (ocnPage 0) then (s.violate (ocnPage 0) 1 ini off true).answer .ok 0
  else
    let e := off / 0x800
    let j := off % 0x800 / 8
    if len ≠ 8 ∨ off % 8 ≠ 0 ∨ e = b2n (s.ni n).epoch then (s.raise pg 6).answer .ok 0
    else
      let v : DWord := val &&& 0xFFFFFFFFF
      let ok := !rtValid v || routeOk n j v
      let v' : DWord := if ok then v else clrBit v 31
      let s1 := { s with ocn := { s.ocn with routes := tset (dorEntry n j) s.ocn.routes (512 * n + 256 * e + j) v' } }
      (if ok then s1 else s1.raise pg 6).answer .ok 0

/-! ### Routers (R257 to R259, R265) -/

/-- The router is closed (OCNr_CLOSE.router). -/
def State.routerClosed (s : State) (r : Nat) : Bool := bit (s.reg (ocnPage r + ocnClose)) 8

/-- ROUTER_CLOSE: a write of OCNr_CLOSE closes or reopens the router (R265). -/
def routerClose (ini : Ini) (r : Nat) (val : Word) (s : State) : State :=
  s.regWrite ini (ocnPage r + ocnClose) val (fun v u =>
    if bit v 8 then u else u.modRouter r (fun x => { x with drained := false }))

/-- The router holds no flit. -/
def RouterSt.empty (x : RouterSt) : Bool := x.bufs.all (fun e => e.2.isEmpty)

/-- ROUTER_DRAINED: a closed router's last flit has left (R265). -/
def routerDrained (r : Nat) (s : State) : State :=
  if s.routerClosed r && (s.router r).empty && !(s.router r).drained then
    (s.modRouter r (fun x => { x with drained := true })).raise (ocnPage r) 3
  else s

/-- EPOCH_FLIP: a write of OCNr_EPOCH asks the NIs named to switch banks (R265). -/
def epochFlip (ini : Ini) (r : Nat) (val : Word) (s : State) : State :=
  s.regWrite ini (ocnPage r + ocnEpoch) val (fun v u =>
    (List.range 4).foldl (fun t p => if bit v p && hasNi (niAt r p) then t.modNi (niAt r p) (fun x => { x with flip := true }) else t) u)

/-- Launch every reservation that NI `i` holds back and may launch. -/
def State.unholdAll (s : State) (i : Nat) : State := (List.range s.ocn.txns.length).foldl (fun u _ => u.unhold i) s

/-- EPOCH_SWITCH: with no reservation outstanding the NI switches to the other bank (R265). -/
def epochSwitch (n : Nat) (s : State) : State :=
  if (s.ni n).flip && s.noneOutstanding n then
    (s.modNi n (fun x => { x with flip := false, epoch := !x.epoch })).unholdAll n
  else s

/-- WHEEL_STAGE: a write of OCNr_WHEEL; with wr the owner and valid fields go to the staged entry of slot and output
(R259, R270). -/
def wheelStage (ini : Ini) (r : Nat) (val : Word) (s : State) : State :=
  s.regWrite ini (ocnPage r + ocnWheel) val (fun v u =>
    let o := fld v 9 3 + 8 * b2n (bit v 12)
    -- a locked page takes neither field (R32)
    if bit v 13 && !u.locked (ocnPage r + ocnWheel) then
      u.modRouter r (fun x => { x with staged := tset 0 x.staged (64 * fld v 6 3 + fld v 0 6) o })
    else u)

/-- The port exists: a mesh port that stays on the mesh, or a local port with an NI (R242, R243). -/
def portPresent (r p : Nat) : Bool := if p < 4 then (meshHop r p).isSome else hasNi (niAt r (p - 4))

/-- The refusal code of a staged wheel, 0 when it passes (R259). -/
def State.wheelRefusal (s : State) (r : Nat) : Nat :=
  let x := s.router r
  let l := x.staged.filter (fun a => decide (8 ≤ a.2))
  let dup := l.any (fun a => l.any (fun b => a.1 % 64 == b.1 % 64 && a.1 != b.1 && a.2 == b.2))
  if dup then 1
  else if l.any (fun a => a.1 / 64 == a.2 - 8) then 2
  else if l.any (fun a => !portPresent r (a.1 / 64) || !portPresent r (a.2 - 8)) then 3
  else if x.wpend then 4 else 0

/-- A write of OCNr_CTRL: wcommit and stclr (R259, R267). -/
def ocnCtrlWrite (ini : Ini) (r : Nat) (val : Word) (s : State) : State :=
  s.regWrite ini (ocnPage r + ocnCtrl) val (fun v u =>
    let u1 := if bit v 0 then
        (let c := u.wheelRefusal r
         if c = 0 then u.modRouter r (fun x => { x with wpend := true, commit := x.staged })
         else (u.modRouter r (fun x => { x with wref := c })).raise (ocnPage r) 1)
      else u
    if bit v 1 then u1.clearStats r else u1)

/-- WHEEL_COMMIT. -/
def wheelCommit (ini : Ini) (r : Nat) (val : Word) (s : State) : State := ocnCtrlWrite ini r val s
/-- STATS_CLEAR. -/
def statsClear (ini : Ini) (r : Nat) (val : Word) (s : State) : State := ocnCtrlWrite ini r val s

/-- WHEEL_TAKE_EFFECT: the wheel that the commit checked, at the next edge at which the slot count is 0 (R259). -/
def wheelTakeEffect (r : Nat) (s : State) : State :=
  if (s.router r).wpend then
    (s.modRouter r (fun x => { x with wheel := x.commit, commit := [], wpend := false })).raise (ocnPage r) 0
  else s

/-! ### Flits (R245, R250, R257, R268, R269) -/

/-- Virtual channel of a flit: 0 RSV, 1 REQ, 2 RSP (R246). -/
def flitVc (f : Flit) : Nat :=
  match fld f.side 27 3 with
  | 0 => 0
  | 1 | 2 => 1
  | _ => 2

/-- Buffers of an input on a virtual channel (R257). -/
def vcDepth (v : Nat) : Nat := if v = 0 then 2 else 8

/-- The output that a flit at input `i` of router `r` asks for, and its sideband when it leaves (R250). -/
def flitOut (i : Nat) (f : Flit) : Nat × BitVec 64 :=
  if 4 ≤ i then
    let d := f.first.val
    (if d < 4 then d else 4 + fld f.side 24 3 % 4, f.side)
  else
    -- the flit travels away from the side it came in at
    let d := (i + 2) % 4
    let code := fld f.side 0 2
    let side := setFld f.side 0 24 (fld f.side 0 24 / 4)
    (if code = 3 then 4 + fld f.side 24 3 % 4 else turn d code, side)

/-- Oldest flit at input `i` on channel `v`. -/
def RouterSt.head (x : RouterSt) (i v : Nat) : Option Flit := (tget [] x.bufs (3 * i + v)).head?

/-- Place a flit that arrives at an input, when a buffer of its channel is free. -/
def RouterSt.accept (x : RouterSt) (i : Nat) (f : Flit) : RouterSt :=
  let k := 3 * i + flitVc f
  if (tget [] x.bufs k).length < vcDepth (flitVc f) then { x with bufs := tset [] x.bufs k (tget [] x.bufs k ++ [f]) } else x

/-- The downstream input has a free buffer of the channel; a closed router returns no credit (R257, R265). -/
def State.creditAt (s : State) (r o v : Nat) : Bool :=
  if o < 4 then
    match meshHop r o with
    | none => false
    | some r' => !s.routerClosed r' && decide ((tget [] (s.router r').bufs (3 * ((o + 2) % 4) + v)).length < vcDepth v)
  else true

/-- The inputs and channels (3i + v) whose oldest flit asks for output `o` and has credit. -/
def State.waiting (s : State) (r o : Nat) : List Nat :=
  (List.range 24).filter (fun k =>
    match (s.router r).head (k / 3) (k % 3) with
    | some f => (flitOut (k / 3) f).1 == o && s.creditAt r o (k % 3)
    | none => false)

/-- The choice of an output in one OCN cycle: a guaranteed flit at the slot's owner, else round-robin after the one served
last (R257, R258). -/
def State.choose (s : State) (r o slot : Nat) : Option Nat :=
  let w := s.waiting r o
  let x := s.router r
  let own := tget 0 x.wheel (64 * o + slot)
  let gts := w.filter (fun k => k / 3 + 8 == own && (match x.head (k / 3) (k % 3) with
    | some f => bit f.side 31
    | none => false))
  match gts.head? with
  | some k => some k
  | none =>
    let l := tget 0 x.last o
    match w.find? (fun k => decide (l ≤ k)) with
    | some k => some k
    | none => w.head?

/-- Probe `k` of TRC page 0 sees a flit leave output `o` of router `r` (R268). -/
def State.probeMatch (s : State) (k r o : Nat) (side : BitVec 64) : Bool :=
  let c := s.reg (page .trc 0 + trcOpCfg + 0x10 * k)
  let m := s.reg (page .trc 0 + trcOpMatch + 0x10 * k)
  bit c 0 && fld c 2 6 == r && fld c 8 3 == o && bit c (11 + fld side 27 3) &&
    (fld side 32 8 &&& fld m 8 8) == (fld m 0 8 &&& fld m 8 8) && (!bit m 19 || fld m 16 3 == fld side 24 3)

/-- The probes count the flit and write their trace records (R268, R269). -/
def State.probeFlit (s : State) (r o : Nat) (side : BitVec 64) : State :=
  (List.range 4).foldl (fun u k =>
    if u.probeMatch k r o side then
      let u1 := u.countUp (page .trc 0 + trcOpCnt + 0x10 * k) 0 32 1
      let src := fld side 32 8
      if bit (u.reg (page .trc 0 + trcOpCfg + 0x10 * k)) 1 && src != 0x30 && src != 0x34 then
        let (cyc, u2) := u1.freeNat (2 ^ 32)
        let d : Line := BitVec.ofNat 512 (ofWords [side.setWidth 32, (side >>> 32).setWidth 32, BitVec.ofNat 32 cyc,
          BitVec.ofNat 32 (r + 2 ^ 6 * o + 2 ^ 9 * k)])
        u2.queueRecord (fld (u2.reg (page .trc 0 + trcOpq)) 0 7) 0x36 0 4 d
      else u1
    else u) s

/-- The flits that NI `n` has to send, the first of each transaction on each side, oldest transaction first: the initiator's side of
what the part's own units launched, and the target's side of every transaction (R254). -/
def State.niOffers (s : State) (n : Nat) : List (TxnKey × Bool × Flit) :=
  s.ocn.txns.flatMap (fun x =>
    let ini := if x.rsv.ini.val == n && x.who != .outside then (x.iniFlits.drop x.sentI).head?.toList.map (fun f => (x.key, true, f)) else []
    let a := (x.ansRoute).getD (s.routeNow n x.rsv.ini.val, (s.ni n).epoch)
    let tgt := if x.rsv.tgt.val == n then ((x.tgtFlits a.1 a.2).drop x.sentT).head?.toList.map (fun f => (x.key, false, f)) else []
    ini ++ tgt)

/-- An NI hands its router one flit in the cycle: the first that finds a free buffer of its channel. The target's answers keep the
route and epoch of the first (R254). -/
def State.niSend (s : State) (r p : Nat) : State :=
  let n := niAt r p
  match (s.niOffers n).find? (fun q => decide ((tget [] (s.router r).bufs (3 * (4 + p) + flitVc q.2.2)).length < vcDepth (flitVc q.2.2))) with
  | none => s
  | some (k, ini, f) =>
    let e := (s.routeNow n k.ini.val, (s.ni n).epoch)
    (s.modTxn k (fun x => if ini then { x with sentI := x.sentI + 1 }
      else { x with sentT := x.sentT + 1, ansRoute := some (x.ansRoute.getD e) })).modRouter r (fun x => x.accept (4 + p) f)

/-- FLIT_FORWARD: flits arrive at inputs of router `r`, those of its own NIs among them, and its output `o` forwards one flit in the
cycle of slot `slot` (R257, R258); the next router's buffers take it, or a local port's NI. -/
def flitForward (r o slot : Nat) (arr : List (Nat × Flit)) (s : State) : State :=
  let s0 := if s.routerClosed r then s
    else (List.range 4).foldl (fun u p => u.niSend r p) (s.modRouter r (fun x => arr.foldl (fun y p => y.accept p.1 p.2) x))
  match s0.choose r o slot with
  | none => s0
  | some k =>
    match (s0.router r).head (k / 3) (k % 3) with
    | none => s0
    | some f =>
      let side := (flitOut (k / 3) f).2
      let s1 := s0.modRouter r (fun x => { x with
        bufs := tset [] x.bufs k (tget [] x.bufs k).tail, last := tset 0 x.last o ((k + 1) % 24) })
      let s2 := (s1.probeFlit r o side).pulse 2 r (min o 4)
      match (if o < 4 then meshHop r o else none) with
      | some r' => s2.modRouter r' (fun x => x.accept ((o + 2) % 4) { f with side := side })
      | none => s2

/-- OCNr_STAT (R270). -/
def State.ocnStat (s : State) (r : Nat) : Word :=
  let x := s.router r
  let holds := fun (e : Bool) => x.bufs.any (fun b => b.2.any (fun f => bit f.side 30 == e))
  BitVec.ofNat 32 (b2n x.wpend + 2 * x.wref + 2 ^ 4 * b2n (s.routerClosed r) + 2 ^ 5 * b2n x.drained
    + 2 ^ 6 * b2n (holds false) + 2 ^ 7 * b2n (holds true))

/-- OCNr_PORT (R270). -/
def State.ocnPort (s : State) (r : Nat) : Word :=
  BitVec.ofNat 32 (((List.range 4).map (fun p =>
    let n := s.ni (niAt r p)
    let st := match n.port with
      | .opened => 0 | .closing => 1 | .draining => 2 | .down => 3
    2 ^ (4 * p) * (st + 4 * b2n (s.portDead (niAt r p)) + 8 * b2n n.epoch))).sum)

/-! ### The commands -/

/-- GRANT (R510). A target NI sends GRANT once the write's ingress space is free and reserves it. -/
def execGrant (k : TxnKey) (s : State) : Out :=
  .next (s.gate (grant k s))

/-- FLIT_FORWARD (R257). A router output forwards one flit per cycle by wheel slot or round-robin. -/
def execFlitForward (ro : Router) (output : Fin 8) (slot : Fin 64) (arrivals : List (Fin 8 × Flit)) (s : State) : Out :=
  .next (s.gate (flitForward ro.val output.val slot.val (arrivals.map (fun p => (p.1.val, p.2))) s))

/-- TARGET_TIMEOUT (R261). A delivered request exceeds OCNr_TMO and the NI isolates the target port as dead. -/
def execTargetTimeout (k : TxnKey) (s : State) : Out :=
  .next (s.gate (targetTimeout k s))

/-- DEAD_REOPEN (R261). A write of 1 to a dead bit reopens the port at the next edge. -/
def execDeadReopen (ini : Ini) (ro : Router) (val : Word) (s : State) : Out :=
  .next (s.gate (deadReopen ini ro.val val s))

/-- PORT_CLOSE (R263). The PMU starts closing a port, which refuses new reservations with DROWSE. -/
def execPortClose (n : Ni) (s : State) : Out :=
  .next (s.gate (portClose n.val s))

/-- PORT_DOWN (R263). When admitted and outstanding traffic is gone the port reports down. -/
def execPortDown (n : Ni) (s : State) : Out :=
  .next (s.gate (portDown n.val s))

/-- PORT_REOPEN (R263). The NI reopens when the PMU reports the domain powered and out of reset. -/
def execPortReopen (n : Ni) (s : State) : Out :=
  .next (s.gate (portReopen n.val s))

/-- ROUTE_TABLE_WRITE (R252). An aligned 64-bit write stores a checked route entry. -/
def execRouteTableWrite (ini : Ini) (n : Ni) (off : BitVec 12) (len : Nat) (val : BitVec 64) (s : State) : Out :=
  .next (s.gate (routeTableWrite ini n.val off.toNat len val s))

/-- ROUTER_CLOSE (R265). A write of OCNr_CLOSE.router closes or reopens the router. -/
def execRouterClose (ini : Ini) (ro : Router) (val : Word) (s : State) : Out :=
  .next (s.gate (routerClose ini ro.val val s))

/-- ROUTER_DRAINED (R265). A closed router's last flit leaves and drained is set. -/
def execRouterDrained (ro : Router) (s : State) : Out :=
  .next (s.gate (routerDrained ro.val s))

/-- EPOCH_FLIP (R265). A write of OCNr_EPOCH.flip makes the NI stop launching until it has nothing outstanding. -/
def execEpochFlip (ini : Ini) (ro : Router) (val : Word) (s : State) : Out :=
  .next (s.gate (epochFlip ini ro.val val s))

/-- EPOCH_SWITCH (R265). The NI switches to the other route bank when no reservation is outstanding. -/
def execEpochSwitch (n : Ni) (s : State) : Out :=
  .next (s.gate (epochSwitch n.val s))

/-- WHEEL_STAGE (R259). A write of OCNr_WHEEL with wr stores a staged wheel entry. -/
def execWheelStage (ini : Ini) (ro : Router) (val : Word) (s : State) : Out :=
  .next (s.gate (wheelStage ini ro.val val s))

/-- WHEEL_COMMIT (R259). A write of CTRL.wcommit checks the staged wheel and accepts or refuses it. -/
def execWheelCommit (ini : Ini) (ro : Router) (val : Word) (s : State) : Out :=
  .next (s.gate (wheelCommit ini ro.val val s))

/-- WHEEL_TAKE_EFFECT (R259). A pending wheel takes effect at the next slot-0 edge. -/
def execWheelTakeEffect (ro : Router) (s : State) : Out :=
  .next (s.gate (wheelTakeEffect ro.val s))

/-- STATS_CLEAR (R267). A write of OCNr_CTRL.stclr clears the selected port's counters. -/
def execStatsClear (ini : Ini) (ro : Router) (val : Word) (s : State) : Out :=
  .next (s.gate (statsClear ini ro.val val s))

end Sys2Proof.Machine
end

