-- ==== Sys2Proof/Machine/Reservoir.lean ====
section
/-!
DEFINITION. Reservoir and device DRAM (chapter 12): who may access a bank or a line, bank service with collisions and
aliases, ownership and handover, the wipes, DRAM accesses with their check words, and the host-visible range.
-/
namespace Sys2Proof.Machine

/-! ### Bank ownership -/

/-- Owner code of bank `b`; the secure banks are SEC's at all times (R277, R280). -/
def State.bankOwner (s : State) (b : Nat) : Nat := if 240 ≤ b then 0x34 else tget 0 s.rsvr.own b

/-- The code under which an initiator owns banks: every DMA channel counts as 0x40 (R277, R278). -/
def ownCode (i : Ini) : Nat := if 0x40 ≤ i.toNat ∧ i.toNat ≤ 0x7F then 0x40 else i.toNat

/-- Owner codes that R277 lists. -/
def ownListed (c : Nat) : Bool :=
  c == 0 || (decide (1 ≤ c) && decide (c ≤ 4)) || c == 0x31 || c == 0x34 || c == 0x40 || (decide (0x80 ≤ c) && decide (c ≤ 0x97))

/-- The cause of a refused bank access: 1 ownership, 2 secure; 0 when it is performed (R277, R280, R281). -/
def State.bankDenies (s : State) (ini : Ini) (b : Nat) (wr : Bool) : Nat :=
  if 240 ≤ b then (if (ini = 0x34 ∨ ini = levee) ∧ s.rsvr.swipe = false then 0 else 2)
  else if wr && s.bankOwner b != 0 && s.bankOwner b != ownCode ini && ini != levee then 1 else 0

/-- RSV_VIOL captures a refused access (R277, R280, R29). -/
def State.rsvViolate (s : State) (cause : Nat) (ini : Ini) (b word : Nat) (wr : Bool) : State :=
  let pg := page .rsv 0
  let e := s.reg (pg + rsvViol)
  let s1 := if (e &&& 0x83) = 0 then
      (s.setReg (pg + rsvViol) (BitVec.ofNat 32 (cause + 2 ^ 8 * ini.toNat + 2 ^ 16 * b + 2 ^ 24 * b2n wr))).setReg
        (pg + rsvVword) (BitVec.ofNat 32 word)
    else s.setReg (pg + rsvViol) (setBit (e ||| BitVec.ofNat 32 cause) 7)
  (s1.countUp (pg + rsvCnt) 16 16 1).raise pg 1

/-- RSV_COLL captures a collision (R275). -/
def State.rsvCollide (s : State) (winner loser : Ini) (b word : Nat) : State :=
  let pg := page .rsv 0
  let e := s.reg (pg + rsvColl)
  let s1 := if (e &&& 3) = 0 then
      (s.setReg (pg + rsvColl) (BitVec.ofNat 32 (1 + 2 ^ 8 * winner.toNat + 2 ^ 16 * loser.toNat))).setReg
        (pg + rsvCword) (BitVec.ofNat 32 (b + 2 ^ 8 * word))
    else s.setReg (pg + rsvColl) (setBit (setBit e 0) 1)
  (s1.countUp (pg + rsvCnt) 0 16 1).raise pg 2

/-! ### Memory behind both -/

/-- A write reaches a memory line: a core's dirty copy of it is gone and every reservation on it is lost (R342). -/
def State.touchLine (s : State) (line : Nat) : State :=
  { s with l2 := tdel s.l2 line, lr := tmap none (fun _ => true) (fun _ r => if r = some line then none else r) s.lr }

/-- Write the bytes of a 64-byte line that `mask` enables; `view` 1 sets bits and 2 clears bits (R276). -/
def State.writeLine (s : State) (line : Nat) (d : Line) (mask : BitVec 64) (view : Nat) : State :=
  ((List.range 64).foldl (fun u i =>
    if bit mask i then
      let old := u.byteAt (64 * line + i)
      let new := BitVec.ofNat 8 (fld d (8 * i) 8)
      u.setByte (64 * line + i) (if view = 1 then old ||| new else if view = 2 then old &&& ~~~new else new)
    else u) s).touchLine line

/-- A 64-byte line. -/
def State.readLine (s : State) (line : Nat) : Line := BitVec.ofNat 512 (s.memNat (64 * line) 64)

/-- Line number of a reservoir word. -/
def rsvLine (o : Nat) : Nat := rsvBase / 64 + o / 64

/-! ### DRAM ranges -/

/-- Byte offset in the DRAM lies in the ECC carve-out, the top 1/16 (R285). -/
def State.inCarve (s : State) (o : Nat) : Bool := decide (s.dramBytes / 16 * 15 ≤ o)

/-- The host-visible range in units of 256 MiB: base and size (R288). -/
def State.hvBase (s : State) : Nat := fld (s.reg (page .drc 0 + drcHvbase)) 0 8
def State.hvSize (s : State) : Nat := fld (s.reg (page .drc 0 + drcHvsize)) 0 8
/-- Byte offset in the DRAM lies in the host-visible range. -/
def State.inHv (s : State) (o : Nat) : Bool := decide (s.hvBase ≤ o / 2 ^ 28) && decide (o / 2 ^ 28 < s.hvBase + s.hvSize)
/-- DRC_HVCTRL.en. -/
def State.hvEn (s : State) : Bool := bit (s.reg (page .drc 0 + drcHvctrl)) 0

/-- The line is in the host-line filter (R442). -/
def State.inFilter (s : State) (line : Nat) : Bool := s.drc.filter.contains line

/-! ### Bank service (R273 to R276) -/

/-- Byte offset in the reservoir of the next word of a transaction, and its view. -/
def State.nextWord (s : State) (x : Txn) : Option (Nat × Nat) :=
  match s.target (x.rsv.addr.toNat / 64 * 64 + 64 * x.served) with
  | .reservoir o v => some (o, v)
  | _ => none

/-- Requests presented to bank `b`: of each initiator NI only the oldest (R273). -/
def State.presented (s : State) (b : Nat) : List Txn :=
  let all := s.ocn.txns.filter (fun x => x.stage == .atBlock && (x.op == .read || x.op == .write) &&
    (match s.nextWord x with
      | some (o, _) => o / 0x40000 == b
      | none => false))
  all.foldl (fun l x => if l.any (fun y => y.rsv.ini == x.rsv.ini) then l else l ++ [x]) []

/-- Priority of a request, lower is served first (R273). -/
def bankPrio (n : Nat) : Nat :=
  if n = 29 then 0
  else if n = 188 ∨ n = 189 then 1
  else if n = 180 ∨ n = 184 then 2
  else if n = 30 ∨ n = 31 ∨ n = 160 ∨ n = 161 then 1000 + n
  else 10 + n

/-- The request that the bank performs. -/
def pickReq : List Txn → Option Txn
  | [] => none
  | x :: t => match pickReq t with
    | none => some x
    | some y => if bankPrio y.rsv.ini.val < bankPrio x.rsv.ini.val then some y else some x

/-- Byte mask of flit `i` of a write (R247). -/
def rsvMask (r : Rsv) (i : Nat) : BitVec 64 :=
  if i = 0 then r.bm0 else if i = r.nfm1.val then r.bm1 else BitVec.allOnes 64

/-- A flit has been served with `st`: the first status other than OK stands; the last flit ends the transaction. -/
def State.flitServed (s : State) (x : Txn) (st : Status) (d : Option Line) (win : Option Ini) : State :=
  let y := { x with
    served := x.served + 1
    status := if x.status = .ok then st else x.status
    data := match d with
      | some l => x.data ++ [l]
      | none => x.data
    tsf := match d with
      | some _ => x.tsf ++ [wordTsf (x.served == 0) (x.served == x.rsv.nfm1.val) 0 0 (statusCode st) (b2n (st == .slvErr && x.poison))]
      | none => x.tsf
    win := if x.status = .ok then win.getD x.win else x.win }
  if y.served = x.rsv.nfm1.val + 1 then s.blockAnswer x.key (fun _ => y) else s.modTxn x.key (fun _ => y)

/-- A request for one word of a bank: initiator, its NI, byte offset of the word, view, the data and byte mask of a write. -/
structure WordReq where
  src  : Ini
  ini  : Nat
  off  : Nat
  view : Nat
  wr   : Bool
  data : Line := 0
  mask : BitVec 64 := 0
deriving DecidableEq, Repr

/-- Bank and word of a request. -/
def WordReq.bank (q : WordReq) : Nat := q.off / 0x40000
def WordReq.word (q : WordReq) : Nat := q.off % 0x40000 / 64

/-- The word that a transaction asks for next. -/
def State.wordReq (s : State) (x : Txn) : Option WordReq :=
  (s.nextWord x).map (fun p => { src := x.rsv.src, ini := x.rsv.ini.val, off := p.1, view := p.2, wr := x.op == .write,
                                 data := x.data.getD x.served 0, mask := rsvMask x.rsv x.served })

/-- Two plain writes to one word whose masks overlap, both by initiators that may write the bank (R275, R277). -/
def State.collides (s : State) (p q : WordReq) : Bool :=
  p.wr && q.wr && p.off == q.off && p.view == 0 && q.view == 0 && (p.mask &&& q.mask) != 0 &&
  s.bankDenies p.src p.bank true == 0 && s.bankDenies q.src q.bank true == 0

/-- The bank performs one word: the status, and the data of a read, zero when it is refused (R277, R280, R282). -/
def State.bankWord (s : State) (q : WordReq) : State × Status × Line :=
  let deny := s.bankDenies q.src q.bank q.wr
  if s.rsvr.wipe then (s, .drowse, 0)
  else if deny ≠ 0 then (s.rsvViolate deny q.src q.bank q.word q.wr, .slvErr, 0)
  else if q.wr then (s.writeLine (rsvLine q.off) q.data q.mask q.view, .ok, 0)
  else (s, .ok, s.readLine (rsvLine q.off))

/-- The presented writes that collide with the word just written lose it: each is answered COLLIDE for that flit (R275). -/
def State.bankLosers (s : State) (q : WordReq) (others : List Txn) : State :=
  others.foldl (fun u y =>
    match u.wordReq y with
    | some r => if u.collides q r then (u.rsvCollide q.src r.src q.bank q.word).flitServed y .collide none (some q.src) else u
    | none => u) s

/-- Perform the chosen request's word. -/
def State.bankPerform (s : State) (x : Txn) (others : List Txn) : State :=
  match s.wordReq x with
  | none => s
  | some q =>
    match s.bankWord q with
    | (u, st, d) => (u.flitServed x st (if q.wr then none else some d) none).bankLosers q (if st = .ok then others else [])

/-- The other requests of a list. -/
def without (l : List Txn) (x : Txn) : List Txn := l.filter (fun y => y.key != x.key)

/-- BANK_ACCESS: in one OCN cycle the bank performs one presented request. -/
def bankAccess (b : Nat) (s : State) : State :=
  match pickReq (s.presented b) with
  | none => s
  | some x => s.bankPerform x (without (s.presented b) x)

/-- A unit of the part has the bank perform a word within its own command: the presented requests that come before it, by priority or
as older ones of its own NI, are performed first; a plain write among them that collides with the unit's takes the word (R273, R275). -/
def State.bankServe (q : WordReq) : Nat → State → State × Status × Line
  | 0, s => s.bankWord q
  | n + 1, s =>
    let l := s.presented q.bank
    let mine := l.any (fun x => x.rsv.ini.val == q.ini)
    match pickReq (l.filter (fun x => mine || decide (bankPrio x.rsv.ini.val < bankPrio q.ini))) with
    | some x =>
      let u := s.bankPerform x (without l x)
      if !mine && (s.wordReq x).any (fun r => s.collides r q) then (u.rsvCollide x.rsv.src q.src q.bank q.word, .collide, 0)
      else State.bankServe q n u
    | none => match s.bankWord q with
      | (u, st, d) => (u.bankLosers q (if st = .ok then l else []), st, d)

/-! ### Handover (R278, R279) -/

/-- The owner that a BHAND write is judged against: the one an accepted handover still to take effect has set. -/
def State.ownerToBe (s : State) (b : Nat) : Nat :=
  match (s.rsvr.hand.filterMap (fun h => h)).reverse.find? (fun h => h.1 == b) with
  | some h => h.2
  | none => s.bankOwner b

/-- Whether a bank is a staging bank of a load in progress (R133). -/
def State.staging (s : State) (b : Nat) : Bool :=
  s.fcc.lstate != 0 && decide (s.fcc.base ≤ b) && decide (b < s.fcc.base + s.fcc.nbank)

/-- A handover of bank `b` to `code` by `ini` takes effect (R278). -/
def State.handOk (s : State) (ini : Ini) (b code : Nat) : Bool :=
  let cur := s.ownerToBe b
  (ini == levee || cur == ownCode ini && cur != 0 || (cur == 0 && code == ownCode ini)) &&
  ownListed code && decide (b < 240) && code != 0x34 && (!s.staging b || ini == levee)

/-- BANK_HANDOVER: a write of RSV_BHAND, judged when the page performs it (R278). -/
def bankHandover (ini : Ini) (val : Word) (s : State) : State :=
  let b := fld val 0 8
  let code := fld val 8 8
  if s.handOk ini b code then { s with rsvr := { s.rsvr with hand := s.rsvr.hand ++ [some (b, code)] } }
  else
    let s1 := { s with rsvr := { s.rsvr with hand := s.rsvr.hand ++ [none] } }
    (s1.modReg (page .rsv 0 + rsvHstat) (fun _ => BitVec.ofNat 32 (1 + 2 ^ 8 * b + 2 ^ 16 * ini.toNat))).raise (page .rsv 0) 1

/-- The edge of the oldest BHAND write: an accepted one takes effect, and its DONE leaves (R279). -/
def State.handEdge (s : State) : State :=
  match s.rsvr.hand with
  | [] => s
  | none :: t => ({ s with rsvr := { s.rsvr with hand := t } }).answer .ok 0
  | some (b, c) :: t =>
    (({ s with rsvr := { s.rsvr with hand := t, own := tset 0 s.rsvr.own b c } }).raise (page .rsv 0) 0).answer .ok 0

/-! ### Wipes (R281, R282) -/

/-- Zero every byte of banks `lo` to 255. -/
def State.zeroBanks (s : State) (lo : Nat) : State :=
  { s with mem := tkeep (fun a => !(decide (bankAddr lo ≤ a) && decide (a < bankAddr 256))) s.mem }

/-- SECURE_WIPE: banks 240 to 255 refuse every access and are written with zeros; requests presented before it are refused. -/
def secureWipe (_cause : WipeCause) (s : State) : State :=
  if s.rsvr.swReq then
    let s1 := ({ s with rsvr := { s.rsvr with swReq := false, swipe := true, keys := [] } }).zeroBanks 240
    s1.setTxns (s1.ocn.txns.map (fun x =>
      if x.stage == .atBlock && (match s1.nextWord x with
        | some (o, _) => decide (240 ≤ o / 0x40000)
        | none => false) then
        { x with stage := .answered, status := .slvErr, data := if x.op = .read then List.replicate (x.rsv.nfm1.val + 1) 0 else x.data }
      else x))
  else s

/-- SECURE_WIPE_DONE. -/
def secureWipeDone (s : State) : State :=
  if s.rsvr.swipe then ({ s with rsvr := { s.rsvr with swipe := false } }).raise (page .rsv 0) 3 else s

/-- The whole reservoir is wiped (R282): accesses are refused until it ends. -/
def State.wipeReservoir (s : State) : State := ({ s with rsvr := { s.rsvr with wipe := true, keys := [] } }).zeroBanks 0

/-- RESERVOIR_WIPE_DONE. -/
def reservoirWipeDone (s : State) : State :=
  if s.rsvr.wipe then ({ s with rsvr := { s.rsvr with wipe := false } }).raise (page .rsv 0) 4 else s

/-- RSV_STAT. -/
def State.rsvStat (s : State) : Word := BitVec.ofNat 32 (b2n s.rsvr.wipe + 2 * b2n s.rsvr.swipe)
/-- RSV_BOWN register `i`. -/
def State.bownWord (s : State) (i : Nat) : Word :=
  BitVec.ofNat 32 (((List.range 4).map (fun j => 2 ^ (8 * j) * s.bankOwner (4 * i + j))).sum)

/-! ### DRAM (R285 to R291) -/

/-- The check word of a line of the DRAM at byte offset `x`: the SEC-DED code of its data and the check of its line address
(R285). -/
def State.checkWord (s : State) (x : Nat) : Word :=
  let a := dramBase + x
  ((Config.secDed (s.readLine (a / 64))).setWidth 32) ||| ((Config.addrCheck (BitVec.ofNat 32 (nfld a 6 32))).setWidth 32 <<< 11)

/-- DRAM offset at which the check word of the line at offset `x` is stored (R285). -/
def State.checkWordAt (s : State) (x : Nat) : Nat := s.dramBytes / 16 * 15 + x / 64 * 4

/-- DRC_UELOG captures an uncorrectable line (R286). -/
def State.logUe (s : State) (addrCheck : Bool) (ini : Ini) (a : Nat) : State :=
  let pg := page .drc 0
  let e := s.reg (pg + drcUelog)
  let s1 := if (e &&& 3) = 0 then
      (s.setReg (pg + drcUelog) (BitVec.ofNat 32 (1 + 4 * b2n addrCheck + 2 ^ 8 * ini.toNat))).setReg64 (pg + drcUeaddr) a
    else s.setReg (pg + drcUelog) (setBit (setBit e 0) 1)
  (s1.countUp (pg + drcUecnt) 0 32 1).raise pg 1

/-- What the check word of a line says from now on. -/
def State.setMark (s : State) (line : Nat) (e : DramErr) : State :=
  { s with drc := { s.drc with marks := tset .none s.drc.marks line e } }
/-- What the check word of a line says. -/
def State.mark (s : State) (line : Nat) : DramErr := tget .none s.drc.marks line

/-- The DRC checks the line at `a` on a read: a corrected error is counted and written back, an uncorrectable one is logged and stays;
the flag says that the line can be read (R286). -/
def State.checkLine (s : State) (ini : Ini) (a : Nat) : State × Bool :=
  match s.mark (a / 64) with
  | .none => (s, true)
  | .corrected => ((s.setMark (a / 64) .none).countUp (page .drc 0 + drcCecnt) 0 32 1, true)
  | .uncorrectable => (s.logUe false ini a, false)
  | .addressCheck => (s.logUe true ini a, false)

/-- The DRC refuses every access to the byte offset `o`: before its zero-fill, in self-refresh, and in the range while that is cleared
(R287, R289). -/
def State.drcShut (s : State) (o : Nat) : Bool := !s.drc.init || s.drc.selfref || (s.drc.clr && s.inHv o)

/-- The DRC reads or writes one line, a write of part of it as a read-modify-write; the flag says that read data are poisoned (R285 to
R287, R289). -/
def State.dramLine (s : State) (ini : Ini) (a : Nat) (wr : Bool) (d : Line) (m : BitVec 64) : State × Status × Line × Bool :=
  let o := a - dramBase
  if s.drcShut o then (s, .drowse, 0, false)
  else if s.inCarve o then (s, .slvErr, 0, false)
  else if !wr then
    match s.checkLine ini a with
    | (u, true) => (u, .ok, u.readLine (a / 64), false)
    | (u, false) => (u, .slvErr, 0, true)
  else
    match (if m = BitVec.allOnes 64 then (s, true) else s.checkLine ini a) with
    | (u, true) => ((u.writeLine (a / 64) d m 0).setMark (a / 64) .none, .ok, 0, false)
    | (u, false) => (u, .slvErr, 0, false)

/-- The DRC serves the next line of a transaction. -/
def State.dramFlit (s : State) (x : Txn) : State :=
  let a := x.rsv.addr.toNat / 64 * 64 + 64 * x.served
  let wr := x.op == .write
  match s.dramLine x.rsv.src a wr (x.data.getD x.served 0) (rsvMask x.rsv x.served) with
  | (u, st, d, p) => u.flitServed { x with poison := x.poison || p } st (if wr then none else some d) none

/-- Line of a transaction's next flit. -/
def Txn.line (x : Txn) : Nat := x.rsv.addr.toNat / 64 + x.served

/-- The line that a device write must have back-invalidated before it is performed (R443). -/
def State.heldLine (s : State) (x : Txn) : Option Nat := if x.op == .write && s.inFilter x.line then some x.line else none

/-- The requests that stand at the DRC, oldest first: one queue for both NIs (R291). -/
def State.drcQueue (s : State) : List Txn :=
  s.ocn.txns.filter (fun x => x.stage == .atBlock && (x.op == .read || x.op == .write) && (match s.target x.rsv.addr.toNat with
    | .dram _ => true
    | _ => false))

/-- A held write of the queue still has to write the line. -/
def State.lineHeld (s : State) (l : List Txn) (line : Nat) : Bool :=
  l.any (fun y => (s.heldLine y).isSome && decide (y.line ≤ line) && decide (line ≤ y.rsv.addr.toNat / 64 + y.rsv.nfm1.val))

/-- The request that the DRC serves next: the oldest that has passed the bridge, but for a write that waits for the host and what is
younger and of its lines (R260, R291, R443). -/
def State.drcNext (s : State) : Option Txn :=
  s.drcQueue.find? (fun x => (s.heldLine x).isNone && s.bridgeHas x.rsv.tgt.val x.key &&
    !s.lineHeld (s.drcQueue.takeWhile (fun y => y.key != x.key)) x.line)

/-- DRAM_ACCESS: the DRC serves the next line of its oldest request, which is that of key `k`. An `err` other than none says what has
become of the line's check since it was last accessed; else the line stands as it did. -/
def dramAccess (k : TxnKey) (e : DramErr) (s : State) : State :=
  match s.drcNext with
  | none => s
  | some x => if x.key = k then (if e = .none then s else s.setMark x.line e).dramFlit x else s

/-- Every request older than an access that begins now is served first (R291). -/
def State.drcDrain : Nat → State → State
  | 0, s => s
  | n + 1, s => match s.drcNext with
    | some x => State.drcDrain n (s.dramFlit x)
    | none => s

/-- Flits that the transactions can still ask for. -/
def State.flitsLeft (s : State) : Nat := 8 * s.ocn.txns.length + 1

/-! ### One access by a unit of the part

The units that read and write memory as part of one command (rider cores, DMA bursts, the boot ROM, SEC, MGD, PLY, the ATU, the FCC) do it
through these: each line passes the unit's NI and the target's, the bank or the DRC that holds it, and the host-line filter. -/

/-- Plain address and view of an address in a memory (R17). -/
def State.plainAddr (s : State) (a : Nat) : Nat × Nat :=
  match s.target a with
  | .reservoir o v => (rsvBase + o, v)
  | _ => (a, 0)

/-- Status with which the network answers an access of unit `ini` at `a`: an invalid route entry DECERR (R249), a dead or closed port its
refusal (R261, R263). The DMA's operands choose their routes themselves (R298). -/
def State.netStatus (s : State) (ini : Ini) (a : Nat) (wr : Bool) : Status :=
  match unitNi ini a wr, s.addrNi a with
  | _, none => .decErr
  | none, _ => .ok
  | some i, some t =>
    if !(decide (0x40 ≤ ini.toNat) && decide (ini.toNat < 0x80)) && !rtValid (s.routeNow i t) then .decErr
    else if s.regionPageAt a && !s.portDead t then .ok
    else (s.portRefuses t).getD .ok

/-- NI `i` counts a flit that its block has sent or received; one that begins a transaction counts that too, with a free latency (R267). -/
def State.countAt (s : State) (i : Nat) (begins refused : Bool) : State :=
  let s1 := s.modNi i (fun n =>
    let t := if refused then n.stats else addStat n.stats 0 64
    if begins then { n with stats := addStat t 1 1, lats := if refused then n.lats else n.lats ++ [s.fresh] } else { n with stats := t })
  if begins then { s1 with fresh := s1.fresh + 1 } else s1

/-- The unit's NI counts the flit of an access at `a`. -/
def State.countFlit (s : State) (ini : Ini) (a : Nat) (wr begins refused : Bool) : State :=
  match unitNi ini a wr with
  | none => s
  | some i => s.countAt i begins refused

/-- An access at `a` belongs to another transaction than that of the line before: the first, a new target NI, or more than eight
flits. -/
def State.begins (s : State) (first : Bool) (a : Nat) : Bool :=
  first || a / 64 % 8 == 0 || s.addrNi a != s.addrNi (a / 64 * 64 - 64)

/-- The launch of an access waits while its NI is to switch epochs (R265). -/
def State.awaitNi (s : State) (ini : Ini) (a : Nat) (wr : Bool) : State :=
  if s.hold.isNone && (unitNi ini a wr).any (fun i => (s.ni i).flip) then { s with hold := some .net } else s

/-- An access of a unit at `a` that is no register's: a hole is recorded and answered DECERR, the push aperture reads zero, the tables of the
NIs and every page have a width violation (R24, R26, R39). -/
def State.windowMiss (s : State) (ini : Ini) (off : Nat) (wr : Bool) : State × Status :=
  if 0x1000000 ≤ off ∧ off < 0x1100000 then (if wr then (s.violate (page .fcc 0) 0 ini off true, .slvErr) else (s, .ok))
  else if 0x240000 ≤ off ∧ off < 0x300000 then (s, .slvErr)
  else match blockAt off with
    | none => (s.holeCapture ini off wr, .decErr)
    | some _ => (s.violate (off / 0x1000 * 0x1000) 0 ini off wr, .slvErr)

/-- The request of a unit for the reservoir word at offset `o`. -/
def unitReq (ini : Ini) (a o v : Nat) (wr : Bool) (d : Line) (m : BitVec 64) : WordReq :=
  { src := ini, ini := (unitNi ini a wr).getD 0, off := o / 64 * 64, view := v, wr := wr, data := d, mask := m }

/-- An access of a unit passes the network to the block behind the address, where the status is OK; the unit's NI counts it. -/
def State.reach (s : State) (ini : Ini) (first : Bool) (a : Nat) (wr : Bool) : State × Status :=
  let s0 := s.awaitNi ini a wr
  let st := s0.netStatus ini a wr
  (s0.countFlit ini a wr (st != .decErr && s0.begins first a) (st != .ok), st)

/-- Free data of a line. -/
def State.freeLine (s : State) : Line × State :=
  (BitVec.ofNat 512 (((List.range 8).map (fun i => (Config.free (s.fresh + i)).toNat * 2 ^ (64 * i))).sum), { s with fresh := s.fresh + 8 })

/-- Read the line that holds `a`: all zero when refused. What the host or a peer part answers is open: a free status and free data. -/
def State.lineRead (s : State) (ini : Ini) (first : Bool) (a : Nat) : State × Status × Line :=
  match s.reach ini first a false with
  | (s1, .ok) =>
    match s1.target a with
    | .rom o => (s1, .ok, lineOfBytes ((List.range 64).map (fun j => Config.romByte (o / 64 * 64 + j))))
    | .reservoir o v => State.bankServe (unitReq ini a o v false 0 0) s1.flitsLeft s1
    | .dram _ =>
      let s2 := State.drcDrain s1.flitsLeft s1
      if s2.lineHeld s2.drcQueue (a / 64) then ({ s2 with hold := s2.hold.or (some .net) }, .drowse, 0)
      else match s2.dramLine ini (a / 64 * 64) false 0 0 with
        | (u, st, d, _) => (u, st, d)
    | .window o => match s1.windowMiss ini o false with
      | (u, st) => (u, st, 0)
    | .host _ | .peer _ _ =>
      let (k, s2) := s1.freeNat 2
      let (d, s3) := s2.freeLine
      if k = 0 then (s3, .ok, d) else (s3, .slvErr, 0)
    | .unmapped => (s1, .decErr, 0)
  | (s1, st) => (s1, st, 0)

/-- The exchange that a unit's write to a line needs: some true when it may be performed, some false when the host has not answered in
time, none while it waits (R12, R443). An exchange that has ended is over with the write that it was for. -/
def State.biUnit (s : State) (ini : Ini) (line : Nat) : State × Option Bool :=
  let mine := s.drc.bi.find? (fun e => e.line == line && e.unit == some ini && e.ended.isSome)
  let done := { s with drc := { s.drc with bi := s.drc.bi.filter (fun e => some e != mine) } }
  match mine with
  | some e => (done, e.ended)
  | none => (s, if s.inFilter line then none else some true)

/-- Write the bytes of the line at `a` that `m` enables, none when refused. -/
def State.lineWrite (s : State) (ini : Ini) (first : Bool) (a : Nat) (d : Line) (m : BitVec 64) : State × Status :=
  match s.reach ini first a true with
  | (s1, .ok) =>
    match s1.target a with
    | .rom _ => (s1, .slvErr)
    | .reservoir o v => match State.bankServe (unitReq ini a o v true d m) s1.flitsLeft s1 with
      | (u, st, _) => (u, st)
    | .dram _ =>
      let s2 := State.drcDrain s1.flitsLeft s1
      if s2.lineHeld s2.drcQueue (a / 64) then ({ s2 with hold := s2.hold.or (some .net) }, .drowse)
      else match s2.biUnit ini (a / 64) with
        | (u, none) => ({ u with hold := u.hold.or (some (.line (a / 64) ini)) }, .drowse)
        | (u, some false) => (u, .slvErr)
        | (u, some true) => match u.dramLine ini (a / 64 * 64) true d m with
          | (w, st, _, _) => (w, st)
    | .window o => s1.windowMiss ini o true
    | .host _ | .peer _ _ => (s1, .ok)
    | .unmapped => (s1, .decErr)
  | (s1, st) => (s1, st)

/-- The pieces of a span of `n` bytes from `a`, line by line: the address and the length of each. -/
def linePieces (a n : Nat) : List (Nat × Nat) :=
  if n = 0 then [] else
  (List.range ((a + n - 1) / 64 - a / 64 + 1)).map (fun i =>
    let lo := if i = 0 then a else (a / 64 + i) * 64
    (lo, min (a + n) ((a / 64 + i + 1) * 64) - lo))

/-- The status of an access of several words: the first other than OK stands. -/
def firstBad (a b : Status) : Status := if a = .ok then b else a

/-- Read `n` bytes: each line by itself, zeros for one that is refused. -/
def State.memRead (s : State) (ini : Ini) (a n : Nat) : State × Status × List Byte :=
  (linePieces a n).foldl (fun (acc : State × Status × List Byte) p =>
    match acc.1.lineRead ini (p.1 == a) p.1 with
    | (u, st, d) => (u, firstBad acc.2.1 st, acc.2.2 ++ sliceBytes (bytesOf 64 d.toNat) (p.1 % 64) p.2)) (s, .ok, [])

/-- Write bytes: each line by itself. -/
def State.memWrite (s : State) (ini : Ini) (a : Nat) (l : List Byte) : State × Status :=
  (linePieces a l.length).foldl (fun (acc : State × Status) p =>
    match acc.1.lineWrite ini (p.1 == a) p.1 (BitVec.ofNat 512 (ofBytes (sliceBytes l (p.1 - a) p.2) * 2 ^ (8 * (p.1 % 64))))
        (BitVec.ofNat 64 ((2 ^ p.2 - 1) * 2 ^ (p.1 % 64))) with
    | (u, st) => (u, firstBad acc.2 st)) (s, .ok)

/-- DRAM_INIT_DONE: the zero-fill of the installed capacity completes (R287). -/
def dramInitDone (s : State) : State :=
  if s.drc.trained == 0xFF && !s.drc.init then
    (({ s with drc := { s.drc with init := true, marks := [] }, mem := tkeep (fun a => decide (a < dramBase)) s.mem }).raise (page .drc 0) 0)
  else s

/-- HV_RANGE_WRITE: DRC_HVBASE or DRC_HVSIZE (`size`), ignored with cmdig while en is 1, above 48 GiB or into the carve-out
(R288). -/
def hvRangeWrite (ini : Ini) (size : Bool) (val : Word) (s : State) : State :=
  let off := page .drc 0 + (if size then drcHvsize else drcHvbase)
  s.regGuard ini off (fun u =>
    let v := fld val 0 8
    let b := if size then u.hvBase else v
    let n := if size then v else u.hvSize
    if u.hvEn ∨ 192 < n ∨ u.dramBytes / 16 * 15 < (b + n) * 2 ^ 28 then u.raise (page .drc 0) 3
    else u.setReg off (BitVec.ofNat 32 v))

/-- The bytes of the host-visible range are zero. -/
def State.zeroHv (s : State) : State :=
  { s with mem := tkeep (fun a => !(decide (dramBase ≤ a) && s.inHv (a - dramBase))) s.mem
           drc := { s.drc with marks := tkeep (fun l => !s.inHv (64 * l - dramBase)) s.drc.marks } }

/-- A write of DRC_HVCTRL (R289, R290). -/
def State.hvctrlAct (s : State) (v : Word) : State :=
  let off := page .drc 0 + drcHvctrl
  if bit v 0 then
    if s.hvEn then s
    else (({ s with drc := { s.drc with clr := true, ready := false } }).zeroHv).setReg off 1
  else if s.hvEn then
    if s.hif.hdm.any (fun d => d.2.committed) then s.raise (page .drc 0) 3
    else ({ s with drc := { s.drc with clr := false, ready := false } }).setReg off 0
  else s

/-- HV_CLEAR: a write of 1 to DRC_HVCTRL.en. -/
def hvClear (ini : Ini) (val : Word) (s : State) : State :=
  s.regGuard ini (page .drc 0 + drcHvctrl) (fun u => u.hvctrlAct val)
/-- HV_DISABLE: a write of 0 to DRC_HVCTRL.en. -/
def hvDisable (ini : Ini) (val : Word) (s : State) : State :=
  s.regGuard ini (page .drc 0 + drcHvctrl) (fun u => u.hvctrlAct val)

/-- HV_CLEAR_DONE (R289). -/
def hvClearDone (s : State) : State :=
  if s.drc.clr then ({ s with drc := { s.drc with clr := false, ready := true } }).raise (page .drc 0) 2 else s

/-- DRC_STAT and DRC_HVSTAT; the progress of a running clear is a free value up to the range's size (R289). -/
def State.drcStat (s : State) : Word :=
  BitVec.ofNat 32 (b2n (s.drc.trained == 0xFF) + 2 * b2n s.drc.init + 4 * s.drc.trained.toNat)
/-- DRC_TRNc: a trained channel has passed with its link ECC on, at delays and a duty code that the spec leaves to the devices. -/
def State.drcTrnWord (s : State) (c : Nat) : Word :=
  if bit s.drc.trained c then BitVec.ofNat 32 ((Config.free (s.drc.trn + c)).toNat % 2 ^ 24 + 3 * 2 ^ 24) else 0
def State.drcHvstatWord (s : State) : Word :=
  BitVec.ofNat 32 (b2n s.drc.clr + 2 * b2n s.drc.ready + 2 ^ 8 * (if s.drc.clr then (Config.free s.fresh).toNat % (s.hvSize + 1)
    else if s.drc.ready then s.hvSize else 0))

/-! ### The commands -/

/-- BANK_ACCESS (R273). A reservoir bank performs its highest-priority presented request. -/
def execBankAccess (b : RBank) (s : State) : Out :=
  .next (s.gate (bankAccess b.val s))

/-- BANK_HANDOVER (R278). A write to RSV_BHAND requests a bank handover, judged and accepted or refused. -/
def execBankHandover (ini : Ini) (val : Word) (s : State) : Out :=
  .next (s.gate (bankHandover ini val s))

/-- SECURE_WIPE (R281). A tamper or life-cycle change starts the wipe of the secure banks. -/
def execSecureWipe (cause : WipeCause) (s : State) : Out :=
  .next (s.gate (secureWipe cause s))

/-- SECURE_WIPE_DONE (R281). The secure-bank wipe completes and swdone is set. -/
def execSecureWipeDone (s : State) : Out :=
  .next (s.gate (secureWipeDone s))

/-- RESERVOIR_WIPE_DONE (R282). The full reservoir wipe completes. -/
def execReservoirWipeDone (s : State) : Out :=
  .next (s.gate (reservoirWipeDone s))

/-- DRAM_ACCESS (R286). The DRC serves a DRAM read or write with check-word verification. -/
def execDramAccess (k : TxnKey) (err : DramErr) (s : State) : Out :=
  .next (s.gate (dramAccess k err s))

/-- DRAM_INIT_DONE (R287). The post-training zero-fill completes and DRC_STAT.init is set. -/
def execDramInitDone (s : State) : Out :=
  .next (s.gate (dramInitDone s))

/-- HV_RANGE_WRITE (R288). A write to DRC_HVBASE or DRC_HVSIZE sets the host-visible range or is ignored. -/
def execHvRangeWrite (ini : Ini) (size : Bool) (val : Word) (s : State) : Out :=
  .next (s.gate (hvRangeWrite ini size val s))

/-- HV_CLEAR (R289). A write of 1 to DRC_HVCTRL.en starts the pre-exposure clear. -/
def execHvClear (ini : Ini) (val : Word) (s : State) : Out :=
  .next (s.gate (hvClear ini val s))

/-- HV_CLEAR_DONE (R289). The pre-exposure clear ends and hvready is set. -/
def execHvClearDone (s : State) : Out :=
  .next (s.gate (hvClearDone s))

/-- HV_DISABLE (R290). A write of 0 to DRC_HVCTRL.en makes the range device-private when no decoder is committed. -/
def execHvDisable (ini : Ini) (val : Word) (s : State) : Out :=
  .next (s.gate (hvDisable ini val s))

end Sys2Proof.Machine
end

