-- ==== Sys2Proof/Machine/Loads.lean ====
section
/-!
DEFINITION. Configuration loading (chapter 6): opening and pushing a stream, the check of each part, authentication and
analysis, applying a load, interruptions and sessions; and the region commands after which a waiting load goes on.
-/
namespace Sys2Proof.Machine

/-- Update the loader. -/
def State.modFcc (s : State) (f : Fcc → Fcc) : State := { s with fcc := f s.fcc }

/-! ### The staged stream -/

/-- `n`-byte little-endian number at stream position `p`. -/
def State.strm (s : State) (p n : Nat) : Nat := s.memNat (bankAddr s.fcc.base + p) n
/-- `n` bytes at stream position `p`. -/
def State.strmBytes (s : State) (p n : Nat) : List Byte := s.bytesAt (bankAddr s.fcc.base + p) n

/-- Header fields (R122, R123). -/
def State.hRegions (s : State) : Nat := s.strm 0x10 4
def State.hContexts (s : State) : Nat := s.strm 0x14 1
def State.hShadow (s : State) : Bool := nfld (s.strm 0x0C 4) 0 1 == 1
def State.hKeep (s : State) : Bool := nfld (s.strm 0x0C 4) 1 1 == 1
def State.hTmkeep (s : State) : Bool := nfld (s.strm 0x0C 4) 2 1 == 1
def State.hSecver (s : State) : Nat := s.strm 0x18 4
def State.hBodylen (s : State) : Nat := s.strm 0x1C 4
def State.hNframe (s : State) : Nat := s.strm 0x20 4
def State.hNmem (s : State) : Nat := s.strm 0x24 4

/-- The target regions, ascending. -/
def State.targets (s : State) : List Nat := (List.range 24).filter (fun r => nfld s.hRegions r 1 == 1)
/-- Tile-context (t, c) lies in the target set (R123). -/
def State.inTarget (s : State) (t c : Nat) : Bool := nfld s.hRegions (t / 256) 1 == 1 && nfld s.hContexts c 1 == 1

/-- Bytes of the staging area. -/
def State.stageBytes (s : State) : Nat := s.fcc.nbank * 0x40000
/-- Stream offset of the trailer (R127). -/
def State.trailerAt (s : State) : Nat := 256 + s.hBodylen
/-- ttype, keyidx, sid and tlen of the trailer (R127). -/
def State.tType (s : State) : Nat := s.strm s.trailerAt 1
def State.tKeyidx (s : State) : Nat := s.strm (s.trailerAt + 1) 1
def State.tSid (s : State) : Nat := s.strm (s.trailerAt + 2) 2
def State.tLen (s : State) : Nat := s.strm (s.trailerAt + 4) 4
/-- Total length of the stream (R127). -/
def State.totalLen (s : State) : Nat := s.trailerAt + 8 + s.tLen

/-- D: SHAKE256 of header and body (R128). -/
def State.streamDigest (s : State) : BitVec 512 := shake256 (s.strmBytes 0 s.trailerAt)

/-- ASCII "EZSKEIN" and "EZSKEIN-SESSION" (R128, R129, R143). -/
def skeinStr : List Byte := ascii [0x45, 0x5A, 0x53, 0x4B, 0x45, 0x49, 0x4E]
def sessionStr : List Byte := skeinStr ++ ascii [0x2D, 0x53, 0x45, 0x53, 0x53, 0x49, 0x4F, 0x4E]

/-- The tag of the staged stream under the session key (R129). -/
def State.streamTag (s : State) : BitVec 512 := kmac256 512 (bytesOf 32 s.fcc.ks.toNat) (s.strmBytes 0 s.trailerAt) skeinStr

/-! ### End of a load -/

/-- The loader returns to IDLE; no region presents a load's cost any more (R137). -/
def State.loaderIdle (s : State) : State :=
  let s1 := s.modFcc (fun f => { f with
    lstate := 0, filled := [], fixed := false, lastF := none, lastM := none, auth := none, ana := none, todo := [], cur := none, binds := false })
  { s1 with fab := { s1.fab with rgn := tmap {} (fun _ => true) (fun _ g => { g with pcost := 0 }) s1.fab.rgn } }

/-- FCC_LTIME of a load that reached VERIFY: times are not modelled, the value is free (R146). -/
def State.loadTime (s : State) : State :=
  if s.fcc.lstate < 2 then s
  else
    let (v, s1) := s.freeNat (2 ^ 32)
    s1.setReg (fccPg + fccLtime) (BitVec.ofNat 32 v)

/-- The load ends with a code other than OK (R145): LRES, LREC and, where a frame is at fault, LLOC report it. -/
def State.loadFail (s : State) (code sub rec_ : Nat) (loc : Option Nat) : State :=
  let s1 := s.loadTime.setReg (fccPg + fccLres) (BitVec.ofNat 32 (code + 2 ^ 8 * s.fcc.lstate + 2 ^ 16 * sub))
  let s2 := s1.setReg (fccPg + fccLrec) (BitVec.ofNat 32 rec_)
  let s3 := match loc with
    | some l => s2.setReg (fccPg + fccLloc) (BitVec.ofNat 32 l)
    | none => s2
  ((s3.loaderIdle.modFcc (fun f => { f with sigOk := false })).countUp (fccPg + fccLcnt) 16 16 1).raise fccPg 3

/-- A failure that concerns no record. -/
def State.loadEnd (s : State) (code : Nat) : State := s.loadFail code 0 0xFFFFFF none

/-- FCC_LLOC of tile `t`, context `c`. -/
def llocOf (t c : Nat) : Nat := tileX t + 2 ^ 8 * tileY t + 2 ^ 16 * c

/-! ### Opening and pushing (R130 to R133) -/

/-- A command or aperture write that is ignored sets cmdig. -/
def State.fccIgnore (s : State) : State := s.raise fccPg 6

/-- An open from the aperture or the SPI port: the staging banks must be the FCC's and not secure (R130, R133). -/
def State.fccOpen (s : State) (spi : Bool) : State :=
  if s.fcc.lstate ≠ 0 then s.fccIgnore
  else
    let w := s.reg (fccPg + fccStgcfg)
    let base := fld w 0 8
    let nb := fld w 8 8
    let s1 := s.modFcc (fun f => { f with
      lstate := 1, spi := spi, base := base, nbank := nb, filled := [], h := 0, part := 0, pos := 0, fixed := false
      lastF := none, lastM := none, auth := none, ana := none, todo := [], cur := none, binds := false })
    let s2 := (((s1.setReg (fccPg + fccLres) 0xFF).setReg (fccPg + fccLrec) 0xFFFFFF).setReg (fccPg + fccLlen) 0).setReg
      (fccPg + fccLdone) 0
    if (List.range nb).all (fun i => s.bankOwner (base + i) == 0x31 && decide (base + i < 240)) then s2
    else s2.loadEnd 0x25

/-- The FCC can read its staging banks: their NIs answer, and the reservoir is not being wiped (R11, R282). -/
def State.stagingOpen (s : State) : Bool :=
  !s.rsvr.wipe && (List.range s.fcc.nbank).all (fun i => s.netStatus 0x31 (bankAddr (s.fcc.base + i)) false == .ok)

/-- What the FCC does with the staged stream, once it can read it. -/
def State.withStaging (s : State) (f : State → State) : State := if s.stagingOpen then f s else { s with hold := some .net }

/-- Advance h over filled slots (R131). -/
def fccAdvanceH : Nat → Fcc → Fcc
  | 0, f => f
  | n + 1, f => if tget false f.filled (f.h / 8) then fccAdvanceH n { f with filled := tdel f.filled (f.h / 8), h := f.h + 8 } else f

/-- Eight bytes arrive at stream position `p` (R131). DESIGN CHOICE: before the total length stands, bytes beyond the staging area count
as pushed and are stored nowhere; the trailer header then ends the load with TOOLONG (R134). A reservoir that does not answer leaves
them with their sender. -/
def State.stage8 (s : State) (p : Nat) (l : List Byte) : State :=
  if s.fcc.fixed && decide ((s.reg (fccPg + fccLlen)).toNat ≤ p) then s.loadEnd 0x07
  else
    let (s1, st) := if p + 8 ≤ s.stageBytes then s.memWrite 0x31 (bankAddr s.fcc.base + p) l else (s, Status.ok)
    if st = .drowse ∨ st = .dead then { s with hold := some .net } else
    s1.modFcc (fun f => let g := { f with filled := tset false f.filled (p / 8) true }; fccAdvanceH (g.filled.length) g)

/-- APERTURE_PUSH (R131, R33, R506): the position follows h as it stands when the write arrives. -/
def aperturePush (ini : Ini) (a len : Nat) (data : DWord) (s : State) : State :=
  let off := 0x1000000 + a
  if len ≠ 8 ∨ a % 8 ≠ 0 then (s.violate fccPg 0 ini off true).answer .slvErr 0
  else if !s.mayWrite ini fccPg then (s.violate fccPg 1 ini off true).answer .ok 0
  else if s.fcc.lstate = 1 ∧ s.fcc.spi = false then
    let p := s.fcc.h + (a + 0x100000 - s.fcc.h % 0x100000) % 0x100000
    (s.stage8 p (bytesOf 8 data.toNat)).answer .ok 0
  else s.fccIgnore.answer .ok 0

/-- APERTURE_PUSH, as its initiator sees it. -/
def aperturePushCmd (ini : Ini) (a len : Nat) (data : DWord) (s : State) : State := (aperturePush ini a len data s).hostSees ini

/-- FCC_SPICFG.en (R132). -/
def State.spiOn (s : State) : Bool := bit (s.reg (fccPg + fccSpicfg)) 0

/-- SPI_OPEN. -/
def spiOpen (s : State) : State := if s.spiOn then s.fccOpen true else s

/-- Eight bytes at a time of an SPI PUSH, while the stream goes on. -/
def State.stageMany (s : State) (p : Nat) : List (List Byte) → State
  | [] => s
  | l :: t => if s.fcc.lstate = 1 then (s.stage8 p l).stageMany (p + 8) t else s

/-- SPI_PUSH: bytes at a position in the window above h, a multiple of 8 of them; any other PUSH ends the stream (R132). DESIGN CHOICE: a
PUSH while the SPI port is not the source of a stream in STAGING is ignored and sets cmdig. -/
def spiPush (p : Nat) (l : List Byte) (s : State) : State :=
  if !s.spiOn then s
  else if s.fcc.lstate = 1 ∧ s.fcc.spi then
    if p % 8 = 0 ∧ l.length % 8 = 0 ∧ s.fcc.h ≤ p ∧ p < s.fcc.h + 0x100000 then
      s.stageMany p ((List.range (l.length / 8)).map (fun i => (l.drop (8 * i)).take 8))
    else s.loadEnd 0x14
  else s.fccIgnore

/-! ### Checks of the parts (R134, R145) -/

/-- Some byte of the list is not zero. -/
def anyNonzero (l : List Byte) : Bool := l.any (fun b => b != 0)

/-- The codes that the header fails (R121 to R123, R134). -/
def State.headerCodes (s : State) : List Nat :=
  let at_ := fun (c : Nat) (b : Bool) => if b then [c] else []
  at_ 0x01 (s.strm 0 4 != 0x4B535A45) ++
  at_ 0x02 (s.strm 4 2 != 1 || s.strm 6 2 != 0x100) ++
  at_ 0x03 (s.strm 8 2 != 0x0E08 || decide (fld Config.silRev 8 8 < s.strm 0x0A 1)) ++
  at_ 0x04 (s.strm 0x0B 1 != 0 || s.strm 0x0C 4 / 8 != 0 || s.hRegions / 2 ^ 24 != 0 || s.strm 0x15 3 != 0
    || anyNonzero (s.strmBytes 0x38 200)) ++
  at_ 0x05 (decide (s.stageBytes < 256 + s.hBodylen + 72)) ++
  at_ 0x06 (s.hRegions % 2 ^ 24 == 0 || s.hContexts == 0
    || (s.hShadow && (s.targets.length != 1 || s.hNmem != 0 || s.hTmkeep))) ++
  at_ 0x0D (decide (s.hSecver < s.fuses.sksvn)) ++
  at_ 0x0E (s.lcState == 0 || s.lcState == 5) ++
  at_ 0x13 (s.hBodylen % 8 != 0)

/-- A record at stream position `p` (R124, R125): type and tile. -/
def State.recType (s : State) (p : Nat) : Nat := s.strm p 1
def State.recX (s : State) (p : Nat) : Nat := nfld (s.strm p 4) 8 7
def State.recY (s : State) (p : Nat) : Nat := nfld (s.strm p 4) 16 6
def State.recCtx (s : State) (p : Nat) : Nat := nfld (s.strm p 4) 24 3
def State.recTile (s : State) (p : Nat) : Nat := tileAt (s.recX p) (s.recY p)
def State.recStart (s : State) (p : Nat) : Nat := nfld (s.strm (p + 4) 4) 0 10
def State.recCount (s : State) (p : Nat) : Nat := nfld (s.strm (p + 4) 4) 10 11
/-- Size of the record at `p` (R124, R125); a record of unknown type is judged on its first 8 bytes. -/
def State.recSize (s : State) (p : Nat) : Nat :=
  match s.recType p with
  | 1 => 136
  | 2 => 8 + (4 * s.recCount p + 7) / 8 * 8
  | _ => 8

/-- The frame payload of the record at `p` as one number (R66). -/
def State.recFrame (s : State) (p : Nat) : Nat := s.strm (p + 8) 128

/-- Codes, each with its frame word, that record `i` at `p` fails (R124 to R126, R73). -/
def State.recCodes (s : State) (i p : Nat) : List (Nat × Nat) :=
  let at_ := fun (c : Nat) (b : Bool) => if b then [(c, 0)] else []
  let w0 := s.strm p 4
  let beyond := decide (s.trailerAt < p + s.recSize p) || decide (s.hNframe + s.hNmem ≤ i)
  match s.recType p with
  | 1 =>
    let key := s.recTile p / 256 * 2048 + s.recCtx p * 256 + s.recTile p % 256
    let inSet := decide (s.recX p < 96) && s.inTarget (s.recTile p) (s.recCtx p)
    at_ 0x04 (nfld w0 15 1 != 0 || nfld w0 22 2 != 0 || nfld w0 27 5 != 0 || s.strm (p + 4) 4 != 0) ++
    at_ 0x11 (!inSet) ++
    at_ 0x12 (s.fcc.lastM.isSome || (match s.fcc.lastF with
      | some k => decide (key ≤ k)
      | none => false)) ++
    at_ 0x13 (beyond || (decide (s.hNframe ≤ i) && s.fcc.lastM.isNone)) ++
    (match frameFault (s.recFrame p) with
      | some q => [q]
      | none => [])
  | 2 =>
    let t := s.recTile p
    let n := s.recCount p
    at_ 0x04 (nfld w0 15 1 != 0 || nfld w0 22 10 != 0 || nfld (s.strm (p + 4) 4) 21 11 != 0
      || (n % 2 == 1 && s.strm (p + 8 + 4 * n) 4 != 0)) ++
    at_ 0x11 (decide (96 ≤ s.recX p) || nfld s.hRegions (t / 256) 1 != 1 || n == 0 || decide (1024 < s.recStart p + n)) ++
    at_ 0x12 (match s.fcc.lastM with
      | some (k, e) => decide (t < k) || (t == k && decide (s.recStart p < e))
      | none => false) ++
    at_ 0x13 (beyond || decide (i < s.hNframe))
  | _ => [(0x10, 0)]

/-- The entry with the lowest code. -/
def lowestCode : List (Nat × Nat) → Option (Nat × Nat)
  | [] => none
  | a :: t => match lowestCode t with
    | none => some a
    | some b => if b.1 < a.1 then some b else some a

/-- The trailer header's code, in its fixed order, 0 when it passes (R134). -/
def State.trailerCode (s : State) : Nat :=
  let sig := s.tType == 1
  let okForm := (sig && s.tLen == 3312 && s.tSid == 0) || (s.tType == 2 && s.tLen == 64 && s.tKeyidx == 0)
  if !okForm then 0x08
  else if s.stageBytes < s.totalLen then 0x05
  else if s.totalLen < s.fcc.h ∨ s.fcc.filled.any (fun e => decide (s.totalLen ≤ 8 * e.1)) then 0x07
  else if sig then
    match s.keyRef s.tKeyidx with
    | .missing => 0x09
    | .revoked => 0x0A
    | .key _ => 0
  else if s.fcc.sess && s.tSid == (s.reg (fccPg + fccSess)).toNat then 0 else 0x0C

/-- The next record is judged. -/
def State.judgeRecord (s : State) : State :=
  let p := s.fcc.pos
  let i := s.fcc.part - 1
  match lowestCode (s.recCodes i p) with
  | some (c, w) =>
    s.loadFail c (if c = 0x18 ∨ c = 0x19 then w else 0) i
      (if s.recType p = 1 ∧ (c = 0x18 ∨ c = 0x19) then some (llocOf (s.recTile p) (s.recCtx p)) else none)
  | none =>
    let t := s.recTile p
    s.modFcc (fun f => { f with
      part := f.part + 1, pos := p + s.recSize p
      lastF := if s.recType p = 1 then some (t / 256 * 2048 + s.recCtx p * 256 + t % 256) else f.lastF
      lastM := if s.recType p = 2 then some (t, s.recStart p + s.recCount p) else f.lastM })

/-- STREAM_PART_HASHED: the next part lies below h: it is hashed and judged (R134). -/
def streamPartHashed (s : State) : State :=
  if s.fcc.lstate ≠ 1 ∨ s.fcc.fixed then s
  else if !s.stagingOpen then { s with hold := some .net }
  else if s.fcc.part = 0 then
    if s.fcc.h < 256 then s
    else match leastOf s.headerCodes with
      | some c => s.loadEnd c
      | none => s.modFcc (fun f => { f with part := 1, pos := 256 })
  else if s.fcc.pos < s.trailerAt then
    if s.fcc.h < s.fcc.pos + 8 ∨ s.fcc.h < s.fcc.pos + s.recSize s.fcc.pos then s else s.judgeRecord
  else if s.fcc.part - 1 < s.hNframe + s.hNmem then s.loadFail 0x13 0 (s.fcc.part - 1) none
  else if s.fcc.h < s.trailerAt + 8 then s
  else
    let c := s.trailerCode
    let s1 := if c = 0x08 then s else s.setReg (fccPg + fccLlen) (BitVec.ofNat 32 s.totalLen)
    if c ≠ 0 then s1.loadEnd c else s1.modFcc (fun f => { f with fixed := true })

/-! ### The frames after the load -/

/-- Stream position of the frame record of tile-context (t, c). -/
def State.frameRec (s : State) (t c : Nat) : Option Nat :=
  ((List.range s.hNframe).map (fun i => 256 + 136 * i)).find? (fun p => s.recTile p == t && s.recCtx p == c)

/-- Frame of tile `t`, context `c` as the load leaves it (R123). -/
def State.frameAfter (s : State) (t c : Nat) : Nat :=
  if s.inTarget t c then
    match s.frameRec t c with
    | some p => s.recFrame p
    | none => if s.hKeep then s.frame t c else 0
  else s.frame t c

/-- The budget of region `r`'s last accepted FRGn_OPSEL, which the register holds (R117, R136). R93 names the budget of the point in
effect, FRGn_CHAIN.budget: DEDUCED, the load is judged by R136's, which differs while an accepted change waits. -/
def State.selBudget (s : State) (r : Nat) : Nat := s.opBudget (opPoint (s.reg (frgPage r + frgOpsel)))

/-- The analysis of the target regions in ascending order; it stops at the first failure (R136). -/
def State.analyseTargets (s : State) : List Nat → Option (Nat × Finding)
  | [] => none
  | r :: t =>
    match analyse r (s.selBudget r) (fun l c => s.frameAfter (256 * r + l) c) with
    | some x => some (r, x)
    | none => s.analyseTargets t

/-- The cost that each target region would have is presented to the PMU (R137). -/
def State.presentCosts (s : State) : State :=
  s.targets.foldl (fun u r => u.modRgn r (fun g => { g with pcost := chainCost r (fun l c => s.frameAfter (256 * r + l) c) })) s

/-! ### Apply (R139) -/

/-- Store a frame: its 32 words, with check cells that match it (R147). -/
def State.setFrame (s : State) (t c f : Nat) : State :=
  let s1 := (List.range 32).foldl (fun u w =>
    { u with fab := { u.fab with frames := tset 0 u.fab.frames ((8 * t + c) * 32 + w) (BitVec.ofNat 32 (nfld f (32 * w) 32)) } }) s
  { s1 with fab := { s1.fab with checks := tdel s1.fab.checks (8 * t + c) } }

/-- Step 5 for one context of the target set: the frames of region `r`. -/
def State.writeContext (s : State) (r c : Nat) : State :=
  ((List.range 256).foldl (fun v l => v.setFrame (256 * r + l) c (s.frameAfter (256 * r + l) c)) s).pulse 4 0 3

/-- Step 5: the target set's frames of region `r`, in the order of R126; a shadow load has written the contexts whose loading bit is
clear. -/
def State.writeFrames (s : State) (r : Nat) : State :=
  (List.range 8).foldl (fun u c =>
    if nfld s.hContexts c 1 = 1 ∧ (!s.hShadow || bit (s.rgn r).loading c) = true then u.writeContext r c else u) s

/-- The shadow load that writes region `r` has written its contexts up to `n`: at the edge after a context's last frame its loading bit
clears (R104). -/
def State.shadowUpTo (s : State) (r n : Nat) : State :=
  if s.fcc.lstate == 3 && s.hShadow && s.fcc.cur == some r then
    (List.range (n + 1)).foldl (fun u c =>
      if bit (u.rgn r).loading c then (u.writeContext r c).modRgn r (fun g => { g with loading := putBit g.loading c false }) else u) s
  else s

/-- Positions of the tile-memory records. -/
def State.memRecs (s : State) : Nat → Nat → List Nat
  | 0, _ => []
  | n + 1, p => p :: s.memRecs n (p + s.recSize p)

/-- Step 6: the tile-memory records of region `r`. -/
def State.writeTileMem (s : State) (r : Nat) : State :=
  ((s.memRecs s.hNmem (256 + 136 * s.hNframe)).filter (fun p => s.recTile p / 256 == r)).foldl (fun u p =>
    (List.range (s.recCount p)).foldl (fun v i => v.modTile (s.recTile p) (fun T =>
      { T with mem := tset 0 T.mem (s.recStart p + i) (BitVec.ofNat 32 (s.strm (p + 8 + 4 * i) 4)) })) u) s

/-- Step 4: the tile memory of region `r` is zero. -/
def State.clearTileMem (s : State) (r : Nat) : State :=
  { s with codec := tset {} s.codec r {}
           fab := { s.fab with tiles := tmap {} (ofRegionTile r) (fun _ T => { T with mem := [] }) s.fab.tiles } }

/-- A region that a reset load may write now (R139 step 2). -/
def State.loadable (s : State) (r : Nat) : Bool :=
  ((s.rgn r).st == .empty || (s.rgn r).st == .ready) && !s.fcc.bulk.contains r

/-- A region that step 1 of R139 waits for: in CASTON until RUN, in BINDOFF until READY. -/
def State.inTransit (s : State) (r : Nat) : Bool := (s.rgn r).st == .caston || (s.rgn r).st == .bindoff

/-- Step 2 of R139: every target region that runs begins its bind-off. -/
def State.bindTargets (s : State) : State :=
  (s.fcc.todo.foldl (fun u r => if (u.rgn r).st == .run then u.beginBindoff r else u) s).modFcc (fun f => { f with binds := true })

/-- A reset load goes on (R139): it waits for the target regions in CASTON and BINDOFF, then binds off every one that runs, in one cycle
and again whenever one is cast on; once every region still to be written is EMPTY or READY the lowest of them enters LOADING, with its
tile memory cleared unless tmkeep (steps 1 to 4). -/
def State.loadGoesOn (s : State) : State :=
  if s.fcc.lstate = 3 ∧ s.fcc.cur = none ∧ s.hShadow = false then
    if !s.fcc.binds && s.fcc.todo.any (fun r => s.inTransit r) then s else
    let s1 := s.bindTargets
    match s1.fcc.todo with
    | [] => s1
    | r :: _ =>
      if s1.fcc.todo.all (fun n => s1.loadable n) then
        let s2 := (s1.modRgn r (fun g => { g with st := .loading })).modFcc (fun f => { f with cur := some r })
        if s.hTmkeep then s2 else s2.clearTileMem r
      else s1
  else s

/-- VERIFY has passed: APPLY begins (R139 step 1). -/
def State.applyStart (s : State) : State :=
  let s0 := (s.modFcc (fun f => { f with lstate := 3, todo := s.targets })).raise fccPg 1
  -- an armed capture that names a target ends (R163)
  let s1 := if fld (s.reg (page .fcc 2 + fccCapstat)) 0 3 = 1 ∧ s.targets.any (fun r => bit s.integ.capRgn r) then
      s0.captureEnd 2 else s0
  if s.hShadow then s1
  else if s.targets.any (fun r => (s.rgn r).st == .off || (s.rgn r).st == .frozen) then s1.loadEnd 0x20
  else s1.loadGoesOn

/-- VERIFY ends when authentication and analysis have both finished; a failed authentication is reported first (R136). DESIGN CHOICE:
a finding that names no single frame leaves free values in the fields of FCC_LLOC, whose reserved bits read zero (R146). -/
def State.verifyEnd (s : State) : State :=
  match s.fcc.auth, s.fcc.ana with
  | some a, some n =>
    if !a then s.loadEnd (if s.tType = 1 then 0x0B else 0x0C)
    else match n with
      | some x =>
        match x.frame with
        | some (c, t) => s.loadFail x.code x.sub 0xFFFFFF (some (llocOf t c))
        | none =>
          let (v, s1) := s.freeNat (2 ^ 19)
          s1.loadFail x.code x.sub 0xFFFFFF (some (Nat.land v 0x73F7F))
      | none => s.applyStart
  | _, _ => s

/-- STREAM_COMPLETE: h has reached the total length: VERIFY, staged; a tag is compared at once, against the session that is
open then, and a mismatch ends the session (R135, R137, R144, R145). -/
def streamComplete (s : State) : State :=
  if s.fcc.lstate = 1 ∧ s.fcc.fixed ∧ s.fcc.h = s.totalLen then s.withStaging (fun s =>
    -- the pad bytes behind a signature are part of the stream and must be zero (R121, R127)
    if s.tType = 1 ∧ anyNonzero (s.strmBytes (s.trailerAt + 8 + 3309) 3) then s.loadEnd 0x04
    else
      let ok := s.fcc.sess && s.tSid == (s.reg (fccPg + fccSess)).toNat &&
        s.streamTag == BitVec.ofNat 512 (s.strm (s.trailerAt + 8) 64)
      let s1 := (s.modFcc (fun f => { f with
        lstate := 2, auth := if s.tType = 2 then some ok else none, ana := none })).raise fccPg 0
      (if s.tType = 2 ∧ ok = false then s1.endSession else s1).presentCosts)
  else s

/-- SIGNATURE_VERIFIED: the engine's verdict on the signature over D (R128, R135). -/
def signatureVerified (s : State) : State :=
  if s.fcc.lstate = 2 ∧ s.tType = 1 ∧ s.fcc.auth = none then s.withStaging (fun s =>
    let ok := match s.keyRef s.tKeyidx with
      | .key k => Config.mldsaVerify k (digestBytes s.streamDigest) skeinStr (s.strmBytes (s.trailerAt + 8) 3309)
      | _ => false
    (s.modFcc (fun f => { f with auth := some ok })).verifyEnd)
  else s

/-- ROUTING_ANALYSIS_DONE (R136). -/
def routingAnalysisDone (s : State) : State :=
  if s.fcc.lstate = 2 ∧ s.fcc.ana = none then s.withStaging (fun s =>
    let x := (s.analyseTargets s.targets).map (fun p => { p.2 with frame := p.2.frame.map (fun q => (q.1, 256 * p.1 + q.2)) })
    (s.modFcc (fun f => { f with ana := some x })).verifyEnd)
  else s

/-- A target context of the shadow load is selected, or active in an override tile (R104). -/
def State.shadowBusy (s : State) (r : Nat) : Bool :=
  nfld s.hContexts (s.rgn r).sel 1 == 1 ||
  (List.range 256).any (fun l => (List.range 8).any (fun c => fOvr (s.frame (256 * r + l) c)) &&
    nfld s.hContexts (s.ctxOf (256 * r + l)) 1 == 1)

/-- SHADOW_LOAD_START: at the region's edge the loading bits are set, or the load is refused (R104, R139). -/
def shadowLoadStart (s : State) : State :=
  match s.fcc.todo with
  | [] => s
  | r :: _ =>
    if s.fcc.lstate = 3 ∧ s.hShadow ∧ s.fcc.cur = none then
      if (s.rgn r).st ≠ .run then s.loadEnd 0x20
      else if s.shadowBusy r then s.loadEnd 0x21
      else (s.modRgn r (fun g => { g with loading := BitVec.ofNat 8 s.hContexts })).modFcc (fun f => { f with cur := some r })
    else s

/-- Frames of region `r` as the analysis reads them. -/
def State.regionFrames (s : State) (r : Nat) : Nat → Nat → Nat := fun l c => s.frame (256 * r + l) c

/-- The load ends with OK (R139, R143, R144): the digest, the skein measurement, the published tag. -/
def State.loadOk (s : State) : State :=
  let d := s.streamDigest
  let sig := s.tType == 1
  let s0 := s.loadTime
  let id := if sig then [BitVec.ofNat 8 s.tKeyidx] else bytesOf 2 s.tSid
  let m := shake256 (digestBytes s.sec.chain ++ digestBytes d ++ [BitVec.ofNat 8 s.tType] ++ id ++ bytesOf 4 s.hSecver
    ++ bytesOf 4 s.hRegions)
  let s1 := ({ s0 with sec := { s0.sec with chain := m } }).setFcc16 fccDigest d
  let s2 := if s.fcc.sess && sig then (s1.setFcc16 fccTag s.streamTag).modFcc (fun f => { f with tagval := true }) else s1
  let s3 := ((s2.setReg (fccPg + fccLres) 0).setReg (fccPg + fccLrec) 0xFFFFFF).loaderIdle
  ((s3.modFcc (fun f => { f with sigOk := sig, okSvn := some s.hSecver })).countUp (fccPg + fccLcnt) 0 16 1).raise fccPg 2

/-- REGION_SEAL: the region's frames and tile-memory records stand, and the FCC seals it (R139 steps 5 to 7, R93, R97): cost,
loaded bits, READY for a reset load with cast-on at once under autocast; then the next region, or the end of the load. -/
def regionSeal (s : State) : State :=
  match s.fcc.cur with
  | none => s
  | some r => s.withStaging (fun s =>
    let s1 := s.writeFrames r
    let s2 := if s.hShadow then s1 else s1.writeTileMem r
    let s3 := s2.modRgn r (fun g => { g with
      cost := chainCost r (s2.regionFrames r)
      loaded := g.loaded ||| BitVec.ofNat 8 s.hContexts
      loading := 0
      st := if s.hShadow then g.st else .ready })
    let s4 := ((s3.modReg (fccPg + fccLdone) (fun w => setBit w r)).raise fccPg 4).modFcc (fun f =>
      { f with cur := none, todo := f.todo.tail })
    let s5 := if s.hShadow then s4
      else
        let u := s4.raise (frgPage r) 1
        if bit (u.seqcfg r) 16 then u.castStart r else u
    if s5.fcc.todo.isEmpty then s5.loadOk else s5.loadGoesOn)

/-! ### Interruptions (R141) -/

/-- Region `r` goes to EMPTY and in reset, its hold cleared with RUN (R154), and its bulk clear starts; what its crossings and headgates
hold is discarded. -/
def State.emptyRegion (s : State) (r : Nat) : State :=
  let s1 := (((((s.leaveRun r).captureReset r).dropHg r).dropXing r).resetTiles r).foutPark r
  (s1.modRgn r (fun g => { g with
    st := .empty, offReq := false, stage := 0, loaded := 0, loading := 0, cost := 0, parked := false, stall := none, regReq := none
    sigReq := none, first := false, lines := []
    hg := tmap {} (fun _ => true) (fun _ h => { ({} : Headgate) with cfg := h.cfg }) g.hg })).modFcc
    (fun f => { f with bulk := r :: f.bulk.filter (fun x => x != r) })

/-- A load in APPLY ends with `code`; every target region that stays powered is emptied. -/
def State.applyAbort (s : State) (code : Nat) (except : Option Nat) : State :=
  let rs := s.targets.filter (fun r => some r != except && (s.rgn r).st != .off)
  (rs.foldl (fun u r => u.emptyRegion r) s).loadEnd code

/-- Region `r` is a target of a load in APPLY. -/
def State.applyTarget (s : State) (r : Nat) : Bool := s.fcc.lstate == 3 && nfld s.hRegions r 1 == 1

/-- BULK_CLEAR_DONE: every frame and tile-memory word of the region is zero; a later load that waited goes on. -/
def bulkClearDone (r : Nat) (s : State) : State :=
  if s.fcc.bulk.contains r then
    ((s.wipeRegion r).modFcc (fun f => { f with bulk := f.bulk.filter (fun x => x != r) })).loadGoesOn
  else s

/-- An abort by a permitted writer, or by the SPI port (R141). -/
def State.fccAbort (s : State) (byLevee : Bool) : State :=
  match s.fcc.lstate with
  | 0 => s.fccIgnore
  | 3 => if byLevee then s.applyAbort 0x22 none else s.fccIgnore
  | _ => s.loadEnd 0x23

/-- SPI_ABORT. -/
def spiAbort (s : State) : State := if s.spiOn then s.fccAbort false else s

/-- FCC_STAT (R146). -/
def State.fccStatWord (s : State) : Word :=
  BitVec.ofNat 32 (s.fcc.lstate + 2 ^ 3 * b2n s.fcc.spi + 2 ^ 4 * b2n s.fcc.sess + 2 ^ 5 * b2n s.fcc.tagval
    + 2 ^ 8 * s.fcc.cur.getD 0)

/-- SPI_STATUS answers FCC_STAT and FCC_LRES (R132). -/
def spiStatus (s : State) : State :=
  if s.spiOn then s.answer .ok ((s.reg (fccPg + fccLres)).zeroExtend 64 <<< 32 ||| (s.fccStatWord).zeroExtend 64) else s

/-- SPI_ID answers FCC_ID (R132, R28). -/
def spiId (s : State) : State :=
  if s.spiOn then s.answer .ok 0x01000010 else s

/-! ### Sessions (R143, R144) -/

/-- A write of 1 to FCC_CTRL.sessopen (R143). An open session is replaced: it ends first. DEDUCED: the resets that forbid it are the cold
and the warm one, which alone act on the loader. -/
def State.sessionOpen (s : State) : State :=
  if s.fcc.lstate = 0 ∧ s.fcc.sigOk then
    let s0 := s.endSession
    let sid := (fld (s.reg (fccPg + fccSess)) 0 16 + 1) % 2 ^ 16
    let ks := kmac256 256 (bytesOf 32 s.kDev.toNat) (digestBytes (s.fcc16 fccDigest) ++ bytesOf 2 sid) sessionStr
    (s0.setReg (fccPg + fccSess) (BitVec.ofNat 32 sid)).modFcc (fun f => { f with sess := true, ks := ks })
  else s.fccIgnore

/-- A write of FCC_CTRL: one command; more than one bit is ignored in whole (R130). DESIGN CHOICE: sessclose with no
session open does nothing and sets no cmdig. -/
def fccCtrlWrite (ini : Ini) (val : Word) (s : State) : State :=
  s.regWrite ini (fccPg + fccCtrl) val (fun v u =>
    match bit v 0, bit v 1, bit v 2, bit v 3 with
    | false, false, false, false => u
    | true, false, false, false => u.fccOpen false
    | false, true, false, false => u.fccAbort (ini == levee)
    | false, false, true, false => u.sessionOpen
    | false, false, false, true => u.endSession
    | _, _, _, _ => u.fccIgnore)

/-- FCC_OPEN. -/
def fccOpenWrite (ini : Ini) (val : Word) (s : State) : State := fccCtrlWrite ini val s
/-- FCC_ABORT. -/
def fccAbortWrite (ini : Ini) (val : Word) (s : State) : State := fccCtrlWrite ini val s
/-- SESSION_OPEN. -/
def sessionOpenWrite (ini : Ini) (val : Word) (s : State) : State := fccCtrlWrite ini val s
/-- SESSION_CLOSE. -/
def sessionCloseWrite (ini : Ini) (val : Word) (s : State) : State := fccCtrlWrite ini val s

/-! ### Commands of other families on which a load depends -/

/-- HANDOVER_EDGE (R279): a handover of a staging bank by the levee ends the load with STAGEBANK, in APPLY with every target
region emptied (R133). -/
def handoverEdge (s : State) : State :=
  match s.rsvr.hand with
  | some (b, _) :: _ =>
    let s1 := s.handEdge
    if s.staging b then (if s.fcc.lstate = 3 then s1.applyAbort 0x25 none else s1.loadEnd 0x25) else s1
  | _ => s.handEdge

/-- OPSEL_WRITE: an accepted power-off of a target region during APPLY ends the load with POWER (R141). -/
def opselWriteCmd (ini : Ini) (r : Nat) (val : Word) (s : State) : State :=
  let s1 := opselWrite ini r val s
  if s.fab.opq.length < s1.fab.opq.length && !bit val 5 && s1.applyTarget r then s1.applyAbort 0x24 (some r) else s1

/-- BINDOFF_RESET, then a waiting load goes on. -/
def bindoffResetCmd (r : Nat) (s : State) : State := (bindoffReset r s).loadGoesOn

/-- STALL_END: at this edge the last frame of the latched target stands, its loading bit clears and the region runs again (R104, R105).
-/
def stallEndCmd (r : Nat) (s : State) : State :=
  match (s.rgn r).stall with
  | some x => stallEnd r (s.shadowUpTo r x.target)
  | none => s
/-- CASTON_RESET_RELEASE, then a waiting load goes on. -/
def castonResetReleaseCmd (r : Nat) (s : State) : State := (castonResetRelease r s).loadGoesOn

/-- The FCC writes the next context of a shadow load (R104). -/
def State.shadowTick (s : State) : State :=
  match s.fcc.cur with
  | some r =>
    match (List.range 8).find? (fun c => bit (s.rgn r).loading c) with
    | some c => s.shadowUpTo r c
    | none => s
  | none => s

/-! ### The commands -/

/-- FCC_OPEN (R130). A write of FCC_CTRL.open opens an aperture stream and enters STAGING. -/
def execFccOpen (ini : Ini) (val : Word) (s : State) : Out :=
  .next (s.gate (fccOpenWrite ini val s))

/-- FCC_ABORT (R141). A write of FCC_CTRL.abort discards a stream in STAGING or VERIFY. -/
def execFccAbort (ini : Ini) (val : Word) (s : State) : Out :=
  .next (s.gate (fccAbortWrite ini val s))

/-- SESSION_OPEN (R143). A write of FCC_CTRL.sessopen opens a session and derives its key. -/
def execSessionOpen (ini : Ini) (val : Word) (s : State) : Out :=
  .next (s.gate (sessionOpenWrite ini val s))

/-- SESSION_CLOSE (R144). A write of FCC_CTRL.sessclose ends the session and destroys its key and tags. -/
def execSessionClose (ini : Ini) (val : Word) (s : State) : Out :=
  .next (s.gate (sessionCloseWrite ini val s))

/-- APERTURE_PUSH (R131). An aligned 64-bit aperture write stores 8 stream bytes at the position derived from h. -/
def execAperturePush (ini : Ini) (a : BitVec 20) (len : Nat) (data : BitVec 64) (s : State) : Out :=
  .next (s.gate (aperturePushCmd ini a.toNat len data s))

/-- STREAM_PART_HASHED (R134). The FCC finishes hashing a header, record or trailer header and checks it. -/
def execStreamPartHashed (s : State) : Out :=
  .next (s.gate (streamPartHashed s))

/-- SPI_OPEN (R132). An SPI OPEN command opens an SPI stream. -/
def execSpiOpen (s : State) : Out :=
  .next (s.gate (spiOpen s))

/-- SPI_PUSH (R132). An SPI PUSH delivers stream bytes at a position, or ends the stream with SPIFRAME. -/
def execSpiPush (p : Word) (bytes : List Byte) (s : State) : Out :=
  .next (s.gate (spiPush p.toNat bytes s))

/-- SPI_ABORT (R132). An SPI ABORT acts as FCC_CTRL.abort. -/
def execSpiAbort (s : State) : Out :=
  .next (s.gate (spiAbort s))

/-- SPI_STATUS (R132). An SPI STATUS returns FCC_STAT and FCC_LRES. -/
def execSpiStatus (s : State) : Out :=
  .next (s.gate (spiStatus s))

/-- SPI_ID (R132). An SPI ID returns FCC_ID. -/
def execSpiId (s : State) : Out :=
  .next (s.gate (spiId s))

/-- STREAM_COMPLETE (R135). h reaches the total length, the stream enters VERIFY and authentication and analysis start. -/
def execStreamComplete (s : State) : Out :=
  .next (s.gate (streamComplete s))

/-- SIGNATURE_VERIFIED (R135). The ML-DSA-65 engine finishes verifying the skein signature. -/
def execSignatureVerified (s : State) : Out :=
  .next (s.gate (signatureVerified s))

/-- ROUTING_ANALYSIS_DONE (R136). The whole-skein routing and chain-cost analysis finishes. -/
def execRoutingAnalysisDone (s : State) : Out :=
  .next (s.gate (routingAnalysisDone s))

/-- SHADOW_LOAD_START (R104). At the region edge after the start signal crosses, the FCC sets the loading bits or refuses the shadow load. -/
def execShadowLoadStart (s : State) : Out :=
  .next (s.gate (shadowLoadStart s))

/-- REGION_SEAL (R139). After a region's frames and tile memory are written, the FCC seals it and moves it to READY. -/
def execRegionSeal (s : State) : Out :=
  .next (s.gate (regionSeal s))

/-- BULK_CLEAR_DONE (R141). The bulk clear of a target region ends after a reset or power-off during apply. -/
def execBulkClearDone (r : Region) (s : State) : Out :=
  .next (s.gate (bulkClearDone r.val s))

/-- HANDOVER_EDGE (R279). An accepted handover takes effect at every RSV NI 2 cycles later and its DONE leaves. -/
def execHandoverEdge (s : State) : Out :=
  .next (s.gate (handoverEdge s))

/-- OPSEL_WRITE (R117). The PMU checks an FRGn_OPSEL write and accepts or refuses the operating-point change. -/
def execOpselWrite (ini : Ini) (r : Region) (val : Word) (s : State) : Out :=
  .next (s.gate (opselWriteCmd ini r.val val s))

/-- BINDOFF_RESET (R111). g cycles after park, tile reset asserts and the region enters READY or OFF. -/
def execBindoffReset (r : Region) (s : State) : Out :=
  .next (s.gate (bindoffResetCmd r.val s))

/-- CASTON_RESET_RELEASE (R110). At stage 3 tile reset is released, headgate configuration takes effect and the region enters RUN. -/
def execCastonResetRelease (r : Region) (s : State) : Out :=
  .next (s.gate (castonResetReleaseCmd r.val s))

/-- STALL_END (R105). At the edge the latched target's loading bit clears, the region runs again in that context. -/
def execStallEnd (r : Region) (s : State) : Out :=
  .next (s.gate (stallEndCmd r.val s))

end Sys2Proof.Machine
end

