-- ==== Sys2Proof/Machine/Pins.lean ====
section
/-!
DEFINITION. Pins, the pin multiplexer and the TAP's instructions (chapter 21), and the calibration registers (R501 to R503).
-/
namespace Sys2Proof.Machine

/-! ### Pin registers -/

def pioPg (n : Nat) : Nat := page .pio n
def State.pin (s : State) (n : Nat) : PinSt := tget {} s.pio.pins n
def State.modPin (s : State) (n : Nat) (f : PinSt → PinSt) : State :=
  { s with pio := { s.pio with pins := tset {} s.pio.pins n (f (s.pin n)) } }

/-- PIO_PINn and PIO_PSRCn as they read: the last accepted write, one that waits for the end of a switch included. -/
def PinSt.regs (p : PinSt) : Word × Word := p.stored.getD (p.pin, p.psrc)

/-- Function codes (R480). -/
def fselGpio : Nat := 1
def fselEvin : Nat := 3
def fselLvflt : Nat := 4
def fselDbgind : Nat := 5
def PinSt.fsel (p : PinSt) : Nat := fld p.pin 0 4

/-- Owner codes of a pin (R489). -/
def ownNone : Nat := 0
def ownCore : Nat := 1
def ownSecure : Nat := 2
def ownLevee : Nat := 3

/-- The owner that function `f` requires (R480). -/
def pairOk (f own : Nat) : Bool :=
  if f = 0 then true
  else if f ≤ fselEvin then own == ownCore || own == ownLevee
  else if f = fselLvflt then own == ownLevee
  else if f = fselDbgind then own == ownSecure || own == ownLevee
  else false

/-- What becomes of a write to a pin's registers. -/
inductive PinVerdict where
  | take
  | forbidden
  | violation
deriving DecidableEq, Repr

/-- Rider cores' identifiers (R27). -/
def isCore (ini : Ini) : Bool := decide (1 ≤ ini.toNat) && decide (ini.toNat ≤ 4)
/-- The SEC engines' identifier (R27). -/
def secIni : Ini := 0x34

/-- The writer may write the registers of a pin whose owner is `own` (R481). -/
def pinWriter (ini : Ini) (own : Nat) : Bool :=
  ini == levee || (isCore ini && (own == ownNone || own == ownCore)) || (ini == secIni && (own == ownNone || own == ownSecure))

/-- The owner that the value names is one the writer may name (R481). -/
def pinNames (ini : Ini) (own : Nat) : Bool :=
  ini == levee || own == ownNone || (isCore ini && own == ownCore) || (ini == secIni && own == ownSecure)

/-- R481 for a value of PIO_PINn against the owner that stands. -/
def pinJudge (ini : Ini) (own : Nat) (val : Word) : PinVerdict :=
  let f := fld val 0 4
  let o := fld val 4 2
  if !pinWriter ini own then .violation
  else if !pairOk f o then .forbidden
  else if !pinNames ini o then .violation
  -- owner NONE only with OFF; a core names no DBGIND, SEC no function but OFF and DBGIND: pairOk has said so
  else .take

/-- R481 and R484 for a value of PIO_PSRCn: a region above 23 is reserved. -/
def psrcJudge (ini : Ini) (p : PinSt) (val : Word) : PinVerdict :=
  let r := p.regs.1
  if !pinWriter ini (fld r 4 2) then .violation
  else if 23 < fld val 0 5 ∧ fld r 0 4 ≠ fselEvin then .forbidden
  else .take

/-- Pins that name event input `k` (R485, R486). -/
def State.evinPins (s : State) (k : Nat) : List Nat :=
  tkeys (fun n => (s.pin n).fsel == fselEvin && fld (s.pin n).psrc 0 4 == k) s.pio.pins

/-- Two or more pins name input `k`: CONFLICT, the first capture, EVT_RAW.conflict (R486). -/
def State.pinConflict (s : State) (k : Nat) : State :=
  match s.evinPins k with
  | a :: b :: _ =>
    let c := s.reg (pioPg 0 + pioConflict)
    let s1 := if c = 0 then s.setReg (pioPg 0 + pioCfltpin) (BitVec.ofNat 32 (a + 2 ^ 8 * b + 2 ^ 16 * k)) else s
    (s1.setReg (pioPg 0 + pioConflict) (setBit c k)).raise (pioPg 0) 16
  | _ => s

/-- The region shows its pins the park bit (R107). -/
def pinsParked (g : RegionSt) : Bool :=
  match g.st with
  | .run => false
  | .caston => g.stage == 0
  | .bindoff => g.parked
  | _ => true

/-- The latch of FOUT pin `n` whose function or source begins: the park bit where R107 gives the park state; else what the
latch holds until its line is driven is not stated, a free bit. -/
def State.latchStart (s : State) (n : Nat) : State :=
  let p := s.pin n
  if p.fsel ≠ fselFout then s
  else if pinsParked (s.rgn (fld p.psrc 0 5)) then s.modPin n (fun x => { x with latch := bit x.pin 10 })
  else
    let (b, s1) := s.freeNat 2
    s1.modPin n (fun x => { x with latch := b == 1 })

/-- A FOUT pin whose region is parked shows a new park bit (R484). -/
def State.latchPark (s : State) (n : Nat) : State :=
  let p := s.pin n
  if p.fsel = fselFout ∧ pinsParked (s.rgn (fld p.psrc 0 5)) then s.modPin n (fun x => { x with latch := bit x.pin 10 }) else s

/-- An accepted value takes up its place: a change of the function, or of the source of a FOUT or EVIN pin, starts a switch
(R483); any other change takes effect at the next pad edge (R482). -/
def State.pinTake (s : State) (n : Nat) (v : Word × Word) : State :=
  let p := s.pin n
  let f := fld v.1 0 4
  let start := f != p.fsel || (v.2 != p.psrc && (f == fselFout || f == fselEvin))
  let s1 := s.modPin n (fun x => { x with pin := v.1, psrc := v.2, sw := start, old := p.fsel, stored := none })
  if start then
    let s2 := s1.latchStart n
    if f = fselEvin then s2.pinConflict (fld v.2 0 4) else s2
  else s1.latchPark n

/-- PIN_CONFIG_WRITE: R481 stands for ownership; both registers are RWL (R489, R32). -/
def pinConfigWrite (ini : Ini) (n : Nat) (psrc : Bool) (val : Word) (s : State) : State :=
  let p := s.pin n
  let r := p.regs
  let off := pioPg 0 + (if psrc then pioPsrc else pioPin) + 4 * n
  let t := match (if psrc then psrcJudge ini p val else pinJudge ini (fld r.1 4 2) val) with
    | .violation => s.violate (pioPg 0) 1 ini off true
    | .forbidden => if s.locked off then s.violate (pioPg 0) 2 ini off true else s.raise (pioPg 0) 18
    | .take =>
      if s.locked off then s.violate (pioPg 0) 2 ini off true else
      let v := if psrc then (r.1, val &&& 0x1FFFF) else (val &&& 0xFFF, r.2)
      if p.sw then s.modPin n (fun x => { x with stored := some v }) else s.pinTake n v
  t.answer .ok 0

/-- PIN_SWITCH_DONE: edge p + 2 (R483). -/
def pinSwitchDone (n : Nat) (s : State) : State :=
  let p := s.pin n
  if p.sw then
    let s1 := (s.modPin n (fun x => { x with sw := false, stored := none })).raise (pioPg 0) 17
    match p.stored with
    | some v => s1.pinTake n v
    | none => s1
  else s

/-- The bits of PIO_OUT and PIO_OE word `i` that a writer reaches: of pins whose owner is CORE or LEVEE, from a rider core or
the levee (R481). -/
def State.gpioMask (s : State) (ini : Ini) (i : Nat) : Word :=
  if isCore ini || ini == levee then
    BitVec.ofNat 32 (((List.range (if i = 0 then 32 else 16)).map (fun b =>
      let o := fld (s.pin (32 * i + b)).regs.1 4 2
      if o = ownCore ∨ o = ownLevee then 2 ^ b else 0)).sum)
  else 0

/-- GPIO_OUTPUT_WRITE: register `k` of OUT0, OUT1, OE0, OE1, OUTSET0, OUTSET1, OUTCLR0, OUTCLR1. -/
def gpioOutputWrite (ini : Ini) (k : Nat) (val : Word) (s : State) : State :=
  let i := k % 2
  let m := s.gpioMask ini i
  let out := pioPg 0 + pioOut0 + 4 * i
  let oe := pioPg 0 + pioOe0 + 4 * i
  -- OUT and OE are RWL, OUTSET and OUTCLR hold no RW field (R489, R32)
  if s.locked out && decide (k < 4) then (s.violate (pioPg 0) 2 ini (if k < 2 then out else oe) true).answer .ok 0 else
  (match k / 2 with
    | 0 => s.modReg out (fun w => (w &&& ~~~m) ||| (val &&& m))
    | 1 => s.modReg oe (fun w => (w &&& ~~~m) ||| (val &&& m))
    | 2 => s.modReg out (fun w => w ||| (val &&& m))
    | _ => s.modReg out (fun w => w &&& ~~~(val &&& m))).answer .ok 0

/-- The sensed voltage code of the bank of pin `n` (R476). -/
def State.bankVolt (s : State) (n : Nat) : Nat := tget 0 s.pio.volt (n / 16)

/-- EVIN_EDGE: the new level has held for filt + 1 pad cycles (`held`) on the one pin that names input `k`. -/
def evinEdge (k : Nat) (rise held : Bool) (s : State) : State :=
  let sel := fld (s.reg (pioPg 1 + pioEvinCfg + 4 * k)) 0 2
  match s.evinPins k with
  | [n] =>
    if held && (bit (BitVec.ofNat 2 sel) (if rise then 0 else 1)) && !(s.pin n).sw && s.bankVolt n != 0 then
      if 8 ≤ (tget [] s.hts.ports (pioPg 0 / 0x1000)).length then s.countUp (pioPg 0 + pioEvlost) 0 16 1
      else (s.setReg64 (pioPg 1 + pioEvts + 8 * k) s.aon.time.toNat).raise (pioPg 0) k
    else s
  | _ => s

/-- IO_BANK_SUPPLY_CHANGE: the bank's sensed supply; the configuration of its pins is kept (R476). -/
def ioBankSupply (b v : Nat) (s : State) : State := { s with pio := { s.pio with volt := tset 0 s.pio.volt b v } }

/-! ### What the pads show -/

/-- The function that is in effect: the old one until the switch ends. -/
def PinSt.effective (p : PinSt) : Nat := if p.sw then p.old else p.fsel

/-- The level that pin `n` drives, none where it drives nothing (R480, R483, R476). -/
def State.padDrive (s : State) (n : Nat) : Option Bool :=
  let p := s.pin n
  if p.sw || s.bankVolt n == 0 then none else
  let v : Option Bool :=
    if p.fsel = fselGpio then
      (if bit (s.reg (pioPg 0 + pioOe0 + 4 * (n / 32))) (n % 32) then some (bit (s.reg (pioPg 0 + pioOut0 + 4 * (n / 32))) (n % 32)) else none)
    else if p.fsel = fselFout then some p.latch
    else if p.fsel = fselLvflt then some (fld (s.reg (page .lve 0 + lveLastflt)) 0 8 == 0)
    else if p.fsel = fselDbgind then some (s.sec.dbg || s.lcState == 2)
    else none
  -- open drain: a high level releases the pad
  if bit p.pin 11 && v == some true then none else v

/-- The TAP drives or floats the balls: EXTEST, CLAMP, HIGHZ, EXTEST_PULSE, EXTEST_TRAIN (R487). -/
def State.tapPads (s : State) : Bool :=
  let i := s.pio.tap.ir
  i == 0x00 || (decide (0x03 ≤ i) && decide (i ≤ 0x06))

/-- The level of pad `n` as PIO_IN samples it: 0 while the bank is unpowered or the function is OFF; the driven level; a pad
that the pin does not drive takes its level from the board, a free value. -/
def State.padLevel (s : State) (n : Nat) : Bool :=
  if s.bankVolt n = 0 ∨ (s.pin n).effective = 0 then false
  else if s.tapPads then bit (Config.free s.fresh) n
  else match s.padDrive n with
    | some b => b
    | none => bit (Config.free s.fresh) n

/-- PIO_IN0, PIO_IN1. -/
def State.pioInWord (s : State) (i : Nat) : Word :=
  BitVec.ofNat 32 (((List.range (if i = 0 then 32 else 16)).map (fun b => 2 ^ b * b2n (s.padLevel (32 * i + b)))).sum)

/-- PIO_PINSTATn. -/
def State.pinstatWord (s : State) (n : Nat) : Word :=
  let p := s.pin n
  let conf := p.fsel == fselEvin && decide (2 ≤ (s.evinPins (fld p.psrc 0 4)).length)
  BitVec.ofNat 32 (p.effective + 2 ^ 4 * b2n (s.padDrive n).isSome + 2 ^ 5 * b2n (s.padLevel n) + 2 ^ 6 * b2n p.sw + 2 ^ 7 * b2n conf +
    2 ^ 8 * fld p.pin 6 2)

/-- PIO_BANKSTAT. -/
def State.pioBankWord (s : State) : Word :=
  BitVec.ofNat 32 (tget 0 s.pio.volt 0 + 4 * tget 0 s.pio.volt 1 + 16 * tget 0 s.pio.volt 2)

/-- PIO_SWBUSY. -/
def State.swbusy (s : State) : Nat := (s.pio.pins.map (fun e => if e.2.sw then 2 ^ e.1 else 0)).sum

/-! ### The TAP (R487) -/

/-- The device identifier: base revision, 0xE08A, 0x4B3, 1. -/
def idcodeWord : Word := BitVec.ofNat 32 (1 + 2 * 0x4B3 + 2 ^ 12 * 0xE08A + 2 ^ 28 * fld Config.silRev 8 4)

def State.modTap (s : State) (f : Tap → Tap) : State := { s with pio := { s.pio with tap := f s.pio.tap } }

/-- Load instruction code `i`: BYPASS where it is not accepted. -/
def tapLoad (i : Byte) (s : State) : State := s.modTap (fun t => { t with ir := if s.tapOk i then i else 0xFF })

/-- IDCODE: the data register shifts out the identifier. -/
def tapIdcode (s : State) : State := (tapLoad 0x02 s).modTap (fun t => { t with out := idcodeWord })

/-- SAMPLE/PRELOAD: the boundary-scan register takes the levels sampled and the data shifted in. -/
def tapSample (data : List Bool) (s : State) : State :=
  let t := tapLoad 0x01 s
  if t.pio.tap.ir = 0x01 then t.modTap (fun x => { x with bsr := data }) else t

/-! ### Calibration registers -/

/-- SP applies to the user field of comparators 0, 1 and 3 and of CAL_SOCV (R502). -/
def calSp (k : Nat) : Bool := [49, 50, 52, 56].contains k

/-- CAL_USER_WRITE: the user field of item `k` (R501). -/
def calUserWrite (ini : Ini) (k : Nat) (val : Word) (s : State) : State := s.regWrite ini (calOff k) val (fun _ t => t)

/-- CAL_CLRALL: every user field that the writer may write (R502). -/
def calClearAll (ini : Ini) (val : Word) (s : State) : State :=
  s.regWrite ini (page .cal 0 + calClrall) val (fun v t =>
    if bit v 0 then (List.range 62).foldl (fun u k => if calSp k && ini != levee then u else u.modReg (calOff k) (fun w => setFld w 0 8 0)) t
    else t)

/-- CAL_FUSEST (R502). -/
def State.fusestWord (s : State) : Word :=
  BitVec.ofNat 32 (b2n s.cal.valid + 2 * b2n s.cal.bad + 2 ^ 8 * Config.fuseMapRev.toNat)

/-! ### The commands -/

/-- PIN_CONFIG_WRITE (R481). A write to PIO_PINn or PIO_PSRCn is judged against the pin owner and may start a switch. -/
def execPinConfigWrite (ini : Ini) (pin : Pin) (psrc : Bool) (val : Word) (s : State) : Out :=
  .next (s.gate (pinConfigWrite ini pin.val psrc val s))

/-- PIN_SWITCH_DONE (R483). At edge p + 2 the new function's output enable rises and swdone is set. -/
def execPinSwitchDone (pin : Pin) (s : State) : Out :=
  .next (s.gate (pinSwitchDone pin.val s))

/-- GPIO_OUTPUT_WRITE (R482). A write to PIO_OUT, PIO_OE, PIO_OUTSET or PIO_OUTCLR changes GPIO outputs. -/
def execGpioOutputWrite (ini : Ini) (off : Fin 8) (val : Word) (s : State) : Out :=
  .next (s.gate (gpioOutputWrite ini off.val val s))

/-- EVIN_EDGE (R485). A filtered edge on an event input sets its event bit and timestamp. -/
def execEvinEdge (k : Fin 16) (rise : Bool) (held : Bool) (s : State) : Out :=
  .next (s.gate (evinEdge k.val rise held s))

/-- BYPASS (R487). The TAP loads BYPASS. -/
def execBypass (s : State) : Out :=
  .next (s.gate (tapLoad 0xFF s))

/-- IDCODE (R487). The TAP IDCODE instruction returns the device identifier. -/
def execIdcode (s : State) : Out :=
  .next (s.gate (tapIdcode s))

/-- SAMPLE_PRELOAD (R487). The TAP SAMPLE/PRELOAD instruction samples the boundary register. -/
def execSamplePreload (data : List Bool) (s : State) : Out :=
  .next (s.gate (tapSample data s))

/-- EXTEST (R487). The TAP EXTEST instruction drives balls from the boundary register. -/
def execExtest (s : State) : Out :=
  .next (s.gate (tapLoad 0x00 s))

/-- CLAMP (R487). The TAP CLAMP instruction holds outputs and selects bypass. -/
def execClamp (s : State) : Out :=
  .next (s.gate (tapLoad 0x03 s))

/-- HIGHZ (R487). The TAP HIGHZ instruction floats every output. -/
def execHighz (s : State) : Out :=
  .next (s.gate (tapLoad 0x04 s))

/-- EXTEST_PULSE (R487). The TAP EXTEST_PULSE instruction tests AC-coupled lanes. -/
def execExtestPulse (s : State) : Out :=
  .next (s.gate (tapLoad 0x05 s))

/-- EXTEST_TRAIN (R487). The TAP EXTEST_TRAIN instruction tests AC-coupled lanes with a train. -/
def execExtestTrain (s : State) : Out :=
  .next (s.gate (tapLoad 0x06 s))

/-- CAL_USER_WRITE (R501). A write to a calibration user field sets the effective value. -/
def execCalUserWrite (ini : Ini) (k : Fin 62) (val : Word) (s : State) : Out :=
  .next (s.gate (calUserWrite ini k.val val s))

/-- CAL_CLRALL (R502). A write of CAL_CLRALL clears every user field the writer may write. -/
def execCalClrall (ini : Ini) (val : Word) (s : State) : Out :=
  .next (s.gate (calClearAll ini val s))

/-- IO_BANK_SUPPLY_CHANGE (R476). A GP bank supply is lost or returns, its pins stop or resume driving, and PIO_BANKSTAT and PIO_IN change. -/
def execIoBankSupplyChange (bank : Fin 3) (volt : Fin 3) (s : State) : Out :=
  .next (s.gate (ioBankSupply bank.val volt.val s))

end Sys2Proof.Machine
end

