-- ==== Sys2Proof/Machine/Bch.lean ====
section
/-!
DEFINITION. The BCH code of the media guard (R219): GF(2^14), the generator, the encoder and a bounded-distance decoder
for up to 72 errors.
-/
namespace Sys2Proof.Machine

/-- Carry-less product of two polynomials over GF(2), by the bits of `b`. -/
def clmul (n a b : Nat) : Nat := (List.range n).foldl (fun acc i => if nfld b i 1 = 1 then Nat.xor acc (a * 2 ^ i) else acc) 0

/-- Reduce modulo x^14 + x^5 + x^3 + x + 1, from bit 26 down. -/
def gfRed (w : Nat) : Nat :=
  (List.range 13).foldl (fun acc i => if nfld acc (26 - i) 1 = 1 then Nat.xor acc (0x402B * 2 ^ (12 - i)) else acc) w

/-- Product in GF(2^14). -/
def gfMul14 (a b : Nat) : Nat := gfRed (clmul 14 a b)

/-- a^n for an exponent of 14 bits. -/
def gfPow14 (a n : Nat) : Nat :=
  (List.range 14).foldl (fun acc i => let sq := gfMul14 acc acc; if nfld n (13 - i) 1 = 1 then gfMul14 sq a else sq) 1

/-- α^n. -/
def alphaPow (n : Nat) : Nat := gfPow14 2 (n % 16383)

/-- Multiplicative inverse. -/
def gfInv14 (a : Nat) : Nat := gfPow14 a 16382

/-- The cyclotomic coset of `j` modulo 2^14 - 1. -/
def coset (j : Nat) : List Nat := ((List.range 14).map (fun i => j * 2 ^ i % 16383)).dedup

/-- Product of a polynomial over GF(2^14), low coefficient first, with (x + r). -/
def mulRoot (p : List Nat) (r : Nat) : List Nat :=
  (List.range (p.length + 1)).map (fun i => Nat.xor (if i = 0 then 0 else p.getD (i - 1) 0) (gfMul14 r (p.getD i 0)))

/-- The minimal polynomial of α^j, as a polynomial over GF(2). -/
def minPoly (j : Nat) : Nat :=
  (((coset j).foldl (fun p e => mulRoot p (alphaPow e)) [1]).zipIdx.map (fun c => if c.1 = 1 then 2 ^ c.2 else 0)).sum

/-- The generator: the product of the distinct minimal polynomials of α^1 to α^144 (R219). -/
def bchGen : Nat :=
  ((List.range 144).foldl (fun (acc : Nat × List Nat) i =>
    if acc.2.contains (i + 1) then acc else (clmul 15 acc.1 (minPoly (i + 1)), acc.2 ++ coset (i + 1))) (1, [])).1

/-- Bits of bytes, least significant first within each byte. -/
def bitsOf (l : List Byte) : List Bool := l.flatMap (fun b => (List.range 8).map (fun i => bit b i))
/-- Bytes of bits, least significant first, the last byte filled with zeros. -/
def bytesOfBits (n : Nat) (l : List Bool) : List Byte :=
  (List.range n).map (fun i => BitVec.ofNat 8 (((List.range 8).map (fun j => 2 ^ j * b2n (l.getD (8 * i + j) false))).sum))

/-- The 1,001 parity bits of a 1,024-byte block, the highest power first. -/
def bchParity (d : List Byte) : List Bool :=
  let g := bchGen % 2 ^ 1001
  let r := (bitsOf d).foldl (fun r b =>
    let fb := (nfld r 1000 1 = 1) != b
    let sh := r * 2 % 2 ^ 1001
    if fb then Nat.xor sh g else sh) 0
  (List.range 1001).map (fun i => nfld r (1000 - i) 1 = 1)

/-- A guard codeword: 1,024 data bytes and 126 parity bytes (R219, R220). -/
def bchEncode (d : List Byte) : List Byte := d ++ bytesOfBits 126 (bchParity d)

/-- The syndrome of order `j` of a codeword's 9,193 bits. -/
def syndrome (w : List Bool) (j : Nat) : Nat :=
  let a := alphaPow j
  w.foldl (fun acc b => Nat.xor (gfMul14 acc a) (b2n b)) 0

/-- The state of the Berlekamp-Massey iteration. -/
structure BmSt where
  c : List Nat
  b : List Nat
  l : Nat
  m : Nat
  q : Nat
deriving DecidableEq, Repr

/-- One step for syndrome index `n` of `s`. -/
def bmStep (s : List Nat) (x : BmSt) (n : Nat) : BmSt :=
  let d := (List.range (x.l + 1)).foldl (fun acc i => Nat.xor acc (gfMul14 (x.c.getD i 0) (if i ≤ n then s.getD (n - i) 0 else 0))) 0
  if d = 0 then { x with m := x.m + 1 }
  else
    let k := gfMul14 d (gfInv14 x.q)
    let c' := (List.range (max x.c.length (x.b.length + x.m))).map (fun i =>
      Nat.xor (x.c.getD i 0) (if x.m ≤ i then gfMul14 k (x.b.getD (i - x.m) 0) else 0))
    if 2 * x.l ≤ n then { c := c', b := x.c, l := n + 1 - x.l, m := 1, q := d } else { x with c := c', m := x.m + 1 }

/-- The error powers that the locator of the syndromes names, none when they are not its whole set of roots or are more than
72. -/
def bchErrors (w : List Bool) : Option (List Nat) :=
  let s := (List.range 144).map (fun j => syndrome w (j + 1))
  if s.all (· == 0) then some []
  else
    let x := (List.range 144).foldl (bmStep s) { c := [1], b := [1], l := 0, m := 1, q := 1 }
    let roots := (List.range 9193).filter (fun p =>
      x.c.foldr (fun c acc => Nat.xor (gfMul14 acc (alphaPow (16383 - p))) c) 0 == 0)
    if x.l ≤ 72 ∧ roots.length = x.l then some roots else none

/-- Decode a guard codeword of 1,150 bytes: its data and the number of bits corrected, none when uncorrectable (R219). -/
def bchDecode (w : List Byte) : Option (List Byte × Nat) :=
  let bits := (bitsOf w).take 9193
  match bchErrors bits with
  | none => none
  | some es =>
    let fixed := bits.zipIdx.map (fun p => if es.contains (9192 - p.2) then !p.1 else p.1)
    some (bytesOfBits 1024 (fixed.take 8192), es.length)

end Sys2Proof.Machine
end

