-- ==== Sys2Proof/Machine/Integrity.lean ====
section
/-!
DEFINITION. Fabric integrity and observation (chapter 7): the codes of a stored frame, the scrubber with its canary, voted
registers and holds, the capture, and the probe multiplexers' authorisation.
-/
namespace Sys2Proof.Machine

/-! ### The stored form of a frame (R147 to R149) -/

/-- Code position of data bit `i` of a quarter: the (i + 1)-th integer from 3 that is no power of two (R148). -/
def codePos (i : Nat) : Nat :=
  match (List.range 9).find? (fun l => Nat.log2 (i + l + 2) == l && i + l + 2 != 2 ^ l) with
  | some l => i + l + 2
  | none => 0

/-- Parity of the low `n` bits. -/
def parityN (n w : Nat) : Nat := ((List.range n).map (fun i => nfld w i 1)).sum % 2

/-- The 10 check bits of a 256-bit quarter (R148). -/
def checkBits (d : Nat) : Nat :=
  let c := (List.range 256).foldl (fun acc i => if nfld d i 1 = 1 then Nat.xor acc (codePos i) else acc) 0
  c + 2 ^ 9 * ((parityN 256 d + parityN 9 c) % 2)

/-- One byte into the CRC-16 of polynomial 0x1021, most significant bit first (R149). -/
def crc16Bits : Nat → Nat → Nat
  | 0, c => c
  | n + 1, c => crc16Bits n (if 0x8000 ≤ c then Nat.xor (2 * c % 0x10000) 0x1021 else 2 * c)
def crc16Byte (c b : Nat) : Nat := crc16Bits 8 (Nat.xor c (256 * b))
/-- The CRC-16 over bytes in ascending order, from 0xFFFF (R149). -/
def crc16 (l : List Byte) : Nat := l.foldl (fun c b => crc16Byte c b.toNat) 0xFFFF

/-- The 56 check cells that match a payload: quarter q's group at bit 10q, then the CRC (R147). -/
def checkCells (f : Nat) : BitVec 56 :=
  BitVec.ofNat 56 (((List.range 4).map (fun q => 2 ^ (10 * q) * checkBits (nfld f (256 * q) 256))).sum +
    2 ^ 40 * crc16 (bytesOf 128 f))

/-- What a quarter decodes to (R148): clean, corrected at data bit 0 to 255 or check bit 256 to 265, or uncorrectable. -/
inductive QDec where
  | clean
  | fixed (b : Nat)
  | bad
deriving DecidableEq, Repr

/-- Decode a quarter from the difference between its stored check bits and those of the data read (R148). -/
def decodeQuarter (diff : Nat) : QDec :=
  let s := diff % 512
  let e := parityN 10 diff
  let l := Nat.log2 s
  if s = 0 then (if e = 0 then .clean else .fixed 265)
  else if e = 0 then .bad
  else if s = 2 ^ l then .fixed (256 + l)
  else if 265 < s then .bad
  else .fixed (s - l - 2)

/-- The report of one frame read (R148, R149): the quarters, whether the CRC matches after correction, and the corrected
payload. -/
structure ScrubRead where
  quarters : List QDec
  crcBad   : Bool
  payload  : Nat
deriving DecidableEq, Repr

/-- Read a frame: payload cells and the difference of its check cells from those of the payload. -/
def readFrame (f : Nat) (diff : BitVec 56) : ScrubRead :=
  let qs := (List.range 4).map (fun q => decodeQuarter (fld diff (10 * q) 10))
  let fix := (List.range 4).foldl (fun acc q => match qs.getD q .clean with
    | .fixed b => if b < 256 then Nat.xor acc (2 ^ (256 * q + b)) else acc
    | _ => acc) f
  let stored := Nat.xor (crc16 (bytesOf 128 f)) (fld diff 40 16)
  { quarters := qs, crcBad := decide (stored ≠ crc16 (bytesOf 128 fix)), payload := fix }

/-- The quarters that meet `p`, as a mask. -/
def ScrubRead.mask (x : ScrubRead) (p : QDec → Bool) : Nat :=
  ((List.range 4).map (fun q => 2 ^ q * b2n (p (x.quarters.getD q .clean)))).sum
def QDec.isFixed : QDec → Bool
  | .fixed _ => true
  | _ => false
def ScrubRead.fixedMask (x : ScrubRead) : Nat := x.mask QDec.isFixed
def ScrubRead.badMask (x : ScrubRead) : Nat := x.mask (fun q => q == .bad)
/-- The corrected bit of the lowest corrected quarter. -/
def ScrubRead.firstBit (x : ScrubRead) : Option Nat := x.quarters.findSome? (fun q => match q with
  | .fixed b => some b
  | _ => none)

/-- The cells of a frame with the cells `ups` upset (payload 0 to 1,023, check groups 1,024 to 1,063, CRC 1,064 to 1,079):
the payload, and the difference of the check cells. -/
def upsetCells (f : Nat) (diff : BitVec 56) (ups : List (Fin 1080)) : Nat × BitVec 56 :=
  let f' := ups.foldl (fun acc u => if u.val < 1024 then Nat.xor acc (2 ^ u.val) else acc) f
  let c' := ups.foldl (fun (acc : BitVec 56) u => if u.val < 1024 then acc else acc ^^^ BitVec.ofNat 56 (2 ^ (u.val - 1024))) diff
  (f', c' ^^^ checkCells f ^^^ checkCells f')

/-! ### Self-faults and holds -/

/-- FCC page 1. -/
def scrPg : Nat := page .fcc 1

/-- Region `r` is critical (FCC_SCRCLS). -/
def State.critical (s : State) (r : Nat) : Bool := bit (s.reg (scrPg + fccScrcls)) r

/-- A critical region in RUN is to be held: its FCC_SCRHOLD bit and EVT_RAW.hold are set (R154). -/
def State.holdRegion (s : State) (r : Nat) : State :=
  if s.critical r && (s.rgn r).st == .run then (s.modRgn r (fun g => { g with heldLatch := true })).raise scrPg 4 else s

/-- SCRUB_SELF_FAULT with a cause (R157, R159). -/
def State.selfFault (s : State) (cause : Nat) : State :=
  let s1 := s.modReg (scrPg + fccInteg) (fun w =>
    putBit (setBit (if fld w 2 3 = 0 then setFld w 2 3 cause else w) 0) 1 false)
  let s2 := ((s1.raise scrPg 3).raise (page .lve 0) 5).modInteg (fun x => { x with fault := true })
  (List.range 24).foldl (fun u r => u.holdRegion r) s2

/-- Region `r` stops at this edge as in a stall: nothing of the cycle takes place. One that stands already stays as it is (R105,
R154, R162). -/
def State.stopRegion (s : State) (r : Nat) : State := if regionMoves (s.rgn r) then s.unwind r else s

/-- REGION_HOLD: the region's first edge after the report: it holds, and the cycle counts (R154, R120). -/
def regionHold (r : Nat) (s : State) : State :=
  if (s.rgn r).heldLatch && (s.rgn r).st == .run && !(s.rgn r).held then
    (s.stopRegion r).modRgn r (fun g => { g with held := true, cyc := g.cyc + 1 })
  else s

/-- HOLD_CLEAR: a write of FCC_SCRHOLD: a 1 clears a region's hold (R154). -/
def holdClear (ini : Ini) (val : Word) (s : State) : State :=
  s.regWrite ini (scrPg + fccScrhold) val (fun v u =>
    (List.range 24).foldl (fun w r => if bit v r then w.modRgn r (fun g => { g with held := false, heldLatch := false }) else w)
      (u.setReg (scrPg + fccScrhold) 0))

/-- FCC_SCRHOLD as it reads. -/
def State.scrholdWord (s : State) : Word := BitVec.ofNat 32 (((List.range 24).map (fun r => 2 ^ r * b2n (s.rgn r).heldLatch)).sum)

/-! ### The scrubber -/

/-- The frame of slot `f`: region, context, tile (R150). -/
def slotTile (f : Nat) : Nat := 256 * (f / 2048) + f % 256
def slotCtx (f : Nat) : Nat := f / 256 % 8

/-- A slot consumed without a read (R151). -/
def State.slotSkipped (s : State) (f : Nat) : Bool :=
  let r := f / 2048
  let g := s.rgn r
  g.st == .off || g.st == .loading || s.fcc.bulk.contains r || bit g.loading (slotCtx f)

/-- An entry for the uncorrectable queue (R153). -/
def State.pushUc (s : State) (e : UcEnt) : State :=
  if s.integ.ucq.length < 16 then s.modInteg (fun x => { x with ucq := x.ucq ++ [e] })
  else (s.modReg (scrPg + fccUclost) (fun w => setBit w (e.frame / 2048))).raise scrPg 6

/-- The stored frame of slot `f` takes payload `p` with the check difference `d`. -/
def State.putCells (s : State) (f p : Nat) (d : BitVec 56) : State :=
  let s1 := s.setFrame (slotTile f) (slotCtx f) p
  { s1 with fab := { s1.fab with checks := tset 0 s1.fab.checks (8 * slotTile f + slotCtx f) d } }

/-- The scrubber acts on what it read of the frame of slot `f` (R152, R154). -/
def State.scrubAct (s : State) (f : Nat) (x : ScrubRead) : State :=
  if x.badMask ≠ 0 ∨ x.crcBad then
    let s1 := (s.countUp (scrPg + fccScrunc) 0 32 1).pushUc
      { frame := f, qmask := x.badMask, crc := x.crcBad, pass := s.reg (scrPg + fccScrpass) }
    (((s1.raise scrPg 2).raise (page .lve 0) 6).holdRegion (f / 2048)).pulse 4 0 2
  else match x.firstBit with
    | none => s
    | some b =>
      let (v, s1) := if b < 256 then (b, s) else s.freeNat 256
      (((((s1.putCells f x.payload 0).pulse 4 0 1).pulse 4 0 3).countUp (scrPg + fccScrcorr) 0 32 1).setReg (scrPg + fccScrlast)
        (BitVec.ofNat 32 (f + 2 ^ 16 * x.fixedMask + 2 ^ 20 * v))).raise scrPg 1

/-- Canary payload of pass `p` (R156). -/
def canaryPayload (p : Nat) : Nat :=
  ofWords ((List.range 32).map (fun w => BitVec.ofNat 32 (Nat.xor p (w * 0x01010101 % 2 ^ 32))))
/-- The three payload bits that the FCC flips in pass `p` (R156). -/
def canarySingle (p : Nat) : Nat := 256 * (p % 4) + 37 * p % 256
def canaryDoubles (p : Nat) : List Nat := [256 * ((p + 2) % 4) + (37 * p + 11) % 256, 256 * ((p + 2) % 4) + (37 * p + 130) % 256]

/-- The canary row is rewritten at slot 0 of a pass (R156). -/
def State.writeCanary (s : State) : State :=
  let p := (s.reg (scrPg + fccScrpass)).toNat
  let f := canaryPayload p
  let x := upsetCells f 0 ((canarySingle p :: canaryDoubles p).map (fun b => Fin.ofNat 1080 b))
  s.modInteg (fun i => { i with canary := x.1, canChk := x.2 })

/-- The scrubber runs (FCC_SCRCTRL.en). -/
def State.scrubOn (s : State) : Bool := bit (s.reg (scrPg + fccScrctrl)) 0

/-- The current slot. -/
def State.slot (s : State) : Nat := fld (s.reg (scrPg + fccScrpos)) 0 16

/-- The cells of the stored frame of slot `f`: its payload, and the difference of its check cells. -/
def State.cells (s : State) (f : Nat) : Nat × BitVec 56 :=
  (s.frame (slotTile f) (slotCtx f), tget 0 s.fab.checks (8 * slotTile f + slotCtx f))

/-- A cell of the frame of slot `u.1` is upset: the wrong bit stands in the frame, and a tile runs on it, until the scrubber or a load
writes the cell (R151, R155). The cells of a region in OFF have no power. -/
def State.upset (s : State) (u : Fin 49152 × Fin 1080) : State :=
  if (s.rgn (u.1.val / 2048)).st == .off then s
  else let x := upsetCells (s.cells u.1.val).1 (s.cells u.1.val).2 [u.2]
    s.putCells u.1.val x.1 x.2

/-- SCRUB_SLOT: the slot at FCC_SCRPOS runs (R150 to R152); `ups` are the cells of the fabric's frames that upsets have struck since the
slot before, which stand in their frames from then on. Slot 0 rewrites the canary first. -/
def scrubSlot (ups : List (Fin 49152 × Fin 1080)) (s : State) : State :=
  let u := ups.foldl State.upset s
  let f := u.slot
  if u.scrubOn && decide (f < 49152) then
    let s0 := if f = 0 then u.writeCanary else u
    let s1 := if u.slotSkipped f then s0.modInteg (fun i => { i with skips := i.skips + 1 })
      else (s0.pulse 4 0 0).scrubAct f (readFrame (u.cells f).1 (u.cells f).2)
    s1.setReg (scrPg + fccScrpos) (BitVec.ofNat 32 (f + 1))
  else u

/-- The self-fault cause that the canary's report of pass `p` gives, 0 when it passes (R156, R157). -/
def canaryCause (p : Nat) (x : ScrubRead) : Nat :=
  if x.quarters.getD (p % 4) .clean ≠ .fixed (37 * p % 256) then 1
  else if x.quarters.getD ((p + 2) % 4) .clean ≠ .bad then 2
  else if x.fixedMask ≠ 2 ^ (p % 4) ∨ x.badMask ≠ 2 ^ ((p + 2) % 4) ∨ !x.crcBad then 3
  else 0

/-- CANARY_SLOT: the canary is read and checked, and the pass ends (R150, R156, R159). -/
def canarySlot (ups : List (Fin 1080)) (s : State) : State :=
  if s.scrubOn && s.slot == 49152 then
    let p := (s.reg (scrPg + fccScrpass)).toNat
    let c := upsetCells s.integ.canary s.integ.canChk ups
    let x := readFrame c.1 c.2
    let cause := canaryCause p x
    let (v, s0) := match x.firstBit with
      | some b => if b < 256 then (b, s) else s.freeNat 256
      | none => s.freeNat 256
    let s1 := (s0.modInteg (fun i => { i with canary := c.1, canChk := c.2 })).setReg (scrPg + fccCanary)
      (BitVec.ofNat 32 (x.fixedMask + 2 ^ 4 * x.badMask + 2 ^ 8 * b2n x.crcBad + 2 ^ 9 * v + 2 ^ 24 * b2n (cause == 0)))
    let s2 := if cause = 0 then s1 else s1.selfFault cause
    let s3 := if !s2.integ.fault && bit (s2.reg (scrPg + fccInteg)) 0 then s2.modReg (scrPg + fccInteg) (fun w => setBit w 1) else s2
    let s4 := (s3.setReg (scrPg + fccScrskip) (BitVec.ofNat 32 (s3.integ.skips % 2 ^ 16))).modInteg
      (fun i => { i with skips := 0, fault := false })
    (((s4.modReg (scrPg + fccScrpass) (· + 1)).setReg (scrPg + fccScrpos) 0)).raise scrPg 0
  else s

/-- SCRUB_PASS_TIMEOUT: the pass has not ended within twice its length (R157). -/
def scrubPassTimeout (s : State) : State := s.selfFault 4

/-- The voted registers: FCC_SCRCTRL, FCC_SCRRATE, FCC_SCRCLS, with their widths. -/
def votedReg (k : Nat) : Nat × Nat :=
  if k = 0 then (scrPg + fccScrctrl, 1) else if k = 1 then (scrPg + fccScrrate, 12) else (scrPg + fccScrcls, 24)

/-- The three copies of voted register k, where upsets have struck copy n in the bits `f n` that are voted (R158). -/
def State.votedCopies (s : State) (k : Nat) (f0 f1 f2 : Word) : List Word :=
  [f0, f1, f2].map (fun f => s.reg (votedReg k).1 ^^^ (f &&& maskOf 32 0 (votedReg k).2))

/-- The bitwise majority of three copies, and the copies that differ from it (R157). -/
def vote3 (c : List Word) : Word := (c.getD 0 0 &&& c.getD 1 0) ||| (c.getD 0 0 &&& c.getD 2 0) ||| (c.getD 1 0 &&& c.getD 2 0)
def votedOut (c : List Word) : List Nat := (List.range 3).filter (fun i => c.getD i 0 != vote3 c)

/-- A disagreement of the copies of voted register k is seen: the register takes w, SCR_TMR counts, the event is raised (R157). -/
def State.voteSeen (s : State) (k : Nat) (w : Word) : State :=
  ((s.setReg (votedReg k).1 w).countUp (scrPg + fccScrtmr) 0 8 1).raise scrPg 5

/-- TMR_VOTE_FIX: one OCN cycle's vote of voted register `k` whose copies have the bits f0, f1, f2 upset since the cycle
before; successive commands for one register are successive cycles (R158). -/
def tmrVoteFix (k : Nat) (f0 f1 f2 : Word) (s : State) : State :=
  let c := s.votedCopies k f0 f1 f2
  match votedOut c with
  | [] => (s.setReg (votedReg k).1 (vote3 c)).modInteg (fun x => { x with tmr := tset 0 x.tmr k 0 })
  | i :: rest =>
    if !rest.isEmpty || tget 0 s.integ.tmr k == i + 1 then
      ((s.voteSeen k (regReset (votedReg k).1)).modInteg (fun x => { x with tmr := tset 0 x.tmr k 0 })).selfFault 5
    else (s.voteSeen k (vote3 c)).modInteg (fun x => { x with tmr := tset 0 x.tmr k (i + 1) })

/-- A write of FCC_SCRCTRL: en written to 0 is a self-fault (R157). -/
def scrctrlWrite (ini : Ini) (val : Word) (s : State) : State :=
  s.regGuard ini (scrPg + fccScrctrl) (fun u =>
    let u1 := u.setReg (scrPg + fccScrctrl) (val &&& 1)
    if bit val 0 then u1 else u1.selfFault 6)

/-- A write of FCC_SCRRATE: 0x000 and 0x001 are ignored (R150). -/
def scrrateWrite (ini : Ini) (val : Word) (s : State) : State :=
  s.regGuard ini (scrPg + fccScrrate) (fun u =>
    if fld val 0 12 < 2 then u else u.setReg (scrPg + fccScrrate) (val &&& 0xFFF))

/-- UCQ_POP: a write of FCC_UCQCTL: pop removes the oldest entry (R153). -/
def ucqPop (ini : Ini) (val : Word) (s : State) : State :=
  s.regWrite ini (scrPg + fccUcqctl) val (fun v u => if bit v 0 then u.modInteg (fun x => { x with ucq := x.ucq.tail }) else u)

/-- FCC_UCQ, FCC_UCQPASS and FCC_UCQCTL as they read. -/
def State.ucqWord (s : State) : Word :=
  match s.integ.ucq with
  | [] => 0
  | e :: _ => BitVec.ofNat 32 (e.frame + 2 ^ 16 * e.qmask + 2 ^ 20 * b2n e.crc + 2 ^ 21)
def State.ucqPassWord (s : State) : Word :=
  match s.integ.ucq with
  | [] => 0
  | e :: _ => e.pass
def State.ucqCtlWord (s : State) : Word := BitVec.ofNat 32 (2 ^ 8 * s.integ.ucq.length)

/-- INTEG_CLEAR: a write of FCC_INTEG: a 1 in the cause field clears it; unverified clears only on a levee write of 0 while
clean is 1 (R159). -/
def integClearAct (ini : Ini) (val : Word) (s : State) : State :=
  let off := scrPg + fccInteg
  if s.mayWrite ini off then
    let s1 := s.modReg off (fun w =>
      let w1 := if fld val 2 3 = 0 then w else setFld w 2 3 0
      if ini = levee ∧ bit val 0 = false ∧ bit w 1 then clrBit w1 0 else w1)
    (if ini = levee then s1 else s1.refuseSp ini off).answer .ok 0
  else (s.violate scrPg 1 ini off true).answer .ok 0

/-! ### Capture (R160 to R166) -/

/-- The check of an arm command: its refusal code, 0 when it passes (R160). -/
def State.armCode (s : State) (rgns : BitVec 24) (anchor base nbank : Nat) (tm : Bool) : Nat :=
  let stg := s.reg (fccPg + fccStgcfg)
  let need := (rgnList rgns).length * capStep tm
  if (rgnList rgns).any (fun r => (s.rgn r).st != .run) then 1
  else if (rgnList rgns).any (fun r => s.applyTarget r) then 2
  else if !bit rgns anchor then 4
  else if decide (nbank < need) || (List.range nbank).any (fun j => s.bankOwner (base + j) != 0x31 || decide (240 ≤ base + j) ||
      (decide (fld stg 0 8 ≤ base + j) && decide (base + j < fld stg 0 8 + fld stg 8 8))) then 3
  else 0

/-- A write of FCC_CAPCTRL: arm, or cancel (R160, R163). -/
def State.capCtrl (s : State) (v : Word) : State :=
  let s1 := if bit v 1 then
      (if s.capState = 1 then s.captureEnd 6 else if s.capState = 0 then s else s.raise capPg 2)
    else s
  if bit v 0 then
    if s.capState ≠ 0 then s1.raise capPg 2
    else
      let rgns : BitVec 24 := (s.reg (capPg + fccCapreg)).setWidth 24
      let cfg := s.reg (capPg + fccCapcfg)
      let dst := s.reg (capPg + fccCapdst)
      let code := s.armCode rgns (fld cfg 0 5) (fld dst 0 8) (fld dst 8 8) (bit cfg 6)
      if code ≠ 0 then s1.captureEnd code
      else
        let m := s.reg64 (capPg + fccCapmatch)
        let late := bit cfg 5 && decide (m < (s.rgn (fld cfg 0 5)).cyc.toNat)
        (s1.setReg (capPg + fccCapstat) (BitVec.ofNat 32 (1 + 2 ^ 8 * 0xF + 2 ^ 12 * b2n late))).modInteg (fun x => { x with
          capRgn := rgns, capAnchor := fld cfg 0 5, capTm := bit cfg 6, capBase := fld dst 0 8, capSnap := []
          capMatch := if bit cfg 5 then some (BitVec.ofNat 64 m) else none })
  else s1

/-- CAPTURE_ARM and CAPTURE_CANCEL. -/
def capCtrlWrite (ini : Ini) (val : Word) (s : State) : State :=
  s.regWrite ini (capPg + fccCapctrl) val (fun v u => u.capCtrl v)
def captureArm (ini : Ini) (val : Word) (s : State) : State := capCtrlWrite ini val s
def captureCancel (ini : Ini) (val : Word) (s : State) : State := capCtrlWrite ini val s

/-- Region `r` enters FROZEN at this edge (R162): it stops, its headgates refuse, its cycle count holds. -/
def State.freeze (s : State) (r : Nat) : State :=
  let s0 := s.stopRegion r
  let s1 := s0.modInteg (fun x => { x with capSnap := tput x.capSnap r (s0.sectionHead r) })
  ((s1.modRgn r (fun g => { g with st := .frozen, held := false, heldLatch := false })).hgRefuse r)

/-- When every named region is frozen the copy begins (R164). -/
def State.capProgress (s : State) : State :=
  let st := if (rgnList s.integ.capRgn).all (fun r => (s.rgn r).st == .frozen) then 3 else 2
  s.modReg (capPg + fccCapstat) (fun w => setFld w 0 3 st)

/-- ANCHOR_FREEZE: the anchor freezes at this edge: at once, or at the edge that ends its match cycle (R161). -/
def anchorFreeze (s : State) : State :=
  let a := s.integ.capAnchor
  let cyc := (s.rgn a).cyc
  let now := match s.integ.capMatch with
    | none => true
    | some m => cyc == m || bit (s.reg (capPg + fccCapstat)) 12
  if s.capState = 1 ∧ (s.rgn a).st = .run ∧ now = true then
    ((s.freeze a).setReg64 (capPg + fccCapat) cyc.toNat).capProgress
  else s

/-- REGION_FREEZE: another named region freezes at its edge (R161). -/
def regionFreeze (r : Nat) (s : State) : State :=
  if s.capState = 2 ∧ bit s.integ.capRgn r ∧ (s.rgn r).st = .run then (s.freeze r).capProgress else s

/-- The FCC can write the banks that the capture fills (R11, R282). -/
def State.captureOpen (s : State) : Bool :=
  !s.rsvr.wipe && (List.range (capStep s.integ.capTm * (rgnList s.integ.capRgn).length)).all (fun i =>
    s.netStatus 0x31 (bankAddr (s.integ.capBase + i)) true == .ok)

/-- CAPTURE_DONE: every section has been written, in ascending region order (R164). -/
def captureDone (s : State) : State :=
  if s.capState = 3 then
    if s.captureOpen then (s.writeSections (rgnList s.integ.capRgn).length).captureEnd 0 else { s with hold := some .net }
  else s

/-! ### Probes (R167, R168) -/

/-- TRC_PRBSTAT.auth: DEVELOP, or a valid token with the probe permission (R167, R428). -/
def State.probeAuth (s : State) : Bool :=
  s.lcState == 2 || (s.sec.dbg && bit (s.reg (page .sec 0 + secDbgperm)) 0)

/-- Every TRC_PRBk.en clears while auth is 0 (R167). -/
def State.probeOff (s : State) : State :=
  if s.probeAuth then s else (List.range 16).foldl (fun u k => u.modReg (page .trc 1 + trcPrb + 4 * k) (fun w => clrBit w 0)) s

/-- What becomes of `t` when a command that began in `s` has ended the authorisation: every en of TRC_PRBk and TRC_OPk_CFG clears
(R167, R268). -/
def State.authFall (t s : State) : State :=
  if s.probeAuth && !t.probeAuth then
    (List.range 4).foldl (fun u k => u.modReg (page .trc 0 + trcOpCfg + 0x10 * k) (fun w => clrBit w 0)) t.probeOff
  else t

/-- PROBE_AUTH_FALL: no pin is driven while auth is 0. -/
def probeAuthFall (s : State) : State := s.probeOff

/-- A write of TRC_OPk_CFG or TRC_OPk_MATCH: from the levee at any time, from the page's owner while auth is 1; any other is an SP
violation, one against the ownership of R31 an owner violation (R268). -/
def probeCfgWrite (ini : Ini) (k : Nat) (mtch : Bool) (val : Word) (s : State) : State :=
  let off := page .trc 0 + 0x10 * k + (if mtch then trcOpMatch else trcOpCfg)
  if ini = levee ∨ (s.probeAuth ∧ s.owner off = ini) then s.regWrite ini off val (fun _ u => u)
  else (s.refuseSp ini off).answer .ok 0

/-- TRC_PRBSTAT: auth, and the pins driven. -/
def State.prbstatWord (s : State) : Word :=
  BitVec.ofNat 32 (b2n s.probeAuth + 2 ^ 16 * ((List.range 16).map (fun k =>
    2 ^ k * b2n (s.probeAuth && bit (s.reg (page .trc 1 + trcPrb + 4 * k)) 0))).sum)

/-- A write of TRC_PRBk: en is writable only while auth is 1 (R168). -/
def prbWrite (ini : Ini) (k : Nat) (val : Word) (s : State) : State :=
  let off := page .trc 1 + trcPrb + 4 * k
  s.regWrite ini off val (fun _ u => if s.probeAuth then u else u.modReg off (fun w => putBit w 0 (bit (s.reg off) 0)))

/-- The level of pin `k` after a pad-clock edge: high-impedance while it is not driven; in mode 1 high after any assertion since the edge
before; in mode 0 the level that the edge samples, which `now` stands for where the signal lasts one cycle of its own clock and has been
asserted since the edge before (R167, R168). DEDUCED: a signal that stands at 1 counts as asserted. -/
def State.pinLevel (s : State) (now : Bool) (k : Nat) : Option Bool :=
  let w := s.prbCfg k
  let seen := (tget {} s.integ.prb k).seen
  if s.probeAuth && bit w 0 then some ((s.probeSignal k || (seen && (bit w 1 || now))) != bit w 24) else none

/-- One pin at a pad-clock edge: a signal that may have lasted only one cycle is sampled as a free value. -/
def State.pinEdge (s : State) (k : Nat) : State :=
  let p := tget {} s.integ.prb k
  let (n, s1) := if p.seen && !bit (s.prbCfg k) 1 then s.freeNat 2 else (0, s)
  { s1 with integ := { s1.integ with prb := tset {} s1.integ.prb k { level := s.pinLevel (n == 1) k } } }

/-- A pad-clock edge: every probe pin updates (R168). -/
def State.padEdge (s : State) : State := (List.range 16).foldl State.pinEdge s

/-! ### The commands -/

/-- SCRUB_SLOT (R152). A scrub slot starts, reads one frame and decodes it. -/
def execScrubSlot (ups : List (Fin 49152 × Fin 1080)) (s : State) : Out :=
  .next (s.gate (scrubSlot ups s))

/-- REGION_HOLD (R154). A critical region holds at its first edge after the uncorrectable report crosses its bridge. -/
def execRegionHold (r : Region) (s : State) : Out :=
  .next (s.gate (regionHold r.val s))

/-- HOLD_CLEAR (R154). A write of 1 to an FCC_SCRHOLD bit clears the region's hold. -/
def execHoldClear (ini : Ini) (val : Word) (s : State) : Out :=
  .next (s.gate (holdClear ini val s))

/-- CANARY_SLOT (R156). The canary slot reads the canary frame and checks the expected reports. -/
def execCanarySlot (ups : List (Fin 1080)) (s : State) : Out :=
  .next (s.gate (canarySlot ups s))

/-- SCRUB_PASS_TIMEOUT (R157). A pass that does not end within twice its length raises self-fault cause 0x4. -/
def execScrubPassTimeout (s : State) : Out :=
  .next (s.gate (scrubPassTimeout s))

/-- TMR_VOTE_FIX (R158). A voted copy that differs from the vote is rewritten, or a double upset reloads the reset values. -/
def execTmrVoteFix (reg : Fin 3) (f0 f1 f2 : Word) (s : State) : Out :=
  .next (s.gate (tmrVoteFix reg.val f0 f1 f2 s))

/-- UCQ_POP (R153). A write of FCC_UCQCTL.pop removes the oldest uncorrectable-queue entry. -/
def execUcqPop (ini : Ini) (val : Word) (s : State) : Out :=
  .next (s.gate (ucqPop ini val s))

/-- CAPTURE_ARM (R160). A write of CTRL.arm checks and arms a capture of the named regions. -/
def execCaptureArm (ini : Ini) (val : Word) (s : State) : Out :=
  .next (s.gate (captureArm ini val s))

/-- CAPTURE_CANCEL (R163). A write of CTRL.cancel ends an armed capture that has frozen no region. -/
def execCaptureCancel (ini : Ini) (val : Word) (s : State) : Out :=
  .next (s.gate (captureCancel ini val s))

/-- ANCHOR_FREEZE (R161). The anchor region freezes on arm or at the match cycle. -/
def execAnchorFreeze (s : State) : Out :=
  .next (s.gate (anchorFreeze s))

/-- REGION_FREEZE (R161). Each other named region freezes when the freeze signal reaches it. -/
def execRegionFreeze (r : Region) (s : State) : Out :=
  .next (s.gate (regionFreeze r.val s))

/-- CAPTURE_DONE (R164). The FCC finishes writing every section and the capture ends OK. -/
def execCaptureDone (s : State) : Out :=
  .next (s.gate (captureDone s))

/-- PROBE_AUTH_FALL (R167). When probe authorisation falls every probe enable clears and the pins go high-impedance. -/
def execProbeAuthFall (s : State) : Out :=
  .next (s.gate (probeAuthFall s))

end Sys2Proof.Machine
end

