-- ==== Sys2Proof/Machine/Media.lean ====
section
/-!
DEFINITION. Media channels (chapter 9): descriptors and media command programs, training, read levels and patrol, defect
bitmap, AES-XTS and key slots, write-inhibit, the torn-operation log and the media guard.
-/
namespace Sys2Proof.Machine

/-- Channel `m`, its page, and MED common's page. -/
def State.medch (s : State) (m : Nat) : MedSt := tget {} s.med m
def State.modMed (s : State) (m : Nat) (f : MedSt → MedSt) : State := { s with med := tset {} s.med m (f (s.medch m)) }
def medPage (m : Nat) : Nat := page .med m
def medcPg : Nat := page .medc 0
/-- The initiator identifier of channel `m` (R27). -/
def medIni (m : Nat) : Ini := BitVec.ofNat 8 (0xA0 + m)

/-! ### Descriptor fields (R198) -/

def MedDesc.w (d : MedDesc) (i : Nat) : Word := d.words.getD i 0
def MedDesc.prog (d : MedDesc) : Nat := fld (d.w 0) 0 11
/-- 0 read, 1 program, 2 erase, 3 maintenance. -/
def MedDesc.class (d : MedDesc) : Nat := fld (d.w 0) 11 2
def MedDesc.tier (d : MedDesc) : Nat := fld (d.w 0) 13 2
def MedDesc.ce (d : MedDesc) : Nat := fld (d.w 0) 15 3
/-- ce × 4 + lun. -/
def MedDesc.lun (d : MedDesc) : Nat := 4 * d.ce + fld (d.w 0) 18 2
def MedDesc.planes (d : MedDesc) : Nat := fld (d.w 0) 20 2 + 1
def MedDesc.enc (d : MedDesc) : Bool := bit (d.w 0) 22
def MedDesc.guard (d : MedDesc) : Bool := bit (d.w 0) 23
def MedDesc.queue (d : MedDesc) : Nat := fld (d.w 0) 24 7
def MedDesc.row (d : MedDesc) : Word := d.w 1
def MedDesc.keyslot (d : MedDesc) : Nat := fld (d.w 2) 0 6
def MedDesc.cwmask (d : MedDesc) : Nat := fld (d.w 2) 6 4
def MedDesc.step (d : MedDesc) : Nat := fld (d.w 2) 10 4
def MedDesc.rlg (d : MedDesc) : Nat := fld (d.w 2) 14 10
def MedDesc.cookie (d : MedDesc) : Nat := fld (d.w 3) 0 16
/-- The 16 metadata bytes of words 4 to 7. -/
def MedDesc.meta (d : MedDesc) : List Byte := (List.range 4).flatMap (fun i => bytesOf 4 (d.w (4 + i)).toNat)
/-- The MGD memory address of words 4 and 5. -/
def MedDesc.guardAddr (d : MedDesc) : Nat := (d.w 4).toNat + 2 ^ 32 * (d.w 5).toNat

/-- The running descriptor of LUN `l`. -/
def State.running (s : State) (m l : Nat) : Option MedDesc := (s.medch m).pool.find? (fun d => d.started && d.lun == l)

/-- Update the first descriptor that meets `p`. -/
def modFirst (p : MedDesc → Bool) (f : MedDesc → MedDesc) : List MedDesc → List MedDesc
  | [] => []
  | d :: t => if p d then f d :: t else d :: modFirst p f t

/-- Update the first descriptor of the pool that meets `p`. -/
def State.modDesc (s : State) (m : Nat) (p : MedDesc → Bool) (f : MedDesc → MedDesc) : State :=
  s.modMed m (fun x => { x with pool := modFirst p f x.pool })

/-- Update the running descriptor of LUN `l`. -/
def State.modRun (s : State) (m l : Nat) (f : MedDesc → MedDesc) : State := s.modDesc m (fun d => d.started && d.lun == l) f

/-- What is reported of LUN `l`, and its update. -/
def State.lunSt (s : State) (m l : Nat) : LunSt := tget {} (s.medch m).luns l
def State.modLun (s : State) (m l : Nat) (f : LunSt → LunSt) : State :=
  s.modMed m (fun x => { x with luns := tset {} x.luns l (f (tget {} x.luns l)) })

/-! ### Write-inhibit (R214, R418) -/

/-- LVE_WINHSTAT: the hardware sources that hold every line. -/
def State.winhSources (s : State) : Nat :=
  b2n s.lve.lockstep + 2 * b2n (decide (4 ≤ s.pmu.drain)) +
    4 * b2n (bit (s.reg (scrPg + fccInteg)) 0 && bit (s.reg (page .lve 0 + lveWinhcfg)) 0) + 8 * b2n s.lve.lifeCycle

/-- The inhibit line of channel `m` (R418). -/
def State.inhibit (s : State) (m : Nat) : Bool := bit (s.reg (page .lve 0 + lveWinh)) m || s.winhSources != 0

/-- MED_INHIBIT. -/
def State.inhibitWord (s : State) : Word := BitVec.ofNat 32 (((List.range 32).map (fun m => 2 ^ m * b2n (s.inhibit m))).sum)

/-- A committed operation of the channel is short of ready. -/
def MedSt.committed (x : MedSt) : Bool := x.pool.any (fun d => d.driven && d.entry.isSome)

/-- A channel whose line was asserted in `s` and is released in `t` releases WP_N (R214). -/
def State.inhibitEnd (t s : State) : State :=
  (List.range 32).foldl (fun u m =>
    if s.inhibit m && !t.inhibit m then u.modMed m (fun x => { x with wpLow := false }) else u) t

/-- A write of LVE_WINH or LVE_WINHCFG (R418). -/
def winhWrite (ini : Ini) (off : Nat) (val : Word) (s : State) : State := s.regWrite ini off val (fun _ u => u.inhibitEnd s)

/-- INTEG_CLEAR: a cleared unverified bit may release the lines (R159, R418). -/
def integClear (ini : Ini) (val : Word) (s : State) : State := (integClearAct ini val s).inhibitEnd s

/-- INHIBIT_ASSERT: the levee asserts the line of channel `m` by its bit of LVE_WINH (R214, R418). A new assertion begins with WP_N high; a
standing one goes on. -/
def inhibitAssert (m : Nat) (s : State) : State :=
  let s1 := s.modReg (page .lve 0 + lveWinh) (fun w => setBit w m)
  if s.inhibit m then s1 else s1.modMed m (fun x => { x with wpLow := false })

/-- WP_ASSERT: WP_N goes low once no committed operation is short of ready, or 32 ms after the assertion (R214). -/
def wpAssert (m : Nat) (late : Bool) (s : State) : State :=
  if s.inhibit m && (late || !(s.medch m).committed) then s.modMed m (fun x => { x with wpLow := true }) else s

/-! ### Torn-operation log (R215) -/

/-- Entry `e`. -/
def State.tornEnt (s : State) (e : Nat) : TornEnt := tget {} s.aon.torn e
def State.modTorn (s : State) (e : Nat) (f : TornEnt → TornEnt) : State :=
  { s with aon := { s.aon with torn := tset {} s.aon.torn e (f (s.tornEnt e)) } }
/-- A FREE entry: which of several is not stated (R215). -/
def State.tornFree (s : State) : Option Nat :=
  match (List.range 64).filter (fun e => (s.tornEnt e).state == .free) with
  | [] => none
  | [e] => some e
  | l => l[Config.tornPick s.fresh s.aon.seq.toNat % l.length]?
/-- A live ISSUED entry. -/
def TornEnt.open (e : TornEnt) : Bool := e.live && e.state == .issued

/-- The AON writes an ISSUED entry for a commit (R205, R215). -/
def State.tornIssue (s : State) (e m : Nat) (d : MedDesc) : State :=
  let s1 := s.modTorn e (fun _ => { state := .issued, live := true, erase := d.class == 2, chan := m, lun := d.lun, mgd := false
                                    seq := s.aon.seq, row := d.row, sec := BitVec.ofNat 32 (fld s.aon.time 15 32)
                                    frac := fld s.aon.time 0 15, st := 0, npl := d.planes - 1 })
  { s1 with aon := { s1.aon with seq := s1.aon.seq + 1 } }

/-- Word `i` of an entry (R215). -/
def TornEnt.word (e : TornEnt) (i : Nat) : Word :=
  let code : Nat := match e.state with
    | .free => 0 | .issued => 1 | .void => 2 | .pollOk => 3 | .pollFail => 4 | .timeout => 5
  match i with
  | 0 => BitVec.ofNat 32 (code + 2 ^ 3 * b2n e.live + 2 ^ 4 * b2n e.erase + 2 ^ 5 * e.chan + 2 ^ 10 * (e.lun / 4) + 2 ^ 13 * (e.lun % 4)
      + 2 ^ 15 * b2n e.mgd + 2 ^ 16 * e.seq.toNat)
  | 1 => e.row
  | 2 => e.sec
  | _ => BitVec.ofNat 32 (e.frac + 2 ^ 16 * e.st.toNat + 2 ^ 24 * e.npl)

/-- AON_TLDi and AON_TLSTAT. -/
def State.tldWord (s : State) (i : Nat) : Word := (s.tornEnt (fld (s.reg (page .aon 0 + aonTlsel)) 0 6)).word i
def State.tlstatWord (s : State) : Word :=
  BitVec.ofNat 32 (((List.range 64).filter (fun e => (s.tornEnt e).state == .free)).length + 2 ^ 16 * s.aon.seq.toNat)

/-- TORN_LOG_FREE: AON_TLCTRL.free frees the selected entry unless it is live (R217). -/
def tornLogFree (ini : Ini) (val : Word) (s : State) : State :=
  s.regWrite ini (page .aon 0 + aonTlctrl) val (fun v u =>
    if bit v 0 then
      let e := fld (u.reg (page .aon 0 + aonTlsel)) 0 6
      if (u.tornEnt e).live then u.raise (page .aon 0) 8 else u.modTorn e (fun x => { x with state := .free })
    else u)

/-! ### The program store (R202) -/

/-- What an entry holds after a cold reset: the ROM set in page A's first 64, else END with PROGERR. The page-read program's
entries are the spec's, the feature address of its RLSET apart (R205). -/
def progReset (k : Nat) : DWord :=
  match k with
  | 0x010 => BitVec.ofNat 64 (0x07 + 2 ^ 8 * fld (Config.medRom 0x010) 8 8)
  | 0x011 => 0x0000000000000001
  | 0x012 => 0x0000000000050002
  | 0x013 => 0x0000000000003001
  | 0x014 => 0x0000000000000003
  | 0x015 => 0x000107D001407804
  | 0x016 => 0x0000000000000001
  | 0x017 => 0x0000000000000005
  | 0x018 => 0x000000000000000F
  | _ => if k < 64 then Config.medRom k else 0x080F

/-- Instruction `i` of a page. -/
def State.medProg (s : State) (pg : Bool) (i : Nat) : DWord :=
  if i < 1024 ∨ Config.programWrap then tget (progReset (1024 * b2n pg + i % 1024)) s.medc.prog (1024 * b2n pg + i % 1024) else Config.programPast i

/-- The channels that still run on the other page (MED_PSTAT). -/
def State.pstatWord (s : State) : Word :=
  BitVec.ofNat 32 (((List.range 32).map (fun m =>
    2 ^ m * b2n ((s.medch m).pool.any (fun d => d.started && d.pg != s.medc.active)))).sum)

/-- PROGRAM_LOAD: MED_PLCTL.go (R202). -/
def programLoad (ini : Ini) (val : Word) (s : State) : State :=
  s.regWrite ini (medcPg + medPlctl) val (fun v u =>
    if bit v 31 then
      if s.pstatWord ≠ 0 ∨ s.medc.load.isSome then u.modReg (medcPg + medPlstat) (fun w => setBit w 1)
      else
        let src := u.reg64 (medcPg + medPlsrc)
        ({ u with medc := { u.medc with load := some (!u.medc.active, fld v 0 10, fld v 10 10 + 1, src) } }).modReg
          (medcPg + medPlstat) (fun w => setBit w 0)
    else u)

/-- PROGRAM_LOAD_DONE: the copied instructions stand in the page (R202); entries past the page's end are dropped. DESIGN CHOICE: MGD, whose
NI is that of MED common, reads them, once the memory takes the read; what it refuses comes back zero. -/
def programLoadDone (s0 : State) : State :=
  match s0.medc.load with
  | none => s0
  | some (pg, first, n, src) =>
    match s0.memRead 0x35 (src / 8 * 8) (8 * n) with
    | (s, st, l) =>
    if st = .drowse then { s with hold := s.hold.or (some .net) } else
    let put := fun (t : Tbl DWord) (i : Nat) =>
      if first + i < 1024 ∨ Config.programWrap then
        tset (progReset (1024 * b2n pg + (first + i) % 1024)) t (1024 * b2n pg + (first + i) % 1024) (BitVec.ofNat 64 (ofBytes (sliceBytes l (8 * i) 8)))
      else t
    ({ s with medc := { s.medc with load := none, prog := (List.range n).foldl put s.medc.prog } }).modReg
      (medcPg + medPlstat) (fun w => clrBit w 0)

/-- PROGRAM_SWAP: MED_PCTRL.swap (R202). -/
def programSwap (ini : Ini) (val : Word) (s : State) : State :=
  s.regWrite ini (medcPg + medPctrl) val (fun v u => if bit v 1 then { u with medc := { u.medc with active := !u.medc.active } } else u)

/-! ### Key slots (R210) -/

/-- A write of a key register by any initiator other than SEC is an owner violation. -/
def State.keyGuard (s : State) (ini : Ini) (off : Nat) (act : State → State) : State :=
  if ini = 0x34 then (act s).answer .ok 0 else (s.violate medcPg 1 ini off true).answer .ok 0

/-- KEY_SLOT_ERASE: a write of MED_KEYSEL: the slot of the staged key, emptied with erase. -/
def keySlotErase (ini : Ini) (val : Word) (s : State) : State :=
  s.keyGuard ini (medcPg + medKeysel) (fun u =>
    let u1 := { u with medc := { u.medc with slot := fld val 0 6 } }
    if bit val 8 then { u1 with medc := { u1.medc with keys := tset none u1.medc.keys (fld val 0 6) none } } else u1)

/-- A write of MED_KEYk: staged; that of MED_KEY15 installs the slot and clears the staging words. -/
def medKeyWrite (ini : Ini) (k : Nat) (val : Word) (s : State) : State :=
  s.keyGuard ini (medcPg + medKey + 4 * k) (fun u =>
    if k = 15 then
      let key : BitVec 512 := BitVec.ofNat 512 (ofWords ((List.range 15).map (fun i => tget 0 u.medc.stage i) ++ [val]))
      { u with medc := { u.medc with keys := tset none u.medc.keys u.medc.slot (some key), stage := [] } }
    else { u with medc := { u.medc with stage := tset 0 u.medc.stage k val } })

/-- KEY_INSTALL. -/
def keyInstall (ini : Ini) (val : Word) (s : State) : State := medKeyWrite ini 15 val s

/-- Every key slot empties (R210). -/
def State.emptyKeySlots (s : State) : State := { s with medc := { s.medc with keys := [] } }

/-- MED_KEYSTAT. -/
def State.keystatWord (s : State) : DWord :=
  BitVec.ofNat 64 (((List.range 64).map (fun k => 2 ^ k * b2n (tget none s.medc.keys k).isSome)).sum)

/-! ### Ending a descriptor (R200) -/

/-- A queue takes a packet of this producer now, or discards it because it is disabled. -/
def State.queueGoes (s : State) (q : Nat) (src : Ini) : Bool := (State.spillRoom q 512 s).queueReach q src

/-- The eight words of the completion record (R200). -/
def State.medRecord (s : State) (d : MedDesc) (st : Nat) : Line :=
  let one := fun c => min 0xFFFF (tget 0 d.ones c)
  BitVec.ofNat 512 (ofWords [
    BitVec.ofNat 32 (d.cookie + 2 ^ 16 * st + 2 ^ 24 * d.ce + 2 ^ 27 * (d.lun % 4) + 2 ^ 29 * b2n d.patrol),
    d.row,
    BitVec.ofNat 32 (d.us + 2 ^ 16 * d.st.toNat + 2 ^ 24 * d.step),
    BitVec.ofNat 32 (one 0 + 2 ^ 16 * one 1), BitVec.ofNat 32 (one 2 + 2 ^ 16 * one 3),
    BitVec.ofNat 32 (fld s.aon.time 15 32)])

/-- An ended descriptor leaves the pool with its completion record, events and counts, as soon as the queue takes the
record (R200). -/
def State.medClose (s : State) (m l : Nat) : State :=
  match s.running m l with
  | some d =>
    match d.phase with
    | .ended st =>
      let cq := fld (s.reg (medPage m + medCfg)) 0 7
      if s.queueGoes cq (medIni m) then
        let s1 := s.modMed m (fun x => { x with pool := x.pool.eraseP (fun e => e.started && e.lun == l) })
        let s2 := ((s1.queueRecord cq (medIni m) 0 8 (s.medRecord d st)).countFlit (medIni m) 0 true true false).raise (medPage m) 0
        let s3 := if d.class < 3 then s2.countUp (medPage m + medCnt + 4 * d.class) 0 32 1 else s2
        let s4 := if st = 0 then s3 else (s3.countUp (medPage m + medCnt + 12) 0 32 1).raise (medPage m) 1
        if st = 3 then s4.raise (medPage m) 6 else s4
      else s
    | _ => s
  | none => s

/-- The running descriptor of LUN `l` ends with status `st`; it gives the bus up. -/
def State.medFinish (s : State) (m l st : Nat) : State :=
  ((s.modRun m l (fun d => { d with phase := .ended st })).modMed m (fun x =>
    { x with bus := if x.bus = some l then none else x.bus })).medClose m l

/-! ### The instruction at a descriptor's position -/

/-- Ready to drive the bus (R199). -/
def MedDesc.wantsBus (d : MedDesc) : Bool :=
  d.started && (d.phase == .ready || d.phase == .entry || d.phase == .din || d.phase == .dout)

/-- The LUN that the bus is granted to next: round-robin order of (ce, lun), patrol only when no other is ready (R199). -/
def MedSt.nextGrant (x : MedSt) : Option Nat :=
  let ready := x.pool.filter (fun d => d.wantsBus)
  let l := if ready.any (fun d => !d.patrol) then ready.filter (fun d => !d.patrol) else ready
  ((List.range 32).map (fun i => (x.last + 1 + i) % 32)).find? (fun n => l.any (fun d => d.lun == n))

/-- LUN `l` may drive the bus: it holds it, or the bus is free and it is next. -/
def MedSt.busFor (x : MedSt) (l : Nat) : Bool :=
  match x.bus with
  | some h => h == l
  | none => x.nextGrant == some l

/-- The instruction of a descriptor. -/
def State.medInstr (s : State) (d : MedDesc) : DWord := s.medProg d.pg d.pc

/-- The opcodes of R203. -/
def medOpcodes : List Nat := [0x01, 0x02, 0x03, 0x04, 0x05, 0x06, 0x07, 0x08, 0x09, 0x0A, 0x0F]

/-- The channel's balls are driven: MEDn_CTRL.en (R195); the part is powered and out of reset whenever a command acts. -/
def State.medEn (s : State) (m : Nat) : Bool := bit (s.reg (medPage m + Machine.medCtrl)) 0

/-- What is on the balls of channel `m`: none while they are high-impedance, else the level of WP_N and the cycles driven last (R195, R214). -/
def State.medBalls (s : State) (m : Nat) : Option (Bool × List FlashCyc) :=
  if s.powered && s.medEn m then some (!(s.inhibit m && (s.medch m).wpLow), (s.medch m).cyc) else none

/-- The running descriptor of LUN `l` when it may run an instruction of opcode `op` in one of the phases `ph` now; a warm
reset's deferral stops every channel (R216), and a disabled channel drives nothing (R195). -/
def State.atInstr (s : State) (m l op : Nat) (ph : List MPhase) : Option MedDesc :=
  match s.running m l with
  | some d =>
    if ph.contains d.phase && fld (s.medInstr d) 0 8 == op && (s.medch m).busFor l && !(s.medch m).training && !s.mgd.stop && s.medEn m then
      some d
    else none
  | none => none

/-- An instruction of LUN `l` is granted the bus and has driven `c`. -/
def State.drive (s : State) (m l : Nat) (c : List FlashCyc) : State :=
  s.modMed m (fun x => { x with bus := some l, last := l, cyc := c })

/-- The boundary before the descriptor's next instruction: an abort without a committed operation takes effect (R221), a
reserved opcode ends with PROGERR (R203). -/
def State.medBoundary (s : State) (m l : Nat) : State :=
  match s.running m l with
  | some d =>
    if d.abort && d.entry.isNone then s.medFinish m l 5
    else if !medOpcodes.contains (fld (s.medInstr d) 0 8) then s.medFinish m l 8 else s
  | none => s

/-- The descriptor goes on to its next instruction. -/
def State.medNext (s : State) (m l : Nat) : State :=
  (s.modRun m l (fun d => { d with pc := d.pc + 1, phase := .ready })).medBoundary m l

/-- A WAIT or POLL with yield gives the bus up (R199). -/
def State.yieldBus (s : State) (m : Nat) (y : Bool) : State := if y then s.modMed m (fun x => { x with bus := none }) else s

/-! ### Submission and start -/

/-- A descriptor enters the pool (R198). -/
def State.submit (s : State) (m : Nat) (d : MedDesc) : State := s.modMed m (fun x => { x with pool := x.pool ++ [d] })

/-- DESCRIPTOR_SUBMIT: a write of MEDn_CMDGO (R198). -/
def descriptorSubmit (ini : Ini) (m : Nat) (val : Word) (s : State) : State :=
  s.regWrite ini (medPage m + medCmdgo) val (fun v u =>
    if bit v 0 then
      if 64 ≤ (u.medch m).pool.length ∨ bit (u.reg (medPage m + medCtrl)) 0 = false then u.raise (medPage m) 5
      else u.submit m { words := (List.range 8).map (fun i => u.reg (medPage m + medCmd + 4 * i)) }
    else u)

/-- The channel is in SDR (R193). -/
def State.sdr (s : State) (m : Nat) : Bool := fld (s.reg (medPage m + medIfcfg)) 0 2 == 0

/-- Bit of the bad-block bitmap for a descriptor (R213), and the state that has read it. Where the bitmap's address does not
answer OK the bit is a free value. -/
def State.badBlock (s : State) (m : Nat) (d : MedDesc) : Bool × State :=
  let g := s.reg (medPage m + medGeom)
  let block := (d.row.toNat / 2 ^ fld g 0 5) % 2 ^ fld g 5 5
  let b := d.lun * 2 ^ fld g 5 5 + block
  match s.memRead (medIni m) (s.reg64 (medPage m + medBbbase) + b / 8) 1 with
  | (s1, .ok, [x]) => (bit x (b % 8), s1)
  | (s1, _, _) => let (v, s2) := s1.freeNat 2; (v == 1, s2)

/-- The status with which a descriptor ends at its start, if any (R194, R201, R209, R213). -/
def State.startStatus (s : State) (m : Nat) (d : MedDesc) : Option Nat × State :=
  if (s.sdr m && d.class != 3) || (d.enc && d.guard) then (some 8, s)
  else if bit (s.medch m).untrained d.ce then (some 0xB, s)
  else if d.enc && (tget none s.medc.keys d.keyslot).isNone then (some 9, s)
  else if d.class = 1 ∨ d.class = 2 then
    let (b, s1) := s.badBlock m d
    (if b then some 4 else none, s1)
  else (none, s)

/-- The die temperature that the PMU reads (R390). -/
def State.dieTemp (s : State) : Int := sx 8 (fld (s.reg (page .pmu 2 + pmuTempmax)) 0 8)

/-- The die temperature is 15 °C or more from that of the last training of target `ce` (R197). -/
def State.tempDue (s : State) (m ce : Nat) : Bool :=
  match tget none (s.medch m).ttemp ce with
  | some t => decide (15 ≤ (s.dieTemp - t).natAbs)
  | none => false

/-- A retrain of target `ce` is due (R197). -/
def State.retrainDue (s : State) (m ce : Nat) : Bool := bit (s.medch m).retrain ce || s.tempDue m ce

/-- DESCRIPTOR_START: the oldest waiting descriptor of LUN `l` starts: it latches its key and program page, and the checks
before any bus cycle are made (R199, R202, R210). A retrain due for its target runs first, and an abort that came before its start ends it (R221). -/
def descriptorStart (m l : Nat) (s : State) : State :=
  let x := s.medch m
  match x.pool.find? (fun d => d.lun == l) with
  | some d =>
    if d.started || s.retrainDue m d.ce || x.training || s.mgd.stop || !s.mediaClock m then s
    else if d.abort then (s.modDesc m (fun e => e.lun == l) (fun e => { e with started := true })).medFinish m l 5
    else
      let key := if d.enc then tget none s.medc.keys d.keyslot else none
      let s1 := s.modDesc m (fun e => e.lun == l) (fun e => { e with started := true, pg := s.medc.active, pc := e.prog, key := key })
      let (st, s2) := s1.startStatus m d
      match st with
      | some c => s2.medFinish m l c
      | none => s2.medBoundary m l
  | none => s

/-! ### Instructions -/

/-- MED_CMD: a command cycle (R203); with commit, steps 1 and 2 of R205; an abort that came while it waited
for a free entry leaves none (R221). -/
def medCmdStep (m l : Nat) (s : State) : State :=
  match s.atInstr m l 0x01 [.ready, .entry] with
  | none => s
  | some d =>
    let b : Byte := BitVec.ofNat 8 (fld (s.medInstr d) 8 8)
    if !bit (s.medInstr d) 16 then (s.drive m l [.cmd b]).medNext m l
    else if d.class = 0 ∨ d.class = 3 then s.medFinish m l 8
    else if d.abort then s.medFinish m l 5
    else match s.tornFree with
      | some e => ((s.drive m l []).tornIssue e m d).modRun m l (fun x => { x with phase := .ack, entry := some e })
      | none =>
        let s1 := (s.drive m l []).modRun m l (fun x => { x with phase := .entry })
        if d.phase = .entry then s1 else s1.raise (medPage m) 4

/-- TORN_LOG_ACK: steps 3 and 4 of R205. An abort before the commit withdraws the entry (R221). -/
def tornLogAck (m l : Nat) (s : State) : State :=
  match s.running m l with
  | some d =>
    match d.entry with
    | some e =>
      if d.phase ≠ .ack ∨ s.mgd.stop ∨ s.medEn m = false then s
      else if d.abort then ((s.modTorn e (fun x => { x with state := .free, live := false })).modRun m l
          (fun x => { x with entry := none })).medFinish m l 5
      else if s.inhibit m then ((s.modTorn e (fun x => { x with state := .void, live := false })).modRun m l
          (fun x => { x with entry := none })).medFinish m l 3
      else
        (((s.drive m l [.cmd (BitVec.ofNat 8 (fld (s.medInstr d) 8 8))]).modRun m l (fun x => { x with driven := true })).modLun m l
          (fun x => { x with busy := true })).medNext m l
    | none => s
  | none => s

/-- The row with the current plane inserted (R203). -/
def State.planeRow (s : State) (m : Nat) (d : MedDesc) : Nat :=
  (d.row.toNat + d.plane * 2 ^ fld (s.reg (medPage m + medGeom)) 10 5) % 2 ^ 32

/-- MED_ADDR (R203): the column of an ADDR instruction is 0. -/
def medAddr (m l : Nat) (s : State) : State :=
  match s.atInstr m l 0x02 [.ready] with
  | none => s
  | some d =>
    let i := s.medInstr d
    let row := bytesOf 4 (s.planeRow m d)
    let src := match fld i 19 3 with
      | 0 => bytesOf 2 0 ++ row
      | 1 => row
      | 2 => bytesOf 2 0
      | _ => bytesOf 5 (fld i 24 40)
    (s.drive m l [.addr (src.take (fld i 16 3))]).medNext m l

/-- MED_WAIT (R203). -/
def medWait (m l : Nat) (s : State) : State :=
  match s.atInstr m l 0x03 [.ready] with
  | none => s
  | some d => ((s.drive m l []).modRun m l (fun x => { x with phase := .wait })).yieldBus m (bit (s.medInstr d) 16)

/-- MED_WAIT_DONE (R203). -/
def medWaitDone (m l : Nat) (s : State) : State :=
  match s.running m l with
  | some d => if d.phase = .wait ∧ s.mgd.stop = false then s.medNext m l else s
  | none => s

/-- MED_POLL (R203). -/
def medPoll (m l : Nat) (s : State) : State :=
  match s.atInstr m l 0x04 [.ready] with
  | none => s
  | some d =>
    let i := s.medInstr d
    (((s.drive m l [.cmd (BitVec.ofNat 8 (fld i 8 8))]).modRun m l (fun x => { x with phase := .poll })).modLun m l
      (fun x => { x with busy := true })).yieldBus m (bit i 48)

/-- The block of the current plane's row, as the key of `tiers` (R213). -/
def State.blockKey (s : State) (m : Nat) (d : MedDesc) : Nat :=
  let g := s.reg (medPage m + medGeom)
  2 ^ 32 * d.lun + (s.planeRow m d / 2 ^ fld g 0 5) % 2 ^ fld g 5 5

/-- An erase has succeeded: the block of each plane has the descriptor's tier until its next erase (R226). -/
def State.eraseTier (s : State) (m : Nat) (d : MedDesc) : State :=
  let put := fun (t : Tbl Nat) (p : Nat) => tset 0 t (s.blockKey m { d with plane := p }) (d.tier + 1)
  s.modMed m (fun x => { x with tiers := (List.range d.planes).foldl put x.tiers })

/-- POLL_SAMPLE: a status byte; `us` is the array's busy time so far. Ready: the torn-log entry is FREE, then an abort, a
fail-mask bit or the next instruction (R203, R205, R221). -/
def pollSample (m l : Nat) (status : Byte) (us : BitVec 16) (s : State) : State :=
  match s.running m l with
  | some d =>
    let i := s.medInstr d
    let rm := fld i 16 8
    let fm := fld i 24 8
    if d.phase ≠ .poll ∨ s.mgd.stop then s
    else if Nat.land status.toNat rm ≠ rm then s.modLun m l (fun x => { x with status := status })
    else
      let s1 := match d.entry with
        | some e => s.modTorn e (fun x => { x with state := .free, live := false })
        | none => s
      let s2 := (s1.modRun m l (fun x => { x with entry := none, driven := false, us := us.toNat, st := status })).modLun m l (fun x =>
        { x with busy := false, status := status, ops := x.ops + 1, last := us.toNat, longest := max x.longest us.toNat })
      let s3 := if d.class = 2 ∧ d.driven ∧ Nat.land status.toNat fm = 0 then s2.eraseTier m d else s2
      if d.abort then s3.medFinish m l 5
      else if Nat.land status.toNat fm ≠ 0 then s3.medFinish m l 1
      else s3.medNext m l
  | none => s

/-- POLL_TIMEOUT (R201, R205). -/
def pollTimeout (m l : Nat) (us : BitVec 16) (s : State) : State :=
  match s.running m l with
  | some d =>
    if d.phase ≠ .poll ∨ s.mgd.stop then s
    else
      let s1 := match d.entry with
        | some e => s.modTorn e (fun x => { x with state := .timeout, live := false })
        | none => s
      (s1.modRun m l (fun x => { x with entry := none, driven := false, us := us.toNat, st := (s.lunSt m l).status })).medFinish m l 2
  | none => s

/-- Stored stride and packet length of a tier (R206). -/
def tierStride (t : Nat) : Nat := if t = 0 then 4432 else if t = 1 then 4560 else if t = 2 then 4688 else 4736
def tierPacket (t : Nat) : Nat := if t = 3 then 4752 else tierStride t

/-- The XTS tweak of codeword `c` (R209). -/
def State.tweak (s : State) (m c : Nat) (d : MedDesc) : BitVec 128 :=
  BitVec.ofNat 128 (c + 2 ^ 2 * s.planeRow m d + 2 ^ 34 * (d.lun % 4) + 2 ^ 36 * d.ce + 2 ^ 39 * m)

/-- One bits of bytes. -/
def onesOf (l : List Byte) : Nat := (l.map (fun b => ((List.range 8).map (fun i => nfld b.toNat i 1)).sum)).sum

/-- The read offsets that LUN `l` runs with are not all zero. -/
def State.offsetsOn (s : State) (m l : Nat) : Bool := (((s.lunSt m l).applied).getD 0) != 0

/-- The flits of one packet in 64-bit items with explicit framing (R172, R208). -/
def packetFlits (tag flags : Nat) (l : List Byte) : List (BitVec 16 × Line) :=
  let n := (l.length + 63) / 64
  (List.range n).map (fun i =>
    let bytes := (l.drop (64 * i)).take 64
    let last := i + 1 = n
    (BitVec.ofNat 16 (b2n (i == 0) + 2 * b2n last + 4 * ((bytes.length + 7) / 8) + 2 ^ 7 * tag + (if last then 2 ^ 10 * flags else 0)),
      lineOfBytes bytes))

/-- The tier at which the block was last erased; the descriptor's own for a block of which the model knows no erase (R226). -/
def State.blockTier (s : State) (m : Nat) (d : MedDesc) : Nat :=
  match tget 0 (s.medch m).tiers (s.blockKey m d) with
  | 0 => d.tier
  | t + 1 => t

/-- The packet of codeword `c` from its stored bytes: decrypted, with the implicit metadata inserted at T3 (R207 to R209). Its tag is the
descriptor's tier; DEDUCED: its length is that of the block's tier, so that a read under the wrong tier has the wrong length (R226). -/
def State.readPacket (s : State) (m c : Nat) (d : MedDesc) (stored : List Byte) : List (BitVec 16 × Line) :=
  let plain := match d.key with
    | some k => xtsDec k (s.tweak m c d) stored
    | none => stored
  let body := if d.tier = 3 then plain.take 4096 ++ d.meta ++ plain.drop 4096 else plain
  packetFlits d.tier (c + 4 * b2n (s.offsetsOn m d.lun) + 8 * b2n d.patrol)
    (if s.blockTier m d = d.tier then body else sliceBytes body 0 (tierPacket (s.blockTier m d)))

/-- Write the flits of a DIN to the queue as far as it takes them; what is left waits (R208). Each eighth flit from the end
ends a transaction of the channel's NI (R255, R267). -/
def State.dinPush (m l q : Nat) : List (BitVec 16 × Line) → State → State
  | [], s => (s.modRun m l (fun d => { d with flits := [] })).medNext m l
  | (cw, x) :: rest, s =>
    if s.queueReach q (medIni m) then
      State.dinPush m l q rest ((queueWriteFlit q (medIni m) cw x s).countFlit (medIni m) 0 true (rest.length % 8 == 0) false)
    else s.modRun m l (fun d => { d with phase := .din, flits := (cw, x) :: rest })

/-- A page with codec GUARD waits for MGD, in order of request (R216). -/
def State.queueMgd (s : State) (m l : Nat) : State := { s with mgd := { s.mgd with queue := s.mgd.queue ++ [(m, l)] } }

/-- The command pair and the column that DIN mode 1 sends before each codeword it reads out of sequence: one that does not follow the
codeword read before it, or the page's start (R203). -/
def State.columnCycles (s : State) (d : MedDesc) (cws : List Nat) : List FlashCyc :=
  let i := s.medInstr d
  (cws.filter (fun c => c != 0 && !cws.contains (c - 1))).flatMap (fun c =>
    [.cmd (BitVec.ofNat 8 (fld i 16 8)), .addr (bytesOf 2 (c * tierStride d.tier)), .cmd (BitVec.ofNat 8 (fld i 24 8))])

/-- MED_DIN: data from the flash; `page` holds the bytes that cross the bus: the page, or in mode 1 the codewords of cwmask
(R203, R208). With guard the page goes to MGD (R220). A DIN that waits for its queue goes on. -/
def medDin (m l : Nat) (page : List Byte) (s : State) : State :=
  match s.atInstr m l 0x05 [.ready, .din] with
  | none => s
  | some d =>
    if d.phase = .din then State.dinPush m l d.queue d.flits (s.drive m l [])
    else if d.guard then
      let s1 := (s.drive m l []).modRun m l (fun x => { x with phase := .mgd, page := sliceBytes page 0 18944 })
      s1.queueMgd m l
    else
      let mode1 := fld (s.medInstr d) 8 2 == 1
      let cws := (List.range 4).filter (fun c => !mode1 || nfld d.cwmask c 1 == 1)
      let sd := tierStride d.tier
      let get := fun (p : Nat × Nat) => sliceBytes page (if mode1 then p.2 * sd else p.1 * sd) sd
      let parts := cws.zipIdx.map (fun p => (p.1, get p))
      let s1 := (s.drive m l (if mode1 then s.columnCycles d cws else [])).modRun m l (fun x =>
        { x with ones := parts.foldl (fun t p => tset 0 t p.1 (onesOf p.2)) x.ones })
      State.dinPush m l d.queue (parts.flatMap (fun p => s.readPacket m p.1 d p.2)) s1

/-- Take whole words from a queue until its packet ends or nothing is readable; packets taken so far, and the partly taken
one. -/
def State.doutTake (q : Nat) : Nat → State → List (List Byte) → List Byte → State × List (List Byte) × List Byte
  | 0, s, ps, part => (s, ps, part)
  | n + 1, s, ps, part =>
    if ps.length = 4 then (s, ps, part)
    else match (s.queue q).take with
      | none => (s, ps, part)
      | some (w, tsf, x) =>
        let s1 := ((s.queueStep q x).flushEnd q)
        let part1 := part ++ bytesOf 64 w.toNat
        if bit tsf 1 then State.doutTake q n s1 (ps ++ [part1]) [] else State.doutTake q n s1 ps part1

/-- The fault of packet `c` of a program: FMTERR, METAMISM at T3, 0 when it is right (R207, R208). -/
def packetFault (d : MedDesc) (c : Nat) (p : List Byte) : Nat :=
  let w := ofBytes (p.take 4)
  if nfld w 0 14 ≠ tierPacket d.tier ∨ nfld w 14 3 ≠ d.tier ∨ nfld w 17 2 ≠ c then 7
  else if d.tier = 3 ∧ sliceBytes p (4 + 4096) 16 ≠ d.meta then 6 else 0

/-- The stored codeword of a program's packet (R206, R207, R209). -/
def State.storeCw (s : State) (m c : Nat) (d : MedDesc) (p : List Byte) : List Byte :=
  let body := sliceBytes p 4 (tierPacket d.tier)
  let plain := if d.tier = 3 then body.take 4096 ++ body.drop 4112 else body
  match d.key with
  | some k => xtsEnc k (s.tweak m c d) plain
  | none => plain

/-- MED_DOUT: one page to the flash, from the queue's four codeword packets, or with guard from MGD (R206 to R208, R220).
Until the four packets have been taken the instruction waits. -/
def medDout (m l : Nat) (s : State) : State :=
  match s.atInstr m l 0x06 [.ready, .dout] with
  | none => s
  | some d =>
    if d.guard then
      let s1 := (s.drive m l []).modRun m l (fun x => { x with phase := .mgd })
      s1.queueMgd m l
    else if !sqEn (s.sqCtl d.queue) || sqPush (s.sqCtl d.queue) then s
    else
      let (s1, ps, part) := State.doutTake d.queue 1024 (s.drive m l []) d.pkts d.part
      match ps.zipIdx.findSome? (fun p => if packetFault d p.2 p.1 = 0 then none else some (packetFault d p.2 p.1)) with
      | some st => s1.medFinish m l st
      | none =>
        if ps.length < 4 then s1.modRun m l (fun x => { x with phase := .dout, pkts := ps, part := part })
        else
          let cws := ps.zipIdx.map (fun p => s.storeCw m p.2 d p.1)
          let data := cws.flatten
          let pg := data ++ List.replicate (18944 - data.length) 0xFF
          ((s1.drive m l [.data pg]).modRun m l (fun x =>
            { x with pkts := [], part := [], ones := cws.zipIdx.foldl (fun t p => tset 0 t p.2 (onesOf p.1)) x.ones })).medNext m l

/-- o_k = table + retry, saturating at ±127 (R211). -/
def State.readOffsets (s : State) (m : Nat) (d : MedDesc) : BitVec 56 :=
  let a := tget 0 (s.medch m).rl d.rlg
  let b := if d.step = 0 then (0 : BitVec 56) else tget 0 s.medc.retry d.step
  BitVec.ofNat 56 (((List.range 7).map (fun k =>
    2 ^ (8 * k) * ((clampI (-127) 127 (sx 8 (fld a (8 * k) 8) + sx 8 (fld b (8 * k) 8))) % 256).toNat)).sum)

/-- MED_RLSET (R211). -/
def medRlset (m l : Nat) (s : State) : State :=
  match s.atInstr m l 0x07 [.ready] with
  | none => s
  | some d =>
    let o := s.readOffsets m d
    let a := fld (s.medInstr d) 8 8
    let bs := bytesOf 7 o.toNat
    let same := (s.lunSt m l).applied == some o
    let c := if same then [] else
      [FlashCyc.feat (BitVec.ofNat 8 a) (bs.take 4), FlashCyc.feat (BitVec.ofNat 8 (a + 1)) (bs.drop 4 ++ [0])]
    ((s.drive m l c).modLun m l (fun x => { x with applied := some o })).medNext m l

/-- MED_SETF (R203). -/
def medSetf (m l : Nat) (s : State) : State :=
  match s.atInstr m l 0x08 [.ready] with
  | none => s
  | some d =>
    let i := s.medInstr d
    (s.drive m l [.feat (BitVec.ofNat 8 (fld i 8 8)) (bytesOf 4 (fld i 16 32))]).medNext m l

/-- MED_LOOP: the body that follows runs once for each plane (R203). -/
def medLoop (m l : Nat) (s : State) : State :=
  match s.atInstr m l 0x09 [.ready] with
  | none => s
  | some d => ((s.drive m l []).modRun m l (fun x => { x with plane := 0, loop := some (d.pc + 1) })).medNext m l

/-- MED_ENDL (R203): an ENDL without a LOOP goes on. -/
def medEndl (m l : Nat) (s : State) : State :=
  match s.atInstr m l 0x0A [.ready] with
  | none => s
  | some d =>
    match d.loop with
    | some start =>
      if d.plane + 1 < d.planes then
        ((s.drive m l []).modRun m l (fun x => { x with plane := d.plane + 1, pc := start })).medBoundary m l
      else ((s.drive m l []).modRun m l (fun x => { x with plane := 0, loop := none })).medNext m l
    | none => (s.drive m l []).medNext m l

/-- MED_END: the END instruction's status; or the record of an ended descriptor whose queue had not taken it (R200). -/
def medEnd (m l : Nat) (s : State) : State :=
  match s.atInstr m l 0x0F [.ready] with
  | some d => s.medFinish m l (fld (s.medInstr d) 8 8)
  | none => s.medClose m l

/-! ### The channel's control register, interface and training -/

/-- The oldest descriptor of its LUN that an abort ends at once: not yet started, or at a boundary with no operation committed. -/
def MedSt.abortNow (x : MedSt) : Option MedDesc :=
  x.pool.find? (fun d => d.abort && x.pool.find? (fun e => e.lun == d.lun) == some d && (!d.started || (d.phase == .ready && d.entry.isNone)))

/-- The targets that a channel has trained, or tried to (R196). -/
def MedSt.known (x : MedSt) : BitVec 8 :=
  BitVec.ofNat 8 (((List.range 8).map (fun c => 2 ^ c * b2n (tget none x.ttemp c).isSome)).sum)

/-- A write of MEDn_CTRL: abort ends every descriptor at its next boundary, one behind a committed operation after it; retrain makes
every target due (R197, R221). -/
def State.medCtrl (s : State) (m : Nat) (v : Word) : State :=
  let s1 := if bit v 2 then s.modMed m (fun x => { x with retrain := x.known }) else s
  if bit v 1 then
    let s2 := s1.modMed m (fun x => { x with pool := x.pool.map (fun d => { d with abort := true }) })
    (List.range 64).foldl (fun u _ =>
      match (u.medch m).abortNow with
      | some d => (u.modDesc m (fun e => e.lun == d.lun) (fun e => { e with started := true })).medFinish m d.lun 5
      | none => u) s2.pllSettle
  else s1.pllSettle

/-- MED_ABORT: a write of MEDn_CTRL. -/
def medAbort (ini : Ini) (m : Nat) (val : Word) (s : State) : State :=
  s.regWrite ini (medPage m + medCtrl) val (fun v u => u.medCtrl m v)

/-- The rates that each interface mode accepts (R193). -/
def medRates (mode : Nat) : List Nat :=
  if mode = 0 then [10] else if mode = 1 then [800, 1066, 1200, 1600, 2000, 2400]
  else if mode = 2 then [1600, 2400, 2800, 3200, 3600] else [800, 1066, 1200, 1600, 2000, 2400, 2800, 3200, 3600]

/-- IFCFG_WRITE: accepted with no descriptor in progress and a listed rate; training of every target starts (R196). -/
def ifcfgWrite (ini : Ini) (m : Nat) (val : Word) (s : State) : State :=
  s.regGuard ini (medPage m + medIfcfg) (fun u =>
    if (u.medch m).pool.any (fun d => d.started) || !(medRates (fld val 0 2)).contains (fld val 4 12) then u.raise (medPage m) 5
    else (u.setReg (medPage m + medIfcfg) (val &&& 0xFFF3)).pllSettle.modMed m (fun x => { x with training := true }))

/-- A target's training result: its codes and pass bit in TRNSTAT's layout; a target that fails is untrained (R196). -/
def State.trained (s : State) (m ce : Nat) (code : Word) : State :=
  s.modMed m (fun x => { x with
    trn := tset 0 x.trn ce (code &&& 0x1FFFFFF)
    ttemp := tset none x.ttemp ce (some s.dieTemp)
    untrained := putBit x.untrained ce (!bit code 24)
    retrain := clrBit x.retrain ce })

/-- What steps 1 to 5 of R196 drive for target `ce` in an interface: SET FEATURES, ZQ CALIBRATION LONG, duty-cycle training, read DQ
and write DQ training. -/
def trainCycles (mode rate ce : Nat) : List FlashCyc :=
  let f := (Config.ifFeature mode rate).toNat
  [.sel ce, .feat (BitVec.ofNat 8 f) (bytesOf 4 (f / 256)), .cmd 0xF9, .duty, .cmd 0x62, .cmd 0x63, .cmd 0x64]

/-- What a retrain of target `ce` drives: ZQ CALIBRATION SHORT and steps 4 and 5 (R197). -/
def retrainCycles (ce : Nat) : List FlashCyc := [.sel ce, .cmd 0xD9, .cmd 0x62, .cmd 0x63, .cmd 0x64]

/-- The cycles of a channel's training of the targets `l` in its interface. -/
def State.trainDrive (s : State) (m : Nat) (l : List Nat) : State :=
  let w := s.reg (medPage m + medIfcfg)
  s.modMed m (fun x => { x with cyc := l.flatMap (trainCycles (fld w 0 2) (fld w 4 12)) })

/-- TRAINING_DONE: every target that answered READ ID has been trained; `codes` holds its result by CE, with bit 31 for a
target that did not answer (R196). -/
def trainingDone (m : Nat) (codes : List Word) (s : State) : State :=
  if (s.medch m).training && s.mediaClock m then
    let s0 := s.trainDrive m (((codes.take 8).zipIdx.filter (fun p => !bit p.1 31)).map (·.2))
    let s1 := (codes.take 8).zipIdx.foldl (fun u p => if bit p.1 31 then u else u.trained m p.2 p.1) s0
    (s1.modMed m (fun x => { x with training := false })).raise (medPage m) 3
  else s

/-- MED_RETRAIN: a target is retrained between two of its descriptors: on request, or at 15 °C or more from the temperature
of its last training (R197). -/
def medRetrain (m ce : Nat) (cause : RetrainCause) (code : Word) (s : State) : State :=
  let x := s.medch m
  let due := match cause with
    | .request => bit x.retrain ce
    | .temperature => s.tempDue m ce
  if due && s.mediaClock m && !x.training && !(x.pool.any (fun d => d.started && d.ce == ce)) && !s.mgd.stop then
    (s.trained m ce code).modMed m (fun x => { x with cyc := retrainCycles ce })
  else s

/-! ### Read-level tables -/

/-- MEDn_RLA and RLB of the group that RLSEL selects; MED_RTYA and RTYB likewise (R211). -/
def State.rlSel (s : State) (m : Nat) : Nat := fld (s.reg (medPage m + medRlsel)) 0 10
def State.rlWord (s : State) (m : Nat) (b : Bool) : Word :=
  let x := tget 0 (s.medch m).rl (s.rlSel m)
  BitVec.ofNat 32 (if b then fld x 32 24 else fld x 0 32)
def State.rtyWord (s : State) (b : Bool) : Word :=
  let x := tget 0 s.medc.retry (fld (s.reg (medcPg + medRtysel)) 0 4)
  BitVec.ofNat 32 (if b then fld x 32 24 else fld x 0 32)

/-- A write of MEDn_RLA or RLB. -/
def rlWrite (ini : Ini) (m : Nat) (b : Bool) (val : Word) (s : State) : State :=
  s.regGuard ini (medPage m + (if b then medRlb else medRla)) (fun u => u.modMed m (fun x =>
    { x with rl := tset 0 x.rl (s.rlSel m) (if b then setFld (tget 0 x.rl (s.rlSel m)) 32 24 val.toNat
        else setFld (tget 0 x.rl (s.rlSel m)) 0 32 val.toNat) }))

/-- A write of MED_RTYA or RTYB; step 0 is read-only zero. -/
def rtyWrite (ini : Ini) (b : Bool) (val : Word) (s : State) : State :=
  s.regGuard ini (medcPg + (if b then medRtyb else medRtya)) (fun u =>
    let k := fld (s.reg (medcPg + medRtysel)) 0 4
    if k = 0 then u
    else
      let old := tget 0 u.medc.retry k
      let new := if b then setFld old 32 24 val.toNat else setFld old 0 32 val.toNat
      { u with medc := { u.medc with retry := tset 0 u.medc.retry k new } })

/-! ### Patrol (R212) -/

/-- PATROL_TICK: the engine submits the next entry of its list. A metadata value that the entry does not give is free. DESIGN CHOICE: an
entry whose fetch is not answered OK is passed over. -/
def patrolTick (m : Nat) (s : State) : State :=
  let ctl := s.reg (medPage m + medPatctl)
  let x := s.medch m
  let count := fld ctl 16 16
  let pos := fld (s.reg (medPage m + medPatpos)) 0 16
  if bit ctl 0 && decide (0 < count) && !(x.pool.any (fun d => d.patrol && !d.started)) && decide (x.pool.length < 64) then
    let (sr, st, e) := s.memRead (medIni m) ((s.reg64 (medPage m + medPatbase) + 16 * pos) % 2 ^ 48) 16
    let w := fun i => ofBytes (sliceBytes e (4 * i) 4)
    let w0 := fld ctl 1 11 + 2 ^ 13 * nfld (w 0) 5 2 + 2 ^ 15 * nfld (w 0) 0 3 + 2 ^ 18 * nfld (w 0) 3 2 +
      2 ^ 22 * nfld (w 2) 10 1 + 2 ^ 24 * fld (s.reg (medPage m + medCfg)) 8 7
    let w2 := nfld (w 2) 4 6 + 2 ^ 6 * nfld (w 2) 0 4 + 2 ^ 10 * nfld (w 0) 17 4 + 2 ^ 14 * nfld (w 0) 7 10
    let free := fun i => ((Config.free (sr.fresh + i)).setWidth 32 : Word)
    let s1 := if st ≠ .ok then sr else ({ sr with fresh := sr.fresh + 4 }).submit m
      { words := [BitVec.ofNat 32 w0, BitVec.ofNat 32 (w 1), BitVec.ofNat 32 w2, 0, free 0, free 1, free 2, free 3], patrol := true }
    if pos + 1 = count then
      (s1.modReg (medPage m + medPatpos) (fun w => setFld (setFld w 0 16 0) 16 16 (fld w 16 16 + 1))).raise (medPage m) 2
    else s1.modReg (medPage m + medPatpos) (fun w => setFld w 0 16 (pos + 1))
  else s

/-! ### The media guard (R219, R220) -/

/-- MGD_CORR, MGD_CNT after a decoded page. -/
def State.mgdCount (s : State) (bits um : Nat) : State :=
  let s1 := (s.setReg (page .mgd 0 + mgdCorr) (BitVec.ofNat 32 (min 0xFFFF bits + 2 ^ 16 * um))).countUp (page .mgd 0 + mgdCnt) 0 16 1
  if um = 0 then s1 else s1.countUp (page .mgd 0 + mgdCnt) 16 16 1

/-- The decoded codewords of a guard page. -/
def guardDecode (pg : List Byte) : List (Option (List Byte × Nat)) :=
  (List.range 16).map (fun c => bchDecode (sliceBytes pg (1150 * c) 1150))

/-- A guard page from 16,384 data bytes. -/
def guardEncode (data : List Byte) : List Byte :=
  (List.range 16).flatMap (fun c => bchEncode (sliceBytes data (1024 * c) 1024)) ++ List.replicate 544 0xFF

/-- A read's page has been decoded: the data go to memory, or the descriptor ends with GUARDUNC. -/
def State.mgdRead (s : State) (m l : Nat) (d : MedDesc) : State :=
  let res := guardDecode d.page
  let um := (res.zipIdx.map (fun p => if p.1.isNone then 2 ^ p.2 else 0)).sum
  let s1 := (s.mgdCount ((res.map (fun r => (r.map (·.2)).getD 0)).sum) um).modRun m l (fun x => { x with page := [] })
  if um = 0 then (s1.memWrite 0x35 d.guardAddr (res.flatMap (fun r => (r.map (·.1)).getD []))).1.medNext m l
  else s1.medFinish m l 0xA

/-- A program's page has been encoded and is sent. -/
def State.mgdProgram (s : State) (m l : Nat) (d : MedDesc) : State :=
  let r := s.memRead 0x35 d.guardAddr 16384
  (r.1.drive m l [.data (guardEncode r.2.2)]).medNext m l

/-- MGD_DECODE: MGD finishes the oldest page that waits: a read's page is decoded to memory, a program's page is encoded and
sent to the flash (R220), unless its channel stands still (R195, R216). -/
def mgdDecode (m l : Nat) (s : State) : State :=
  match s.running m l with
  | some d =>
    if s.mgd.queue.head? ≠ some (m, l) ∨ d.phase ≠ .mgd then s
    else
      let s0 := { s with mgd := { s.mgd with queue := s.mgd.queue.tail } }
      if fld (s.medInstr d) 0 8 == 0x05 then s0.mgdRead m l d
      else if s.mgd.stop || !s.medEn m then s else s0.mgdProgram m l d
  | none => s

/-! ### The deferral of a warm reset (R216) -/

/-- The entries that keep a warm reset waiting. -/
def State.tornOpen (s : State) : List Nat := (List.range 64).filter (fun e => (s.tornEnt e).open)

/-- The deferral ends when no live ISSUED entry remains. -/
def State.deferEnd (s : State) : State := if s.tornOpen.isEmpty then { s with mgd := { s.mgd with defer := false } } else s

/-- The channels stop for a warm reset: a commit not yet driven is withheld and its entry VOID, and MGD begins to poll
(R216, R221). -/
def State.deferBegin (s : State) : State :=
  let held := (List.range 32).flatMap (fun m => (s.medch m).pool.filterMap (fun d => if d.phase = .ack then d.entry else none))
  let s1 := held.foldl (fun u e => u.modTorn e (fun x => { x with state := .void, live := false })) s
  (({ s1 with mgd := { s1.mgd with stop := true, defer := true } }).setReg (page .mgd 0 + mgdDefer)
    (BitVec.ofNat 32 (2 ^ 16 * s1.tornOpen.length))).deferEnd

/-- MGD_POLL: entry `e` is polled, `us` µs after the request; on ready its status byte and POLL_OK or POLL_FAIL (R216). -/
def mgdPoll (e : Nat) (status : Byte) (us : BitVec 16) (s : State) : State :=
  if s.mgd.defer && (s.tornEnt e).open then
    let s1 := s.modReg (page .mgd 0 + mgdDefer) (fun w => setFld w 0 16 us.toNat)
    if bit status 6 then
      (s1.modTorn e (fun x => { x with state := if bit status 0 then .pollFail else .pollOk, st := status })).deferEnd
    else s1
  else s

/-- DEFERRAL_TIMEOUT: 32 ms after the request (R216). -/
def deferralTimeout (s : State) : State :=
  if s.mgd.defer then
    ((s.tornOpen.foldl (fun u e => u.modTorn e (fun x => { x with state := .timeout })) s).modReg (page .mgd 0 + mgdDefer)
      (fun w => setBit (setFld w 0 16 32000) 23)).deferEnd
  else s

/-! ### Registers (R222, R223) -/

/-- MEDn_STAT. -/
def State.medStatWord (s : State) (m : Nat) : Word :=
  let x := s.medch m
  BitVec.ofNat 32 (b2n (!x.pool.isEmpty) + 2 * x.pool.length + 2 ^ 8 * b2n (decide (64 ≤ x.pool.length)) + 2 ^ 9 * b2n x.training +
    2 ^ 10 * b2n (s.inhibit m) + 2 ^ 11 * b2n (s.inhibit m && x.wpLow) + 2 ^ 12 * b2n (x.pool.any (fun d => d.phase == .entry)))

/-- MEDn_LUNSTAT, LUNTIME and TRNSTAT for the LUN that LUNSEL selects. -/
def State.lunSel (s : State) (m : Nat) : Nat := fld (s.reg (medPage m + medLunsel)) 0 5
def State.lunstatWord (s : State) (m : Nat) : Word :=
  let x := s.lunSt m (s.lunSel m)
  BitVec.ofNat 32 (b2n x.busy + 2 * b2n (s.running m (s.lunSel m)).isSome + 4 * x.status.toNat + 2 ^ 16 * x.ops.toNat)
def State.luntimeWord (s : State) (m : Nat) : Word :=
  let x := s.lunSt m (s.lunSel m)
  BitVec.ofNat 32 (x.last + 2 ^ 16 * x.longest)
def State.trnstatWord (s : State) (m : Nat) : Word := tget 0 (s.medch m).trn (s.lunSel m / 4)

/-- MGD_STAT. -/
def State.mgdStatWord (s : State) : Word := BitVec.ofNat 32 (b2n (!s.mgd.queue.isEmpty) + 2 * b2n s.mgd.defer)

/-! ### The commands -/

/-- INTEG_CLEAR (R159). A levee write of 0 to FCC_INTEG.unverified while clean is 1 clears it. -/
def execIntegClear (ini : Ini) (val : Word) (s : State) : Out :=
  .next (s.gate (integClear ini val s))

/-- DESCRIPTOR_SUBMIT (R198). A write of MEDn_CMDGO copies the staged descriptor into the pool. -/
def execDescriptorSubmit (ini : Ini) (m : MedCh) (val : Word) (s : State) : Out :=
  .next (s.gate (descriptorSubmit ini m.val val s))

/-- DESCRIPTOR_START (R199). A descriptor starts, latches its key and program page and checks the bad-block bitmap. -/
def execDescriptorStart (m : MedCh) (l : Lun) (s : State) : Out :=
  .next (s.gate (descriptorStart m.val l.val s))

/-- MED_CMD (R205). The CMD instruction sends a command cycle, handling a commit through the torn log and write-inhibit. -/
def execMedCmd (m : MedCh) (l : Lun) (s : State) : Out :=
  .next (s.gate (medCmdStep m.val l.val s))

/-- TORN_LOG_ACK (R205). The AON acknowledges a torn-log entry and the channel samples write-inhibit and drives the commit. -/
def execTornLogAck (m : MedCh) (l : Lun) (s : State) : Out :=
  .next (s.gate (tornLogAck m.val l.val s))

/-- MED_ADDR (R203). The ADDR instruction sends address cycles. -/
def execMedAddr (m : MedCh) (l : Lun) (s : State) : Out :=
  .next (s.gate (medAddr m.val l.val s))

/-- MED_WAIT (R203). The WAIT instruction starts a wait of MEDn_TIMk. -/
def execMedWait (m : MedCh) (l : Lun) (s : State) : Out :=
  .next (s.gate (medWait m.val l.val s))

/-- MED_WAIT_DONE (R203). A media WAIT expires and the program continues. -/
def execMedWaitDone (m : MedCh) (l : Lun) (s : State) : Out :=
  .next (s.gate (medWaitDone m.val l.val s))

/-- MED_POLL (R203). The POLL instruction starts reading flash status. -/
def execMedPoll (m : MedCh) (l : Lun) (s : State) : Out :=
  .next (s.gate (medPoll m.val l.val s))

/-- POLL_SAMPLE (R203). Every 1 µs a POLL reads status and ends on ready, checking the fail mask. -/
def execPollSample (m : MedCh) (l : Lun) (status : Byte) (us : BitVec 16) (s : State) : Out :=
  .next (s.gate (pollSample m.val l.val status us s))

/-- POLL_TIMEOUT (R205). A POLL exceeds its timeout, ends TIMEOUT and sets the torn-log entry TIMEOUT. -/
def execPollTimeout (m : MedCh) (l : Lun) (us : BitVec 16) (s : State) : Out :=
  .next (s.gate (pollTimeout m.val l.val us s))

/-- MED_DIN (R208). The DIN instruction takes page or codeword data into queue packets. -/
def execMedDin (m : MedCh) (l : Lun) (page : List Byte) (s : State) : Out :=
  .next (s.gate (medDin m.val l.val page s))

/-- MED_DOUT (R208). The DOUT instruction sends a page built from queue packets to the flash. -/
def execMedDout (m : MedCh) (l : Lun) (s : State) : Out :=
  .next (s.gate (medDout m.val l.val s))

/-- MED_RLSET (R211). The RLSET instruction computes read offsets and sends SET FEATURES when they change. -/
def execMedRlset (m : MedCh) (l : Lun) (s : State) : Out :=
  .next (s.gate (medRlset m.val l.val s))

/-- MED_SETF (R203). The SETF instruction sends SET FEATURES. -/
def execMedSetf (m : MedCh) (l : Lun) (s : State) : Out :=
  .next (s.gate (medSetf m.val l.val s))

/-- MED_LOOP (R203). The LOOP instruction starts a per-plane loop body. -/
def execMedLoop (m : MedCh) (l : Lun) (s : State) : Out :=
  .next (s.gate (medLoop m.val l.val s))

/-- MED_ENDL (R203). The ENDL instruction ends a media loop body. -/
def execMedEndl (m : MedCh) (l : Lun) (s : State) : Out :=
  .next (s.gate (medEndl m.val l.val s))

/-- MED_END (R200). The END instruction ends the descriptor and writes its completion record. -/
def execMedEnd (m : MedCh) (l : Lun) (s : State) : Out :=
  .next (s.gate (medEnd m.val l.val s))

/-- MED_ABORT (R221). A write of MEDn_CTRL.abort ends descriptors with ABORT. -/
def execMedAbort (ini : Ini) (m : MedCh) (val : Word) (s : State) : Out :=
  .next (s.gate (medAbort ini m.val val s))

/-- IFCFG_WRITE (R196). A write to MEDn_IFCFG changes the interface mode and starts training of every target. -/
def execIfcfgWrite (ini : Ini) (m : MedCh) (val : Word) (s : State) : Out :=
  .next (s.gate (ifcfgWrite ini m.val val s))

/-- TRAINING_DONE (R196). Training of all targets finishes and trained is set. -/
def execTrainingDone (m : MedCh) (codes : List Word) (s : State) : Out :=
  .next (s.gate (trainingDone m.val codes s))

/-- MED_RETRAIN (R197). MEDn_CTRL.retrain or a 15 °C change retrains a target between descriptors. -/
def execMedRetrain (m : MedCh) (ce : Fin 8) (cause : RetrainCause) (code : Word) (s : State) : Out :=
  .next (s.gate (medRetrain m.val ce.val cause code s))

/-- PATROL_TICK (R212). Every patrol interval the engine submits the next patrol list entry. -/
def execPatrolTick (m : MedCh) (s : State) : Out :=
  .next (s.gate (patrolTick m.val s))

/-- INHIBIT_ASSERT (R214). The levee asserts a channel's write-inhibit line. -/
def execInhibitAssert (m : MedCh) (s : State) : Out :=
  .next (s.gate (inhibitAssert m.val s))

/-- WP_ASSERT (R214). The channel drives WP_N low once no committed operation is short of ready, or 32 ms after assertion. -/
def execWpAssert (m : MedCh) (late : Bool) (s : State) : Out :=
  .next (s.gate (wpAssert m.val late s))

/-- PROGRAM_LOAD (R202). A write of MED_PLCTL.go copies instructions into the inactive program page. -/
def execProgramLoad (ini : Ini) (val : Word) (s : State) : Out :=
  .next (s.gate (programLoad ini val s))

/-- PROGRAM_LOAD_DONE (R202). The program-page copy completes. -/
def execProgramLoadDone (s : State) : Out :=
  .next (s.gate (programLoadDone s))

/-- PROGRAM_SWAP (R202). A write of MED_PCTRL.swap makes the other program page active. -/
def execProgramSwap (ini : Ini) (val : Word) (s : State) : Out :=
  .next (s.gate (programSwap ini val s))

/-- KEY_INSTALL (R210). SEC's write of MED_KEY15 installs the staged key slot atomically. -/
def execKeyInstall (ini : Ini) (val : Word) (s : State) : Out :=
  .next (s.gate (keyInstall ini val s))

/-- KEY_SLOT_ERASE (R210). A write of MED_KEYSEL.erase empties a key slot. -/
def execKeySlotErase (ini : Ini) (val : Word) (s : State) : Out :=
  .next (s.gate (keySlotErase ini val s))

/-- MGD_DECODE (R220). MGD finishes decoding or encoding one guard page. -/
def execMgdDecode (m : MedCh) (l : Lun) (s : State) : Out :=
  .next (s.gate (mgdDecode m.val l.val s))

/-- MGD_POLL (R216). Every 5 µs MGD polls a target with a live ISSUED entry and records its status. -/
def execMgdPoll (e : Fin 64) (status : Byte) (us : BitVec 16) (s : State) : Out :=
  .next (s.gate (mgdPoll e.val status us s))

/-- DEFERRAL_TIMEOUT (R216). 32 ms after the request the deferral ends and remaining ISSUED entries become TIMEOUT. -/
def execDeferralTimeout (s : State) : Out :=
  .next (s.gate (deferralTimeout s))

/-- TORN_LOG_FREE (R217). A write of AON_TLCTRL.free frees a torn-log entry whose live bit is clear. -/
def execTornLogFree (ini : Ini) (val : Word) (s : State) : Out :=
  .next (s.gate (tornLogFree ini val s))

end Sys2Proof.Machine
end

