-- ==== Sys2Proof/Machine/Codecs.lean ====
section
/-!
DEFINITION. The reference codec personalities (chapter 10, R504, R505): what a region that runs one does with a packet it has
taken from its HG0 stream, and the packets that leave through its headgates.
-/
namespace Sys2Proof.Machine

/-! ### Personalities and their packets -/

def State.cod (s : State) (r : Nat) : Codec := tget {} s.codec r
def State.modCod (s : State) (r : Nat) (f : Codec → Codec) : State := { s with codec := tset {} s.codec r (f (s.cod r)) }

/-- Write a packet's bytes from NI `i` to a queue as 32-bit items in counted framing, a flit at a time, as far as the queue takes them;
what is left. Each eighth flit from the end ends a transaction of the NI (R255, R267). -/
def State.sendItems (q i : Nat) (src : Ini) : Nat → State → List Byte → State × List Byte
  | 0, s, l => (s, l)
  | n + 1, s, l =>
    if l.isEmpty then (s, [])
    else if s.queueReachAt (some i) q src then
      let bs := l.take 64
      let u := queueWriteFlit q src (BitVec.ofNat 16 (4 * ((bs.length + 3) / 4))) (lineOfBytes bs) s
      State.sendItems q i src n (u.countAt i ((l.length + 63) / 64 % 8 == 1) false) (l.drop 64)
    else (s, l)

/-- Packets that region `r` has formed leave in order, as far as their queues take them (R231: no packet is lost). -/
def State.codFlush (r : Nat) : Nat → State → State
  | 0, s => s
  | n + 1, s =>
    match (s.cod r).outs with
    | [] => s
    | (q, k, l) :: rest =>
      let x := s.sendItems q (hgNi r k) (BitVec.ofNat 8 (0x80 + r)) 1024 l
      match x.2 with
      | [] => State.codFlush r n (x.1.modCod r (fun c => { c with outs := rest }))
      | l' => x.1.modCod r (fun c => { c with outs := (q, k, l') :: rest })

/-- A packet for headgate `k`'s outbound queue: its length word and its bytes (R171, R229). -/
def State.emit (s : State) (r k tag flags : Nat) (body : List Byte) : State :=
  let q := fld ((s.hg r k).cfg) 8 7
  let lw := bytesOf 4 (body.length + 2 ^ 14 * tag + 2 ^ 17 * flags)
  s.modCod r (fun c => { c with outs := c.outs ++ [(q, k, lw ++ body)] })

/-- A running personality goes on: not while an earlier result still waits for its queue (R231, R240). -/
def codRun (r : Nat) (f : State → State) (s : State) : State :=
  if regionMoves (s.rgn r) && (s.rgn r).st == .run then
    let s1 := State.codFlush r 64 s
    if (s1.cod r).outs.isEmpty then State.codFlush r 64 (f s1) else s1
  else s

/-- The context that a packet of tag `tag` calls for at headgate 0 is under shadow load (R103, R240). -/
def State.tagLoading (s : State) (r tag : Nat) : Bool :=
  bit (s.rgn r).loading (if hgTag (s.hg r 0).cfg then (hgCtxbase (s.hg r 0).cfg + tag) % 8 else (s.rgn r).sel)

/-- A personality takes a packet of tag `tag`: one for a context under shadow load waits until the load has passed it (R240). -/
def codTake (r tag : Nat) (f : State → State) (s : State) : State := if s.tagLoading r tag then s else codRun r f s

/-- Fields of a packet's length word. -/
def lwLen (w : Word) : Nat := fld w 0 14
def lwTag (w : Word) : Nat := fld w 14 3
def lwFlags (w : Word) : Nat := fld w 17 6
def lwSrc (w : Word) : Nat := fld w 24 8

/-- Words of 32 bits as bytes. -/
def wbytes (l : List Nat) : List Byte := l.flatMap (bytesOf 4)

/-- What a decoder reports of a codeword (R229 to R231). -/
structure DecRes where
  chan  : Nat
  idx   : Nat
  tier  : Nat
  /-- 0 CORRECTED, 1 FAILED, 2 FORMAT, 3 CONTROL. -/
  res   : Nat
  soft  : Bool
  patrol : Bool
  offs  : Bool
  cseq  : Nat
  bits  : Nat
  iters : Nat
  op    : Nat
  unsat : Nat
deriving DecidableEq, Repr

/-- The flags field of R229. -/
def DecRes.flags (x : DecRes) : Nat := x.idx + 4 * x.res + 16 * b2n x.soft + 32 * b2n x.offs

/-- Bytes 4,116 to 4,123 of R229. -/
def DecRes.tail (x : DecRes) : List Byte :=
  wbytes [min 0xFFFF x.bits + 2 ^ 16 * min 0xFF x.iters + 2 ^ 24 * x.chan, x.cseq]

/-- The status packet of R231 through HG1; `extra` is ORed into word 1. -/
def State.emitStatus (s : State) (r : Nat) (x : DecRes) (extra : Nat) : State :=
  s.emit r 1 x.tier x.flags (wbytes [
    x.chan + 2 ^ 8 * x.idx + 2 ^ 10 * (x.tier % 4) + 2 ^ 12 * x.res + 2 ^ 14 * b2n x.soft + 2 ^ 15 * b2n x.patrol + 2 ^ 16 * b2n x.offs + extra,
    x.cseq + 2 ^ 16 * min 0xFFFF x.bits, min 0xFF x.iters + 2 ^ 8 * x.op + 2 ^ 16 * min 0xFFFF x.unsat])

/-- Emit a decoder's result: the status packet where one is due, and once that is accepted the decoded packet or its hole, patrol
codewords excepted (R230, R231, R233). -/
def State.emitResult (s : State) (r : Nat) (x : DecRes) (good : List Byte) : State :=
  let s1 := if x.res ≠ 0 ∨ x.patrol ∨ (s.cod r).all then s.emitStatus r x 0 else s
  if x.patrol then s1
  else if x.res = 0 then s1.emit r 0 x.tier x.flags (good.take 4112 ++ x.tail)
  else s1.emit r 0 x.tier x.flags x.tail

/-! ### The codeword code (R224) -/

/-- Parity block rows of a tier (R225). -/
def tierM (t : Nat) : Nat := if t = 0 then 20 else if t = 1 then 28 else if t = 2 then 36 else 40

/-- Rotate a 128-bit column so that row a takes column bit (a + e) mod 128. -/
def rot128 (x e : Nat) : Nat := (x / 2 ^ (e % 128) + x * 2 ^ (128 - e % 128)) % 2 ^ 128

/-- Block column `c` of a codeword. -/
def blockCol (w : List Byte) (c : Nat) : Nat := ofBytes (sliceBytes w (16 * c) 16)

/-- The products of the block rows of the data part with the data: s_0 to s_(m-1) (R224, R225). -/
def dataSyndrome (t : Nat) (w : List Byte) : List Nat :=
  let m := tierM t
  (List.range 257).foldl (fun acc j =>
    let x := blockCol w j
    (List.range 4).foldl (fun a k =>
      let i := (j + k * (m / 4)) % m
      lset a i (Nat.xor (a.getD i 0) (rot128 x ((17 * j * (k + 1) + 29 * k) % 128)))) acc) (List.replicate m 0)

/-- The block rows' checks of a whole codeword, all zero when every parity check is satisfied. -/
def ldpcChecks (t : Nat) (w : List Byte) : List Nat :=
  (dataSyndrome t w).zipIdx.map (fun p =>
    Nat.xor p.1 (Nat.xor (blockCol w (257 + p.2)) (if p.2 = 0 then 0 else blockCol w (256 + p.2))))

/-- Unsatisfied checks. -/
def unsatisfied (t : Nat) (w : List Byte) : Nat := ((ldpcChecks t w).map (fun x => ((List.range 128).map (fun i => nfld x i 1)).sum)).sum

/-- The parity bytes of payload and metadata: p_0 = s_0, p_i = s_i xor p_(i-1) (R225). -/
def ldpcParity (t : Nat) (w : List Byte) : List Byte :=
  ((dataSyndrome t w).foldl (fun (acc : Nat × List Byte) x => let p := Nat.xor acc.1 x; (p, acc.2 ++ bytesOf 16 p)) (0, [])).2

/-- Bits in which two byte lists differ. -/
def hamming (a b : List Byte) : Nat := onesOf ((a.zip b).map (fun p => p.1 ^^^ p.2))

/-! ### Decoders (R229 to R235) -/

/-- Count a codeword of a channel; the count before it. -/
def State.takeSeq (s : State) (r chan : Nat) : Nat × State :=
  let n := tget 0 (s.cod r).cseq chan
  (n, s.modCod r (fun c => { c with cseq := tset 0 c.cseq chan ((n + 1) % 2 ^ 16) }))

/-- A control packet of a decoder (R232): SETMODE, RESETSEQ, or an acknowledgement with FORMAT. -/
def State.control (s : State) (r : Nat) (lw w1 w2 : Word) : State :=
  let op := fld w1 0 8
  let ack := fun (u : State) (res : Nat) => u.emitStatus r ⟨0xFF, lwFlags lw % 4, lwTag lw, res, false, false, false, 0, 0, 0, op, 0⟩ 0
  if lwLen lw ≠ 8 then ack s 2
  else if op = 1 then
    if 64 < fld w2 8 8 ∨ (w2 &&& 0xFFFF00FE) ≠ 0 then ack s 2
    else ack (s.modCod r (fun c => { c with all := bit w2 0, maxit := fld w2 8 8 })) 3
  else if op = 2 then ack (s.modCod r (fun c => { c with cseq := [] })) 3
  else ack s 2

/-- SETMODE and RESETSEQ. -/
def setmode (r : Nat) (lw w1 w2 : Word) (s : State) : State := codTake r (lwTag lw) (fun u => u.control r lw w1 w2) s
def resetseq (r : Nat) (lw w1 w2 : Word) (s : State) : State := codTake r (lwTag lw) (fun u => u.control r lw w1 w2) s

/-- The report of a codeword packet that fails the format check. -/
def formatRes (lw : Word) (soft : Bool) (cseq : Nat) : DecRes :=
  { chan := (lwSrc lw + 0x60) % 256, idx := lwFlags lw % 4, tier := lwTag lw, res := 2, soft := soft, patrol := nfld (lwFlags lw) 3 1 == 1
    offs := nfld (lwFlags lw) 2 1 == 1, cseq := cseq, bits := 0, iters := 0, op := 0, unsat := 0 }

/-- A codeword packet has the tag and the length of a tier. -/
def cwFormat (lw : Word) : Bool := decide (lwTag lw < 4) && lwLen lw == tierPacket (lwTag lw)

/-- The report of a decoder that stopped at `cand` after `iters` iterations, from the hard decision `body`. -/
def decodeRes (lw : Word) (soft : Bool) (cseq : Nat) (body cand : List Byte) (iters : Nat) : DecRes :=
  let u := unsatisfied (lwTag lw) cand
  { formatRes lw soft cseq with res := if u = 0 then 0 else 1, bits := hamming body cand, iters := iters, unsat := u }

/-- HDEC on one codeword packet (R233): a codeword that already satisfies every check takes no iteration. -/
def State.hdec (s : State) (r : Nat) (lw : Word) (body : List Byte) : State :=
  let b := sliceBytes body 0 (lwLen lw)
  if lwTag lw = 7 then s.control r lw (BitVec.ofNat 32 (ofBytes (sliceBytes b 0 4))) (BitVec.ofNat 32 (ofBytes (sliceBytes b 4 4)))
  else
    let (n, s1) := s.takeSeq r ((lwSrc lw + 0x60) % 256)
    if !cwFormat lw then s1.emitResult r (formatRes lw false n) []
    else if unsatisfied (lwTag lw) b = 0 then s1.emitResult r (decodeRes lw false n b b 0) b
    else
      let cap := if (s.cod r).maxit = 0 then 24 else (s.cod r).maxit
      let c := Config.hardDecode (lwTag lw) b cap
      let cand := sliceBytes c.1 0 b.length
      s1.emitResult r (decodeRes lw false n b cand (min cap c.2)) cand

/-- HDEC_CODEWORD. -/
def hdecCodeword (r : Nat) (lw : Word) (body : List Byte) (s : State) : State := codTake r (lwTag lw) (fun u => u.hdec r lw body) s

/-- SDEC on a soft set: the centre, low and high reads (R235). -/
def State.sdec (s : State) (r : Nat) (lw0 lw1 lw2 : Word) (b0 b1 b2 : List Byte) : State :=
  let (n, s1) := s.takeSeq r ((lwSrc lw0 + 0x60) % 256)
  let agree := fun (w : Word) => lwSrc w == lwSrc lw0 && lwTag w == lwTag lw0 && lwFlags w % 4 == lwFlags lw0 % 4 && cwFormat w
  if !(agree lw0 && agree lw1 && agree lw2) then s1.emitResult r (formatRes lw0 true n) []
  else
    let cut := fun (l : List Byte) => sliceBytes l 0 (lwLen lw0)
    let cap := if (s.cod r).maxit = 0 then 16 else (s.cod r).maxit
    let c := if unsatisfied (lwTag lw0) (cut b0) = 0 then (cut b0, 0) else Config.softDecode (lwTag lw0) (cut b0) (cut b1) (cut b2) cap
    let cand := sliceBytes c.1 0 (lwLen lw0)
    s1.emitResult r (decodeRes lw0 true n (cut b0) cand (min cap c.2)) cand

/-- SDEC_SOFT_SET. -/
def sdecSoftSet (r : Nat) (lw0 lw1 lw2 : Word) (b0 b1 b2 : List Byte) (s : State) : State :=
  codTake r (lwTag lw0) (fun u => u.sdec r lw0 lw1 lw2 b0 b1 b2) s

/-! ### The write path (R234, R236) -/

/-- CRC-32C by the convention of R234. -/
def crc32c (l : List Byte) : Nat := Nat.xor (crc32cFrom 0xFFFFFFFF l) 0xFFFFFFFF

/-- A packet that INTAKE or ENC discards is answered with a FORMAT status packet. -/
def State.refuseGranule (s : State) (r : Nat) (lw : Word) : State := s.emitStatus r { formatRes lw false 0 with patrol := false } 0

/-- INTAKE_CODEWORD: the CRC of the payload in metadata bytes 12 to 15 (R234, R236). -/
def intakeCodeword (r : Nat) (lw : Word) (body : List Byte) (s : State) : State :=
  codTake r (lwTag lw) (fun u =>
    if lwLen lw = 4112 ∧ lwTag lw < 4 then
      u.emit r 0 (lwTag lw) (lwFlags lw) (sliceBytes body 0 4108 ++ bytesOf 4 (crc32c (sliceBytes body 0 4096)))
    else u.refuseGranule r lw) s

/-- ENC emits the packets that it holds from the next index on, a discarded one with nothing (R236). -/
def State.encGoes (r : Nat) : Nat → State → State
  | 0, s => s
  | n + 1, s =>
    let c := s.cod r
    match c.encHeld.find? (fun e => e.1 == c.encNext) with
    | none => s
    | some e =>
      let s1 := s.modCod r (fun x => { x with encNext := (c.encNext + 1) % 4, encHeld := x.encHeld.erase e })
      State.encGoes r n (match e.2 with
        | some (t, d) => s1.emit r 0 t e.1 d
        | none => s1)

/-- ENC_CODEWORD: the program packet of R208, with the metadata at every tier, the four codewords of a plane in ascending index (R236). -/
def encCodeword (r : Nat) (lw : Word) (body : List Byte) (s : State) : State :=
  codTake r (lwTag lw) (fun u =>
    let d := sliceBytes body 0 4112
    let good := decide (lwLen lw = 4112 ∧ lwTag lw < 4)
    let e := (lwFlags lw % 4, if good then some (lwTag lw, d ++ ldpcParity (lwTag lw) d) else none)
    let u1 := if good then u else u.refuseGranule r lw
    let u2 := u1.modCod r (fun c => { c with encHeld := c.encHeld ++ [e] })
    State.encGoes r (u2.cod r).encHeld.length u2) s

/-! ### Operators (R234, R237, R238) -/

/-- The payload's CRC agrees with its metadata (R234). -/
def crcAgrees (body : List Byte) : Bool := crc32c (sliceBytes body 0 4096) == ofBytes (sliceBytes body 4108 4)

/-- What an operator reports of a decoded packet: source channel and cseq from its last words. -/
def operatorRes (lw : Word) (body : List Byte) (res : Nat) : DecRes :=
  { chan := ofBytes (sliceBytes body (lwLen lw - 5) 1), idx := lwFlags lw % 4, tier := lwTag lw, res := res
    soft := nfld (lwFlags lw) 4 1 == 1, patrol := false, offs := nfld (lwFlags lw) 5 1 == 1, cseq := ofBytes (sliceBytes body (lwLen lw - 4) 2)
    bits := ofBytes (sliceBytes body (lwLen lw - 8) 2), iters := ofBytes (sliceBytes body (lwLen lw - 6) 1), op := 0, unsat := 0 }

/-- The first stage of every operator: a hole goes on to HG1, a CRC mismatch is discarded with a FAILED status packet whose
word 1 has bit 17; else the packet is handed to `f` (R234, R239). -/
def State.operatorStage (s : State) (r : Nat) (lw : Word) (body : List Byte) (f : State → State) : State :=
  if nfld (lwFlags lw) 2 2 ≠ 0 then s.emit r 1 (lwTag lw) (lwFlags lw) (sliceBytes body 0 (lwLen lw))
  else if crcAgrees body then f s
  else s.emitStatus r (operatorRes lw body 1) (2 ^ 17)

/-- OPERATOR_CRC_CHECK: what becomes of a packet that passes is the operator's later stages. -/
def operatorCrcCheck (r : Nat) (lw : Word) (body : List Byte) (s : State) : State :=
  codTake r (lwTag lw) (fun u => u.operatorStage r lw body (fun v => v)) s

/-- Expand tokens (R237): none when a token runs past the end, or a copy reaches before the block. -/
def lzExpand : Nat → List Byte → List Byte → Option (List Byte)
  | 0, _, _ => none
  | _ + 1, acc, [] => some acc
  | n + 1, acc, b :: t =>
    if !bit b 7 then
      let k := fld b 0 7 + 1
      if t.length < k then none else lzExpand n (acc ++ t.take k) (t.drop k)
    else
      let off := ofBytes (t.take 2)
      if t.length < 2 ∨ off = 0 ∨ acc.length < off then none
      else lzExpand n ((List.range (fld b 0 7 + 3)).foldl (fun a _ => a ++ [a.getD (a.length - off) 0]) acc) (t.drop 2)

/-- The bytes of a compressed block, none when its header, tokens or CRC do not agree. -/
def lzdBytes (block : List Byte) : Option (List Byte) :=
  let clen := ofBytes (sliceBytes block 0 2)
  if block.length ≠ 8 + clen then none
  else match lzExpand (clen + 1) [] (block.drop 8) with
    | some l => if l.length = ofBytes (sliceBytes block 2 2) + 1 ∧ crc32c l = ofBytes (sliceBytes block 4 4) then some l else none
    | none => none

/-- Bytes leave through HG0 as packets of at most 16,376 bytes, tag and flags 0. -/
def State.emitBytes (s : State) (r : Nat) (l : List Byte) : State :=
  (List.range ((l.length + 16375) / 16376)).foldl (fun u i => u.emit r 0 0 0 ((l.drop (16376 * i)).take 16376)) s

/-- LZD_BLOCK: the block is expanded, or rejected with FORMAT; the report of a block names no channel: that byte is free. -/
def lzdBlock (r : Nat) (block : List Byte) (s : State) : State :=
  codTake r 0 (fun u =>
    match lzdBytes block with
    | some l => u.emitBytes r l
    | none =>
      let (v, u1) := u.freeNat 256
      u1.emitStatus r ⟨v, 0, 0, 2, false, false, false, 0, 0, 0, 0, 0⟩ 0) s

/-- Tokens of literals only. -/
def lzLiterals (l : List Byte) : List Byte :=
  (List.range ((l.length + 127) / 128)).flatMap (fun i =>
    let c := (l.drop (128 * i)).take 128
    BitVec.ofNat 8 (c.length - 1) :: c)

/-- A copy of `n` bytes that expands to the bytes of `block` from `i`: its offset. -/
def lzMatch (block : List Byte) (i n : Nat) : Option Nat :=
  if block.length < i + n then none
  else (List.range (min i 65535)).findSome? (fun o => if (block.drop i).take n = (block.drop (i - (o + 1))).take n then some (o + 1) else none)

/-- The shorter of two token strings. -/
def lzShorter (a b : List Byte) : List Byte := if b.length < a.length then b else a

/-- The shortest tokens of the bytes of `block` from `i`, `rest` being those from i + 1 on. -/
def lzStep (block : List Byte) (i : Nat) (rest : List (List Byte)) : List Byte :=
  let lits := (List.range (min 128 (block.length - i))).map (fun k =>
    BitVec.ofNat 8 k :: (block.drop i).take (k + 1) ++ rest.getD k [])
  let copies := (List.range 128).filterMap (fun k => (lzMatch block i (k + 3)).map (fun o =>
    BitVec.ofNat 8 (128 + k) :: bytesOf 2 o ++ rest.getD (k + 2) []))
  (lits ++ copies).foldl lzShorter ((lits ++ copies).headD [])

/-- The shortest tokens of a block. -/
def lzBest (block : List Byte) : List Byte :=
  ((List.range block.length).foldr (fun i rest => lzStep block i rest :: rest) [[]]).headD []

/-- The tokens that LZE writes for a block: the compressor's choice where they expand to it and clen can tell their length, else literals,
or the shortest where literals are too long (R237). -/
def lzeTokens (block : List Byte) : List Byte :=
  let t := Config.lzTokens block
  if lzExpand (t.length + 1) [] t = some block ∧ t.length < 2 ^ 16 then t
  else if (lzLiterals block).length < 2 ^ 16 then lzLiterals block else lzBest block

/-- clen of tokens; the spec states none for a block that no 65,535 bytes of tokens expand to: a free value (R237). -/
def State.lzeClen (s : State) (toks : List Byte) : Nat × State := if toks.length < 2 ^ 16 then (toks.length, s) else s.freeNat (2 ^ 16)

/-- LZE_BLOCK: a header and tokens that expand to the block; which tokens is the compressor's choice (R237). -/
def lzeBlock (r : Nat) (block : List Byte) (s : State) : State :=
  codTake r 0 (fun u =>
    if 1 ≤ block.length ∧ block.length ≤ 65536 then
      let toks := lzeTokens block
      let (n, u1) := u.lzeClen toks
      u1.emitBytes r (bytesOf 2 n ++ bytesOf 2 (block.length - 1) ++ bytesOf 4 (crc32c block) ++ toks)
    else u) s

/-- Product in the field of polynomial 0x11D (R51, R238). -/
def gfb (a b : Nat) : Nat := gfMul 0x11D a b
/-- g^n with g = 0x02. -/
def gPow (n : Nat) : Nat := (List.range n).foldl (fun acc _ => gfb acc 2) 1
/-- a^254, the inverse. -/
def gfbInv (a : Nat) : Nat := (List.range 253).foldl (fun acc _ => gfb acc a) a

/-- P and Q of members at one offset (R238). -/
def stripeP (l : List Nat) : Nat := l.foldl Nat.xor 0
def stripeQ (l : List Nat) : Nat := l.zipIdx.foldl (fun acc p => Nat.xor acc (gfb (gPow p.2) p.1)) 0

/-- Byte `o` of each member. -/
def column (ms : List (List Byte)) (o : Nat) : List Nat := ms.map (fun m => (m.getD o 0).toNat)

/-- Interleave two byte lists in 4-byte elements (R238). -/
def interleave4 (a b : List Byte) : List Byte :=
  (List.range ((a.length + 3) / 4)).flatMap (fun i => sliceBytes a (4 * i) 4 ++ sliceBytes b (4 * i) 4)

/-- ERS_STRIPE_PARITY: P, or P and Q interleaved, of 2 to 14 members (R238). -/
def ersStripeParity (r : Nat) (members : List (List Byte)) (two : Bool) (s : State) : State :=
  codTake r 0 (fun u =>
    let k := members.length
    let n := (members.headD []).length
    if 2 ≤ k ∧ k ≤ 14 ∧ members.all (fun m => m.length == n) then
      let p := (List.range n).map (fun o => BitVec.ofNat 8 (stripeP (column members o)))
      let q := (List.range n).map (fun o => BitVec.ofNat 8 (stripeQ (column members o)))
      u.emitBytes r (if two then interleave4 p q else p)
    else u) s

/-- One missing member from P: its byte is the sum of P and the other members. -/
def rebuildOne (ms : List Nat) (k i : Nat) : Nat :=
  Nat.xor (ms.getD k 0) (stripeP ((ms.take k).zipIdx.map (fun p => if p.2 = i then 0 else p.1)))

/-- Two missing members i and j from P and Q (R238). -/
def rebuildTwo (ms : List Nat) (k i j : Nat) : Nat × Nat :=
  let known := (ms.take k).zipIdx.map (fun p => if p.2 = i ∨ p.2 = j then 0 else p.1)
  let a := Nat.xor (ms.getD k 0) (stripeP known)
  let b := Nat.xor (ms.getD (k + 1) 0) (stripeQ known)
  let x := gfb (Nat.xor b (gfb (gPow j) a)) (gfbInv (Nat.xor (gPow i) (gPow j)))
  (x, Nat.xor a x)

/-- ERS_REBUILD: `members` are D_0 to D_(k-1), P and, with two missing, Q; what stands at a missing index does not count. The
rebuilt members leave one after the other; the control packet is acknowledged (R232, R238). -/
def ersRebuild (r : Nat) (lw w1 w2 : Word) (members : List (List Byte)) (s : State) : State :=
  codTake r (lwTag lw) (fun u =>
    let two := bit w2 8
    let k := members.length - (if two then 2 else 1)
    let i := fld w2 0 4
    let j := fld w2 4 4
    let n := (members.headD []).length
    let ack := fun (v : State) (res : Nat) =>
      v.emitStatus r ⟨0xFF, lwFlags lw % 4, lwTag lw, res, false, false, false, 0, 0, 0, fld w1 0 8, 0⟩ 0
    if lwLen lw ≠ 8 ∨ fld w1 0 8 ≠ 3 then ack u 2
    else if 2 ≤ k ∧ k ≤ 14 ∧ i < k ∧ (two = false ∨ (j < k ∧ i ≠ j)) then
      let cols := (List.range n).map (column members)
      if two then
        ack ((u.emitBytes r (cols.map (fun c => BitVec.ofNat 8 (rebuildTwo c k i j).1))).emitBytes r
          (cols.map (fun c => BitVec.ofNat 8 (rebuildTwo c k i j).2))) 3
      else ack (u.emitBytes r (cols.map (fun c => BitVec.ofNat 8 (rebuildOne c k i)))) 3
    else ack u 2) s

/-! ### FILT (R504, R505) -/

/-- A FORMAT status packet for a control packet of FILT. -/
def State.filtFormat (s : State) (r : Nat) (lw w1 : Word) : State :=
  s.emitStatus r ⟨0xFF, lwFlags lw % 4, lwTag lw, 2, false, false, false, 0, 0, 0, fld w1 0 8, 0⟩ 0

/-- A batch is to be closed before anything else is taken. -/
def Codec.closeDue (c : Codec) : Bool := decide (255 ≤ c.rows.length) || c.final

/-- A control packet of FILT (R504). -/
def State.filtControl (s : State) (r : Nat) (lw w1 w2 w3 : Word) : State :=
  let op := fld w1 0 8
  let c := s.cod r
  if lwLen lw ≠ 16 then s.filtFormat r lw w1
  else if op = 0x10 then
    if 8 ≤ c.preds.length ∨ fld w1 14 2 = 3 ∨ 5 < fld w1 16 3 then s.filtFormat r lw w1
    else s.modCod r (fun x => { x with
      preds := x.preds ++ [⟨fld w1 8 6, 2 ^ fld w1 14 2, fld w1 16 3, w2.toNat⟩], ncw := w3.toNat })
  else if op = 0x11 then s.modCod r (fun x => { x with final := true })
  else if op = 0x12 then s.modCod r (fun x => { x with preds := [], count := 0, batch := 0, total := 0, rows := [], ncw := 0 })
  else s.filtFormat r lw w1

/-- FILT takes a packet only when no batch waits to be closed. -/
def filtRun (r tag : Nat) (f : State → State) (s : State) : State := codTake r tag (fun u => if (u.cod r).closeDue then u else f u) s

/-- SETPRED, FILT_END and FILT_CLEAR. -/
def setpred (r : Nat) (lw w1 w2 w3 : Word) (s : State) : State := filtRun r (lwTag lw) (fun u => u.filtControl r lw w1 w2 w3) s
def filtEnd (r : Nat) (lw w1 w2 w3 : Word) (s : State) : State := filtRun r (lwTag lw) (fun u => u.filtControl r lw w1 w2 w3) s
def filtClear (r : Nat) (lw w1 w2 w3 : Word) (s : State) : State := filtRun r (lwTag lw) (fun u => u.filtControl r lw w1 w2 w3) s

/-- A row meets a predicate. -/
def Pred.holds (p : Pred) (row : List Byte) : Bool :=
  let v := ofBytes (sliceBytes row p.off p.width)
  match p.cmp with
  | 0 => v == p.const
  | 1 => v != p.const
  | 2 => decide (v < p.const)
  | 3 => decide (v ≤ p.const)
  | 4 => decide (p.const < v)
  | _ => decide (p.const ≤ v)

/-- The 64-byte rows of a payload that meet every predicate. -/
def matching (ps : List Pred) (payload : List Byte) : List (List Byte) :=
  ((List.range 64).map (fun i => sliceBytes payload (64 * i) 64)).filter (fun row => ps.all (fun p => p.holds row))

/-- FILT_DECODED_PACKET (R505): holes and CRC failures go to HG1, a control packet acts, a CORRECTED packet is counted and
its matching rows join the open batch; at ncw the batch is to close as final. -/
def filtDecodedPacket (r : Nat) (lw : Word) (body : List Byte) (s : State) : State :=
  filtRun r (lwTag lw) (fun u =>
    let w := fun i => (BitVec.ofNat 32 (ofBytes (sliceBytes body (4 * i) 4)) : Word)
    if nfld (lwFlags lw) 2 2 = 3 then u.filtControl r lw (w 0) (w 1) (w 2)
    else u.operatorStage r lw body (fun v => v.modCod r (fun c => { c with
      count := c.count + 1
      rows := c.rows ++ matching c.preds (sliceBytes body 0 4096)
      final := decide (c.count + 1 = c.ncw) }))) s

/-- FILT_BATCH_CLOSE: the result packet of 255 rows, or of fewer as final; after the final batch DONE goes to HG1 (R505). -/
def filtBatchClose (r : Nat) (s : State) : State :=
  codRun r (fun u =>
    let c := u.cod r
    if !c.closeDue then u
    else
      let rows := c.rows.take 255
      let fin := c.final && decide (c.rows.length ≤ 255)
      let head := wbytes [rows.length, c.batch, b2n fin, c.count] ++ List.replicate 44 0
      let body := head ++ rows.flatten ++ List.replicate (64 * (255 - rows.length)) 0
      let u1 := (u.emit r 0 0 0 body).modCod r (fun x => { x with
        rows := x.rows.drop 255, batch := x.batch + 1, total := x.total + rows.length, final := if fin then false else x.final })
      if fin then u1.emit r 1 0 0 (wbytes [0xF0 + 2 ^ 8 * 0x13, (c.batch + 1) % 2 ^ 32, (c.total + rows.length) % 2 ^ 32]) else u1) s

/-! ### The commands -/

/-- HDEC_CODEWORD (R233). HDEC checks and decodes a codeword packet and emits a decoded, hole or status packet. -/
def execHdecCodeword (r : Region) (lw : Word) (body : List Byte) (s : State) : Out :=
  .next (s.gate (hdecCodeword r.val lw body s))

/-- SDEC_SOFT_SET (R235). SDEC decodes a soft set of three reads with min-sum. -/
def execSdecSoftSet (r : Region) (lw0 lw1 lw2 : Word) (b0 b1 b2 : List Byte) (s : State) : Out :=
  .next (s.gate (sdecSoftSet r.val lw0 lw1 lw2 b0 b1 b2 s))

/-- SETMODE (R232). A SETMODE control packet sets a decoder's status mode and iteration cap. -/
def execSetmode (r : Region) (lw w1 w2 : Word) (s : State) : Out :=
  .next (s.gate (setmode r.val lw w1 w2 s))

/-- RESETSEQ (R232). A RESETSEQ control packet sets every cseq count to 0. -/
def execResetseq (r : Region) (lw w1 w2 : Word) (s : State) : Out :=
  .next (s.gate (resetseq r.val lw w1 w2 s))

/-- INTAKE_CODEWORD (R236). INTAKE stamps the payload CRC into a codeword packet. -/
def execIntakeCodeword (r : Region) (lw : Word) (body : List Byte) (s : State) : Out :=
  .next (s.gate (intakeCodeword r.val lw body s))

/-- ENC_CODEWORD (R236). ENC adds the tier's LDPC parity and emits a program packet. -/
def execEncCodeword (r : Region) (lw : Word) (body : List Byte) (s : State) : Out :=
  .next (s.gate (encCodeword r.val lw body s))

/-- OPERATOR_CRC_CHECK (R234). A reference operator checks the payload CRC and discards a mismatching packet. -/
def execOperatorCrcCheck (r : Region) (lw : Word) (body : List Byte) (s : State) : Out :=
  .next (s.gate (operatorCrcCheck r.val lw body s))

/-- LZD_BLOCK (R237). LZD expands a compressed block or rejects it with FORMAT. -/
def execLzdBlock (r : Region) (block : List Byte) (s : State) : Out :=
  .next (s.gate (lzdBlock r.val block s))

/-- LZE_BLOCK (R237). LZE compresses a block of host bytes into a header and tokens with the CRC of the uncompressed bytes. -/
def execLzeBlock (r : Region) (block : List Byte) (s : State) : Out :=
  .next (s.gate (lzeBlock r.val block s))

/-- ERS_REBUILD (R238). An ERS control packet with op 0x03 rebuilds missing stripe members. -/
def execErsRebuild (r : Region) (lw w1 w2 : Word) (members : List (List Byte)) (s : State) : Out :=
  .next (s.gate (ersRebuild r.val lw w1 w2 members s))

/-- ERS_STRIPE_PARITY (R238). ERS computes the P or P and Q parity of a stripe from its interleaved member words. -/
def execErsStripeParity (r : Region) (members : List (List Byte)) (two : Bool) (s : State) : Out :=
  .next (s.gate (ersStripeParity r.val members two s))

/-- SETPRED (R504). A FILT SETPRED control packet adds a predicate and sets ncw. -/
def execSetpred (r : Region) (lw w1 w2 w3 w4 : Word) (s : State) : Out :=
  .next (s.gate (setpred r.val lw w1 w2 w3 s))

/-- FILT_END (R504). A FILT END control packet closes the open batch as final. -/
def execFiltEnd (r : Region) (lw w1 w2 w3 w4 : Word) (s : State) : Out :=
  .next (s.gate (filtEnd r.val lw w1 w2 w3 s))

/-- FILT_CLEAR (R504). A FILT CLEAR control packet removes every predicate and resets counts. -/
def execFiltClear (r : Region) (lw w1 w2 w3 w4 : Word) (s : State) : Out :=
  .next (s.gate (filtClear r.val lw w1 w2 w3 s))

/-- FILT_DECODED_PACKET (R505). FILT takes a decoded packet, counts it if CORRECTED and writes its matching rows into the open result batch. -/
def execFiltDecodedPacket (r : Region) (lw : Word) (body : List Byte) (s : State) : Out :=
  .next (s.gate (filtDecodedPacket r.val lw body s))

/-- FILT_BATCH_CLOSE (R505). FILT closes a result batch at 255 rows or as final and writes DONE after the final batch. -/
def execFiltBatchClose (r : Region) (s : State) : Out :=
  .next (s.gate (filtBatchClose r.val s))

end Sys2Proof.Machine
end

