-- ==== Sys2Proof/Machine/Dma.lean ====
section
/-!
DEFINITION. The DMA channels (chapter 13) but for their bursts: commands, program fetch, the instructions other than MOVE,
drains, doorbells, errors and registers.
-/
namespace Sys2Proof.Machine

def State.dmach (s : State) (n : Nat) : DmaSt := tget {} s.dma n
def State.modDma (s : State) (n : Nat) (f : DmaSt → DmaSt) : State := { s with dma := tset {} s.dma n (f (s.dmach n)) }
def dmaPage (n : Nat) : Nat := page .dma n
/-- The channel's identifier (R27). -/
def dmaIni (n : Nat) : Ini := BitVec.ofNat 8 (0x40 + n)

/-- Add to a counter of DMA_STSEL, saturating. -/
def State.dmaCount (s : State) (n c k : Nat) : State :=
  s.modDma n (fun x => { x with stats := tset 0 x.stats c (satAdd (2 ^ 64 - 1) (tget 0 x.stats c) k) })

/-! ### Errors, aborts -/

/-- An error stops the channel: nothing further is launched (R316). A fault record held keeps its address. -/
def State.dmaFail (s : State) (n code : Nat) (addr : Option Nat) : State :=
  if (s.dmach n).fail.isSome then s
  else s.modDma n (fun x => { x with
    fail := some code
    faddr := match addr with
      | some a => if bit x.fault 0 then x.faddr else a
      | none => x.faddr })

/-- Answers are outstanding: reads launched, writes issued, flushes; not what a DROWSE has turned away. -/
def DmaSt.outstanding (x : DmaSt) : Bool :=
  x.bursts.any (fun b => b.phase != .full && !b.drowse) || !x.flush.isEmpty

/-- Everything a program holds is dropped. -/
def DmaSt.clear (x : DmaSt) : DmaSt :=
  { x with mv := none, bursts := [], flush := [], hostW := [], wait := none, lines := [], fetch := none, latch := false, loop := none
           soff := 0, doff := 0, pace := [], carry := [], fail := none }

/-- The reset of a channel to IDLE sets transform class 0 (R305). -/
def DmaSt.toIdle (x : DmaSt) : DmaSt := { x.clear with st := .idle, xf := 0 }

/-- DMA_ERROR: the last answer outstanding has come: the data in the slots are discarded and the channel is in ERROR
(R316). -/
def dmaError (n : Nat) (s : State) : State :=
  let x := s.dmach n
  match x.fail with
  | some code =>
    if x.outstanding || x.st == .aborting || x.st == .idle || x.st == .error then s
    else (s.modDma n (fun y => { y.clear with st := .error, err := code })).raise (dmaPage n) 3
  | none => s

/-- An abort ends when the answers to what was issued have come (R317). -/
def State.abortEnd (s : State) (n : Nat) : State :=
  let x := s.dmach n
  if x.st == .aborting && !x.outstanding then
    (s.modDma n (fun y => { y.toIdle with err := 8, go := false })).raise (dmaPage n) 3
  else s

/-- An abort begins: fetching and launching stop and buffered data not yet issued are dropped (R317). -/
def State.abortBegin (s : State) (n : Nat) : State :=
  (s.modDma n (fun x => { x with
    st := .aborting, mv := none, fetch := none, lines := [], carry := [], wait := none, latch := false, hostW := [], fail := none
    bursts := x.bursts.filter (fun b => b.phase != .full) })).abortEnd n

/-! ### Program fetch (R296) -/

/-- A program address lies in the reservoir plain range or in device DRAM. -/
def State.programAddr (s : State) (a : Nat) : Bool :=
  match s.target a with
  | .reservoir _ v => v == 0
  | .dram _ => true
  | _ => false

/-- NI of the DMA engine: the one that serves channel `n` next begins behind it (R318). -/
def State.dmaServed (s : State) (ni n : Nat) : State := { s with dmaTurn := tset 0 s.dmaTurn ni n }

/-- A fetch of the line that holds `a` leaves, in the channel's turn as a read (R318); it sees memory as it stands now. -/
def State.issueFetch (s : State) (n a : Nat) : State :=
  let l := a / 64 * 64
  if s.programAddr l then
    let (s1, st, bs) := s.memRead (dmaIni n) l 64
    (s1.modDma n (fun x => { x with fetch := some (l, st, bs) })).dmaServed (dmaReadNi n) n
  else s.dmaFail n 7 (some l)

/-- The instruction word at `a` in the lines held. -/
def DmaSt.word (x : DmaSt) (a : Nat) : Option DWord :=
  (x.lines.find? (fun l => l.1 == a / 64 * 64)).map (fun l => BitVec.ofNat 64 (ofBytes (sliceBytes l.2 (a % 64) 8)))

/-- Words of an instruction. -/
def dmaWords (w : DWord) : Nat := if fld w 0 8 = 1 then 3 else 1

/-- The words at and after `a` that are held lead to an END (R310). -/
def DmaSt.endAhead (x : DmaSt) : Nat → Nat → Bool
  | 0, _ => false
  | n + 1, a =>
    match x.word a with
    | none => false
    | some w => if fld w 0 8 = 6 then bit w 8 else x.endAhead n (a + 8 * dmaWords w)

/-- A doorbell may still be needed: a fetch is outstanding, or a fetched line yields an END ahead (R310). -/
def DmaSt.latchable (x : DmaSt) : Bool := x.fetch.isSome || x.endAhead 16 x.pc

/-- A latched doorbell that can no longer be needed is counted as ignored (R310). -/
def State.latchSettle (s : State) (n : Nat) : State :=
  let x := s.dmach n
  if x.latch && !x.latchable && x.st != .parked then (s.modDma n (fun y => { y with latch := false })).dmaCount n 3 1 else s

/-- Reserved bits of a word: those outside the mask of defined ones. -/
def reservedBits (w : DWord) (fields : List (Nat × Nat)) : Bool :=
  (w &&& ~~~(fields.foldl (fun acc f => acc ||| maskOf 64 f.1 f.2) (0 : DWord))) != 0

/-- The channel stands at its pc: a missing word of the instruction is fetched, a reserved opcode is PROGERR (R297). -/
def State.dmaPoint (s : State) (n : Nat) : State :=
  let x := s.dmach n
  if x.st != .run || x.fail.isSome || x.fetch.isSome then s
  else match x.word x.pc with
    | none => s.issueFetch n x.pc
    | some w =>
      if fld w 0 8 = 0 ∨ 8 < fld w 0 8 then s.dmaFail n 6 none
      else if dmaWords w = 3 ∧ (x.word (x.pc + 16)).isNone then s.issueFetch n (x.pc + 16)
      else s

/-- The channel goes to instruction address `a`; lines that do not lie at it or just behind it are dropped. -/
def State.dmaGoto (s : State) (n a : Nat) : State :=
  ((s.modDma n (fun x => { x with pc := a, lines := x.lines.filter (fun l => l.1 == a / 64 * 64 || l.1 == (a + 16) / 64 * 64) })).dmaPoint
    n).latchSettle n

/-- DMA_FETCH: the fetch outstanding returns; a status that the network reports stands before memory's own (R310). DEDUCED: any status
other than OK, DROWSE too, stops the channel with FETCH, as R296 says of fetches; R316's retry is that of bursts. -/
def dmaFetch (n : Nat) (status : Status) (s : State) : State :=
  let x := s.dmach n
  match x.fetch with
  | none => s
  | some (a, st, bs) =>
    let s1 := s.modDma n (fun y => { y with fetch := none })
    let res := if status = .ok then st else status
    if res ≠ .ok then s1.dmaFail n 7 (some a)
    else
      let s2 := s1.modDma n (fun y => { y with lines := (a, bs) :: y.lines.filter (fun l => l.1 != a) })
      if x.st = .parked then
        match (s2.dmach n).word x.tail with
        | some w =>
          let s3 := s2.modDma n (fun y => { y with lines := [] })
          if fld w 0 8 = 6 ∧ bit w 8 = false then
            if reservedBits w [(0, 9), (16, 45)] then s3.dmaFail n 6 none
            else if x.loop.isSome then s3.dmaFail n 6 none
            else (s3.modDma n (fun y => { y with st := .run, latch := false })).dmaGoto n (8 * fld w 16 45)
          else if fld w 0 8 = 6 then
            let s4 := s3.dmaCount n 3 1
            if x.latch then (s4.modDma n (fun y => { y with latch := false })).issueFetch n x.tail else s4
          else s3.dmaFail n 6 none
        | none => s2
      else (s2.dmaPoint n).latchSettle n

/-! ### The instruction at the pc -/

/-- The instruction word of opcode `op` when the channel may execute it now: in RUN, with no MOVE still launching (R299). -/
def State.dmaAt (s : State) (n op : Nat) : Option DWord :=
  let x := s.dmach n
  if x.st == .run && x.fail.isNone && x.mv.isNone then
    match x.word x.pc with
    | some w => if fld w 0 8 = op then some w else none
    | none => none
  else none

/-- The next instruction, after one of `k` words. -/
def State.dmaNext (s : State) (n k : Nat) : State := s.dmaGoto n ((s.dmach n).pc + 8 * k)

/-- DMA_LOOP (R301). -/
def dmaLoop (n : Nat) (s : State) : State :=
  match s.dmaAt n 2 with
  | none => s
  | some w =>
    if (s.dmach n).loop.isSome then s.dmaFail n 6 none
    else (s.modDma n (fun x => { x with
      loop := some { body := x.pc + 8, left := fld w 8 24, ss := 64 * sx 16 (fld w 32 16), ds := 64 * sx 16 (fld w 48 16) }
      soff := 0, doff := 0 })).dmaNext n 1

/-- DMA_ENDL (R301). -/
def dmaEndl (n : Nat) (s : State) : State :=
  match s.dmaAt n 3 with
  | none => s
  | some w =>
    match (s.dmach n).loop with
    | none => s.dmaFail n 6 none
    | some l =>
      if reservedBits w [(0, 8)] then s.dmaFail n 6 none
      else if l.left = 0 then (s.modDma n (fun x => { x with loop := none, soff := 0, doff := 0 })).dmaNext n 1
      else (s.modDma n (fun x => { x with
        loop := some { l with left := l.left - 1 }, soff := x.soff + l.ss, doff := x.doff + l.ds })).dmaGoto n l.body

/-- The flushes of a drain leave once no write is in flight (R307). -/
def State.drainFlush (s : State) (n : Nat) : State :=
  let x := s.dmach n
  if x.wait.isSome && x.bursts.isEmpty && !x.hostW.isEmpty then
    s.modDma n (fun y => { y with flush := y.hostW.map (·.1), hostW := [] })
  else s

/-- The channel waits with `w`. -/
def State.dmaHold (s : State) (n : Nat) (w : DWord) (st : DmaState) : State :=
  (s.modDma n (fun x => { x with st := st, wait := some w, pace := [] })).drainFlush n

/-- A WAIT or SIGNAL is over: RUN at the next instruction. -/
def State.dmaResumeRun (s : State) (n : Nat) : State := (s.modDma n (fun x => { x with st := .run, wait := none })).dmaNext n 1

/-- DMA_WAIT (R302, R309): a go that no WAIT has used satisfies cond 2 at once. -/
def dmaWait (n : Nat) (s : State) : State :=
  match s.dmaAt n 4 with
  | none => s
  | some w =>
    if reservedBits w [(0, 18), (32, 32)] then s.dmaFail n 6 none
    else if fld w 8 2 = 2 ∧ (s.dmach n).go then (s.modDma n (fun x => { x with go := false })).dmaNext n 1
    else s.dmaHold n w .wait

/-- The condition of the WAIT in progress. -/
def DmaSt.waitCond (x : DmaSt) : Option Nat :=
  match x.st, x.wait with
  | .wait, some w => if fld w 0 8 = 4 then some (fld w 8 2) else none
  | _, _ => none

/-- DMA_WAIT_EXPIRE: cond 3. -/
def dmaWaitExpire (n : Nat) (s : State) : State :=
  if (s.dmach n).waitCond = some 3 ∧ (s.dmach n).fail = none then s.dmaResumeRun n else s

/-- SIGNAL's effect (R303): a channel event, or a sequencer-signal reservation to port 0 of the region's router. -/
def State.signalAct (s : State) (n : Nat) (w : DWord) : State :=
  if bit w 8 then
    s.launch .signal { Rsv.base (dmaIni n) (dmaWriteNi n) (niAt (regionRouter (fld w 16 5)) 0) with sctx := Fin.ofNat 8 (fld w 21 3) }
      (.dma n) [] []
  else s.raise (dmaPage n) (8 + fld w 9 3)

/-- DMA_SIGNAL (R303): with ord the channel drains first. -/
def dmaSignal (n : Nat) (s : State) : State :=
  match s.dmaAt n 5 with
  | none => s
  | some w =>
    if reservedBits w [(0, 12), (16, 9)] ∨ (bit w 8 ∧ 24 ≤ fld w 16 5) then s.dmaFail n 6 none
    else if bit w 24 then s.dmaHold n w .wait
    else (s.signalAct n w).dmaNext n 1

/-- LINK (R304): a LINK inside a body is PROGERR; the words fetched beyond it are discarded (R296). -/
def dmaLink (n : Nat) (s : State) : State :=
  match s.dmaAt n 6 with
  | none => s
  | some w =>
    if bit w 8 then s
    else if reservedBits w [(0, 9), (16, 45)] ∨ (s.dmach n).loop.isSome then s.dmaFail n 6 none
    else (s.modDma n (fun x => { x with lines := [] })).dmaGoto n (8 * fld w 16 45)

/-- DMA_END: the channel parks; a latched doorbell fetches the tail again at once (R309, R310). -/
def dmaEnd (n : Nat) (s : State) : State :=
  match s.dmaAt n 6 with
  | none => s
  | some w =>
    if !bit w 8 then s
    else if reservedBits w [(0, 9), (16, 45)] then s.dmaFail n 6 none
    else
      let x := s.dmach n
      let s1 := (s.modDma n (fun y => { y with st := .parked, tail := x.pc, lines := [], latch := false })).raise (dmaPage n) 0
      if x.latch then s1.issueFetch n x.pc else s1

/-- XFORM (R305). -/
def dmaXform (n : Nat) (s : State) : State :=
  match s.dmaAt n 7 with
  | none => s
  | some w =>
    if reservedBits w [(0, 20), (24, 24)] ∨ fld w 8 2 = 3 ∨ (fld w 8 2 = 2 ∧ bit w 19 = false ∧ fld w 12 4 = 0) then s.dmaFail n 6 none
    else (s.modDma n (fun x => { x with xf := if fld w 8 2 = 0 then 0 else w })).dmaNext n 1

/-- HALT (R306): inside a body it is PROGERR (R301). -/
def dmaHalt (n : Nat) (s : State) : State :=
  match s.dmaAt n 8 with
  | none => s
  | some w =>
    if reservedBits w [(0, 16)] ∨ (s.dmach n).loop.isSome then s.dmaFail n 6 none
    else s.dmaHold n w .halting

/-- DMA_DRAIN_DONE: every write and flush is answered: a drain's WAIT or SIGNAL goes on, HALT completes (R302, R303, R306). -/
def dmaDrainDone (n : Nat) (s0 : State) : State :=
  let s := s0.drainFlush n
  let x := s.dmach n
  if !x.bursts.isEmpty || !x.flush.isEmpty || x.fail.isSome || (x.st != .wait && x.st != .halting) then s
  else match x.wait with
    | none => s
    | some w =>
      if fld w 0 8 = 8 then
        (s.modDma n (fun y => { y.toIdle with hcode := fld w 8 8 })).raise (dmaPage n) 2
      else if fld w 0 8 = 5 then (s.signalAct n w).dmaResumeRun n
      else if fld w 8 2 = 0 then s.dmaResumeRun n else s

/-! ### Commands (R309, R310, R317) -/

/-- The resume of a SUSPENDED channel: what it interrupted goes on (R315); a go written meanwhile satisfies an interrupted WAIT cond 2
(R302, R309). -/
def State.dmaResumeAct (s : State) (n : Nat) : State :=
  let s1 := s.modDma n (fun x => { x with st := x.before, fault := 0 })
  if (s1.dmach n).waitCond = some 2 ∧ (s1.dmach n).go then (s1.modDma n (fun x => { x with go := false })).dmaResumeRun n else s1

/-- A write of DMAn_CTRL (R309): more than one command, or a command in another state, is ignored and sets cmdig. -/
def State.dmaCtrl (s : State) (n : Nat) (v : Word) : State :=
  let x := s.dmach n
  let ig := s.raise (dmaPage n) 4
  match fld v 0 4 with
  | 0 => s
  | 1 =>
    if x.st = .idle ∨ x.st = .error then
      (s.modDma n (fun y => { y.clear with st := .run, err := 0, fault := 0 })).dmaGoto n (s.reg64 (dmaPage n + dmaPc) / 8 * 8 % 2 ^ 48)
    else ig
  | 2 => if x.st = .suspended ∧ x.fail = none then s.dmaResumeAct n else ig
  | 4 =>
    if x.st = .run ∨ x.st = .wait ∨ x.st = .parked ∨ x.st = .suspended ∨ x.st = .halting then s.abortBegin n else ig
  | 8 =>
    if x.st = .idle then ig
    else if x.waitCond = some 2 ∧ x.fail = none then s.dmaResumeRun n
    else s.modDma n (fun y => { y with go := true })
  | _ => ig

/-- A write of DMAn_CTRL by an initiator. -/
def dmaCtrlWrite (ini : Ini) (n : Nat) (val : Word) (s : State) : State :=
  s.regWrite ini (dmaPage n + dmaCtrl) val (fun v u => u.dmaCtrl n v)

/-- The commands of DMAn_CTRL, each named by the bit it is written for. -/
def dmaStart (ini : Ini) (n : Nat) (val : Word) (s : State) : State := dmaCtrlWrite ini n val s
def dmaAbort (ini : Ini) (n : Nat) (val : Word) (s : State) : State := dmaCtrlWrite ini n val s
def dmaGo (ini : Ini) (n : Nat) (val : Word) (s : State) : State := dmaCtrlWrite ini n val s

/-- A doorbell (R310). -/
def State.doorbell (s : State) (n : Nat) : State :=
  let x := s.dmach n
  if x.st = .parked ∧ x.fail = none then
    if x.fetch.isSome then s.modDma n (fun y => { y with latch := true }) else s.issueFetch n x.tail
  else if (x.st = .run ∨ x.st = .wait) ∧ x.latchable = true ∧ x.fail = none then s.modDma n (fun y => { y with latch := true })
  else s.dmaCount n 3 1

/-- DMA_APPEND: a write of DMAn_APPEND. -/
def dmaAppendCmd (ini : Ini) (n : Nat) (val : Word) (s : State) : State :=
  s.regWrite ini (dmaPage n + dmaAppend) val (fun v u => if bit v 0 then u.doorbell n else u)

/-- DMAn_CFG and DMAn_PC accept writes only in IDLE and ERROR (R320). -/
def dmaIdleWrite (ini : Ini) (n off : Nat) (val : Word) (s : State) : State :=
  let x := s.dmach n
  if x.st = .idle ∨ x.st = .error then s.regWrite ini (dmaPage n + off) val (fun _ u => u)
  else s.regGuard ini (dmaPage n + off) (fun u => u.raise (dmaPage n) 4)

/-- A write of DMA_PACECFG: a period below 4 is ignored (R321). -/
def pacecfgWrite (ini : Ini) (val : Word) (s : State) : State :=
  s.regGuard ini (page .dmac 0 + dmaPacecfg) (fun u =>
    if fld val 0 8 < 4 then u else u.setReg (page .dmac 0 + dmaPacecfg) (val &&& 0xFF))

/-! ### Registers (R320, R321) -/

/-- The code of a channel state (R308). -/
def DmaState.code : DmaState → Nat
  | .idle => 0 | .run => 1 | .wait => 2 | .parked => 3 | .suspended => 4 | .halting => 5 | .error => 6 | .aborting => 7

/-- DMAn_STAT. -/
def State.dmaStatWord (s : State) (n : Nat) : Word :=
  let x := s.dmach n
  BitVec.ofNat 32 (x.st.code + 2 ^ 3 * b2n x.latch + 2 ^ 8 * x.err + 2 ^ 16 * x.hcode + 2 ^ 24 * x.bursts.length)

/-- A bit per channel that meets `p`. -/
def State.dmaMap (s : State) (p : DmaState → Bool) : DWord :=
  BitVec.ofNat 64 (((List.range 64).map (fun n => 2 ^ n * b2n (p (s.dmach n).st))).sum)

/-- DMA_STDATA and DMA_BUFUSE. -/
def State.dmaStdata (s : State) : DWord :=
  let sel := s.reg (page .dmac 0 + dmaStsel)
  BitVec.ofNat 64 (tget 0 (s.dmach (fld sel 0 6)).stats (fld sel 8 3))
def State.dmaBufuse (s : State) : Word := BitVec.ofNat 32 (((List.range 64).map (fun n => (s.dmach n).bursts.length)).sum)

/-- The engine's reset returns every channel to IDLE with no event (R317). -/
def State.resetDma (s : State) : State := { s with dma := [], dmaTurn := [] }

/-! ### The commands -/

/-- DMA_START (R309). A write of CTRL.start starts the channel at DMAn_PC. -/
def execDmaStart (ini : Ini) (d : DmaCh) (val : Word) (s : State) : Out :=
  .next (s.gate (dmaStart ini d.val val s))

/-- DMA_ABORT (R317). A write of CTRL.abort stops the channel and discards its buffered data. -/
def execDmaAbort (ini : Ini) (d : DmaCh) (val : Word) (s : State) : Out :=
  .next (s.gate (dmaAbort ini d.val val s))

/-- DMA_GO (R302). A write of CTRL.go satisfies a WAIT cond 2. -/
def execDmaGo (ini : Ini) (d : DmaCh) (val : Word) (s : State) : Out :=
  .next (s.gate (dmaGo ini d.val val s))

/-- DMA_APPEND (R310). A write of DMAn_APPEND refetches the tail of a parked channel, latches, or is ignored. -/
def execDmaAppend (ini : Ini) (d : DmaCh) (val : Word) (s : State) : Out :=
  .next (s.gate (dmaAppendCmd ini d.val val s))

/-- DMA_FETCH (R296). A program line fetch returns to the channel. -/
def execDmaFetch (d : DmaCh) (status : Status) (s : State) : Out :=
  .next (s.gate (dmaFetch d.val status s))

/-- DMA_LOOP (R301). The LOOP instruction starts a counted body with strides. -/
def execDmaLoop (d : DmaCh) (s : State) : Out :=
  .next (s.gate (dmaLoop d.val s))

/-- DMA_ENDL (R301). The ENDL instruction ends a loop pass. -/
def execDmaEndl (d : DmaCh) (s : State) : Out :=
  .next (s.gate (dmaEndl d.val s))

/-- DMA_WAIT (R302). The WAIT instruction starts waiting for its condition. -/
def execDmaWait (d : DmaCh) (s : State) : Out :=
  .next (s.gate (dmaWait d.val s))

/-- DMA_WAIT_EXPIRE (R302). A WAIT cond 3 cycle count expires. -/
def execDmaWaitExpire (d : DmaCh) (s : State) : Out :=
  .next (s.gate (dmaWaitExpire d.val s))

/-- DMA_SIGNAL (R303). The SIGNAL instruction raises a channel event or a sequencer signal. -/
def execDmaSignal (d : DmaCh) (s : State) : Out :=
  .next (s.gate (dmaSignal d.val s))

/-- LINK (R304). The LINK instruction continues at its target. -/
def execLink (d : DmaCh) (s : State) : Out :=
  .next (s.gate (dmaLink d.val s))

/-- DMA_END (R309). A LINK with end = 1 parks the channel and latches the tail address. -/
def execDmaEnd (d : DmaCh) (s : State) : Out :=
  .next (s.gate (dmaEnd d.val s))

/-- XFORM (R305). The XFORM instruction sets the transform for later MOVEs. -/
def execXform (d : DmaCh) (s : State) : Out :=
  .next (s.gate (dmaXform d.val s))

/-- HALT (R306). The HALT instruction moves the channel to HALTING. -/
def execHalt (d : DmaCh) (s : State) : Out :=
  .next (s.gate (dmaHalt d.val s))

/-- DMA_DRAIN_DONE (R306). Every write and flush is answered and a halting channel completes to IDLE. -/
def execDmaDrainDone (d : DmaCh) (s : State) : Out :=
  .next (s.gate (dmaDrainDone d.val s))

/-- DMA_ERROR (R316). An error answer stops the channel into ERROR after outstanding answers. -/
def execDmaError (d : DmaCh) (s : State) : Out :=
  .next (s.gate (dmaError d.val s))

end Sys2Proof.Machine
end

