-- ==== Sys2Proof/Machine/Banks.lean ====
section
/-!
DEFINITION. The rider cores' context banks (chapter 14): registers through the frame map, save nodes slot by slot, the lazy
FP file, and the thread descriptors that name the nodes.
-/
namespace Sys2Proof.Machine

/-! ### Cores and banks -/

def State.core (s : State) (c : Nat) : CoreSt := tget {} s.cores c
def State.modCore (s : State) (c : Nat) (f : CoreSt → CoreSt) : State := { s with cores := tset {} s.cores c (f (s.core c)) }
def CoreSt.bank (x : CoreSt) (b : Nat) : Bank := tget {} x.banks b
def CoreSt.modBank (x : CoreSt) (b : Nat) (f : Bank → Bank) : CoreSt := { x with banks := tset {} x.banks b (f (x.bank b)) }
def State.bank (s : State) (c b : Nat) : Bank := (s.core c).bank b
def State.modBank (s : State) (c b : Nat) (f : Bank → Bank) : State := s.modCore c (fun x => x.modBank b f)
/-- Identifier and register page of a core (R27, R351). -/
def coreIni (c : Nat) : Ini := BitVec.ofNat 8 (c + 1)
def ccxPage (c : Nat) : Nat := page .ccx c

/-- Add one to a counter of CCXc_STSEL, saturating. -/
def State.coreCount (s : State) (c k : Nat) : State :=
  s.modCore c (fun x => { x with stats := tset 0 x.stats k (satAdd (2 ^ 64 - 1) (tget 0 x.stats k) 1) })

/-- The ACTIVE bank of a core. -/
def CoreSt.active (x : CoreSt) : Option Nat := (List.range 8).find? (fun b => (x.bank b).st == .active)

/-- A thread descriptor (R355). -/
def State.thr (s : State) (n : Nat) : Thr := tget {} s.hts.thr n
def State.modThr (s : State) (n : Nat) (f : Thr → Thr) : State := { s with hts := { s.hts with thr := tset {} s.hts.thr n (f (s.thr n)) } }

/-- The rider cores are stopped: in DRAIN, without main power, and from a reset request on (R386, R400). -/
def State.halted (s : State) : Bool :=
  s.pmu.mode == .drain || s.pmu.mode == .hold || s.pmu.mode == .off || s.pmu.warm.isSome || s.pmu.cold.isSome

/-- The bank in which core `c` executes: ACTIVE, its thread RUNNING, and the core not stopped. -/
def State.runBank (s : State) (c : Nat) : Option Nat :=
  if s.halted then none else
  match (s.core c).active with
  | some b => if (s.thr (s.bank c b).thr).st = .running then some b else none
  | none => none

/-- The same, and the debug module does not hold the core halted (R487): the core may execute an instruction. -/
def State.execBank (s : State) (c : Nat) : Option Nat := if bit s.pio.tap.halt c then none else s.runBank c

/-! ### Slots of the lower half (R334) -/

def slotPc : Nat := 15
def slotPriv : Nat := 16
def slotSatp : Nat := 17
def slotKf : Nat := 18
def slotKfbase : Nat := 19
def slotMepc : Nat := 20
def slotMcause : Nat := 21
def slotMtval : Nat := 22
def slotMscratch : Nat := 23
def slotSepc : Nat := 24
def slotScause : Nat := 25
def slotStval : Nat := 26
def slotSscratch : Nat := 27
def slotStvec : Nat := 28
def slotSie : Nat := 29

/-- The banked fields of mstatus (R330): SIE, MIE, SPIE, MPIE, SPP, MPP, FS, MPRV, SUM, MXR. -/
def mstMask : DWord := 0x0E79AA

/-- A slot of the lower half. Slot 16 holds the privilege level in [1:0]; SIE, whose mstatus position 1 lies there, has no
bit of its own. -/
def Bank.slot (x : Bank) (i : Nat) : DWord :=
  if i = slotPriv then (x.mst &&& ~~~3) ||| x.priv.setWidth 64 else tget 0 x.low i
def Bank.setSlot (x : Bank) (i : Nat) (v : DWord) : Bank := { x with low := tset 0 x.low i v }

/-- kfstatus and its fields (R326). -/
def Bank.kf (x : Bank) : DWord := x.slot slotKf
def Bank.cur (x : Bank) : Nat := fld x.kf 0 3
def Bank.res (x : Bank) : Nat := fld x.kf 3 3
def Bank.spl (x : Bank) : Nat := fld x.kf 8 8
def Bank.tf (x : Bank) : Bool := bit x.kf 16
def Bank.tnest (x : Bank) : Bool := bit x.kf 17
def Bank.tdep (x : Bank) : Nat := fld x.kf 18 3
def Bank.svc (x : Bank) : Bool := bit x.kf 21
/-- Replace a field of kfstatus. -/
def Bank.kfSet (x : Bank) (lo n v : Nat) : Bank := x.setSlot slotKf (setFld x.kf lo n v)
/-- kfstatus of a thread's start: cur 0, res 1, spl 0 (R326). -/
def kfStart : DWord := 0x8

/-- What a CSR of the lower half keeps of a value loaded or written into it (R326, R349 and the privileged specification):
kfstatus drops its reserved bits, kfbase reads zero in [5:0], pcs are even, stvec's mode is 0 or 1. -/
def slotLegal (i : Nat) (v : DWord) : DWord :=
  if i = slotKf then v &&& 0x3FFF3F
  else if i = slotKfbase then v &&& ~~~0x3F
  else if i = slotPc ∨ i = slotMepc ∨ i = slotSepc then v &&& ~~~1
  else if i = slotStvec then v &&& ~~~2
  else if i = slotSie then v &&& 0x10000
  else v

/-- kfstatus with a cur above 5, a res outside 1 to 6: the spec gives no ring frame there; the field takes a free value in its
range. -/
def State.kfRange (s : State) (v : DWord) : DWord × State :=
  let (a, s1) := s.freeNat 6
  let (b, s2) := s1.freeNat 6
  let v1 := if 5 < fld v 0 3 then setFld v 0 3 a else v
  let v2 := if fld v 3 3 = 0 ∨ fld v 3 3 = 7 then setFld v1 3 3 (b + 1) else v1
  (v2, if v2 = v then s else s2)

/-- Load slot `i` of the lower half with `v`. -/
def State.loadLow (s : State) (c b i : Nat) (v : DWord) : State :=
  if i = slotPriv then
    -- bit 1 is the privilege level's: SIE takes a free value
    let (e, s1) := s.freeNat 2
    s1.modBank c b (fun x => { x with
      priv := if v.setWidth 2 = (2 : BitVec 2) then 0 else v.setWidth 2
      mst := (putBit v 1 (e == 1)) &&& mstMask })
  else if i = slotKf then
    let (k, s1) := s.kfRange (slotLegal i v)
    s1.modBank c b (fun x => x.setSlot i k)
  else if i = slotSatp ∧ fld v 60 4 ≠ 0 ∧ fld v 60 4 ≠ 9 then s
  else s.modBank c b (fun x => x.setSlot i (slotLegal i v))

/-! ### Registers through the frame map (R325, R326) -/

/-- The trap frame is current. -/
def Bank.inTrap (x : Bank) : Bool := x.tf && x.tdep == 0
/-- First slot of the upper half that x16 to x31 name. -/
def Bank.frame (x : Bank) : Nat := if x.inTrap then 96 else 16 * x.cur
/-- The oldest resident ring frame. -/
def Bank.oldest (x : Bank) : Nat := (x.cur + 7 - x.res) % 6

/-- Register x`r` of a bank. -/
def Bank.x (k : Bank) (r : Nat) : DWord :=
  if r = 0 then 0 else if r < 16 then tget 0 k.low (r - 1) else tget 0 k.up (k.frame + (r - 16))
/-- Write register x`r`; x0 discards. -/
def Bank.setX (k : Bank) (r : Nat) (v : DWord) : Bank :=
  if r = 0 then k else if r < 16 then k.setSlot (r - 1) v else { k with up := tset 0 k.up (k.frame + (r - 16)) v }

def Bank.pc (x : Bank) : DWord := tget 0 x.low slotPc
def Bank.setPc (x : Bank) (v : DWord) : Bank := x.setSlot slotPc v

/-! ### Frames that the engine has still to load (R337) -/

/-- The frames of bank `b` that the engine's request at the front has not loaded yet, 6 the trap frame. -/
def State.frameDue (s : State) (c b : Nat) : List Nat :=
  match (s.core c).eng with
  | [] => []
  | j :: _ => if j.load && j.bank == b then j.frames.getD [] else []

/-- An instruction or a trap that leaves bank `b` as in `u` may be performed now: the interrupted Xkctx instruction that
waits in the bank is `op` (none waits for `none`; R335), and the frame that x16 to x31 name after it is loaded (R337). -/
def State.issues (s : State) (c b : Nat) (op : Option XkOp) (u : State) : Bool :=
  ((s.bank c b).cont.isNone || (s.bank c b).cont == op) &&
    !((u.bank c b).st == .active && (s.frameDue c b).contains ((u.bank c b).frame / 16))

/-- `u`, or the state as it stood where the core stalls. -/
def State.issue (s : State) (c b : Nat) (op : Option XkOp) (u : State) : State := if s.issues c b op u then u else s

/-- Zero a bank (R331). -/
def State.zeroBank (s : State) (c b : Nat) : State := s.modBank c b (fun _ => {})

/-! ### Save nodes (R334 to R338) -/

/-- Where slot `i` of a node lies. -/
def slotAddr (node i : Nat) : Nat := node + 0x40 + 8 * i

/-- Set bit `i` of a node's slot mask. -/
def State.setMask (s : State) (ini : Ini) (node i : Nat) : State × Status :=
  let a := node + 8 + i / 8
  let (s1, st, l) := s.memRead ini a 1
  if st = .ok then s1.memWrite ini a [BitVec.ofNat 8 ((l.headD 0).toNat ||| 2 ^ (i % 8))] else (s1, st)

/-- The slot mask of a node. -/
def State.nodeMask (s : State) (ini : Ini) (node : Nat) : State × Status × Nat :=
  let (s1, st, l) := s.memRead ini (node + 8) 24
  (s1, st, ofBytes l)

/-- A save begins: the node's header names the half, the thread, the bank and the core; its mask and complete are cleared,
fpv stands (R334, R335). -/
def State.nodeBegin (s : State) (ini : Ini) (node : Nat) (upper : Bool) (thr c b : Nat) : State × Status :=
  let (s0, st0, l) := s.memRead ini (node + 4) 4
  if st0 ≠ .ok then (s0, st0) else
  let kind := if upper then 0x55 else 0x4C
  let w1 := if upper then ofBytes l % 4 / 2 * 2 else 0
  let hdr := bytesOf 4 (kind + 2 ^ 8 + 2 ^ 16 * thr) ++ bytesOf 4 w1 ++ List.replicate 24 (0 : Byte) ++ bytesOf 4 (b + 16 * c)
  s0.memWrite ini node hdr

/-- Set a bit of the word at node offset 0x04: 0 complete, 1 fpv. -/
def State.nodeFlag (s : State) (ini : Ini) (node i : Nat) : State × Status :=
  let (s1, st, l) := s.memRead ini (node + 4) 1
  if st = .ok then s1.memWrite ini (node + 4) [BitVec.ofNat 8 ((l.headD 0).toNat ||| 2 ^ i)] else (s1, st)

/-- Write slots in the order given, each with its mask bit; the address of the slot that is not answered OK ends it (R338). -/
def State.saveSlots (s : State) (ini : Ini) (node : Nat) : List (Nat × DWord) → State × Option Nat
  | [] => (s, none)
  | (i, v) :: t =>
    let (s1, st1) := s.memWrite ini (slotAddr node i) (bytesOf 8 v.toNat)
    if st1 ≠ .ok then (s1, some (slotAddr node i)) else
    let (s2, st2) := s1.setMask ini node i
    if st2 ≠ .ok then (s2, some (slotAddr node i)) else s2.saveSlots ini node t

/-- Read a slot. -/
def State.nodeSlot (s : State) (ini : Ini) (node i : Nat) : State × Status × DWord :=
  let (s1, st, l) := s.memRead ini (slotAddr node i) 8
  (s1, st, BitVec.ofNat 64 (ofBytes l))

/-- Load the slots of a list whose mask bit is set, each with `f`. -/
def State.loadSlots (s : State) (ini : Ini) (node mask : Nat) (f : Nat → DWord → State → State) : List Nat → State × Option Nat
  | [] => (s, none)
  | i :: t =>
    if Nat.testBit mask i then
      let (s1, st, v) := s.nodeSlot ini node i
      if st ≠ .ok then (s1, some (slotAddr node i)) else (f i v s1).loadSlots ini node mask f t
    else s.loadSlots ini node mask f t

/-- The FP slots and what they hold (R334). -/
def CoreSt.fpSlots (x : CoreSt) : List (Nat × DWord) := (List.range 33).map (fun i => (112 + i, tget 0 x.fp i))

/-- The thread of a bank owns the FP unit. -/
def State.ownsFp (s : State) (c b : Nat) : Bool := (s.core c).fpOwn == some (s.bank c b).thr

/-- The slots that a save of one half writes. -/
def State.halfSlots (s : State) (c b : Nat) (upper : Bool) : List (Nat × DWord) :=
  if upper then
    (List.range 112).map (fun i => (i, tget 0 (s.bank c b).up i)) ++ (if s.ownsFp c b then (s.core c).fpSlots else [])
  else (List.range 30).map (fun i => (i, (s.bank c b).slot i))

/-- The node of a half. -/
def Bank.node (x : Bank) (upper : Bool) : Nat := if upper then x.nodeu else x.nodel

/-- Save one half, or continue its save from the node's mask (`cont`), at most `limit` slots of it: the state, the address of
a slot that is not answered OK, and whether the half is complete (R335, R336). -/
def State.saveHalf (s : State) (c b : Nat) (upper cont : Bool) (limit : Option Nat) : State × Option Nat × Bool :=
  let ini := coreIni c
  let x := s.bank c b
  let node := x.node upper
  let (s1, st1) := if cont then (s, Status.ok) else s.nodeBegin ini node upper x.thr c b
  if st1 ≠ .ok then (s1, some node, false) else
  let (s2, st2, mask) := s1.nodeMask ini node
  if st2 ≠ .ok then (s2, some node, false) else
  let todo := (s2.halfSlots c b upper).filter (fun p => !Nat.testBit mask p.1)
  let now := match limit with
    | some n => todo.take n
    | none => todo
  let (s3, f) := s2.saveSlots ini node now
  match f with
  | some a => (s3, some a, false)
  | none =>
    if now.length < todo.length then (s3, none, false)
    else
      let (s4, st4) := if upper && s3.ownsFp c b then s3.nodeFlag ini node 1 else (s3, Status.ok)
      let (s5, st5) := s4.nodeFlag ini node 0
      (s5, if st4 = .ok ∧ st5 = .ok then none else some node, true)

/-- Load a list of slots of a half that the node's mask marks (R335, R337). -/
def State.loadHalf (s : State) (c b : Nat) (upper : Bool) (slots : List Nat) : State × Option Nat :=
  let ini := coreIni c
  let node := (s.bank c b).node upper
  let (s1, st1, mask) := s.nodeMask ini node
  if st1 ≠ .ok then (s1, some node)
  else s1.loadSlots ini node mask
    (fun i v u => if upper then u.modBank c b (fun x => { x with up := tset 0 x.up i v }) else u.loadLow c b i v) slots

/-! ### Lazy FP (R339, R340) -/

/-- FP ownership is released without a save. -/
def State.releaseFp (s : State) (c b : Nat) : State :=
  if s.ownsFp c b then s.modCore c (fun x => { x with fpOwn := none, fpOk := false }) else s

/-- FP registers loaded from a thread's upper node, zero where its fpv is 0; a register whose slot is not answered OK takes
a free value. -/
def State.loadFp (s : State) (c node : Nat) : State :=
  let ini := coreIni c
  let (s1, st, l) := s.memRead ini (node + 4) 4
  let s2 := s1.modCore c (fun x => { x with fp := [] })
  if st = .ok ∧ Nat.testBit (ofBytes l) 1 = false then s2
  else (List.range 33).foldl (fun u i =>
    let (u1, st1, v) := u.nodeSlot ini node (112 + i)
    if st = .ok ∧ st1 = .ok then u1.modCore c (fun x => { x with fp := tset 0 x.fp i v })
    else u1.modCore c (fun x => { x with fp := tset 0 x.fp i (Config.free u1.fresh) }) |> (fun w => { w with fresh := w.fresh + 1 })) s2

/-- The helper: the owner's FP state goes to its upper node, the new thread's comes from its own (R339). -/
def State.fpHelper (s : State) (c b : Nat) : State :=
  let ini := coreIni c
  let s1 := match (s.core c).fpOwn with
    | none => s
    | some o =>
      let node := (s.thr o).nodeu.toNat
      let (u, _) := s.saveSlots ini node (s.core c).fpSlots
      (u.nodeFlag ini node 1).1
  ((s1.loadFp c (s1.bank c b).nodeu).modCore c (fun x => { x with fpOwn := some (s.bank c b).thr, fpOk := true })).coreCount c 3

/-- The FP unit becomes available to the running bank: at once for its owner, through the helper otherwise. -/
def State.fpReady (s : State) (c b : Nat) : State :=
  if (s.core c).fpOk then s
  else if s.ownsFp c b then s.modCore c (fun x => { x with fpOk := true })
  else s.fpHelper c b

/-- FP_LAZY_SWITCH: the first FP instruction of a running bank whose mstatus.FS is not Off. -/
def fpLazySwitch (c : Nat) (s : State) : State :=
  match s.runBank c with
  | none => s
  | some b => if fld (s.bank c b).mst 13 2 = 0 then s else s.fpReady c b

/-! ### A bank is made ACTIVE or leaves (R332, R333) -/

/-- The watchdog of core `c` restarts (R411). -/
def State.wdRestart (s : State) (c : Nat) : State := { s with lve := { s.lve with wd1 := clrBit s.lve.wd1 c } }

/-- A switch of the active bank: the FP unit becomes unavailable, the core's reservation is lost, its watchdog restarts. -/
def State.switchBank (s : State) (c b : Nat) : State :=
  let s1 := match (s.core c).active with
    | some a => s.modBank c a (fun x => { x with st := .held })
    | none => s
  let s2 := (s1.modBank c b (fun x => { x with st := .active })).modCore c (fun x => { x with fpOk := false })
  ({ s2 with lr := tset none s2.lr c none, lve := { s2.lve with wd1 := clrBit s2.lve.wd1 c } }).coreCount c 0

/-- The core leaves its active bank in state `st`. -/
def State.leaveBank (s : State) (c b : Nat) (st : BankState) : State :=
  let s1 := s.modBank c b (fun x => { x with st := st })
  { s1 with lr := if (s.bank c b).st = .active then tset none s1.lr c none else s1.lr }

/-! ### Registers of a core page (R351) -/

def BankState.code : BankState → Nat
  | .empty => 0 | .held => 1 | .active => 2 | .saving => 3 | .loading => 4

/-- CCXc_STAT: the privilege level reads 3 with no active bank. -/
def State.ccxStatWord (s : State) (c : Nat) : Word :=
  let x := s.core c
  let a := x.active
  let e := x.eng.head?
  BitVec.ofNat 32 (a.getD 0 + 2 ^ 3 * b2n a.isSome + 2 ^ 4 * (match a with
    | some b => (x.bank b).priv.toNat
    | none => 3) + 2 ^ 8 * b2n e.isSome + (match e with
    | some j => 2 ^ 9 * j.bank + 2 ^ 12 * b2n j.load
    | none => 0))

def State.bankstatWord (s : State) (c : Nat) : Word :=
  BitVec.ofNat 32 (((List.range 8).map (fun b => 2 ^ (4 * b) * (s.bank c b).st.code)).sum)
def State.bankthrWord (s : State) (c i : Nat) : Word :=
  BitVec.ofNat 32 ((s.bank c (2 * i)).thr + 2 ^ 16 * (s.bank c (2 * i + 1)).thr)
def State.fpownWord (s : State) (c : Nat) : Word :=
  match (s.core c).fpOwn with
  | some t => BitVec.ofNat 32 (t + 2 ^ 16)
  | none => 0
def State.ccxStdataWord (s : State) (c : Nat) : DWord :=
  BitVec.ofNat 64 (tget 0 (s.core c).stats (fld (s.reg (ccxPage c + ccxStsel)) 0 3))

/-- CCXc_FFLT and CCXc_FFPC take the latest frame fault, and EVT_RAW.ffault is set (R329); a save-area fault sets sverr. -/
def State.recordFault (s : State) (c b code : Nat) : State :=
  let x := s.bank c b
  let s1 := (s.setReg (ccxPage c + ccxFflt) (BitVec.ofNat 32 (code + 2 ^ 4 * b + 2 ^ 16 * x.thr))).setReg64 (ccxPage c + ccxFfpc) x.pc.toNat
  let s2 := s1.raise (ccxPage c) 0
  if code = 4 ∨ code = 5 then s2.raise (ccxPage c) 2 else s2

/-! ### The commands -/

/-- FP_LAZY_SWITCH (R339). The first FP instruction of a non-owner bank runs the helper that moves FP state. -/
def execFpLazySwitch (c : Core) (s : State) : Out :=
  .next (s.gate (fpLazySwitch c.val s))

end Sys2Proof.Machine
end

