-- ==== Sys2Proof/Machine/Hts.lean ====
section
/-!
DEFINITION. The hardware task scheduler (chapter 15): thread states, commands, events and routing, ready queues, dispatch,
park, cancel, trace and registers.
-/
namespace Sys2Proof.Machine

/-- The scheduler's pages (R373). -/
def htsPage (p : Nat) : Nat := page .hts p

/-- Add `k` to a counter of HTS_STSEL, saturating. -/
def State.htsCount (s : State) (i : Nat) : State :=
  { s with hts := { s.hts with stats := tset 0 s.hts.stats i (satAdd (2 ^ 64 - 1) (tget 0 s.hts.stats i) 1) } }

/-! ### Descriptors (R355) -/

/-- The code of a thread state (R353). -/
def ThrState.code : ThrState → Nat
  | .free => 0 | .waiting => 1 | .ready => 2 | .running => 3 | .parked => 4 | .cancelled => 5

/-- Word `i` of a descriptor as it stands. -/
def Thr.word (t : Thr) (i : Nat) : Word :=
  match i with
  | 0 => BitVec.ofNat 32 (t.st.code + 2 ^ 3 * t.pri + 2 ^ 9 * t.aff.toNat + 2 ^ 13 * b2n t.res +
      (if t.res then 2 ^ 14 * t.bank + 2 ^ 17 * t.core else 0) + 2 ^ 19 * b2n t.esat + 2 ^ 20 * t.pcause + 2 ^ 24 * b2n t.started)
  | 1 => BitVec.ofNat 32 (t.cnt + 2 ^ 16 * t.rld)
  | 2 => BitVec.ofNat 32 t.erl
  | 3 => t.nodel.setWidth 32
  | 4 => BitVec.ofNat 32 (fld t.nodel 32 32)
  | 5 => t.nodeu.setWidth 32
  | 6 => BitVec.ofNat 32 (fld t.nodeu 32 32)
  | 7 => BitVec.ofNat 32 (t.xev + 2 ^ 13 * b2n t.xen)
  | _ => 0

/-- Staged word `i` of HTS_TDW. -/
def State.tdw (s : State) (i : Nat) : Word := s.reg (htsPage 1 + htsTdw + 4 * i)

/-- A node address of the staged words: bits [47:6]. -/
def State.stagedNode (s : State) (i : Nat) : DWord :=
  BitVec.ofNat 64 ((((s.tdw i).toNat + 2 ^ 32 * (s.tdw (i + 1)).toNat) / 64 * 64) % 2 ^ 48)

/-- A node of `n` bytes lies in the reservoir plain range or in device DRAM (R334, R356). -/
def State.nodeOk (s : State) (a n : Nat) : Bool :=
  let ok := fun (t : Target) => match t with
    | .reservoir _ v => v == 0
    | .dram _ => true
    | _ => false
  ok (s.target a) && ok (s.target (a + n - 1))

/-! ### Ready queues (R361) -/

def State.rq (s : State) (p : Nat) : List Nat := tget [] s.hts.rq p
def State.setRq (s : State) (p : Nat) (l : List Nat) : State := { s with hts := { s.hts with rq := tset [] s.hts.rq p l } }
def State.rqTail (s : State) (n : Nat) : State := let p := (s.thr n).pri; s.setRq p (s.rq p ++ [n])
def State.rqHead (s : State) (n : Nat) : State := let p := (s.thr n).pri; s.setRq p (n :: s.rq p)
def State.rqDel (s : State) (n : Nat) : State := let p := (s.thr n).pri; s.setRq p ((s.rq p).filter (fun m => m != n))

/-- The thread becomes READY at the tail of its queue. -/
def State.makeReady (s : State) (n : Nat) : State := (s.modThr n (fun t => { t with st := .ready })).rqTail n
/-- The thread becomes WAITING; its rank in waiting is the latest (R363). -/
def State.makeWaiting (s : State) (n : Nat) : State :=
  let s1 := s.modThr n (fun t => { t with st := .waiting, since := s.hts.age })
  { s1 with hts := { s1.hts with age := s1.hts.age + 1 } }
/-- WAITING with cnt above 0, READY otherwise (R354). -/
def State.readyOrWait (s : State) (n : Nat) : State := if (s.thr n).cnt = 0 then s.makeReady n else s.makeWaiting n

/-- k = min(erl, cnt) is taken from both (R356, R368). -/
def Thr.consume (t : Thr) : Thr := { t with cnt := t.cnt - min t.erl t.cnt, erl := t.erl - min t.erl t.cnt }

/-- xev is raised when xen is 1 (R355). -/
def State.raiseXev (s : State) (n : Nat) : State :=
  if (s.thr n).xen then s.toPort (htsPage 0 / 0x1000) ⟨(s.thr n).xev, false⟩ else s

/-! ### Trace (R372) -/

/-- Records leave the buffer while their queue takes them; a disabled queue discards them and sets cmdig (R188). -/
def State.traceFlush (s : State) : Nat → State
  | 0 => s
  | k + 1 =>
    match s.hts.trace with
    | [] => s
    | d :: t =>
      let q := fld (s.reg (htsPage 0 + htsTrq)) 0 7
      let s1 := State.spillRoom q 512 s
      if s1.queueReach q 0x32 then
        ((({ s1 with hts := { s1.hts with trace := t } }).queueRecord q 0x32 0 4 (d.setWidth 512)).countFlit 0x32 0 true true false).traceFlush k
      else s

/-- A trace record: kind, thread, core, bank, rdy, load, event, park cause, preempting thread; the OCN cycle count is free. -/
def State.traceRec (s : State) (kind n core bank : Nat) (rdy load : Bool) (ev : Option Nat) (cause by_ : Nat) : State :=
  if bit (s.reg (htsPage 0 + htsCtrl)) 2 then
    let (lo, s1) := s.freeNat (2 ^ 64)
    let i0 := kind + 2 ^ 4 * n + 2 ^ 16 * (s.thr n).pri + 2 ^ 22 * core + 2 ^ 24 * bank + 2 ^ 27 * b2n rdy + 2 ^ 28 * b2n load
    let i1 := ev.getD 0 + 2 ^ 13 * b2n ev.isSome + 2 ^ 16 * cause + 2 ^ 20 * by_
    let d : BitVec 128 := BitVec.ofNat 128 (i0 + 2 ^ 32 * i1 + 2 ^ 64 * lo)
    if s1.hts.trace.length < 32 then
      ({ s1 with hts := { s1.hts with trace := s1.hts.trace ++ [d] } }).traceFlush 32
    else (s1.countUp (htsPage 0 + htsTrlost) 0 32 1).raise (htsPage 0) 5
  else s

/-! ### Banks freed, saved and loaded on the scheduler's behalf -/

/-- The engine's requests for bank `b` of core `c` and the thread in it are withdrawn. -/
def State.dropJobs (s : State) (c b : Nat) : State :=
  s.modCore c (fun x => { x with eng := x.eng.filter (fun j => !(j.bank == b && j.thr == (x.bank b).thr)) })

/-- The bank of a load that its engine begins: LOADING, with the node addresses and the thread number from the descriptor
(R331, R337). -/
def State.beginLoad (s : State) (c : Nat) : State :=
  match (s.core c).eng with
  | j :: _ =>
    if j.load ∧ (s.bank c j.bank).st = .empty then
      s.modBank c j.bank (fun _ => { st := .loading, thr := j.thr, nodel := (s.thr j.thr).nodel.toNat, nodeu := (s.thr j.thr).nodeu.toNat })
    else s
  | [] => s

/-- A command on the link of core `c` for bank `b` is withdrawn. -/
def State.dropLink (s : State) (c b : Nat) : State :=
  match tget none s.hts.link c with
  | some l => if l.bank = b then { s with hts := { s.hts with link := tset none s.hts.link c none } } else s
  | none => s

/-- The link of core `c` is empty again: a dispatch decided and not delivered is withdrawn (R371). -/
def State.withdraw (s : State) (c : Nat) : State := { s with hts := { s.hts with link := tset none s.hts.link c none } }

/-- The bank is zeroed and EMPTY without a save; FP ownership is released (R331, R340, R367). -/
def State.freeBank (s : State) (c b : Nat) : State :=
  (((((s.releaseFp c b).dropJobs c b).dropLink c b).leaveBank c b .empty).zeroBank c b).beginLoad c

/-- The core and bank that hold or load a thread. -/
def State.findBank (s : State) (n : Nat) : Option (Nat × Nat) :=
  ((List.range 4).flatMap (fun c => (List.range 8).map (fun b => (c, b)))).find? (fun p =>
    (s.bank p.1 p.2).st != .empty && (s.bank p.1 p.2).thr == n)

/-- The requests to load a thread that no engine has begun are withdrawn. -/
def State.dropLoads (s : State) (n : Nat) : State :=
  (List.range 4).foldl (fun u c => (u.modCore c (fun x => { x with eng := x.eng.filter (fun j => !(j.load && j.thr == n && (x.bank j.bank).thr != n)) })).beginLoad c) s

/-- Bank `b` of core `c` is to be saved: eviction, park or frame fault (R336). -/
def State.saveBank (s : State) (c b : Nat) (park : Option Nat) : State :=
  let j : EngJob := { bank := b, thr := (s.bank c b).thr, load := false, park := park }
  ((s.leaveBank c b .saving).dropLink c b).modCore c (fun x => { x with eng := x.eng ++ [j] })

/-! ### Park (R366) -/

/-- The last steps of a park: pcause, PARKED, the log, EVT_RAW.park and xev. -/
def State.parkFinish (s : State) (n cause core : Nat) : State :=
  let t := s.thr n
  let s1 := s.modThr n (fun t => { t with st := .parked, pcause := cause, res := false })
  let s2 := if s1.hts.plog.length < 16 then { s1 with hts := { s1.hts with plog := s1.hts.plog ++ [(n, cause, core)] } }
    else s1.modReg (htsPage 0 + htsParkctl) (fun w => setBit w 16)
  (((s2.raise (htsPage 0) 0).raiseXev n).htsCount 6).traceRec 3 n core t.bank false false none cause 0

/-- The parking entry of a thread. -/
def State.parkingOf (s : State) (n : Nat) : Option Parking := s.hts.parking.find? (fun p => p.thr == n)
def State.dropParking (s : State) (n : Nat) : State :=
  { s with hts := { s.hts with parking := s.hts.parking.filter (fun p => p.thr != n) } }
def State.addParking (s : State) (p : Parking) : State := { s with hts := { s.hts with parking := s.hts.parking ++ [p] } }

/-- A park begins: a RUNNING thread is preempted, a bank that holds the thread is saved and freed; without one the park ends
at once. -/
def State.parkBegin (s : State) (n cause : Nat) : State :=
  if (s.parkingOf n).isSome then s else
  let t := s.thr n
  let s1 := if t.st = .running then (s.modThr n (fun t => { t with st := .ready })) else s.rqDel n
  let s1 := s1.dropLoads n
  match s.findBank n with
  | none =>
    let u := if t.res then s1.withdraw t.core else s1
    u.parkFinish n cause t.core
  | some (c, b) =>
    match (s.bank c b).st with
    | .loading => (s1.freeBank c b).parkFinish n cause c
    | .saving =>
      (s1.modCore c (fun x => { x with eng := x.eng.map (fun j => if j.bank = b ∧ j.load = false then { j with park := some cause } else j) })).addParking
        ⟨n, cause, c, false⟩
    | _ => (s1.saveBank c b (some cause)).addParking ⟨n, cause, c, false⟩

/-- PARK_SAVE_DONE: the bank of a parking thread is saved and freed. -/
def parkSaveDone (n : Nat) (s : State) : State :=
  match s.parkingOf n with
  | some p => if p.saved then (s.dropParking n).parkFinish n p.cause p.core else s
  | none => s

/-- A frame fault of the thread in bank `b` (R329): the fault is recorded, both halves are saved as for an eviction, and the
thread parks with the code as its cause. A fault of a save or load leaves the nodes as they are (R338). -/
def State.frameFault (s : State) (c b code : Nat) : State :=
  let s1 := (s.recordFault c b code).wdRestart c
  let n := (s.bank c b).thr
  if code = 4 ∨ code = 5 then
    ((((s1.dropParking n).rqDel n).modThr n (fun t => if t.st = .running then { t with st := .ready } else t)).freeBank c b).addParking
      ⟨n, code, c, true⟩
  else
    let s2 := s1.modThr n (fun t => { t with st := .ready })
    (s2.saveBank c b (some code)).addParking ⟨n, code, c, false⟩

/-- FRAME_FAULT: the running thread of core `c` faults with a code of R329. -/
def frameFaultCmd (c code : Nat) (s : State) : State :=
  match s.runBank c with
  | some b => if 1 ≤ code ∧ code ≤ 3 then (s.withdraw c).frameFault c b code else s
  | none => s

/-! ### Cancel (R367) -/

/-- The next target of the occurrence in progress, past targets of action none. -/
def State.skipNone (s : State) : Nat → State
  | 0 => s
  | k + 1 =>
    match s.hts.cur with
    | some o =>
      if o.left = 0 then { s with hts := { s.hts with cur := none } }
      else if fld (tget 0 s.hts.pool o.idx) 12 2 = 3 then
        (({ s with hts := { s.hts with cur := some { o with idx := o.idx + 1, left := o.left - 1 } } }).htsCount 1).skipNone k
      else s
    | none => s

/-- The target word that the HTS applies next. -/
def State.nextTarget (s : State) : Option (CurOcc × Word) :=
  match s.hts.cur with
  | some o => if o.left = 0 then none else some (o, tget 0 s.hts.pool o.idx)
  | none => none

/-- A cancel consumes a DEC of the same cycle that would have made the thread READY (R370, R371). -/
def State.cancelRdy (s : State) (n : Nat) : Bool :=
  match (s.skipNone 64).nextTarget with
  | some (_, w) => fld w 12 2 == 0 && fld w 0 12 == n && (s.thr n).st == .waiting && (s.thr n).cnt == 1
  | none => false

/-- Cancel accepts WAITING, READY, RUNNING and PARKED. -/
def Thr.cancels (t : Thr) : Bool := t.st != .free && t.st != .cancelled

/-- A thread whose frame fault's save is under way is PARKED first, with the record of its park (R371). -/
def State.faultFirst (s : State) (n : Nat) : State :=
  match s.parkingOf n with
  | some p => if p.cause = 8 then s else s.parkFinish n p.cause p.core
  | none => s

/-- The thread is CANCELLED: its bank is freed without a save, and xev is raised. -/
def State.cancelThread (s : State) (n : Nat) (ev : Option Nat) (rdy : Bool) : State :=
  let t := s.thr n
  let s0 := s.faultFirst n
  let s1 := ((s0.rqDel n).dropLoads n).dropParking n
  let s2 := match s1.findBank n with
    | some (c, b) => s1.freeBank c b
    | none => if t.res then s1.withdraw t.core else s1
  let s3 := s2.modThr n (fun t => { t with st := .cancelled, res := false })
  ((s3.raiseXev n).htsCount 5).traceRec 4 n t.core t.bank rdy false ev 0 0

/-! ### Commands (R356) -/

/-- A refused command: CMDSTAT takes the op, the thread and the state found. -/
def State.cmdRefuse (s : State) (n op : Nat) : State :=
  (s.setReg (htsPage 0 + htsCmdstat) (BitVec.ofNat 32 (1 + 2 ^ 4 * op + 2 ^ 8 * n + 2 ^ 20 * (s.thr n).st.code))).raise (htsPage 0) 6

/-- A command checked against the thread's state. -/
def State.cmdCheck (s : State) (n op : Nat) (ok : Bool) (f : State → State) : State := if ok then f s else s.cmdRefuse n op

/-- The command `op` for thread `n`. -/
def State.htsCommand (s : State) (op n : Nat) : State :=
  let t := s.thr n
  match op with
  | 1 =>
    let ok := (t.st == .free || t.st == .cancelled) && fld (s.tdw 0) 9 4 != 0 &&
      s.nodeOk (s.stagedNode 3).toNat 320 && s.nodeOk (s.stagedNode 5).toNat 1280
    s.cmdCheck n op ok (fun u =>
      (u.modThr n (fun t => { t with
        pri := fld (u.tdw 0) 3 6, aff := BitVec.ofNat 4 (fld (u.tdw 0) 9 4), esat := false, pcause := fld (u.tdw 0) 20 4, started := false
        cnt := fld (u.tdw 1) 0 16, rld := fld (u.tdw 1) 16 16, erl := 0, nodel := u.stagedNode 3, nodeu := u.stagedNode 5
        xev := fld (u.tdw 7) 0 13, xen := bit (u.tdw 7) 13, rel := none })).readyOrWait n)
  | 2 => s.cmdCheck n op t.cancels (fun u => u.cancelThread n none (u.cancelRdy n))
  | 3 => s.cmdCheck n op (t.st == .waiting || t.st == .ready || t.st == .running) (fun u => u.parkBegin n 8)
  | 4 => s.cmdCheck n op (t.st == .parked) (fun u => (u.modThr n (fun t => t.consume)).readyOrWait n)
  | 5 => s.cmdCheck n op (t.st == .parked || t.st == .cancelled) (fun u => u.modThr n (fun t => { t with st := .free }))
  | 6 => s.cmdCheck n op (t.st != .free) (fun u =>
      let inq := (u.rq t.pri).contains n
      let u1 := (u.rqDel n).modThr n (fun t => { t with pri := fld (u.tdw 0) 3 6 })
      if inq then u1.rqTail n else u1)
  | 7 => s.cmdCheck n op (t.st != .free && fld (s.tdw 0) 9 4 != 0) (fun u =>
      u.modThr n (fun t => { t with aff := BitVec.ofNat 4 (fld (u.tdw 0) 9 4) }))
  | _ => s.cmdRefuse n op

/-- A write of HTS_CMD. -/
def htsCmdWrite (ini : Ini) (val : Word) (s : State) : State :=
  s.regWrite ini (htsPage 0 + htsCmd) val (fun _ u => u.htsCommand (fld val 12 4) (fld val 0 12))

/-- The commands by name: HTS_CMD is written with the op and the thread. -/
def htsOp (op : Nat) (ini : Ini) (n : Nat) (s : State) : State := htsCmdWrite ini (BitVec.ofNat 32 (n + 2 ^ 12 * op)) s
def armThread (ini : Ini) (n : Nat) (s : State) : State := htsOp 1 ini n s
def cancelCommand (ini : Ini) (n : Nat) (s : State) : State := htsOp 2 ini n s
def parkThread (ini : Ini) (n : Nat) (s : State) : State := htsOp 3 ini n s
def resumeThread (ini : Ini) (n : Nat) (s : State) : State := htsOp 4 ini n s
def freeThread (ini : Ini) (n : Nat) (s : State) : State := htsOp 5 ini n s
def setPriority (ini : Ini) (n : Nat) (s : State) : State := htsOp 6 ini n s
def setAffinity (ini : Ini) (n : Nat) (s : State) : State := htsOp 7 ini n s

/-! ### Events (R357 to R360) -/

/-- The first port after `k` in cyclic order that holds an occurrence. -/
def State.nextPort (s : State) (k : Nat) : Option Nat :=
  let l := s.hts.ports.filter (fun p => !p.2.isEmpty)
  match l.find? (fun p => decide (k < p.1)) with
  | some p => some p.1
  | none => l.head?.map (fun p => p.1)

/-- The queue takes one occurrence. -/
def State.takeOne (s : State) : State :=
  match s.nextPort s.hts.rr with
  | none => s
  | some k =>
    match tget [] s.hts.ports k with
    | [] => s
    | o :: t =>
      if s.hts.queue.length < 1024 then
        let s1 := ({ s with hts := { s.hts with ports := tset [] s.hts.ports k t, queue := s.hts.queue ++ [o], rr := k } }).pulse 3 0 1
        let n := s1.hts.queue.length
        let s2 := if fld (s1.reg (htsPage 0 + htsEqhwm)) 0 11 < n then s1.setReg (htsPage 0 + htsEqhwm) (BitVec.ofNat 32 n) else s1
        if n = 1024 then s2.raise (htsPage 0) 4 else s2
      else s

/-- EVENT_TAKE: an OCN cycle of the event queue; a cycle that leaves a port holding an occurrence because the queue has no free
entry counts as one in which a port was refused. -/
def eventTake (s : State) : State :=
  let s1 := (List.range 4).foldl (fun u _ => u.takeOne) s
  if s1.hts.queue.length = 1024 ∧ (s1.nextPort 0).isSome = true then s1.countUp (htsPage 0 + htsEqheld) 0 32 1 else s1

/-- OCCURRENCE_START: the head is read as it stands; no targets make the occurrence unrouted. -/
def occurrenceStart (s0 : State) : State :=
  let s := s0.skipNone 64
  if s.hts.cur.isSome then s
  else match s.hts.queue with
    | [] => s
    | o :: t =>
      let h := tget 0 s.hts.heads o.ev
      let s1 := ({ s with hts := { s.hts with queue := t } }).htsCount 0
      if fld h 14 6 = 0 then
        if o.own then s1
        else ((s1.countUp (htsPage 0 + htsUnrt) 0 16 1).modReg (htsPage 0 + htsUnrt) (fun w => setFld w 16 13 o.ev)).raise (htsPage 0) 1
      else { s1 with hts := { s1.hts with cur := some ⟨o.ev, fld h 0 14, fld h 14 6⟩ } }

/-- The target at the front is `act`: it is taken, and `f` gets its event and word. -/
def State.takeTarget (s0 : State) (act : Nat) (f : Nat → Word → State → State) : State :=
  let s := s0.skipNone 64
  match s.nextTarget with
  | some (o, w) =>
    if fld w 12 2 = act then
      f o.ev w (({ s with hts := { s.hts with
        cur := if o.left = 1 then none else some { o with idx := o.idx + 1, left := o.left - 1 } } }).htsCount 1)
    else s
  | none => s

/-- The early count takes a DEC (R360). -/
def State.earlyDec (s : State) (n : Nat) : State :=
  let t := s.thr n
  let s1 := s.modThr n (fun t => { t with erl := min 0xFFFF (t.erl + 1) })
  if 0xFFFE ≤ t.erl then (s1.modThr n (fun t => { t with esat := true })).raise (htsPage 0) 7 else s1

/-- A DEC action to thread `n` by event `ev` (R360). A thread whose park has begun counts as PARKED (R371). -/
def State.decThread (s : State) (n ev : Nat) : State :=
  let t := s.thr n
  if (s.parkingOf n).isSome then s.earlyDec n
  else match t.st with
    | .waiting =>
      let s1 := s.modThr n (fun t => { t with cnt := t.cnt - 1 })
      if t.cnt ≤ 1 then (s1.modThr n (fun t => { t with rel := some ev })).makeReady n else s1
    | .ready | .running | .parked => s.earlyDec n
    | .cancelled => s
    | .free =>
      ((s.countUp (htsPage 0 + htsStray) 0 16 1).modReg (htsPage 0 + htsStray) (fun w => setFld w 16 12 n)).raise (htsPage 0) 2

/-- DEC: the next target decrements. -/
def decTarget (s : State) : State := s.takeTarget 0 (fun ev w u => u.decThread (fld w 0 12) ev)

/-- CANCEL_ACTION: the next target cancels its thread; in a state that the command does not accept it has no effect. -/
def cancelTarget (s : State) : State :=
  s.takeTarget 1 (fun ev w u => if (u.thr (fld w 0 12)).cancels then u.cancelThread (fld w 0 12) (some ev) false else u)

/-- Signals unanswered. -/
def State.sigOut (s : State) : Nat := (s.ocn.txns.filter (fun x => x.who == .hts)).length

/-- SIGNAL_ACTION: the next target sends a SIGNAL reservation; with 16 unanswered it waits. A region above 23 has no router: the
signal meets no address and is answered DECERR. -/
def signalTarget (s : State) : State :=
  if 16 ≤ s.sigOut then s
  else s.takeTarget 2 (fun _ w u =>
    if fld w 16 5 < 24 then
      u.launch .signal { Rsv.base 0x32 24 (niAt (regionRouter (fld w 16 5)) 0) with sctx := Fin.ofNat 8 (fld w 21 3) } .hts [] []
    else ((u.countUp (htsPage 0 + htsSigerr) 0 16 1).modReg (htsPage 0 + htsSigerr) (fun x => setFld x 16 5 (fld w 16 5))).raise
      (htsPage 0) 3)

/-- A signal's answer is counted when it is not OK (R360). -/
def State.signalResult (s : State) (r : Nat) (st : Status) : State :=
  if st = .ok then s
  else ((s.countUp (htsPage 0 + htsSigerr) 0 16 1).modReg (htsPage 0 + htsSigerr) (fun x => setFld x 16 5 r)).raise (htsPage 0) 3

/-- SIGNAL_ANSWER: the answer to the oldest answered signal to region `r` returns; a status that the network reports stands
before the sequencer's own. -/
def signalAnswer (r : Nat) (status : Status) (s : State) : State :=
  match s.ocn.txns.find? (fun x => x.who == .hts && x.stage == .answered && x.rsv.tgt.val == niAt (regionRouter r) 0) with
  | some x => ((s.dropTxn x.key).unholdAll x.rsv.ini.val).signalResult r (if status = .ok then x.status else status)
  | none => s

/-! ### Dispatch (R361 to R364) -/

/-- The request is a load whose thread may not issue yet: its bank does not hold it. -/
def State.loadPends (s : State) (c : Nat) (j : EngJob) : Bool := j.load && (j.frames.isNone || (s.bank c j.bank).st == .loading)
/-- Such a load of the thread stands. -/
def State.loadingThr (s : State) (n : Nat) : Bool :=
  (List.range 4).any (fun c => (s.core c).eng.any (fun j => j.thr == n && s.loadPends c j))
/-- A dispatch of the thread is on a link. -/
def State.onLink (s : State) (n : Nat) : Bool :=
  (List.range 4).any (fun c => match tget none s.hts.link c with
    | some l => l.thr == n
    | none => false)

/-- A READY thread may run on core `c` now (R361, R362). -/
def State.mayRun (s : State) (c n : Nat) : Bool :=
  let t := s.thr n
  t.st == .ready && (s.parkingOf n).isNone && !s.loadingThr n && !s.onLink n &&
    (if t.res then t.core == c && ((s.bank c t.bank).st == .held || (s.bank c t.bank).st == .active) else t.aff.getLsbD c)

/-- The first thread, from the highest priority down, that may run on core `c`. -/
def State.candidate (s : State) (c : Nat) : Option Nat :=
  ((List.range 64).map (fun i => s.rq (63 - i))).flatten.find? (fun n => s.mayRun c n)

/-- The best element of a list by an order. -/
def bestOf {α : Type} (better : α → α → Bool) : List α → Option α
  | [] => none
  | a :: t => match bestOf better t with
    | none => some a
    | some b => if better b a then some b else some a

/-- The HELD bank to evict for a thread of priority `p` (R363). -/
def State.victim (s : State) (c p : Nat) : Option Nat :=
  let held := (List.range 8).filter (fun b => (s.bank c b).st == .held && (s.parkingOf (s.bank c b).thr).isNone)
  let thr := fun b => s.thr (s.bank c b).thr
  let w := held.filter (fun b => (thr b).st == .waiting)
  let r := held.filter (fun b => (thr b).st == .ready && decide ((thr b).pri < p) && !s.onLink (s.bank c b).thr)
  match bestOf (fun a b => decide ((thr a).pri < (thr b).pri) || ((thr a).pri == (thr b).pri && decide ((thr a).since < (thr b).since))) w with
  | some b => some b
  | none => bestOf (fun a b => decide ((thr a).pri < (thr b).pri)) r

/-- A bank for a thread: an EMPTY one that no request names, or the one to be evicted, whose save is then requested. -/
def State.placeBank (s : State) (c p : Nat) : Option (Nat × State) :=
  match (List.range 8).find? (fun b => (s.bank c b).st == .empty && !(s.core c).eng.any (fun j => j.bank == b) &&
      (match tget none s.hts.link c with
        | some l => l.bank != b
        | none => true)) with
  | some b => some (b, s)
  | none => match s.victim c p with
    | some b => some (b, (s.saveBank c b none).htsCount 4)
    | none => none

/-- A load command for thread `n`: into a bank, dispatched on completion when `act`. -/
def State.sendLoad (s : State) (c n : Nat) (act : Bool) : Option (Nat × State) :=
  match s.placeBank c (s.thr n).pri with
  | none => none
  | some (b, u) =>
    some (b, ((u.modCore c (fun x => { x with eng := x.eng ++ [{ bank := b, thr := n, load := true, act := act }] })).htsCount 7).beginLoad c)

/-- The time from a releasing occurrence to its dispatch is in OCN cycles, which the model does not count: a free value. -/
def State.noteLatency (s : State) (n : Nat) : State :=
  match (s.thr n).rel with
  | none => s
  | some _ =>
    let (v, s1) := s.freeNat 0x10000
    s1.modReg (htsPage 3 + htsDlat) (fun w => BitVec.ofNat 32 (v + 2 ^ 16 * max v (fld w 16 16)))

/-- The dispatch is decided: counted, traced, its latency noted. -/
def State.noteDispatch (s : State) (c n b : Nat) (load : Bool) : State :=
  (((s.htsCount 2).noteLatency n).traceRec 1 n c b false load (s.thr n).rel 0 0).pulse 3 0 0

/-- A switch or preempt command enters the link of core `c`. -/
def State.sendSwitch (s : State) (c n : Nat) : State :=
  { s with hts := { s.hts with link := tset none s.hts.link c (some ⟨(s.thr n).bank, n⟩) } }

/-- While CCXc_CTRL.en is 0 the READY threads held in the core's banks are evicted (R362). -/
def State.evictReady (s : State) (c : Nat) : State :=
  (List.range 8).foldl (fun u b =>
    if (u.bank c b).st = .held ∧ (u.thr (u.bank c b).thr).st = .ready ∧ (u.parkingOf (u.bank c b).thr) = none then
      (u.saveBank c b none).htsCount 4 else u) s

/-- The thread starts to execute in its ACTIVE bank. -/
def State.startRunning (s : State) (c b n : Nat) : State :=
  (s.rqDel n).modThr n (fun t => { t with st := .running, res := true, core := c, bank := b, started := true, loaded := false })

/-- DISPATCH_DECISION for core `c` (R362 to R364). -/
def dispatchDecision (c : Nat) (s : State) : State :=
  if s.halted then s
  else if !bit (s.reg (ccxPage c + ccxCtrl)) 0 then s.evictReady c
  else if !bit (s.reg (htsPage 0 + htsCtrl)) 0 || (tget none s.hts.link c).isSome then s
  else match s.candidate c with
    | none => s
    | some n =>
      let t := s.thr n
      match s.runBank c with
      | none =>
        if t.res then
          -- a thread that yielded in the ACTIVE bank keeps running
          if (s.bank c t.bank).st = .active then (s.noteDispatch c n t.bank false).startRunning c t.bank n
          else (s.noteDispatch c n t.bank t.loaded).sendSwitch c n
        else if (s.core c).eng.any (s.loadPends c) then s
        else match s.sendLoad c n true with
          | some (b, u) => u.noteDispatch c n b true
          | none => s
      | some b =>
        let r := (s.bank c b).thr
        if (s.thr r).pri < t.pri ∧ bit (s.reg (htsPage 0 + htsCtrl)) 1 = true then
          if t.res then
            ((((s.htsCount 3).traceRec 2 r c b false false none 0 n)).noteDispatch c n t.bank t.loaded).sendSwitch c n
          else if (s.core c).eng.any (s.loadPends c) then s
          else match s.sendLoad c n false with
            | some (_, u) => u
            | none => s
        else s

/-- DISPATCH_DELIVER: the bridge of the link delivers the command; a thread it preempts enters the head of its ready queue
(R333, R364). At its first delivery a thread's frame state is that of a first call (R326). -/
def dispatchDeliver (c : Nat) (s : State) : State :=
  match tget none s.hts.link c with
  | none => s
  | some l =>
    if s.halted then s else
    -- a core that DROWSE stopped has its clock again (R376)
    let s1 := { s.withdraw c with pmu := { s.pmu with stopped := clrBit s.pmu.stopped c } }
    let s2 := match s1.runBank c with
      | some b => (s1.modThr (s1.bank c b).thr (fun t => { t with st := .ready })).rqHead (s1.bank c b).thr
      | none => s1
    let s3 := if (s2.bank c l.bank).st = .empty then
        s2.modBank c l.bank (fun x => { (x.setSlot slotKf kfStart) with
          thr := l.thr, nodel := (s2.thr l.thr).nodel.toNat, nodeu := (s2.thr l.thr).nodeu.toNat })
      else s2
    (s3.switchBank c l.bank).startRunning c l.bank l.thr

/-! ### Engine completions (R336 to R338) -/

/-- The engine goes on to its next request. -/
def State.nextJob (s : State) (c : Nat) : State := (s.modCore c (fun x => { x with eng := x.eng.tail })).beginLoad c

/-- An interrupted CTXLD is finished before its bank is saved (R335, R350). -/
def State.finishLoad (s : State) (c b : Nat) : State × Option Nat :=
  match (s.bank c b).cont with
  | some .ldU =>
    let (u, f) := s.loadHalf c b true (List.range 112)
    (u.modBank c b (fun x => { ((x.kfSet 21 1 0).setPc (x.pc + 4)) with cont := none }), f)
  | some .ldL =>
    let (u, f) := s.loadHalf c b false (List.range 30)
    (u.modBank c b (fun x => { (x.kfSet 21 1 0) with cont := none }), f)
  | _ => (s, none)

/-- ENGINE_SAVE_DONE: the engine of core `c` finishes one half of the save at its front: the half of an interrupted CTXSV from
its mask, otherwise the upper, then the other; after both the bank is freed. -/
def engineSaveDone (c : Nat) (status : Status) (s : State) : State :=
  match (s.core c).eng with
  | [] => s
  | j :: _ =>
    if j.load then s else
    let b := j.bank
    let (s0, f0) := s.finishLoad c b
    let cont := (s0.bank c b).cont
    let first := cont != some .svL
    let upper := if j.half then !first else first
    let goesOn := !j.half && (cont == some .svU || cont == some .svL)
    let (s1, f1, _) := s0.saveHalf c b upper goesOn none
    let fault := f0.isSome || f1.isSome || status != .ok
    let s2 := s1.coreCount c 1
    if fault then ((s2.modCore c (fun x => { x with eng := x.eng.tail })).frameFault c b 4).beginLoad c
    else
      let s3 := if upper then s2.releaseFp c b else s2
      if !j.half then s3.modCore c (fun x => { x with eng := { j with half := true } :: x.eng.tail })
      else
        let s4 := (((s3.zeroBank c b).modThr j.thr (fun t => { t with res := false }))).nextJob c
        { s4 with hts := { s4.hts with parking := s4.hts.parking.map (fun p => if p.thr = j.thr then { p with saved := true } else p) } }

/-- The frames that a load brings, in order: the current frame, the other resident ones, the trap frame, which is number 6
(R337). -/
def Bank.loadFrames (x : Bank) : List Nat :=
  let ring := (List.range x.res).map (fun i => (x.cur + 6 - i) % 6)
  if x.inTrap then 6 :: ring else ring ++ [6]

/-- The upper-half slots of a frame. -/
def frameSlots (f : Nat) : List Nat := (List.range 16).map (fun r => 16 * f + r)

/-- The thread of the load may issue: its bank holds it and it is resident. -/
def State.loadHeld (s : State) (c : Nat) (j : EngJob) : State :=
  (s.modBank c j.bank (fun x => { x with st := .held })).modThr j.thr (fun t => { t with res := true, core := c, bank := j.bank, loaded := true })

/-- A load for an idle core's dispatch makes its bank ACTIVE. -/
def State.loadStart (s : State) (c : Nat) (j : EngJob) : State :=
  if j.act && (s.core c).active.isNone && (tget none s.hts.link c).isNone then (s.switchBank c j.bank).startRunning c j.bank j.thr else s

/-- A load ends with a save-area fault (R338). -/
def State.loadFault (s : State) (c : Nat) (j : EngJob) : State :=
  ((s.modCore c (fun x => { x with eng := x.eng.tail })).frameFault c j.bank 5).beginLoad c

/-- A frame of the load at the front is in: the engine goes on to the next of `t`, or to its next request. -/
def State.frameLoaded (s : State) (c : Nat) (j : EngJob) (t : List Nat) : State :=
  if t.isEmpty then (s.coreCount c 2).nextJob c else s.modCore c (fun x => { x with eng := { j with frames := some t } :: x.eng.tail })

/-- ENGINE_LOAD_DONE: the engine of core `c` finishes the lower half of the load at its front, or then one frame of it. With the
current frame loaded the thread may issue; a thread's first load after its ARM takes a fresh frame state and nothing of the
upper node (R337, R356). -/
def engineLoadDone (c : Nat) (status : Status) (s : State) : State :=
  match (s.core c).eng with
  | [] => s
  | j :: _ =>
    if !j.load then s else
    let first := (s.bank c j.bank).st == .loading
    match j.frames with
    | none =>
      if !first then s else
      let fresh := !(s.thr j.thr).started
      let (s1, f1) := s.loadHalf c j.bank false ((List.range 30).filter (fun i => !(fresh && i == slotKf)))
      if f1.isSome || status != .ok then s1.loadFault c j
      else if fresh then
        ((((s1.modBank c j.bank (fun x => x.setSlot slotKf kfStart)).loadHeld c j).coreCount c 2).nextJob c).loadStart c j
      else (s1.coreCount c 2).modCore c (fun x => { x with eng := { j with frames := some (s1.bank c j.bank).loadFrames } :: x.eng.tail })
    | some [] => s.nextJob c
    | some (f :: t) =>
      let (s1, f1) := s.loadHalf c j.bank true (frameSlots f)
      if f1.isSome || status != .ok then s1.loadFault c j
      else if first then ((s1.loadHeld c j).frameLoaded c j t).loadStart c j
      else s1.frameLoaded c j t

/-! ### The Xkhts instructions (R368) -/

/-- The running thread leaves its state RUNNING: a dispatch on the link that was to preempt it is withdrawn (R371). -/
def State.afterStop (s : State) (c : Nat) : State := (s.withdraw c).wdRestart c

/-- HWAIT's effect on the thread `n` in bank `b`; the bank's pc is already past the instruction. -/
def State.hwait (s : State) (c b : Nat) : State :=
  let n := (s.bank c b).thr
  let s1 := (s.modThr n (fun t => ({ t with cnt := t.rld }).consume)).wdRestart c
  if (s1.thr n).cnt = 0 then s1
  else ((s1.afterStop c).leaveBank c b .held).makeWaiting n

/-- HEXIT (R368). -/
def State.hexit (s : State) (c b : Nat) : State :=
  let n := (s.bank c b).thr
  (((s.afterStop c).freeBank c b).modThr n (fun t => { t with st := .free, res := false })).raiseXev n

/-- HYIELD: the thread enters the tail of its ready queue; its bank stays ACTIVE until the next decision. -/
def State.hyield (s : State) (c b : Nat) : State :=
  let n := (s.bank c b).thr
  (s.afterStop c).makeReady n

/-! ### Registers (R373) -/

/-- PARKLOG_POP: HTS_PARKCTL. -/
def parklogPop (ini : Ini) (val : Word) (s : State) : State :=
  s.regWrite ini (htsPage 0 + htsParkctl) val (fun v u =>
    if bit v 0 then { u with hts := { u.hts with plog := u.hts.plog.tail } } else u)

/-- HEAD_WRITE: HTS_RHEAD of the selected event; one whose targets would pass the pool is ignored and sets cmdref. -/
def headWrite (ini : Ini) (val : Word) (s : State) : State :=
  s.regGuard ini (htsPage 2 + htsRhead) (fun u =>
    if 16384 < fld val 0 14 + fld val 14 6 then u.raise (htsPage 0) 6
    else { u with hts := { u.hts with heads := tset 0 u.hts.heads (fld (u.reg (htsPage 2 + htsRsel)) 0 13) (val &&& 0xFFFFF) } })

/-- A write of HTS_PTGT: the selected target. -/
def ptgtWrite (ini : Ini) (val : Word) (s : State) : State :=
  s.regGuard ini (htsPage 2 + htsPtgt) (fun u =>
    { u with hts := { u.hts with pool := tset 0 u.hts.pool (fld (u.reg (htsPage 2 + htsPsel)) 0 14) (val &&& 0x00FF3FFF) } })

/-- The thread that runs on core `c`. -/
def State.runsOn (s : State) (c : Nat) : Option Nat :=
  match s.runBank c with
  | some b => some (s.bank c b).thr
  | none => match tget none s.hts.link c with
    | some l => if (s.thr l.thr).st = .running then some l.thr else none
    | none => none

def State.htsStatWord (s : State) : Word :=
  BitVec.ofNat 32 (s.hts.queue.length + 2 ^ 11 * b2n (s.hts.queue.length == 1024) +
    ((List.range 4).map (fun c => 2 ^ (12 + c) * b2n (s.runsOn c).isNone)).sum + 2 ^ 16 * s.sigOut)
def State.htsCoreWord (s : State) (c : Nat) : Word :=
  match s.runsOn c with
  | some n => BitVec.ofNat 32 (n + 2 ^ 12 * (s.thr n).pri + 2 ^ 18)
  | none => 0
def State.parklogWord (s : State) : Word :=
  match s.hts.plog with
  | (n, cause, core) :: _ => BitVec.ofNat 32 (n + 2 ^ 12 * cause + 2 ^ 16 * core + 2 ^ 18)
  | [] => 0
def State.parkctlWord (s : State) : Word := s.reg (htsPage 0 + htsParkctl) ||| BitVec.ofNat 32 (2 ^ 8 * s.hts.plog.length)
def State.tdrWord (s : State) (i : Nat) : Word := (s.thr (fld (s.reg (htsPage 1 + htsTsel)) 0 12)).word i
def State.rheadWord (s : State) : Word := tget 0 s.hts.heads (fld (s.reg (htsPage 2 + htsRsel)) 0 13)
def State.ptgtWord (s : State) : Word := tget 0 s.hts.pool (fld (s.reg (htsPage 2 + htsPsel)) 0 14)
def State.htsStdataWord (s : State) : DWord := BitVec.ofNat 64 (tget 0 s.hts.stats (fld (s.reg (htsPage 3 + htsStsel)) 0 4))

/-! ### The commands -/

/-- FRAME_FAULT (R329). A frame fault stops the bank, saves both halves and parks the thread. -/
def execFrameFault (c : Core) (code : Fin 8) (s : State) : Out :=
  .next (s.gate (frameFaultCmd c.val code.val s))

/-- DISPATCH_DELIVER (R333). A dispatch crosses the scheduler link and the core makes the bank ACTIVE. -/
def execDispatchDeliver (c : Core) (s : State) : Out :=
  .next (s.gate (dispatchDeliver c.val s))

/-- ENGINE_SAVE_DONE (R336). The context engine finishes saving a bank half. -/
def execEngineSaveDone (c : Core) (status : Status) (s : State) : Out :=
  .next (s.gate (engineSaveDone c.val status s))

/-- ENGINE_LOAD_DONE (R337). The context engine finishes loading a bank half or frame. -/
def execEngineLoadDone (c : Core) (status : Status) (s : State) : Out :=
  .next (s.gate (engineLoadDone c.val status s))

/-- ARM (R356). HTS ARM copies the staged descriptor and makes the thread WAITING or READY. -/
def execArm (ini : Ini) (th : Thread) (s : State) : Out :=
  .next (s.gate (armThread ini th.val s))

/-- CANCEL (R367). HTS CANCEL frees the thread's bank without saving it. -/
def execCancel (ini : Ini) (th : Thread) (s : State) : Out :=
  .next (s.gate (cancelCommand ini th.val s))

/-- PARK (R366). HTS PARK parks the thread with cause 0x8. -/
def execPark (ini : Ini) (th : Thread) (s : State) : Out :=
  .next (s.gate (parkThread ini th.val s))

/-- RESUME (R356). HTS RESUME consumes erl and makes a parked thread READY or WAITING. -/
def execResume (ini : Ini) (th : Thread) (s : State) : Out :=
  .next (s.gate (resumeThread ini th.val s))

/-- FREE (R356). HTS FREE frees a parked or cancelled thread. -/
def execFree (ini : Ini) (th : Thread) (s : State) : Out :=
  .next (s.gate (freeThread ini th.val s))

/-- SETPRI (R356). HTS SETPRI changes the thread's priority. -/
def execSetpri (ini : Ini) (th : Thread) (s : State) : Out :=
  .next (s.gate (setPriority ini th.val s))

/-- SETAFF (R356). HTS SETAFF changes the thread's affinity. -/
def execSetaff (ini : Ini) (th : Thread) (s : State) : Out :=
  .next (s.gate (setAffinity ini th.val s))

/-- EVENT_TAKE (R357). The event queue takes occurrences from the ports. -/
def execEventTake (s : State) : Out :=
  .next (s.gate (eventTake s))

/-- OCCURRENCE_START (R359). The HTS starts an occurrence by reading its head, or counts it unrouted. -/
def execOccurrenceStart (s : State) : Out :=
  .next (s.gate (occurrenceStart s))

/-- DEC (R360). A DEC target decrements cnt or increments erl. -/
def execDec (s : State) : Out :=
  .next (s.gate (decTarget s))

/-- CANCEL_ACTION (R360). A CANCEL target cancels its thread. -/
def execCancelAction (s : State) : Out :=
  .next (s.gate (cancelTarget s))

/-- SIGNAL_ACTION (R360). A SIGNAL target sends a sequencer signal to a region. -/
def execSignalAction (s : State) : Out :=
  .next (s.gate (signalTarget s))

/-- SIGNAL_ANSWER (R360). A SIGNAL DONE returns to the HTS and errors are counted. -/
def execSignalAnswer (r : Region) (status : Status) (s : State) : Out :=
  .next (s.gate (signalAnswer r.val status s))

/-- DISPATCH_DECISION (R362). The HTS chooses a thread for a core and sends a switch, load or preempt. -/
def execDispatchDecision (c : Core) (s : State) : Out :=
  .next (s.gate (dispatchDecision c.val s))

/-- PARK_SAVE_DONE (R366). The park save finishes and the thread is recorded PARKED. -/
def execParkSaveDone (th : Thread) (s : State) : Out :=
  .next (s.gate (parkSaveDone th.val s))

/-- PARKLOG_POP (R366). A write of HTS_PARKCTL.pop removes the oldest park-log entry. -/
def execParklogPop (ini : Ini) (val : Word) (s : State) : Out :=
  .next (s.gate (parklogPop ini val s))

/-- HEAD_WRITE (R359). A write to HTS_RHEAD changes an event's route for later occurrences. -/
def execHeadWrite (ini : Ini) (val : Word) (s : State) : Out :=
  .next (s.gate (headWrite ini val s))

end Sys2Proof.Machine
end

