-- ==== Sys2Proof/Machine/Atu.lean ====
section
/-!
DEFINITION. Sv48 translation (R344, R345): leaves and their faults, the translation caches, and the ATU's registers.
-/
namespace Sys2Proof.Machine

/-- Why a translation fails (R345). -/
inductive XFault where
  | ctx | invalid | noRead | noWrite | noExec | user | access | walk | super
deriving DecidableEq, Repr

/-- The cause that ATU_FLT records. -/
def XFault.code : XFault → Nat
  | .ctx => 1 | .invalid => 2 | .noRead => 3 | .noExec => 3 | .noWrite => 4 | .user => 5 | .access => 6 | .walk => 7 | .super => 8

/-- What a translation is for: a write, a fetch, user mode, SUM and MXR. -/
structure XReq where
  wr   : Bool
  ex   : Bool := false
  user : Bool
  sum  : Bool
  mxr  : Bool := false
deriving DecidableEq, Repr

/-- The leaf entry `pte` found at `level` for the request: its fault, in the order of the privileged specification, or none. -/
def leafFault (r : XReq) (pte level : Nat) : Option XFault :=
  let b := Nat.testBit pte
  if r.ex && !b 3 then some .noExec
  else if !r.ex && r.wr && !b 2 then some .noWrite
  else if !r.ex && !r.wr && !(b 1 || (r.mxr && b 3)) then some .noRead
  else if b 4 && !r.user && (!r.sum || r.ex) then some .user
  else if !b 4 && r.user then some .user
  else if nfld pte 10 (9 * level) ≠ 0 then some .super
  else if !b 6 || (r.wr && !b 7) then some .access
  else none

/-- The physical address under a leaf. -/
def leafAddr (pte level va : Nat) : Nat := nfld pte 10 44 / 2 ^ (9 * level) * 2 ^ (9 * level + 12) + va % 2 ^ (9 * level + 12)

/-- An entry covers a virtual address in a context. -/
def TlbEnt.covers (e : TlbEnt) (ctx va : Nat) : Bool :=
  (e.ctx == none || e.ctx == some ctx) && e.vpn == nfld va 12 36 / 2 ^ (9 * e.level)

/-- Add an entry to a list of at most `cap`; which entry leaves a full list is not stated: a free one. -/
def State.addTlb (s : State) (l : List TlbEnt) (cap : Nat) (e : TlbEnt) : State × List TlbEnt :=
  if l.length < cap then (s, l ++ [e])
  else
    let (k, s1) := s.freeNat l.length
    (s1, l.eraseIdx k ++ [e])

/-- Look a translation up: an entry that covers the address may have been replaced meanwhile, so that a free choice decides
between it and a walk. -/
def State.tlbHit (s : State) (l : List TlbEnt) (ctx va : Nat) : State × Option TlbEnt :=
  match l.find? (fun e => e.covers ctx va) with
  | some e =>
    let (k, s1) := s.freeNat 2
    (s1, if k = 1 then some e else none)
  | none => (s, none)

/-! ### The ATU -/

def atuPage : Nat := page .atu 0

/-- A fault: ATU_FLT captures the first under R29, and EVT_RAW.fault is set on each (R352). -/
def State.atuFault (s : State) (ini : Ini) (atc va cause : Nat) : State :=
  let e := s.reg (atuPage + atuFlt)
  let s1 := if (e &&& 3) = 0 then
      (s.setReg (atuPage + atuFlt) (BitVec.ofNat 32 (1 + 4 * cause + 2 ^ 8 * ini.toNat + 2 ^ 16 * (atc % 1024)))).setReg64
        (atuPage + atuFaddr) va
    else s.setReg (atuPage + atuFlt) (setBit (setBit e 0) 1)
  s1.raise atuPage 1

/-- The entries that an invalidation removes: all, or those of one context and optionally one page (R346). -/
def State.invalKeep (s : State) (v : Word) (e : TlbEnt) : Bool :=
  let pg := s.reg64 (atuPage + atuInvaddr) % 2 ^ 48 / 2 ^ 12
  !(bit v 16 || (e.ctx == some (fld v 0 10) && (!bit v 17 || e.vpn == pg / 2 ^ (9 * e.level))))

/-- ATU_INVALIDATE: a write of ATU_INVAL; go while busy is ignored and sets cmdig. -/
def atuInvalidate (ini : Ini) (val : Word) (s : State) : State :=
  s.regWrite ini (atuPage + atuInval) val (fun v u =>
    if !bit v 31 then u
    else if u.atu.busy then u.raise atuPage 2
    else
      let w := u.reg (atuPage + atuInval)
      { u with atu := { tlb := u.atu.tlb.filter (u.invalKeep w), busy := true } })

/-- ATU_INVAL_DONE: every translation that began before the write has been returned. -/
def atuInvalDone (s : State) : State :=
  if s.atu.busy then ({ s with atu := { s.atu with busy := false } }).raise atuPage 0 else s

/-! ### The commands -/

/-- ATU_INVALIDATE (R346). A write of ATU_INVAL.go removes IOTLB entries. -/
def execAtuInvalidate (ini : Ini) (val : Word) (s : State) : Out :=
  .next (s.gate (atuInvalidate ini val s))

/-- ATU_INVAL_DONE (R346). Every earlier translation has returned and busy clears. -/
def execAtuInvalDone (s : State) : Out :=
  .next (s.gate (atuInvalDone s))

end Sys2Proof.Machine
end

