-- ==== Sys2Proof/Machine/Traps.lean ====
section
/-!
DEFINITION. The rider cores' traps and Krovren instructions (chapter 14): taking a trap with the trap frame, xRET, FCALL and
FRET, the save and load of half contexts, the Xkhts instructions, and a lost write-back.
-/
namespace Sys2Proof.Machine

/-! ### Per-core CSRs (R330) -/

def csrMtvec : Nat := 0x305
def csrMedeleg : Nat := 0x302
def csrMideleg : Nat := 0x303
def csrMie : Nat := 0x304
def State.csr (s : State) (c n : Nat) : DWord := tget 0 (s.core c).csr n
def State.setCsr (s : State) (c n : Nat) (v : DWord) : State := s.modCore c (fun x => { x with csr := tset 0 x.csr n v })

/-- minstret counts an instruction that retires, unless mcountinhibit.IR stops it (R322, Zicntr). -/
def State.retire (s : State) (c : Nat) : State := if bit (s.csr c 0x320) 2 then s else s.setCsr c 0xB02 (s.csr c 0xB02 + 1)

/-- Bits of mstatus. -/
def mSie : Nat := 1
def mMie : Nat := 3
def mSpie : Nat := 5
def mMpie : Nat := 7
def mSpp : Nat := 8
def mMpp : Nat := 11
def mFs : Nat := 13
def mMprv : Nat := 17
def mSum : Nat := 18
def mMxr : Nat := 19

/-- Local interrupt 16 is pending while CCXc_WBERR.err is set (R324, R341). -/
def State.lint (s : State) (c : Nat) : Bool := bit (s.reg (ccxPage c + ccxWberr)) 0

/-! ### Taking a trap (R328, R329, R347) -/

/-- The trap is delegated to supervisor mode: not from machine mode, and its bit of medeleg or mideleg set. -/
def State.delegated (s : State) (c b : Nat) (intr : Bool) (cause : Nat) : Bool :=
  (s.bank c b).priv != 3 && bit (s.csr c (if intr then csrMideleg else csrMedeleg)) cause

/-- The vector: the base, plus 4 × cause for an interrupt in vectored mode. -/
def vector (tvec : DWord) (intr : Bool) (cause : Nat) : DWord :=
  (tvec &&& ~~~3) + (if intr ∧ fld tvec 0 2 = 1 then BitVec.ofNat 64 (4 * cause) else 0)

/-- What a trap does to the frame mapping (R328): none when tnest is already 1. -/
def Bank.trapFrame (x : Bank) : Option Bank :=
  if !x.tf then some ((x.kfSet 16 1 1).kfSet 18 3 0)
  else if !x.tnest then some (x.kfSet 17 1 1)
  else none

/-- What a trap to machine mode does to a bank. -/
def Bank.trapM (x : Bank) (intr : Bool) (cause : Nat) (tval tvec : DWord) : Bank :=
  let y := (((x.setSlot slotMepc (x.pc &&& ~~~1)).setSlot slotMcause (BitVec.ofNat 64 (cause + 2 ^ 63 * b2n intr))).setSlot slotMtval tval).setPc
    (vector tvec intr cause)
  { y with priv := 3, mst := setFld (putBit (putBit x.mst mMpie (bit x.mst mMie)) mMie false) mMpp 2 x.priv.toNat }

/-- What a trap to supervisor mode does to a bank. -/
def Bank.trapS (x : Bank) (intr : Bool) (cause : Nat) (tval : DWord) : Bank :=
  let y := (((x.setSlot slotSepc (x.pc &&& ~~~1)).setSlot slotScause (BitVec.ofNat 64 (cause + 2 ^ 63 * b2n intr))).setSlot slotStval tval).setPc
    (vector (x.slot slotStvec) intr cause)
  { y with priv := 1, mst := setFld (putBit (putBit x.mst mSpie (bit x.mst mSie)) mSie false) mSpp 1 x.priv.toNat }

/-- Take a trap in bank `b` of core `c`: the frame map first (a trap while tnest is 1 is frame fault 0x3), then the saved
registers, status, mode and pc of the target level. Overflow and underflow traps are counted (R351). -/
def State.takeTrap (s : State) (c b : Nat) (intr : Bool) (cause : Nat) (tval : DWord) : State :=
  match (s.bank c b).trapFrame with
  | none => (s.withdraw c).frameFault c b 3
  | some _ =>
    let sup := s.delegated c b intr cause
    let s1 := s.modBank c b (fun x => match x.trapFrame with
      | some y => if sup then y.trapS intr cause tval else y.trapM intr cause tval (s.csr c csrMtvec)
      | none => x)
    if intr then s1 else if cause = 24 then s1.coreCount c 4 else if cause = 25 then s1.coreCount c 5 else s1

/-- An illegal-instruction exception for the instruction word `w`. -/
def State.illegal (s : State) (c b : Nat) (w : Word) : State :=
  s.takeTrap c b false 2 (if Config.illegalBits then w.setWidth 64 else 0)

/-- Local interrupt 16 would be taken now: pending, enabled, and not masked at the level it is taken at (R324). -/
def State.intrReady (s : State) (c b : Nat) : Bool :=
  let x := s.bank c b
  s.lint c && (if bit (s.csr c csrMideleg) 16 then
      bit (x.slot slotSie) 16 && (x.priv == 0 || (x.priv == 1 && bit x.mst mSie))
    else bit (s.csr c csrMie) 16 && (x.priv != 3 || bit x.mst mMie))

/-- The exception causes of R347. -/
def excCause (n : Nat) : Bool :=
  decide (n ≤ 9) || n == 11 || n == 12 || n == 13 || n == 15 || n == 24 || n == 25 || n == 26

/-- TRAP_ENTRY: the running thread of core `c` takes an exception of R347, or local interrupt 16 when it may be taken. -/
def trapEntry (c : Nat) (intr : Bool) (cause : Nat) (tval : DWord) (s : State) : State :=
  match s.execBank c with
  | none => s
  | some b =>
    if intr then (if cause = 16 ∧ s.intrReady c b then s.issue c b none (s.takeTrap c b true 16 0) else s)
    else if excCause cause then s.issue c b none (s.takeTrap c b false cause tval) else s

/-- Run `f` on the bank in which core `c` executes, unless the core stalls or an interrupted Xkctx instruction waits there. -/
def State.onRunning (s : State) (c : Nat) (f : Nat → State → State) : State :=
  match s.execBank c with
  | some b => s.issue c b none (f b s)
  | none => s

/-- The bank's pc moves on by `n`. -/
def State.pcAdd (s : State) (c b n : Nat) : State := s.modBank c b (fun x => x.setPc (x.pc + BitVec.ofNat 64 n))

/-! ### xRET (R328) -/

/-- What an xRET does to the frame mapping; none where it is an illegal instruction. -/
def Bank.retFrame (x : Bank) : Option Bank :=
  if x.tnest then some (x.kfSet 17 1 0) else if x.tdep = 0 then some (x.kfSet 16 1 0) else none

/-- MRET's effect on mode, status and pc. -/
def Bank.mret (x : Bank) : Bank :=
  let mpp := fld x.mst mMpp 2
  let m1 := setFld (putBit (putBit x.mst mMie (bit x.mst mMpie)) mMpie true) mMpp 2 0
  { x.setPc (x.slot slotMepc) with priv := BitVec.ofNat 2 mpp, mst := if mpp = 3 then m1 else putBit m1 mMprv false }

/-- SRET's effect on mode, status and pc. -/
def Bank.sret (x : Bank) : Bank :=
  let m1 := putBit (putBit (putBit x.mst mSie (bit x.mst mSpie)) mSpie true) mSpp false
  { x.setPc (x.slot slotSepc) with priv := if bit x.mst mSpp then 1 else 0, mst := putBit m1 mMprv false }

/-- mstatus.TSR, per core. -/
def State.tsr (s : State) (c : Nat) : Bool := bit (s.csr c 0x300) 22

/-- MRET (`m`) or SRET in bank `b`. -/
def State.xret (s : State) (c b : Nat) (m : Bool) : State :=
  let x := s.bank c b
  let w : Word := if m then 0x30200073 else 0x10200073
  let may := if m then x.priv == 3 else x.priv == 3 || (x.priv == 1 && !s.tsr c)
  match x.retFrame with
  | some y => if may then (s.modBank c b (fun _ => if m then y.mret else y.sret)).retire c else s.illegal c b w
  | none => s.illegal c b w

def xretCmd (c : Nat) (m : Bool) (s : State) : State := s.onRunning c (fun b u => u.xret c b m)

/-! ### FCALL and FRET (R327) -/

/-- A frame trap: cause 24 or 25 with kfstatus in xtval while tf is 0, frame fault 1 or 2 otherwise. -/
def State.frameTrap (s : State) (c b : Nat) (ovf : Bool) : State :=
  let x := s.bank c b
  if x.tf then (s.withdraw c).frameFault c b (if ovf then 1 else 2)
  else s.takeTrap c b false (if ovf then 24 else 25) x.kf

/-- FCALL enters a new ring frame: x16 is the return address, x17 to x31 are 0; tdep grows while tf is 1 (past 7, which its
field cannot hold, it takes a free value). -/
def State.fcall (s : State) (c b : Nat) (rs1 : Nat) (imm : BitVec 12) : State :=
  let x := s.bank c b
  if x.res = 6 then s.frameTrap c b true
  else
    let target := (x.x rs1 + imm.signExtend 64) &&& ~~~1
    let cur := (x.cur + 1) % 6
    let (k, s1) := if x.tf && x.tdep == 7 then s.freeNat 8 else (x.tdep + 1, s)
    (s1.retire c).modBank c b (fun x =>
      let y := (x.kfSet 0 3 cur).kfSet 3 3 (x.res + 1)
      let y := if x.tf then y.kfSet 18 3 k else y
      { (y.setPc target) with
        up := tset 0 (tkeep (fun i => !(decide (16 * cur ≤ i) && decide (i < 16 * cur + 16))) y.up) (16 * cur) (x.pc + 4) })

def fcallCmd (c : Nat) (rs1 : Nat) (imm : BitVec 12) (s : State) : State := s.onRunning c (fun b u => u.fcall c b rs1 imm)

/-- FRET jumps to x16 and returns to the caller's frame; an odd x16 raises instruction address misaligned. -/
def State.fret (s : State) (c b : Nat) : State :=
  let x := s.bank c b
  let w : Word := 0x0000100B
  if x.inTrap then s.illegal c b w
  else if x.res = 1 ∧ 0 < x.spl then s.frameTrap c b false
  else if x.res = 1 then s.illegal c b w
  else if bit (x.x 16) 0 then s.takeTrap c b false 0 (x.x 16)
  else (s.retire c).modBank c b (fun x =>
    let y := ((x.setPc (x.x 16)).kfSet 0 3 ((x.cur + 5) % 6)).kfSet 3 3 (x.res - 1)
    if x.tf then y.kfSet 18 3 (x.tdep - 1) else y)

def fretCmd (c : Nat) (s : State) : State := s.onRunning c (fun b u => u.fret c b)

/-! ### Half contexts (R335) -/

/-- Encoding of an Xkctx instruction (R348). -/
def XkOp.word : XkOp → Word
  | .svU => 0x0000002B | .svL => 0x0000102B | .ldU => 0x0000202B | .ldL => 0x0000302B

/-- A switch of the active bank waits at core `c`: the instruction may stop at a slot boundary for it. -/
def State.switchDue (s : State) (c : Nat) : Bool := (tget none s.hts.link c).isSome

/-- An Xkctx instruction in machine mode. `cut` is the number of slots moved when the switch that waits takes place; without
one it runs to its end. A slot that is not answered OK raises cause 26 with its address. -/
def State.xkctx (s : State) (c b : Nat) (op : XkOp) (cut : Option Nat) : State :=
  let x := s.bank c b
  if x.priv ≠ 3 then s.illegal c b op.word
  else
    let lim := if s.switchDue c then cut else none
    let stop := fun (u : State) => u.modBank c b (fun y => { y.kfSet 21 1 1 with cont := some op })
    let done := fun (u : State) => u.modBank c b (fun y => { y.kfSet 21 1 0 with cont := none })
    match op with
    | .svU | .svL =>
      let upper := op == .svU
      let (s1, f, fin) := s.saveHalf c b upper x.svc lim
      match f with
      | some a => (done s1).takeTrap c b false 26 (BitVec.ofNat 64 a)
      | none => if fin then ((done s1).pcAdd c b 4).retire c else stop s1
    | .ldU | .ldL =>
      let upper := op == .ldU
      let (s0, st, mask) := s.nodeMask (coreIni c) (x.node upper)
      let all := (List.range (if upper then 112 else 30)).filter (fun i => st != .ok || Nat.testBit mask i)
      let now := match lim with
        | some n => all.take n
        | none => all
      let (s1, f) := s0.loadHalf c b upper now
      match f with
      | some a => ((done s1).modBank c b (fun y => y.setPc x.pc)).takeTrap c b false 26 (BitVec.ofNat 64 a)
      | none =>
        if now.length < all.length then stop (s1.modBank c b (fun y => y.setPc x.pc))
        else if upper || !Nat.testBit mask slotPc then ((done s1).modBank c b (fun y => y.setPc (x.pc + 4))).retire c
        else (done s1).retire c

/-- An Xkctx instruction of the running thread. An instruction over the upper half accesses every frame: it stalls until the
engine has loaded them (R337). -/
def ctxCmd (op : XkOp) (c : Nat) (cut : Option Nat) (s : State) : State :=
  match s.execBank c with
  | some b => if (op == .svU || op == .ldU) && !(s.frameDue c b).isEmpty then s else s.issue c b (some op) (s.xkctx c b op cut)
  | none => s

/-! ### The Xkhts instructions (R348, R368) -/

/-- Machine and supervisor mode only. -/
def State.xkhts (s : State) (c : Nat) (w : Word) (f : Nat → State → State) : State :=
  s.onRunning c (fun b u => if (u.bank c b).priv = 0 then u.illegal c b w else f b ((u.pcAdd c b 4).retire c))

/-- HEVT enters the core's port and retires there. -/
def hevtCmd (c rs1 : Nat) (s : State) : State :=
  s.xkhts c (BitVec.ofNat 32 (0x5B + 2 ^ 15 * rs1)) (fun b u => u.toPort (0x10000 + c) ⟨fld ((u.bank c b).x rs1) 0 13, false⟩)
def hwaitCmd (c : Nat) (s : State) : State := s.xkhts c 0x105B (fun b u => u.hwait c b)
def hexitCmd (c : Nat) (s : State) : State := s.xkhts c 0x205B (fun b u => u.hexit c b)
def hyieldCmd (c : Nat) (s : State) : State := s.xkhts c 0x305B (fun b u => u.hyield c b)
def hselfCmd (c rd : Nat) (s : State) : State :=
  s.xkhts c (BitVec.ofNat 32 (0x405B + 2 ^ 7 * rd)) (fun b u => u.modBank c b (fun x => x.setX rd (BitVec.ofNat 64 x.thr)))

/-! ### A lost write-back (R341) -/

/-- WRITEBACK_ERROR: the dirty line of core `c` is lost, so that memory holds what stood behind it; CCXc_WBERR captures the
first under R29. -/
def writebackError (c : Nat) (a : Nat) (status : Status) (s : State) : State :=
  if status = .ok then s
  else match tget (0, (0 : Line)) s.l2 (a / 64) with
    | (k, old) =>
      if (s.l2.any (fun e => e.1 == a / 64)) && k == c then
        let s1 := ({ s with l2 := tdel s.l2 (a / 64) }).setBytes (a / 64 * 64) (bytesOf 64 old.toNat)
        let e := s.reg (ccxPage c + ccxWberr)
        let s2 := if (e &&& 3) = 0 then
            (s1.setReg (ccxPage c + ccxWberr) (BitVec.ofNat 32 (1 + 4 * statusCode status))).setReg64 (ccxPage c + ccxWbaddr) (a / 64 * 64)
          else s1.setReg (ccxPage c + ccxWberr) (setBit (setBit e 0) 1)
        s2.raise (ccxPage c) 1
      else s

/-! ### The commands -/

/-- FCALL (R327). FCALL enters a new ring frame and jumps, or raises a frame trap. -/
def execFcall (c : Core) (rs1 : Fin 32) (imm : BitVec 12) (s : State) : Out :=
  .next (s.gate (fcallCmd c.val rs1.val imm s))

/-- FRET (R327). FRET returns to the caller's frame, or raises a frame trap. -/
def execFret (c : Core) (s : State) : Out :=
  .next (s.gate (fretCmd c.val s))

/-- TRAP_ENTRY (R328). A trap is taken and the trap frame becomes current or tnest is set. -/
def execTrapEntry (c : Core) (intr : Bool) (cause : BitVec 6) (tval : BitVec 64) (s : State) : Out :=
  .next (s.gate (trapEntry c.val intr cause.toNat tval s))

/-- XRET (R328). MRET or SRET clears tnest or tf, or is illegal with tdep nonzero. -/
def execXret (c : Core) (m : Bool) (s : State) : Out :=
  .next (s.gate (xretCmd c.val m s))

/-- CTXSV_U (R335). CTXSV.U saves the bank's upper half to knodeu. -/
def execCtxsvU (c : Core) (cut : Option Nat) (s : State) : Out :=
  .next (s.gate (ctxCmd .svU c.val cut s))

/-- CTXSV_L (R335). CTXSV.L saves the bank's lower half to knodel. -/
def execCtxsvL (c : Core) (cut : Option Nat) (s : State) : Out :=
  .next (s.gate (ctxCmd .svL c.val cut s))

/-- CTXLD_U (R335). CTXLD.U loads the masked upper-half slots. -/
def execCtxldU (c : Core) (cut : Option Nat) (s : State) : Out :=
  .next (s.gate (ctxCmd .ldU c.val cut s))

/-- CTXLD_L (R335). CTXLD.L loads the masked lower-half slots and continues at slot 15's pc. -/
def execCtxldL (c : Core) (cut : Option Nat) (s : State) : Out :=
  .next (s.gate (ctxCmd .ldL c.val cut s))

/-- HEVT (R368). HEVT raises an event occurrence and retires once it is in the core's port. -/
def execHevt (c : Core) (rs1 : Fin 32) (s : State) : Out :=
  .next (s.gate (hevtCmd c.val rs1.val s))

/-- HWAIT (R368). HWAIT reloads cnt, consumes erl, and waits or continues. -/
def execHwait (c : Core) (s : State) : Out :=
  .next (s.gate (hwaitCmd c.val s))

/-- HEXIT (R368). HEXIT frees the thread and zeroes its bank. -/
def execHexit (c : Core) (s : State) : Out :=
  .next (s.gate (hexitCmd c.val s))

/-- HYIELD (R368). HYIELD puts the thread at the tail of its ready queue. -/
def execHyield (c : Core) (s : State) : Out :=
  .next (s.gate (hyieldCmd c.val s))

/-- HSELF (R368). HSELF returns the thread number. -/
def execHself (c : Core) (rd : Fin 32) (s : State) : Out :=
  .next (s.gate (hselfCmd c.val rd.val s))

/-- WRITEBACK_ERROR (R341). A cacheable write-back answered not OK is recorded and raises local interrupt 16. -/
def execWritebackError (c : Core) (addr : BitVec 48) (status : Status) (s : State) : Out :=
  .next (s.gate (writebackError c.val addr.toNat status s))

end Sys2Proof.Machine
end

