-- ==== Sys2Proof/Machine/Power.lean ====
section
/-!
DEFINITION. Modes, the AON domain, clocks, regulators, DRAIN and thermal management (chapter 16).
-/
namespace Sys2Proof.Machine

def pmuPage (p : Nat) : Nat := page .pmu p
def aonPage : Nat := page .aon 0
def lvePg : Nat := page .lve 0

/-- The encoding of a mode (R21). -/
def Mode.code : Mode → Nat
  | .off => 0 | .hold => 1 | .boot => 2 | .run => 3 | .drowse => 4 | .drain => 5 | .solo => 6 | .service => 7
def Mode.ofCode : Nat → Option Mode
  | 0 => some .off | 1 => some .hold | 2 => some .boot | 3 => some .run | 4 => some .drowse | 5 => some .drain
  | 6 => some .solo | 7 => some .service | _ => none

def State.modPmu (s : State) (f : Pmu → Pmu) : State := { s with pmu := f s.pmu }
def State.modAon (s : State) (f : Aon → Aon) : State := { s with aon := f s.aon }

/-- An occurrence of the AON page: in HOLD and OFF only the bit is kept (R16, R378). -/
def State.raiseAon (s : State) (i : Nat) : State :=
  if s.pmu.mode = .hold ∨ s.pmu.mode = .off then s.modReg (aonPage + hEvtRaw) (fun w => setBit w i) else s.raise aonPage i

/-- Assertions and the alarm are wake sources from here: in HOLD and DROWSE, and on the way into DROWSE (R374, R376). -/
def State.wakes (s : State) : Bool := s.pmu.mode == .hold || s.pmu.mode == .drowse || s.pmu.trans == some .drowse

/-- Wake source `k` comes up: 0 to 5 the comparators, 6 the alarm. -/
def State.noteWake (s : State) (k : Nat) : State := if s.wakes then s.modAon (fun a => { a with wake := setBit a.wake k }) else s

/-- PMU_CFG.twin. -/
def State.twinCfg (s : State) : Bool := bit (s.reg (pmuPage 0 + pmuCfg)) 0

/-- The ply condition (R374): no twin configured, or the link trained and the twin present. -/
def State.plyCond (s : State) : Bool := !s.twinCfg || s.ply.present

/-! ### Mode requests (R374 to R376) -/

/-- The host link is in L1.1 or L1.2. -/
def State.hostL1 (s : State) : Bool := s.hif.link == .l11 || s.hif.link == .l12

/-- The regions that PMU_DRMASK names. -/
def State.drowseRegions (s : State) : List Nat := (List.range 24).filter (fun r => bit (s.reg (pmuPage 0 + pmuDrmask)) r)

/-- The code with which a request is refused, 0 when it is accepted; of several conditions the lowest code is recorded. In DRAIN
the way to HOLD is in progress (R391). -/
def State.modeRefusal (s : State) (t : Option Mode) : Nat :=
  let busy : Nat := if s.pmu.trans.isSome then 2 else 0
  let ply : Nat := if busy = 2 then 2 else if s.plyCond then 0 else 3
  let twin : Nat := if s.twinCfg then busy else 1
  match s.pmu.mode, t with
  | .boot, some .run | .solo, some .run | .service, some .run => ply
  | .boot, some .solo | .service, some .solo => twin
  | .boot, some .service | .run, some .service | .solo, some .service => busy
  | .run, some .drowse | .solo, some .drowse =>
    if busy = 2 then 2
    else if (s.drowseRegions).any (fun r => (s.rgn r).st != .empty && (s.rgn r).st != .ready && (s.rgn r).st != .off) then 4
    else if !s.hostL1 then 5 else 0
  | .drowse, some m => if s.pmu.ret = some m then busy else 1
  | .drain, _ => 2
  | _, _ => 1

/-- A refused request (R375). -/
def State.modeRefuse (s : State) (t code : Nat) : State :=
  (s.modReg (pmuPage 0 + pmuModestat) (fun w =>
    BitVec.ofNat 32 (t + 2 ^ 4 * code + 2 ^ 8 * satAdd 255 (fld w 8 8) 1))).raise (pmuPage 0) 1

/-- NIs of the DRC. -/
def drcNis : List Nat := [drcNi 0, drcNi 1]

/-- The PMU powers the regions off that are quiet and starts to close the ports of the others (R263). -/
def State.regionsOff (s : State) (rs : List Nat) : State :=
  rs.foldl (fun u r => if (u.rgn r).st = .off then u else if u.regionQuiet r then (u.leaveRun r).regionOff r else u.closePorts r) s
/-- Every region of the list is off. -/
def State.allOff (s : State) (rs : List Nat) : Bool := rs.all (fun r => (s.rgn r).st == .off)

/-- Steps 1 and 2 of DROWSE's entry (R376), as far as the ports have come (R263): regions off once their NIs are down, the devices in
self-refresh once the DRC's are. -/
def State.drowseStep (s : State) : State :=
  let s1 := drcNis.foldl (fun u n => portClose n u) (s.regionsOff s.drowseRegions)
  if drcNis.all (fun n => (s1.ni n).port == .down) then { s1 with drc := { s1.drc with selfref := true } : State }.pllSettle else s1

/-- The entry's first two steps are complete. -/
def State.drowseIn (s : State) : Bool := s.allOff s.drowseRegions && s.drc.selfref

/-- The PMU powers off a region that is a target of a load in APPLY: the load ends with POWER (R141). -/
def State.powerEndsLoad (s : State) (rs : List Nat) : State :=
  match rs.find? (fun r => s.applyTarget r && (s.rgn r).st != .off) with
  | some r => s.applyAbort 0x24 (some r)
  | none => s

/-- The steps of DROWSE's entry (R376): regions off, DRC ports closed and the DRAM in self-refresh, PHYs gated, idle cores'
clocks stopped. -/
def State.drowseEntry (s : State) : State :=
  let s2 := (s.powerEndsLoad s.drowseRegions).drowseStep
  let idle := (List.range 4).filter (fun c => (s.core c).active.isNone)
  State.pllSettle { s2 with
    pmu := { s2.pmu with
      closed := drcNis.filter (fun n => decide ((s.ni n).port = .opened))
      gated := BitVec.ofNat 32 (((List.range 32).map (fun m => 2 ^ m * b2n (s.medch m).pool.isEmpty)).sum)
      plyGated := s.ply.st == .off || s.ply.st == .down
      stopped := BitVec.ofNat 4 ((idle.map (fun c => 2 ^ c)).sum) } }

/-- Everything that DROWSE closed opens again (R376): a port that had drained reopens, one that has not is closed no
longer. -/
def State.drowseReopen (s : State) : State :=
  let s0 : State := { s with drc := { s.drc with selfref := false } }
  let s1 := s0.pmu.closed.foldl (fun u n => portReopen n (u.modNi n (fun x => { x with port := .down }))) s0
  { s1 with
    pmu := { s1.pmu with closed := [], gated := 0, plyGated := false, stopped := 0 } }

/-- A write of PMU_MODEREQ. -/
def modeRequest (ini : Ini) (val : Word) (s : State) : State :=
  s.regWrite ini (pmuPage 0 + pmuModereq) val (fun _ u =>
    let t := fld val 0 4
    match u.modeRefusal (Mode.ofCode t) with
    | 0 =>
      let u1 := u.modPmu (fun p => { p with trans := Mode.ofCode t })
      if t = 4 then ((u1.modPmu (fun p => { p with ret := some u.pmu.mode })).modAon (fun a => { a with wake := 0 })).drowseEntry
      else if u.pmu.mode = .drowse then u1.setReg (pmuPage 0 + pmuWakesrc) 3
      else u1
    | code + 1 => u.modeRefuse t (code + 1))

/-- The exit from DROWSE waits for the DRAM PLL to lock again (R380). -/
def State.drowseWaits (s : State) : Bool := s.pmu.mode == .drowse && s.pllRuns 5 && !bit (s.reg (pmuPage 1 + pmuPllstat)) 5

/-- MODE_TRANSITION_DONE: the transition's last step: mode, EVT_RAW.mode and TRLAT. SERVICE waits for HIF_DCMD to read 0,
DROWSE for its regions and the DRC to be down (R263), DROWSE's exit for the DRAM PLL, BOOT is reached by a reset and HOLD by
the rails' removal. -/
def modeTransitionDone (us : BitVec 24) (s : State) : State :=
  match s.pmu.trans with
  | none => s
  | some m =>
    if m = .drowse ∧ s.drowseStep.drowseIn = false then s.drowseStep
    else if m = .boot ∨ m = .hold ∨ s.drowseWaits = true ∨ (m = .service ∧ fld (s.reg (page .hif 0 + hifDcmd)) 0 16 ≠ 0) then s
    else
      let s1 := if s.pmu.mode = .drowse then s.drowseReopen else if m = .drowse then s.drowseStep else s
      let s2 := s1.modPmu (fun p => { p with mode := m, trans := none })
      (s2.setReg (pmuPage 0 + pmuTrlat) (us.setWidth 32)).raise (pmuPage 0) 0

/-- An enabled AON wake source has come up: a comparator's assertion, the alarm. WAKE_N comes from outside. -/
def State.aonUp (s : State) : Bool :=
  let w := s.reg (aonPage + aonWake)
  (List.range 7).any (fun k => bit w k && bit s.aon.wake k) || bit w 7

/-- The first closed port with a wake request. -/
def State.wokePort (s : State) : Option Nat := (List.range 192).find? (fun n => (s.ni n).woke && (s.ni n).port != .opened)

/-- DROWSE_EXIT: an exit cause in DROWSE starts the return; during DROWSE's entry it reverses the entry (R376, R391). -/
def drowseExit (cause : DrowseExit) (s : State) : State :=
  let holds := match cause with
    | .hostL0 => s.hif.link == .l0 || s.hif.link == .l0p
    | .wakeRequest => s.wokePort.isSome
    | .aonWake => s.aonUp
    | .request => s.pmu.trans == s.pmu.ret
  let src := match cause with
    | .hostL0 => 0 | .wakeRequest => 1 + 4 * s.wokePort.getD 0 | .aonWake => 2 | .request => 3
  let note := fun (u : State) => (u.setReg (pmuPage 0 + pmuWakesrc) (BitVec.ofNat 32 src)).raise (pmuPage 0) 2
  if !holds then s
  else if s.pmu.trans = some .drowse then note ((s.drowseReopen).modPmu (fun p => { p with trans := none }))
  else if s.pmu.mode = .drowse ∧ s.pmu.trans = none then note (s.modPmu (fun p => { p with trans := p.ret }))
  else s

/-- TWIN_LOST: PLY reports the twin lost (R374, R391). -/
def twinLost (s : State) : State :=
  if s.twinCfg && !s.ply.present then
    match s.pmu.mode with
    | .run =>
      if s.pmu.trans.isNone then s.modPmu (fun p => { p with trans := some .solo })
      else if s.pmu.trans = some .drowse then s.modPmu (fun p => { p with ret := some .solo }) else s
    | .drowse => s.modPmu (fun p => { p with ret := some .solo, trans := p.trans.map (fun _ => .solo) })
    | _ => s
  else s

/-! ### The AON domain -/

/-- Output of comparator `k`. -/
def State.cmpOut (s : State) (k : Nat) : Bool := bit (s.reg (aonPage + 0x84 + 8 * k)) 10
def State.cmpCfg (s : State) (k : Nat) : Word := s.reg (aonPage + 0x80 + 8 * k)
def State.setCmp (s : State) (k : Nat) (out : Bool) (sample : Nat) : State :=
  s.setReg (aonPage + 0x84 + 8 * k) (BitVec.ofNat 32 (sample + 2 ^ 10 * b2n out))

/-- A sample with the comparator's calibration (R501, R502). -/
def State.cmpSample (s : State) (k : Nat) (code : BitVec 10) : Nat :=
  let v := (code.toNat : Int) + s.calEff (calItemCmp k)
  if v < 0 then 0 else if 1023 < v then 1023 else v.toNat

/-- COMPARATOR_ASSERT: filt samples beyond the threshold; comparator 3 asserts on an open mesh (R379). What cmp0, cmp1 and cmp3
start beyond the event are commands of their own. -/
def comparatorAssert (k : Nat) (code : BitVec 10) (s : State) : State :=
  let c := s.cmpCfg k
  let v := s.cmpSample k code
  let past := k == 3 || (if bit c 1 then decide (fld c 2 10 < v) else decide (v < fld c 2 10))
  if bit c 0 && !s.cmpOut k && past then
    let s1 := ((s.noteWake k).setCmp k true v).modAon (fun a => { a with mesh := a.mesh || k == 3 })
    s1.raiseAon (1 + k)
  else s.setCmp k (s.cmpOut k) v

/-- COMPARATOR_DEASSERT: filt samples back across the threshold by more than hyst. The return of the main supply wakes the part
from HOLD (R374, R393). -/
def comparatorDeassert (k : Nat) (code : BitVec 10) (s : State) : State :=
  let c := s.cmpCfg k
  let v := s.cmpSample k code
  let back := k == 3 || (if bit c 1 then decide (v + fld c 12 4 < fld c 2 10) else decide (fld c 2 10 + fld c 12 4 < v))
  if bit c 0 && back && (s.cmpOut k || (k == 0 && s.aon.rise0)) then
    (s.setCmp k false v).modAon (fun a => { a with wake := if s.pmu.mode = .hold ∧ k = 0 then setBit a.wake 0 else a.wake })
  else s.setCmp k (s.cmpOut k) v

/-- The alarm's part of a tick (R378). -/
def alarmFire (s : State) : State :=
  if bit (s.reg (aonPage + aonCtrl)) 1 && decide (s.reg64 (aonPage + aonAlarm) ≤ s.aon.time.toNat) then
    ((s.noteWake 6).modReg (aonPage + aonCtrl) (fun w => clrBit w 1)).raiseAon 0
  else s

/-- The debug token ends (R428), and with it a TAP instruction that only it allowed (R487). -/
def State.endToken (s : State) : State :=
  (if s.sec.dbg then ({ s with sec := { s.sec with dbg := false } }).setReg (page .sec 0 + secDbgperm) 0 else s).tapDrop

/-- TOKEN_EXPIRE: the tick at which AON_TIME reaches SEC_DBGEXP (R428). TRC_PRBSTAT.auth may have fallen: the probes stop
(R167). -/
def tokenExpire (s : State) : State :=
  if s.sec.dbg && decide (s.reg64 (page .sec 0 + secDbgexp) ≤ s.aon.time.toNat) then
    s.endToken.authFall s
  else s

/-- AON_TICK: the count advances, or takes AON_TSET where tload waits; then the alarm and a debug token are judged. When the
crystal's status comes up after an AON power-up is not stated: a free choice at each tick. -/
def aonTick (s : State) : State :=
  let t : DWord := if s.aon.tload then BitVec.ofNat 64 (s.reg64 (aonPage + aonTset)) else s.aon.time + 1
  let (x, s1) := if s.aon.xtal || s.aon.xfail then (b2n s.aon.xtal, s) else s.freeNat 2
  tokenExpire (alarmFire (s1.modAon (fun a => { a with time := t &&& 0x7FFFFFFFFFFFFFFF, tload := false, xtal := x == 1 })))

/-- XTAL_FAIL: the crystal fails; AON_TIME goes on from the RC oscillator (R377, R393). -/
def xtalFail (s : State) : State := (s.modAon (fun a => { a with xtal := false, xfail := true })).raiseAon 7

/-- TIME_LOAD: a write of AON_CTRL. -/
def timeLoad (ini : Ini) (val : Word) (s : State) : State :=
  s.regWrite ini (aonPage + aonCtrl) val (fun v u => u.modAon (fun a => { a with
    tload := a.tload || bit v 0, por := a.por && !bit v 2 }))

/-- AON_STAT. -/
def State.aonStatWord (s : State) : Word :=
  BitVec.ofNat 32 (s.pmu.mode.code + 2 ^ 4 * b2n s.aon.xtal + 2 ^ 6 * b2n s.aon.por +
    ((List.range 6).map (fun k => 2 ^ (8 + k) * b2n (s.cmpOut k))).sum)

/-- What the I3C/I2C target port reads of AON_STAT, in HOLD too (R21); none without power. The table has no row for the port's reads. -/
def State.portAonStat (s : State) : Option Word := if s.pmu.mode = .off then none else some s.aonStatWord

/-! ### Clocks (R380, R381) -/

/-- PLL_LOCK: a PLL that runs locks. -/
def pllLock (p : Nat) (s : State) : State :=
  if s.pllRuns p then s.modReg (pmuPage 1 + pmuPllstat) (fun w => setBit w p) else s

/-- PLL_LOCK_LOSS. -/
def pllLockLoss (p : Nat) (s : State) : State :=
  if bit (s.reg (pmuPage 1 + pmuPllstat)) p then
    (s.modReg (pmuPage 1 + pmuPllstat) (fun w => clrBit w p)).raise (pmuPage 0) 4
  else s

/-- A powered region selects fabric PLL `b` in FRGn_OPSEL, its last accepted value (R381). DEDUCED from R3: so does one that still runs
from the PLL until its change is carried out, and one whose power-on is pending. -/
def State.fpllUsed (s : State) (b : Bool) : Bool := (List.range 24).any (fun r =>
  ((s.rgn r).op.pwr && ((s.rgn r).op.pll == b || (opPoint (s.reg (frgPage r + frgOpsel))).pll == b)) || (s.lastPoint r).any (fun p => p.pll == b))

/-- FPLL_WRITE: n outside 64 to 128, or a change of n or a clear of en while a powered region selects the PLL, is ignored and sets
cmdig; a change of n relocks, en = 0 stops (R381). -/
def fpllWrite (ini : Ini) (b : Bool) (val : Word) (s : State) : State :=
  let off := pmuPage 1 + (if b then pmuFpllb else pmuFplla)
  s.regGuard ini off (fun u =>
    let old := u.reg off
    let n := fld val 0 8
    let change := n != fld old 0 8 || (bit old 8 && !bit val 8)
    if n < 64 ∨ 128 < n ∨ (change ∧ u.fpllUsed b) then u.raise (pmuPage 0) 6
    else
      let u1 := u.setReg off (val &&& 0x1FF)
      if change then u1.modReg (pmuPage 1 + pmuPllstat) (fun w => clrBit w (if b then 4 else 3)) else u1)

/-! ### Regulators (R382, R383) -/

/-- Target of AVSBus rail 0 VDD_FIN or 1 VDD_SOC, in mV (R382, R502). -/
def State.railTarget (s : State) (rail : Bool) : Int := if rail then 720 + 5 * s.calEff 56 else 950

/-- A rail outside its target by more than `win` mV. -/
def State.railOut (s : State) (rail : Bool) (mv win : Nat) : Bool := decide ((win : Int) < ((mv : Int) - s.railTarget rail).natAbs)

/-- A rail fault: the PMU's event and the levee's record (R382, R383). -/
def State.railFault (s : State) : State := (s.raise (pmuPage 0) 5).raise lvePg 4

/-- AVS_MONITOR: the 1 ms readings of both rails and of the power estimate; STATUS_WORD of a valid PMBus rail with a fault, which
is not read while a firmware command runs. -/
def avsMonitor (mv0 ma0 mv1 ma1 pwr : BitVec 16) (pmbFault : Bool) (s : State) : State :=
  let s1 := ((s.setReg (pmuPage 1 + pmuAvs) (BitVec.ofNat 32 (mv0.toNat + 2 ^ 16 * ma0.toNat))).setReg
    (pmuPage 1 + pmuAvs + 4) (BitVec.ofNat 32 (mv1.toNat + 2 ^ 16 * ma1.toNat))).setReg (pmuPage 1 + pmuPwr) (pwr.setWidth 32)
  let valid := (List.range 8).any (fun k => bit (s.reg (pmuPage 1 + pmuRail + 4 * k)) 7)
  if s.railOut false mv0.toNat 30 || s.railOut true mv1.toNat 30 ||
      (pmbFault && valid && !bit (s.reg (pmuPage 1 + pmuPmbstat)) 0) then s1.railFault else s1

/-- PMBUS_COMMAND: go sends one command at a time; a go while one runs is ignored and sets cmdig. -/
def pmbusCommand (ini : Ini) (val : Word) (s : State) : State :=
  s.regWrite ini (pmuPage 1 + pmuPmbcmd) val (fun v u =>
    if !bit v 31 then u
    else if bit (u.reg (pmuPage 1 + pmuPmbstat)) 0 then u.raise (pmuPage 0) 6
    else u.setReg (pmuPage 1 + pmuPmbstat) 1)

/-- PMBUS_DONE. -/
def pmbusDone (nak pec : Bool) (data : BitVec 16) (s : State) : State :=
  if bit (s.reg (pmuPage 1 + pmuPmbstat)) 0 then
    let s1 := s.setReg (pmuPage 1 + pmuPmbstat) (BitVec.ofNat 32 (2 * b2n nak + 4 * b2n pec))
    if bit (s.reg (pmuPage 1 + pmuPmbcmd)) 8 && !nak then s1.setReg (pmuPage 1 + pmuPmbdata) (data.setWidth 32) else s1
  else s

/-! ### Thermal management (R390) -/

/-- Temperature of unit `u`: a region's sensor, the SOC sensor for the rider cores. -/
def State.unitTemp (s : State) (u : Nat) : Int := if u < 24 then sx 8 (fld (s.reg (frgPage u + frgTemp)) 0 8) else s.pmu.soc

/-- THROTTLE_STEP: one millisecond: each unit's level rises or falls by step with its temperature. -/
def throttleStep (s : State) : State :=
  let c := s.reg (pmuPage 2 + pmuThrcfg)
  let tthr : Int := fld c 0 8
  let low : Int := tthr - fld c 8 8
  let step := fld c 16 4
  let next := fun (u l : Nat) => if tthr ≤ s.unitTemp u then min (fld c 24 4) (l + step) else if s.unitTemp u ≤ low then l - step else l
  let old := fun (u : Nat) => tget 0 s.pmu.levels u
  let s1 := s.modPmu (fun p => { p with levels := (List.range 25).foldl (fun t u => tset 0 t u (next u (old u))) p.levels })
  if (List.range 25).any (fun u => old u == 0 && next u (old u) != 0) then s1.raise (pmuPage 0) 3 else s1

/-- PMU_THRSTAT and PMU_STAT. -/
def State.thrstatWord (s : State) : Word :=
  BitVec.ofNat 32 (((List.range 24).map (fun n => 2 ^ n * b2n (tget 0 s.pmu.levels n != 0))).sum + 2 ^ 24 * tget 0 s.pmu.levels 24)
def State.pmuStatWord (s : State) : Word :=
  let code := fun (m : Option Mode) => match m with
    | some m => m.code
    | none => 0
  BitVec.ofNat 32 (s.pmu.mode.code + 2 ^ 4 * b2n s.pmu.trans.isSome + 2 ^ 8 * code s.pmu.trans + 2 ^ 12 * code s.pmu.ret)

/-! ### DRAIN (R386 to R388) -/

/-- The step and the pages done, in PMU_DRNSTAT. -/
def State.setDrain (s : State) (step : Nat) : State :=
  (s.modPmu (fun p => { p with drain := step })).modReg (pmuPage 2 + pmuDrnstat) (fun w => setFld w 0 3 step)
def State.pagesDone (s : State) : Nat := fld (s.reg (pmuPage 2 + pmuDrnstat)) 3 9

/-- DRAIN_START: step 1. It abandons any transition and every reset requested (R22, R391, R395); the way to HOLD begins (R374). -/
def drainStart (src : DrainSrc) (s : State) : State :=
  let due := (src == .cmp0 && s.cmpOut 0) || (src == .levee && s.pmu.drainReq)
  let m := s.pmu.mode
  if due = true ∧ (m = .boot ∨ m = .run ∨ m = .drowse ∨ m = .solo ∨ m = .service) then
    -- within 1 µs of the cause
    let (us, s0) := s.freeNat 2
    let s1 := (s0.modPmu (fun p => { p with
      mode := .drain, trans := some .hold, drainReq := false, cold := none, warm := none, deferred := false, jlen := 0, jok := 0, holdup := false })).setDrain 1
    let s2 := s1.modReg (pmuPage 2 + pmuDrnstat) (fun w => setFld w 3 9 0)
    (({ s2 with hif := { s2.hif with closed := true }, mgd := { s2.mgd with stop := true, defer := false } }).raise (pmuPage 0) 0).setReg
      (pmuPage 0 + pmuTrlat) (BitVec.ofNat 32 us)
  else s

/-- The regions' reset of step 2 ends a load in APPLY with RESET (R141). -/
def State.drainEndsLoad (s : State) : State :=
  if (List.range 24).any (fun r => s.applyTarget r && (s.rgn r).st != .off) then s.loadEnd 0x22 else s

/-- DRAIN_REGIONS_OFF: step 2, once the NIs of every powered region are down (R263); the journal length that step 3 uses is taken. -/
def drainRegionsOff (s : State) : State :=
  if s.pmu.drain = 1 then
    let s1 := s.drainEndsLoad.regionsOff (List.range 24)
    if !s1.allOff (List.range 24) then s1 else
    let s2 := State.pllSettle { s1 with drc := { s1.drc with selfref := true }, fab := { s1.fab with opq := [], opRun := false } }
    (s2.modPmu (fun p => { p with jlen := fld (s.reg (pmuPage 2 + pmuDrnjlen)) 0 9 })).setDrain 3
  else s

/-- Where journal page `j` goes (R386, R387): channel, LUN and row of its table entry, none when the table cannot be read. -/
def State.journalTarget (s : State) (j : Nat) : State × Option (Nat × Nat × Nat) :=
  let n := max 1 (fld (s.reg (pmuPage 2 + pmuDrntcnt)) 0 6)
  let (s1, st, l) := s.memRead 0x35 (s.reg64 (pmuPage 2 + pmuDrntbl) % 2 ^ 48 / 8 * 8 + 8 * (j % n)) 8
  let w := ofBytes l
  (s1, if st = .ok then some (nfld w 0 5, 4 * nfld w 5 3 + nfld w 8 2, nfld w 32 32 + j / n) else none)

/-- DRAIN_JOURNAL_PAGE: the next journal page ends: it is encoded and programmed under a torn-log entry with the MGD bit, which
the flash's status byte closes. It waits for a free entry; a page that cannot be read, or that an inhibit stops, is counted
and not retried. -/
def drainJournalPage (status : Byte) (s : State) : State :=
  let j := s.pagesDone
  if s.pmu.drain = 3 ∧ j < s.pmu.jlen then
    let done := fun (u : State) (ok : Bool) =>
      (u.modReg (pmuPage 2 + pmuDrnstat) (fun w => setFld w 3 9 (j + 1))).modPmu (fun p => { p with jok := p.jok + b2n ok })
    let cfg := s.reg (pmuPage 2 + pmuDrncfg)
    match s.journalTarget j with
    | (s1, none) => done s1 false
    | (s1, some (m, l, row)) =>
      let (s2, st, _) := s1.memRead 0x35 (bankAddr (fld cfg 0 8) + 16384 * j) 16384
      if st ≠ .ok ∨ s2.inhibit m = true then done s2 false
      else match s2.tornFree with
        | none => s
        | some e =>
          let d : MedDesc := { words := [BitVec.ofNat 32 (fld (s.reg (pmuPage 2 + pmuDrnprog)) 0 11 + 2 ^ 11 + 2 ^ 15 * (l / 4) +
            2 ^ 18 * (l % 4) + 2 ^ 23), BitVec.ofNat 32 row] }
          let s3 := (s2.tornIssue e m d).modTorn e (fun x => { x with
            mgd := true, live := false, st := status, state := .free })
          done s3 (!bit status 0)
  else s

/-- DRAIN_INHIBIT: step 4: write-inhibit on every channel, and AON_DRNLOG. -/
def drainInhibit (timeout : Bool) (quarterMs : BitVec 16) (s : State) : State :=
  let all := decide (s.pmu.jlen ≤ s.pagesDone)
  let logged := bit (s.reg (aonPage + aonDrnlog)) 0 && s.pmu.drain == 4 && !s.pmu.holdup
  if (s.pmu.drain = 3 ∧ (all ∨ timeout)) ∨ (s.pmu.drain = 4 ∧ s.pmu.holdup = true ∧ logged = false) then
    ((s.setDrain 4).setReg (aonPage + aonDrnlog) (BitVec.ofNat 32 (1 + 2 * b2n (all && !s.pmu.holdup) + 4 * b2n s.pmu.holdup +
      8 * b2n (timeout && !all) + 2 ^ 4 * s.pmu.jok + 2 ^ 16 * quarterMs.toNat))).modPmu (fun p => { p with holdup := false })
  else s

/-- HOLDUP_ASSERT: cmp1 during steps 1 to 3 moves the sequence to step 4 and sets AON_DRNLOG.holdup. -/
def holdupAssert (s : State) : State :=
  if s.cmpOut 1 ∧ 1 ≤ s.pmu.drain ∧ s.pmu.drain ≤ 3 then
    ((s.setDrain 4).setReg (aonPage + aonDrnlog) 4).modPmu (fun p => { p with holdup := true })
  else s

/-! ### The commands -/

/-- MODE_REQUEST (R375). A write to PMU_MODEREQ starts a mode transition or is refused. -/
def execModeRequest (ini : Ini) (val : Word) (s : State) : Out :=
  .next (s.gate (modeRequest ini val s))

/-- DROWSE_EXIT (R376). An exit cause reopens ports and PHYs and returns to RUN or SOLO. -/
def execDrowseExit (cause : DrowseExit) (s : State) : Out :=
  .next (s.gate (drowseExit cause s))

/-- TWIN_LOST (R374). PLY reports the twin lost and RUN moves to SOLO. -/
def execTwinLost (s : State) : Out :=
  .next (s.gate (twinLost s))

/-- COMPARATOR_ASSERT (R379). A comparator output asserts after filt samples beyond threshold. -/
def execComparatorAssert (k : Fin 6) (sample : BitVec 10) (s : State) : Out :=
  .next (s.gateAon (comparatorAssert k.val sample s))

/-- COMPARATOR_DEASSERT (R379). A comparator output deasserts after filt samples back across threshold. -/
def execComparatorDeassert (k : Fin 6) (sample : BitVec 10) (s : State) : Out :=
  .next (s.gateAon (comparatorDeassert k.val sample s))

/-- ALARM_FIRE (R378). AON_TIME reaches AON_ALARM and the alarm event is set. -/
def execAlarmFire (s : State) : Out :=
  .next (s.gateAon (alarmFire s))

/-- TOKEN_EXPIRE (R428). AON_TIME reaches SEC_DBGEXP and the debug token ends. -/
def execTokenExpire (s : State) : Out :=
  .next (s.gate (tokenExpire s))

/-- AON_TICK (R377). AON_TIME advances by one tick. -/
def execAonTick (s : State) : Out :=
  .next (s.gateAon (aonTick s))

/-- XTAL_FAIL (R377). The 32.768 kHz crystal stops, AON_STAT.xtal clears, AON EVT_RAW.xtalfail is set and AON_TIME advances from the RC oscillator. -/
def execXtalFail (s : State) : Out :=
  .next (s.gateAon (xtalFail s))

/-- TIME_LOAD (R377). A write of AON_CTRL.tload copies AON_TSET into AON_TIME at the next tick. -/
def execTimeLoad (ini : Ini) (val : Word) (s : State) : Out :=
  .next (s.gate (timeLoad ini val s))

/-- PLL_LOCK (R380). A PLL locks and its consumers may use it. -/
def execPllLock (p : Fin 8) (s : State) : Out :=
  .next (s.gate (pllLock p.val s))

/-- PLL_LOCK_LOSS (R380). A running PLL loses lock and pllfail is set. -/
def execPllLockLoss (p : Fin 8) (s : State) : Out :=
  .next (s.gate (pllLockLoss p.val s))

/-- FPLL_WRITE (R381). A write to PMU_FPLLx changes or stops a fabric PLL, or is ignored. -/
def execFpllWrite (ini : Ini) (b : Bool) (val : Word) (s : State) : Out :=
  .next (s.gate (fpllWrite ini b val s))

/-- AVS_MONITOR (R382). Every 1 ms the PMU reads the AVSBus rails and reports faults. -/
def execAvsMonitor (mv0 ma0 mv1 ma1 : BitVec 16) (pwr : BitVec 16) (pmbFault : Bool) (s : State) : Out :=
  .next (s.gate (avsMonitor mv0 ma0 mv1 ma1 pwr pmbFault s))

/-- PMBUS_COMMAND (R383). A write of PMU_PMBCMD.go sends a firmware PMBus command. -/
def execPmbusCommand (ini : Ini) (val : Word) (s : State) : Out :=
  .next (s.gate (pmbusCommand ini val s))

/-- PMBUS_DONE (R383). A PMBus command completes. -/
def execPmbusDone (nak pec : Bool) (data : BitVec 16) (s : State) : Out :=
  .next (s.gate (pmbusDone nak pec data s))

/-- THROTTLE_STEP (R390). Every 1 ms each unit's throttle level rises or falls with its temperature. -/
def execThrottleStep (s : State) : Out :=
  .next (s.gate (throttleStep s))

/-- DRAIN_START (R386). cmp0 or a levee request enters DRAIN and stops intake, cores, DMA and media. -/
def execDrainStart (src : DrainSrc) (s : State) : Out :=
  .next (s.gate (drainStart src s))

/-- DRAIN_REGIONS_OFF (R386). By 10 µs every region is powered off and DRAM enters self-refresh. -/
def execDrainRegionsOff (s : State) : Out :=
  .next (s.gate (drainRegionsOff s))

/-- DRAIN_JOURNAL_PAGE (R386). The DRAIN controller writes one journal page as a guard page. -/
def execDrainJournalPage (status : Byte) (s : State) : Out :=
  .next (s.gate (drainJournalPage status s))

/-- DRAIN_INHIBIT (R386). When every page has a result or at 11.5 ms the levee inhibits writes and AON_DRNLOG is written. -/
def execDrainInhibit (timeout : Bool) (quarterMs : BitVec 16) (s : State) : Out :=
  .next (s.gate (drainInhibit timeout quarterMs s))

/-- HOLDUP_ASSERT (R388). cmp1 asserting during DRAIN moves the sequence to step 4. -/
def execHoldupAssert (s : State) : Out :=
  .next (s.gate (holdupAssert s))

end Sys2Proof.Machine
end

