-- ==== Sys2Proof/Machine/Reset.lean ====
section
/-!
DEFINITION. Resets, the AON domain's power, leaving HOLD, and boot (chapters 16 and 17).
-/
namespace Sys2Proof.Machine

def sysPage : Nat := page .sys 0
def secPage : Nat := page .sec 0

/-! ### Requests (R394, R395) -/

/-- A cold reset is requested: not in OFF, HOLD or DRAIN; it ends a warm reset's deferral at once. The first cause stands. -/
def State.requestCold (s : State) (cause : Nat) : State :=
  if s.powered && s.pmu.mode != .drain then
    { s with pmu := { s.pmu with cold := some (s.pmu.cold.getD cause), warm := none, deferred := false }
             mgd := { s.mgd with defer := false } }
  else s

/-- A warm reset is requested: merged with a reset already requested. From here HIF takes nothing in, the HTS dispatches nothing
and the cores and DMA channels stop (R400). -/
def State.requestWarm (s : State) (cause : Nat) : State :=
  if s.powered && s.pmu.mode != .drain && s.pmu.cold.isNone && s.pmu.warm.isNone then
    { s with pmu := { s.pmu with warm := some cause, deferred := false }, hif := { s.hif with closed := true } }
  else s

/-- A cold or warm reset is on its way. -/
def State.resetting (s : State) : Bool := s.pmu.cold.isSome || s.pmu.warm.isSome

/-- SYSRST: SYSRST_N held low. -/
def sysrst (s : State) : State := s.requestCold 3

/-- A write of PMU_RSTREQ. -/
def rstreqWrite (ini : Ini) (val : Word) (s : State) : State :=
  s.regWrite ini (pmuPage 0 + pmuRstreq) val (fun v u =>
    let u1 := if bit v 0 && ini == levee then u.requestCold 4 else u
    if bit v 1 then u1.requestWarm (if ini = levee then 5 else 6) else u1)

/-! ### What a reset leaves (R396, R397) -/

/-- The straps' reset values: PMU_STRAP, PMU_CFG.twin, FCC_SPICFG.en, and DRC_CFG (R407). -/
def State.strapResets (s : State) (straps : Nat) (drc : Bool) : State :=
  let s1 := (s.setReg (pmuPage 0 + pmuStrap) (BitVec.ofNat 32 straps)).setReg (pmuPage 0 + pmuCfg) (BitVec.ofNat 32 (nfld straps 0 1))
  let s2 := s1.setReg (fccPg + fccSpicfg) (BitVec.ofNat 32 (nfld straps 1 1))
  if drc then s2.setReg (page .drc 0 + drcCfg) (BitVec.ofNat 32 (nfld straps 10 6)) else s2

/-- Any reset that resets MED clears the live bits of the torn log (R215). -/
def Aon.unlive (a : Aon) : Aon := { a with torn := tmap {} (fun _ => true) (fun _ e => { e with live := false }) a.torn }

/-- The pins after a reset: the board's supplies stay; no core is halted by the debug module. -/
def Pio.afterReset (p : Pio) : Pio :=
  { p with
    pins := []
    tap := { p.tap with halt := 0, dm := [] } }

/-- Registers that the AON domain holds (R393, R417, R429). -/
def aonHeld (off : Nat) : Bool :=
  off / 0x1000 * 0x1000 == aonPage || off == lvePg + lveLastflt || off == secPage + secTamper

/-- Registers that a warm reset keeps (R396, R397). -/
def warmKept (off : Nat) : Bool :=
  let pg := off / 0x1000 * 0x1000
  pg == aonPage || pg == lvePg || pg == page .lve 1 || (decide (secPage ≤ pg) && decide (pg ≤ page .sec 3)) || pg == page .cal 0 ||
  pg == page .drc 1 ||
  [pmuPage 2 + pmuDrncfg, pmuPage 2 + pmuDrnjlen, pmuPage 2 + pmuDrntbl, pmuPage 2 + pmuDrntbl + 4, pmuPage 2 + pmuDrntcnt,
    pmuPage 2 + pmuDrnprog, pmuPage 0 + pmuRstcnt, pmuPage 0 + pmuStrap, page .mgd 0 + mgdDefer, page .drc 0 + drcCfg,
    page .drc 0 + drcHvbase, page .drc 0 + drcHvsize].contains off

/-- The fuse map's check at cold reset (R503). -/
def State.fuseCheck (s : State) (bad : Bool) : State :=
  let s1 := { s with cal := { valid := !bad, bad := bad } }
  if bad then s1.raise (page .cal 0) 0 else s1

/-- A cold reset: every block but AON returns to its reset values, the reservoir is wiped, and the mode is BOOT. -/
def State.coldReset (s : State) (cause straps : Nat) (bad : Bool) : State :=
  let z := State.reset
  let s1 : State := { z with
    pending := s.pending
    fresh := s.fresh
    fuses := s.fuses
    regs := tkeep aonHeld s.regs
    aon := s.aon.unlive
    rsvr := { z.rsvr with wipe := true }
    pmu := { z.pmu with cause := cause }
    hif := { z.hif with perst := s.hif.perst }
    pio := s.pio.afterReset }
  ((s1.strapResets straps true).fuseCheck bad).tapDrop

/-- A warm reset: LVE, SEC, CAL, AON, the fields of R397, the reservoir's contents and the DRAM's stay. -/
def State.warmReset (s : State) (cause : Nat) : State :=
  let z := State.reset
  let straps := (s.reg (pmuPage 0 + pmuStrap)).toNat
  -- a capture that copies leaves the sections already written (R164)
  let c := s.captureReset ((rgnList s.integ.capRgn).headD 0)
  let s1 : State := { z with
    pending := s.pending
    fresh := c.fresh
    fuses := s.fuses
    regs := tkeep warmKept s.regs
    mem := c.mem
    aon := s.aon.unlive
    cal := s.cal
    lve := { s.lve with wd1 := 0 }
    sec := { s.sec with dbg := false, fw := none, lv := none, chain := 0 }
    rsvr := { s.rsvr with own := [], hand := [] }
    drc := { z.drc with trained := s.drc.trained, trn := s.drc.trn, init := s.drc.init, marks := s.drc.marks }
    pmu := { z.pmu with cause := cause }
    hif := { z.hif with perst := s.hif.perst }
    pio := s.pio.afterReset }
  ((s1.strapResets straps false).setReg (secPage + secDbgperm) 0).tapDrop.countUp (pmuPage 0 + pmuRstcnt) 0 16 1

/-- COLD_RESET: the requested cold reset runs; the straps and the fuse check come from outside. -/
def coldResetCmd (straps : BitVec 16) (f : FuseRead) (s : State) : State :=
  match s.pmu.cold with
  | some cause => s.coldReset cause straps.toNat f.bad
  | none => s

/-- WARM_RESET_DEFERRAL: the media channels stop and MGD begins the deferral (R216, R400 step 2). -/
def warmResetDeferral (s : State) : State :=
  if s.pmu.warm.isSome && !s.pmu.deferred then (s.deferBegin).modPmu (fun p => { p with deferred := true }) else s

/-- WARM_RESET_ASSERT: the deferral has ended and the launched bursts are complete: the reset asserts and releases (R400). -/
def warmResetAssert (s : State) : State :=
  match s.pmu.warm with
  | some cause =>
    if s.pmu.deferred && !s.mgd.defer && s.dma.all (fun d => !d.2.outstanding) then s.warmReset cause else s
  | none => s

/-! ### Region and core reset (R398, R399) -/

/-- A region's reset at its next edge, without bind-off. -/
def State.regionReset (s : State) (r : Nat) : State :=
  if (s.rgn r).st = .off then s
  else if s.applyTarget r then s.applyAbort 0x22 none
  else
    let s1 := (((s.leaveRun r).captureReset r).dropXing r).dropHg r
    (((s1.resetTiles r).modRgn r (fun g => { g with
      st := if g.st = .loading ∨ g.loaded = 0 then .empty else .ready
      stage := 0, parked := false, stall := none, regReq := none, sigReq := none, first := false, lines := []
      offReq := false })).foutPark r) |> fun u => if (s.rgn r).offReq && u.regionQuiet r then (u.regionOff r).dropOff r else u

/-- The core's steps: CTRL.en falls, its L2 goes, every resident thread is cancelled, every bank is zero. -/
def State.coreReset (s : State) (c : Nat) : State :=
  let s0 := (s.modReg (ccxPage c + ccxCtrl) (fun w => clrBit w 0)).withdraw c
  let s1 := (({ s0 with
      l2 := s0.l2.filter (fun e => e.2.1 != c)
      drc := { s0.drc with bi := s0.drc.bi.filter (fun e => e.unit != some (coreIni c) || e.ended.isNone) }
      lr := tset none s0.lr c none }).modCore c (fun x => { x with eng := [], fpOwn := none, fp := [], fpOk := false, tlb := [] })).wdRestart c
  (List.range 8).foldl (fun u b =>
    let x := u.bank c b
    if x.st = .empty then u
    else if (u.thr x.thr).res = true ∧ (u.thr x.thr).cancels = true then (u.cancelThread x.thr none false).zeroBank c b
    else u.zeroBank c b) s1

/-- A write of PMU_FRGRST or PMU_CORERST: in DRAIN, or in BOOT before firmware entry, ignored with cmdig; during a cold or warm
reset discarded (R395, R407). -/
def State.unitReset (s : State) (v : Word) (n : Nat) (f : State → Nat → State) : State :=
  if v.toNat % 2 ^ n = 0 ∨ s.resetting = true then s
  else if s.pmu.mode = .drain ∨ (s.pmu.mode = .boot ∧ s.pmu.fwIn = false) then s.raise (pmuPage 0) 6
  else ((List.range n).filter (fun i => bit v i)).foldl f s

def fabricRegionReset (ini : Ini) (val : Word) (s : State) : State :=
  s.regWrite ini (pmuPage 0 + pmuFrgrst) val (fun v u => u.unitReset v 24 State.regionReset)
def coreResetCmd (ini : Ini) (val : Word) (s : State) : State :=
  s.regWrite ini (pmuPage 0 + pmuCorerst) val (fun v u => u.unitReset v 4 State.coreReset)

/-! ### HOLD, and the AON domain's power (R374, R384, R386) -/

/-- The main rails go: only the AON domain keeps its state; requests of a reset are discarded (R391, R395). -/
def State.holdEntry (s : State) : State :=
  let z := State.reset
  { z with
    pending := s.pending
    fresh := s.fresh
    fuses := s.fuses
    regs := tkeep aonHeld s.regs
    aon := { s.aon.unlive with pwren := false, wake := 0 }
    rsvr := z.rsvr
    hts := {}
    pmu := { z.pmu with mode := .hold, cause := s.pmu.cause }
    hif := { z.hif with perst := s.hif.perst }
    pio := { s.pio.afterReset with volt := [] } }

/-- MODE_TRANSITION_DONE: HOLD is reached with the rails' removal, and the PMU's own records of it with them. -/
def modeTransitionEnd (us : BitVec 24) (s : State) : State :=
  if s.pmu.mode = .boot ∧ s.pmu.trans = some .hold then s.holdEntry else modeTransitionDone us s

/-- DRAIN_POWER_OFF: step 5. -/
def drainPowerOff (s : State) : State :=
  if s.pmu.drain = 4 ∧ bit (s.reg (aonPage + aonDrnlog)) 0 = true then s.holdEntry else s

/-- AON_POWER_UP: VDD_AON rises into range: the domain at its reset values, aonpor set, and the mode HOLD. -/
def aonPowerUp (s : State) : State :=
  if s.pmu.mode = .off then
    let z := State.reset
    { z with
      pending := s.pending
      fresh := s.fresh
      fuses := s.fuses
      aon := { z.aon with rise0 := true, pwren := false }
      hts := {}
      pmu := { z.pmu with mode := .hold, cause := 1 }
      hif := { z.hif with perst := s.hif.perst } }
  else s

/-- AON_POWER_LOSS: VDD_AON leaves its range: everything but the fuses is lost. -/
def aonPowerLoss (s : State) : State :=
  let z := State.reset
  { z with pending := s.pending, fresh := s.fresh, fuses := s.fuses, hts := {}, pmu := { z.pmu with mode := .off, cause := s.pmu.cause },
           aon := { z.aon with pwren := false }, hif := { z.hif with perst := s.hif.perst } }

/-- An enabled wake source of AON_WAKE, or the first rise of cmp0 after an AON power-up, starts the way to BOOT: PWREN_MAIN rises. -/
def wakeUp (src : WakeSrc) (s : State) : State :=
  let w := s.reg (aonPage + aonWake)
  let due := match src with
    | .cmp k => (bit w k.val && bit s.aon.wake k.val) || (k.val == 0 && s.aon.rise0 && !s.cmpOut 0 && bit s.aon.wake 0)
    | .alarm => bit w 6 && bit s.aon.wake 6
    | .wakePin => bit w 7
  if s.pmu.mode = .hold ∧ due = true then
    (s.modAon (fun a => { a with pwren := true, rise0 := false, wake := 0 })).modPmu (fun p => { p with trans := some .boot })
  else s

/-- PG_MAIN_RISE: the main rails are in range: the PMU leaves HOLD, by a cold reset of cause 0x2. -/
def pgMainRise (s : State) : State :=
  if s.pmu.mode = .hold ∧ s.aon.pwren = true then s.modPmu (fun p => { p with cold := some 2 }) else s

/-! ### Boot (R402 to R405) -/

/-- A field of SYS_BOOTSTAT. -/
def State.bootstat (s : State) (lo n v : Nat) : State := s.modReg (sysPage + sysBootstat) (fun w => setFld w lo n v)

/-- A little-endian field of an image. -/
def imgField (l : List Byte) (a n : Nat) : Nat := ofBytes (sliceBytes l a n)

/-- ASCII "EZFIRMWARE" and "EZLEVEE". -/
def fwStr : List Byte := ascii [0x45, 0x5A, 0x46, 0x49, 0x52, 0x4D, 0x57, 0x41, 0x52, 0x45]
def lvStr : List Byte := ascii [0x45, 0x5A, 0x4C, 0x45, 0x56, 0x45, 0x45]

/-- The image's header, key, signature and rollback checks in R403's order: 0, or the failure code of R405. A levee image differs
as R410 says. -/
def State.imageCode (s : State) (l : List Byte) (lv : Bool) : Nat :=
  let body := imgField l 0x10 4
  let bank := imgField l 0x18 1
  let size := 0x100 + body + 3312
  let res := (sliceBytes l 0x19 231).all (fun b => b == 0)
  let hdr := imgField l 0 4 == 0x57465A45 && imgField l 4 2 == 1 && imgField l 6 2 == 0x0E08 && body % 8 == 0 && res &&
    (if lv then decide (body ≤ 0x40000) else decide (bank + (size + 0x3FFFF) / 0x40000 ≤ 192))
  if !hdr then 0x84
  else match s.keyRef (imgField l 0xC 1) with
    | .missing | .revoked => 0x88
    | .key k =>
      let d := shake256 (sliceBytes l 0 (0x100 + body))
      if !Config.mldsaVerify k (digestBytes d) (if lv then lvStr else fwStr) (sliceBytes l (0x100 + body) 3309) ||
          (sliceBytes l (0x100 + body + 3309) 3).any (fun b => b != 0) then 0x85
      else if imgField l 8 4 < s.fuses.fwsvn then 0x86 else 0

/-- What SEC measures of an image. -/
def measOf (l : List Byte) : Meas :=
  { digest := shake256 (sliceBytes l 0 (0x100 + imgField l 0x10 4)), secver := imgField l 8 4, keyidx := imgField l 0xC 1 }

/-- Firmware is entered (R402 step 8, R511): the image stands in the reservoir, SEC has its measurement, thread 0 is at the entry
point in machine mode. -/
def State.enterFirmware (s : State) (l : List Byte) (pll : Nat) : State :=
  let bank := imgField l 0x18 1
  let (s1, _) := s.memWrite 0x01 (bankAddr bank) (sliceBytes l 0 (0x100 + imgField l 0x10 4 + 3312))
  let s2 := { s1 with sec := { s1.sec with fw := some (measOf l) } }
  let b := (s2.runBank 0).getD 0
  let s3 := s2.modBank 0 b (fun x => { x.setPc (BitVec.ofNat 64 (bankAddr bank + imgField l 0x14 4)) with priv := 3 })
  ((s3.modPmu (fun p => { p with fwIn := true, recov := false, area := [] })).bootstat 0 8 0x0A).setReg
    (pmuPage 1 + pmuPllstat) (BitVec.ofNat 32 pll)

/-- The boot ROM waits in recovery (step 7). -/
def State.toRecovery (s : State) : State :=
  (s.modPmu (fun p => { p with recov := true, area := [] })).bootstat 0 8 8

/-- The failure code of one copy, 0 when it boots. -/
def State.copyCode (s : State) : BootRead → Nat
  | .fail c => c.toNat
  | .image l => s.imageCode l false

/-- MEDn_IFCFG that the boot ROM gives the boot channel for PMU_STRAP.bootif: its mode, at the mode's lowest rate (R193, R402). -/
def bootIf (bootif : Nat) : Nat :=
  if bootif = 0 then 1 + 2 ^ 4 * 800 else if bootif = 1 then 2 + 2 ^ 4 * 1600 else if bootif = 2 then 3 + 2 ^ 4 * 800 else 0 + 2 ^ 4 * 10

/-- The boot flow sends RESET to every target before any other command (R216). -/
def State.bootReset (s : State) : State :=
  (List.range 32).foldl (fun u m => u.modMed m (fun x => { x with
    cyc := (List.range 8).flatMap (fun ce => [FlashCyc.sel ce, FlashCyc.cmd 0xFF]) })) s

/-- What the boot ROM drives to CE 0 in SDR: RESET, READ ID and READ PARAMETER PAGE (R194, R402), the latter two by the ROM program set;
PRESUMED: with ONFI's bytes. -/
def bootCycles : List FlashCyc := [.sel 0, .cmd 0xFF, .cmd 0x90, .addr [0], .cmd 0xEC, .addr [0]]

/-- Step 3 of R402 for a channel, of whose flash `o` tells what it answers: it is enabled; a target that answers and whose parameter page
is good gets the interface that the strap names and is trained, with free codes, and passes unless training fails (R194, R196). -/
def State.bootChannel (s : State) (m : Nat) (o : BootRead) : State :=
  let s1 := (s.modReg (medPage m + Machine.medCtrl) (fun w => setBit w 0)).modMed m (fun x => { x with cyc := bootCycles })
  if o = .fail 0x81 ∨ o = .fail 0x82 then s1
  else
    let s2 := (s1.setReg (medPage m + medIfcfg) (BitVec.ofNat 32 (bootIf (fld (s.reg (pmuPage 0 + pmuStrap)) 8 2)))).trainDrive m [0]
    let (c, s3) := s2.freeNat (2 ^ 24)
    (s3.trained m 0 (BitVec.ofNat 32 (c + 2 ^ 24 * b2n (decide (o ≠ .fail 0x89))))).raise (medPage m) 3

/-- MGD counts the guard pages that the boot ROM reads through it: those of the image, or as many as a free value says before one that
is uncorrectable; the corrected bits are free (R220, R223). -/
def State.bootPages (s : State) : BootRead → State
  | .image l =>
    let (c, s1) := s.freeNat (2 ^ 16)
    (s1.setReg (page .mgd 0 + mgdCorr) (BitVec.ofNat 32 c)).countUp (page .mgd 0 + mgdCnt) 0 16 ((l.length + 16383) / 16384)
  | .fail code =>
    if code = 0x83 then
      let (n, s1) := s.freeNat (2 ^ 16)
      let (c, s2) := s1.freeNat (2 ^ 32)
      ((s2.setReg (page .mgd 0 + mgdCorr) (BitVec.ofNat 32 c)).countUp (page .mgd 0 + mgdCnt) 0 16 n).countUp (page .mgd 0 + mgdCnt) 16 16 1
    else s

/-- Training of the eight DRAM channels ends: each has passed with its link ECC on, at delays and a duty code that the spec leaves to
the devices (R284, R293). -/
def State.drcTrain (s : State) : State :=
  { s with fresh := s.fresh + 8, drc := { s.drc with trained := 0xFF, trn := s.fresh } }

/-- What the boot ROM does before it reads an image: DRAM training, the RESET of every media target, the host link enabled (R402, R216). -/
def State.bootStart (s : State) : State :=
  let s0 := s.drcTrain.bootReset
  { s0 with hif := { s.hif with en := true, link := if s.hif.perst then s.hif.link else .training } }

/-- BOOT_ROM: the steps of R402 from reset release, with what the flash answers for each copy. Thread 0 runs it. -/
def bootRom (o : BootOutcome) (s : State) : State :=
  if s.runBank 0 ≠ some 0 ∨ s.pmu.mode ≠ .boot ∨ s.pmu.fwIn = true ∨ s.pmu.recov = true ∨ s.rsvr.wipe = true then s
  else
    let strap := s.reg (pmuPage 0 + pmuStrap)
    if s.lcState = 5 then s.bootstat 0 8 0x87
    else if s.lcState = 0 then s.toRecovery
    else if 4 ≤ fld strap 10 3 then s.bootstat 0 8 0x89
    else
      let ch := fld strap 3 5
      let s1 := s.bootStart.bootChannel ch o.a
      let pll := 7 + 2 ^ 5 + 2 ^ 6 * b2n (fld strap 8 2 != 3)
      let a := s1.copyCode o.a
      match a, o.a with
      | 0, .image l => (s1.bootPages o.a).enterFirmware l pll
      | _, _ =>
        let s2 := (((s1.bootPages o.a).bootstat 8 8 a).bootChannel ((ch + 1) % 32) o.b).bootPages o.b
        let b := s2.copyCode o.b
        match b, o.b with
        | 0, .image l => (s2.enterFirmware l pll).bootstat 24 1 1
        | _, _ =>
          let s3 := s2.bootstat 16 8 b
          if bit strap 2 then s3.toRecovery
          else (s3.bootstat 0 8 b).modPmu (fun p => { p with trans := some .hold })

/-! ### Recovery (R404) -/

/-- The ROM acts on mailbox command `cmd` while it waits in recovery and the host has rung SYS_HOSTDB bit 0; SYS_MBOX0 then reads
0. A command other than 0x1 and 0x2 is ignored and answered the same way. -/
def State.mboxServe (s : State) (cmd : Nat) (f : State → State) : State :=
  let c := (s.reg (sysPage + sysMbox)).toNat
  if s.pmu.recov && s.pmu.mode == .boot && (s.runBank 0).isSome && bit (s.reg (sysPage + hEvtRaw)) 0 then
    if c = cmd then (f s).setReg (sysPage + sysMbox) 0
    else if c = 1 ∨ c = 2 then s
    else s.setReg (sysPage + sysMbox) 0
  else s

/-- RECOVERY_CHUNK: command 0x1 copies the 64 bytes of SYS_MBOX16 to 31 to the offset in SYS_MBOX1. -/
def recoveryChunk (s : State) : State :=
  s.mboxServe 1 (fun u =>
    let base := (u.reg (sysPage + sysMbox + 4)).toNat
    u.modPmu (fun p => { p with area := (List.range 64).foldl (fun t i =>
      tset 0 t (base + i) (BitVec.ofNat 8 (fld (u.reg (sysPage + sysMbox + 4 * (16 + i / 4))) (8 * (i % 4)) 8))) p.area }))

/-- The bytes of the load area, up to the length that the image's header names. -/
def State.areaImage (s : State) : List Byte :=
  let g := fun i => tget 0 s.pmu.area i
  let body := ofBytes ((List.range 4).map (fun i => g (0x10 + i)))
  (List.range (if body ≤ 192 * 0x40000 then 0x100 + body + 3312 else 0x100)).map g

/-- RECOVERY_END: command 0x2 ends the transfer: the image is authenticated and entered, or the ROM waits again. -/
def recoveryEnd (s : State) : State :=
  s.mboxServe 2 (fun u =>
    let l := u.areaImage
    if u.imageCode l false = 0 then
      let pll := if u.lcState = 0 then 7 else 7 + 2 ^ 5 + 2 ^ 6 * b2n (fld (u.reg (pmuPage 0 + pmuStrap)) 8 2 != 3)
      (u.enterFirmware l pll).bootstat 24 1 1
    else u.toRecovery)

/-! ### The commands -/

/-- MODE_TRANSITION_DONE (R374). A mode transition reaches its last step and PMU_STAT.mode changes. -/
def execModeTransitionDone (us : BitVec 24) (s : State) : Out :=
  .next (s.gate (modeTransitionEnd us s))

/-- AON_POWER_UP (R374). VDD_AON rises into range and the part enters HOLD. -/
def execAonPowerUp (s : State) : Out :=
  .next (s.gateAon (aonPowerUp s))

/-- AON_POWER_LOSS (R374). VDD_AON leaves its range and the part falls to OFF. -/
def execAonPowerLoss (s : State) : Out :=
  .next (s.gateAon (aonPowerLoss s))

/-- WAKE (R374). An enabled wake source in HOLD starts BOOT. -/
def execWake (src : WakeSrc) (s : State) : Out :=
  .next (s.gateAon (wakeUp src s))

/-- PG_MAIN_RISE (R384). The board drives PG_MAIN high once the main rails are in range, and the PMU leaves HOLD for BOOT 150 µs later. -/
def execPgMainRise (s : State) : Out :=
  .next (s.gateAon (pgMainRise s))

/-- DRAIN_POWER_OFF (R386). 100 µs after step 4 PWREN_MAIN falls and the mode becomes HOLD. -/
def execDrainPowerOff (s : State) : Out :=
  .next (s.gate (drainPowerOff s))

/-- COLD_RESET (R396). A cold reset resets every block except AON, wipes memories and ends in BOOT. -/
def execColdReset (straps : BitVec 16) (fuses : FuseRead) (s : State) : Out :=
  .next (s.gateAon (coldResetCmd straps fuses s))

/-- SYSRST (R394). SYSRST_N held low for 1 µs requests a cold reset. -/
def execSysrst (s : State) : Out :=
  .next (s.gate (sysrst s))

/-- COLD_RESET_REQUEST (R394). A levee write of PMU_RSTREQ.cold requests a cold reset. -/
def execColdResetRequest (ini : Ini) (val : Word) (s : State) : Out :=
  .next (s.gate (rstreqWrite ini val s))

/-- WARM_RESET_REQUEST (R400). A write of PMU_RSTREQ.warm or a watchdog starts a warm reset sequence. -/
def execWarmResetRequest (ini : Ini) (val : Word) (s : State) : Out :=
  .next (s.gate (rstreqWrite ini val s))

/-- WARM_RESET_DEFERRAL (R216). On a warm reset the channels stop and MGD starts polling live ISSUED entries. -/
def execWarmResetDeferral (s : State) : Out :=
  .next (s.gate (warmResetDeferral s))

/-- WARM_RESET_ASSERT (R400). After deferral and core write-back, reset asserts and releases into BOOT. -/
def execWarmResetAssert (s : State) : Out :=
  .next (s.gate (warmResetAssert s))

/-- FABRIC_REGION_RESET (R398). A PMU_FRGRST bit resets a region at its next edge without bind-off. -/
def execFabricRegionReset (ini : Ini) (val : Word) (s : State) : Out :=
  .next (s.gate (fabricRegionReset ini val s))

/-- CORE_RESET (R399). A PMU_CORERST bit stops a core, writes back its L2 and cancels its threads. -/
def execCoreReset (ini : Ini) (val : Word) (s : State) : Out :=
  .next (s.gate (coreResetCmd ini val s))

/-- BOOT_ROM (R402). The boot ROM reads, authenticates and enters firmware. -/
def execBootRom (outcome : BootOutcome) (s : State) : Out :=
  .next (s.gate (bootRom outcome s))

/-- RECOVERY_CHUNK (R404). Recovery mailbox command 0x1 copies a chunk to the load area. -/
def execRecoveryChunk (s : State) : Out :=
  .next (s.gate (recoveryChunk s))

/-- RECOVERY_END (R404). Recovery mailbox command 0x2 ends the transfer and authenticates the image. -/
def execRecoveryEnd (s : State) : Out :=
  .next (s.gate (recoveryEnd s))

end Sys2Proof.Machine
end

