-- ==== Sys2Proof/Machine/Sec.lean ====
section
/-!
DEFINITION. The levee safety partition, life cycle, keys, tamper and attestation (chapter 18).
-/
namespace Sys2Proof.Machine

def State.modLve (s : State) (f : Lve → Lve) : State := { s with lve := f s.lve }
def State.modSec (s : State) (f : Sec → Sec) : State := { s with sec := f s.sec }

/-! ### Fault responses (R408 to R417) -/

/-- LVE_LASTFLT takes the cause of the first response since it was cleared (R417). -/
def State.lastFault (s : State) (cause core : Nat) : State :=
  if fld (s.reg (lvePg + lveLastflt)) 0 4 = 0 then s.setReg (lvePg + lveLastflt) (BitVec.ofNat 32 (cause + 2 ^ 4 * core)) else s

/-- A write of LVE_LASTFLT: zero clears it. -/
def lastfltWrite (ini : Ini) (val : Word) (s : State) : State :=
  s.regGuard ini (lvePg + lveLastflt) (fun u => if val = 0 then u.setReg (lvePg + lveLastflt) 0 else u)

/-- A lockstep mismatch, levee SRAM error or self-watchdog expiry: write-inhibit on every channel at once (R418). -/
def State.lockstepFault (s : State) (cause : Nat) : State := (s.modLve (fun x => { x with lockstep := true })).lastFault cause 0

def lockstepMismatch (s : State) : State := s.lockstepFault 1
def leveeSramError (s : State) : State := s.lockstepFault 7
def selfWatchdog (s : State) : State := s.lockstepFault 2

/-- LOCKSTEP_COLD_RESET: the hardware writes PMU_RSTREQ.cold on the levee's behalf (R416). -/
def lockstepColdReset (s : State) : State := if s.lve.lockstep then s.requestCold 4 else s

/-- A write of LVE_SELFKICK restarts the self-watchdog, whose time the model does not count. -/
def selfkickWrite (ini : Ini) (val : Word) (s : State) : State := s.regWrite ini (lvePg + lveSelfkick) val (fun _ u => u)

/-- The watchdog of core `c` runs: enabled, and the core has an ACTIVE bank (R411). -/
def State.wdRuns (s : State) (c : Nat) : Bool := bit (s.reg (lvePg + lveWdcfg)) c && (s.core c).active.isSome

def watchdogFirst (c : Nat) (s : State) : State :=
  if s.wdRuns c && !bit s.lve.wd1 c then
    ((s.modLve (fun x => { x with wd1 := setBit x.wd1 c })).modReg (lvePg + lveWdstat) (fun w => setBit w c)).raise lvePg 0
  else s

/-- WATCHDOG_SECOND: a core reset, or a warm reset of cause 0x7, as LVE_WDCFG.act selects. -/
def watchdogSecond (c : Nat) (s : State) : State :=
  if s.wdRuns c && bit s.lve.wd1 c then
    let s1 := (s.lastFault 3 c).wdRestart c
    if bit (s.reg (lvePg + lveWdcfg)) 5 then s1.requestWarm 7
    else if s.resetting || s.pmu.mode == .drain then s1 else s1.coreReset c
  else s

/-- What the HTS watchdog times (R412): an occurrence at the event queue's input, or a READY thread that could run on an idle core
with no dispatch decided. -/
def State.htsStuck (s : State) : Bool :=
  s.hts.ports.any (fun p => !p.2.isEmpty) ||
  (List.range 4).any (fun c => (s.runBank c).isNone && bit (s.reg (ccxPage c + ccxCtrl)) 0 && (tget none s.hts.link c).isNone &&
    (s.candidate c).isSome)

def htsWatchdog (s : State) : State :=
  if bit (s.reg (lvePg + lveWdcfg)) 4 && s.htsStuck then ((s.lastFault 4 0).raise lvePg 1).requestWarm 7 else s

/-- A DRAIN request of the levee (R416). -/
def State.requestDrain (s : State) : State := s.modPmu (fun p => { p with drainReq := p.mode != .drain || p.drainReq })

/-- A voltage fault's DRAIN request that has not begun DRAIN gives LVE_LASTFLT up to a thermal trip, whose code is lower (R432). -/
def State.lowerCause (s : State) : State :=
  if s.pmu.drainReq && fld (s.reg (lvePg + lveLastflt)) 0 4 == 6 then s.setReg (lvePg + lveLastflt) 0 else s

/-- THERMAL_TRIP: three samples of PMU_TEMPMAX.temp at or above LVE_TRIP.temp (R414). -/
def thermalTrip (s : State) : State :=
  let t := s.reg (lvePg + lveTrip)
  if bit t 8 && decide ((fld t 0 8 : Int) ≤ s.dieTemp) then ((s.lowerCause.lastFault 5 0).raise lvePg 2).requestDrain else s

/-- VOLTAGE_FAULT: a rail outside its target by more than the window (R415). -/
def voltageFault (mv : BitVec 16) (rail : Bool) (s : State) : State :=
  let v := s.reg (lvePg + lveVmon)
  if bit v 0 && s.railOut rail mv.toNat (fld v 8 8) then ((s.lastFault 6 0).raise lvePg 3).requestDrain else s

/-- A write of LVE_CTRL: drain makes a DRAIN request, tdrain is stored. -/
def lveCtrlWrite (ini : Ini) (val : Word) (s : State) : State :=
  s.regWrite ini (lvePg + lveCtrl) val (fun v u => if bit v 0 then u.requestDrain else u)

/-- A write of LVE_ALOGCTL: pop removes the oldest entry (R409). -/
def alogPop (ini : Ini) (val : Word) (s : State) : State :=
  s.regWrite ini (lvePg + lveAlogctl) val (fun v u =>
    if bit v 0 then u.modLve (fun x => { x with alog := x.alog.tail }) else u)

/-- LVE_WINHSTAT, LVE_ALOG0 and LVE_ALOG1. -/
def State.alog0Word (s : State) : Word :=
  match s.lve.alog with
  | e :: _ => BitVec.ofNat 32 (e.type + 2 ^ 16 * e.inst + 2 ^ 24 * e.ini.toNat)
  | [] => 0
def State.alog1Word (s : State) : Word :=
  match s.lve.alog with
  | e :: _ => BitVec.ofNat 32 (e.off + 2 ^ 16 * s.lve.alog.length + 2 ^ 31)
  | [] => 0

/-! ### SEC commands (R424 to R428, R434) -/

/-- A command ends: SEC_RES, and done or fail; of several codes that apply the lowest is reported. -/
def State.secEnd (s : State) (op code : Nat) : State :=
  let s1 := (s.setReg (secPage + secRes) (BitVec.ofNat 32 (code + 2 ^ 8 * op))).raise secPage 0
  if code = 0 then s1 else s1.raise secPage 1

/-- SEC_ARG. -/
def State.secArg64 (s : State) : Nat := s.reg64 (secPage + secArg) % 2 ^ 48
def State.secArgVal (s : State) : Nat := fld (s.reg (secPage + secArg)) 0 8

/-- SEC reads `n` bytes at SEC_ARG, from the reservoir's plain range or the DRAM: none for any status other than OK. -/
def State.secRead (s : State) (off n : Nat) : State × Option (List Byte) :=
  let a := s.secArg64 + off
  let own := match s.target a with
    | .reservoir _ v => v == 0
    | .dram _ => true
    | _ => false
  if !own then (s, none) else
  match s.memRead 0x34 a n with
  | (u, .ok, l) => (u, some l)
  | (u, _, _) => (u, none)

/-- SEC_NONCE as a number. -/
def State.nonceNat (s : State) : Nat := ofWords ((List.range 8).map (fun i => s.reg (secPage + secNonce + 4 * i)))

/-- ASCII "EZAUTH", "EZDEBUG", "EZMEDIA-KEK". -/
def authStr : List Byte := ascii [0x45, 0x5A, 0x41, 0x55, 0x54, 0x48]
def debugStr : List Byte := ascii [0x45, 0x5A, 0x44, 0x45, 0x42, 0x55, 0x47]
def kekStr : List Byte := ascii [0x45, 0x5A, 0x4D, 0x45, 0x44, 0x49, 0x41, 0x2D, 0x4B, 0x45, 0x4B]

/-- The codes that a record earns by its form, key, signature, nonce and die identifier (R426, R427); `klen` bytes of key follow
the header. -/
def State.recordCodes (s : State) (l : List Byte) (op klen : Nat) : List Nat :=
  let token := op == 5
  let dur := imgField l 0x30 4
  let ok := imgField l 0 4 == (if token then 0x54445A45 else 0x52415A45) && imgField l 4 1 == op &&
    (if token then decide (1 ≤ dur) && decide (dur ≤ 86400) else dur == 0)
  let sig := match s.keyRef (imgField l 5 1) with
    | .missing => [5]
    | .revoked => [6]
    | .key k =>
      let d := shake256 (sliceBytes l 0 (64 + klen))
      if Config.mldsaVerify k (digestBytes d) (if token then debugStr else authStr) (sliceBytes l (64 + klen) 3309) then [] else [4]
  (if ok then [] else [3]) ++ sig ++
  (if s.sec.nonce && imgField l 0x10 32 == s.nonceNat then [] else [7]) ++
  (if imgField l 8 8 == Config.dieId.toNat then [] else [8])

/-- A command that an authorisation record permits: it consumes the nonce whatever its result (R427). -/
def State.secAuth (s : State) (op klen : Nat) (codes : State → List Byte → List Nat) (act : State → List Byte → State × Nat) : State :=
  let (s0, o) := s.secRead 0 (64 + klen + 3312)
  let s1 := s0.modSec (fun x => { x with nonce := false })
  match o with
  | none => s1.secEnd op ((leastOf ((if s.sec.nonce then [] else [7]) ++ [0xF])).getD 0xF)
  | some l =>
    match leastOf (s.recordCodes l op klen ++ codes s l) with
    | some c => s1.secEnd op c
    | none => let (s2, c) := act s1 l; s2.secEnd op c

/-- Owner keys enrolled and not revoked, leaving slot `k` out. -/
def State.goodKeys (s : State) (k : Nat) : Nat :=
  ((List.range 4).filter (fun i => i != k && (tget {} s.fuses.keys i).enrolled && !(tget {} s.fuses.keys i).revoked)).length

def State.modKeySlot (s : State) (k : Nat) (f : KeySlot → KeySlot) : State :=
  { s with fuses := { s.fuses with keys := tset {} s.fuses.keys k (f (tget {} s.fuses.keys k)) } }

/-- ENROLL (R424). -/
def State.secEnroll (s : State) : State :=
  s.secAuth 2 1952
    (fun u l =>
      let k := imgField l 6 1
      (if 3 < k then [3] else []) ++
      (if (u.lcState = 1 ∧ k = 0 ∨ u.lcState = 2 ∨ u.lcState = 3) ∧ (tget {} u.fuses.keys k).enrolled = false then [] else [2]))
    (fun u l => (u.modKeySlot (imgField l 6 1) (fun _ => { key := sliceBytes l 64 1952, enrolled := true }), 0))

/-- REVOKE (R424). -/
def State.secRevoke (s : State) : State :=
  s.secAuth 3 0
    (fun u l =>
      let k := imgField l 6 1
      let x := tget {} u.fuses.keys k
      (if 3 < k then [3] else []) ++ (if u.lcState = 2 ∨ u.lcState = 3 then [] else [2]) ++
      (if x.enrolled then [] else [5]) ++ (if x.revoked then [6] else []) ++ (if u.goodKeys k = 0 then [9] else []))
    (fun u l => (u.modKeySlot (imgField l 6 1) (fun x => { x with revoked := true }), 0))

/-- The transitions of R420. -/
def lcAllowed (a b : Nat) : Bool :=
  [(0, 1), (1, 2), (1, 3), (2, 3), (3, 2), (2, 4), (3, 4), (0, 5), (1, 5), (4, 5), (2, 5), (3, 5)].contains (a, b)

/-- The fuses after a transition to `b`: a toggle between DEVELOP and PRODUCTION, else the state word; leaving BLANK burns a blank
identity seed (R420). -/
def State.burn (s : State) (b : Nat) : State :=
  let a := s.lcState
  if (a = 2 ∨ a = 3) ∧ (b = 2 ∨ b = 3) then { s with fuses := { s.fuses with toggles := s.fuses.toggles + 1 } }
  else
    let s1 := { s with fuses := { s.fuses with word := b } }
    if a = 0 ∧ b = 1 ∧ s.fuses.seed = 0 then
      let g := fun i => (Config.free (s1.fresh + i)).toNat * 2 ^ (64 * i)
      { s1 with fresh := s1.fresh + 4, fuses := { s1.fuses with seed := BitVec.ofNat 256 (g 0 + g 1 + g 2 + g 3) } }
    else s1

/-- Steps 3 and 4 of R421: wipes, key slots, session, token, and the cold reset of cause 0x8. -/
def State.lifeCycleWipe (s : State) : State :=
  let s1 := (((s.wipeReservoir).emptyKeySlots).endSession).endToken
  let s2 := { s1 with
    sq := []
    rsvr := { s1.rsvr with swReq := true }
    fab := { s1.fab with tiles := tmap {} (fun _ => true) (fun _ T => { T with mem := [] }) s1.fab.tiles } }
  s2.requestCold 8

/-- LCREQ (R420, R421). Whether the fuses read back is the fuses' own matter: a free choice, with what a failed burn left. -/
def State.secLcreq (s : State) : State :=
  s.secAuth 4 0
    (fun u l =>
      let a := u.lcState
      let b := imgField l 6 1
      let toggle := (a == 2 || a == 3) && (b == 2 || b == 3)
      (if lcAllowed a b && u.pmu.mode != .drain then [] else [2]) ++
      (if a = 1 ∧ (b = 2 ∨ b = 3) ∧ (tget {} u.fuses.keys 0).enrolled = false then [5] else []) ++
      (if toggle && decide (32 ≤ u.fuses.toggles) then [0xC] else []))
    (fun u l =>
      let b := imgField l 6 1
      let u1 := u.modLve (fun x => { x with lifeCycle := true })
      let (bad, u2) := u1.freeNat 2
      let (left, u3) := u2.freeNat 2
      let u4 := if bad = 1 ∧ left = 1 then u3 else u3.burn b
      (u4.lifeCycleWipe.authFall u, if bad = 1 then 0xA else 0))

/-- DBGTOK (R428). -/
def State.secToken (s : State) : State :=
  s.secAuth 5 0
    (fun u _ => (if u.lcState = 5 then [2] else []) ++ (if bit (u.reg (secPage + secTamper)) 0 then [0xD] else []))
    (fun u l =>
      let until_ := u.aon.time.toNat + imgField l 0x30 4 * 2 ^ 15
      (((u.modSec (fun x => { x with dbg := true })).setReg64 (secPage + secDbgexp) until_).setReg (secPage + secDbgperm)
        (BitVec.ofNat 32 (imgField l 6 1 % 4)), 0))

/-- UNWRAP (R425): the key is installed in its slot and kept in the secure banks. -/
def State.secUnwrap (s : State) : State :=
  let (s1, o) := s.secRead 0 80
  match o with
  | none => s1.secEnd 6 (if bit (s.reg (secPage + secTamper)) 0 then 0xD else 0xF)
  | some l =>
    let k := imgField l 0 1
    let kek := bytesOf 32 (kmac256 256 (bytesOf 32 s.kDev.toNat) [] kekStr).toNat
    let bad := decide (63 < k) || (sliceBytes l 1 7).any (fun b => b != 0)
    if bad then s1.secEnd 6 3
    else if bit (s.reg (secPage + secTamper)) 0 then s1.secEnd 6 0xD
    else match kwUnwrap kek (sliceBytes l 8 72) with
      | none => s1.secEnd 6 0xE
      | some key =>
        let v : BitVec 512 := BitVec.ofNat 512 (ofBytes (sliceBytes key 0 64))
        if s1.rsvr.wipe || s1.rsvr.swipe then s1.secEnd 6 0xF
        else
          let s2 := { s1 with
            medc := { s1.medc with keys := tset none s1.medc.keys k (some v) }
            rsvr := { s1.rsvr with keys := tset none s1.rsvr.keys k (some v) } }
          s2.secEnd 6 0

/-- KEYERASE (R425). -/
def State.secKeyErase (s : State) : State :=
  let k := s.secArgVal
  if 63 < k then s.secEnd 7 3
  else ({ s with medc := { s.medc with keys := tset none s.medc.keys k none }, rsvr := { s.rsvr with keys := tset none s.rsvr.keys k none } }).secEnd 7 0

/-- FWSVN: up to the secver of the firmware entered (R424); a change ends the FCC session (R144). -/
def State.secFwAdvance (s : State) : State :=
  let v := s.secArgVal
  let top := match s.sec.fw with
    | some m => m.secver
    | none => 0
  if v < s.fuses.fwsvn ∨ top < v then s.secEnd 8 0xB
  else
    let s1 := { s with fuses := { s.fuses with fwsvn := v } }
    (if v = s.fuses.fwsvn then s1 else s1.endSession).secEnd 8 0

/-- SKSVN: up to the secver of the last skein loaded with code OK (R424). -/
def State.secSkAdvance (s : State) : State :=
  let v := s.secArgVal
  if v < s.fuses.sksvn ∨ s.fcc.okSvn.getD 0 < v then s.secEnd 9 0xB
  else
    let s1 := { s with fuses := { s.fuses with sksvn := v } }
    (if v = s.fuses.sksvn then s1 else s1.endSession).secEnd 9 0

/-- LVLOAD (R410): the image is checked and the ROM enters it. -/
def State.secLvload (s : State) : State :=
  if bit (s.reg (lvePg + lveStat)) 0 then s.secEnd 0xA 2
  else match s.secRead 0 0x100 with
    | (s1, none) => s1.secEnd 0xA 0xF
    | (s1, some h) =>
      match s1.secRead 0 (0x100 + min (imgField h 0x10 4) 0x40000 + 3312) with
      | (s2, none) => s2.secEnd 0xA 0xF
      | (s2, some l) =>
        match s2.imageCode l true with
        | 0 => ((((s2.modLve (fun x => { x with sram := l })).modSec (fun x => { x with lv := some (measOf l) })).modReg (lvePg + lveStat) (fun w => setBit w 0))).secEnd 0xA 0
        | 0x84 => s2.secEnd 0xA 3
        | 0x88 => s2.secEnd 0xA (if s2.keyRef (imgField l 0xC 1) = .revoked then 6 else 5)
        | 0x85 => s2.secEnd 0xA 4
        | _ => s2.secEnd 0xA 0xB

/-- CERT (R430): the chain of slot 0; its own first two bytes are its length. A leaf key other than SEC_IDPUB is refused. -/
def State.secCert (s : State) : State :=
  match s.secRead 0 4 with
  | (s1, none) => s1.secEnd 0xB 0xF
  | (s1, some h) =>
    match s1.secRead 0 (imgField h 0 2) with
    | (s2, none) => s2.secEnd 0xB 0xF
    | (s2, some l) =>
      if Config.leafKey l = Config.mldsaPub s.identSeed then (s2.modSec (fun x => { x with cert := l })).secEnd 0xB 0
      else s2.secEnd 0xB 3

/-- NONCE (R427): 32 fresh bytes from SEC's entropy source. -/
def State.secNonceLoad (s : State) (v : BitVec 256) : State :=
  (((List.range 8).foldl (fun u i => u.setReg (secPage + secNonce + 4 * i) (BitVec.ofNat 32 (fld v (32 * i) 32))) s).modSec
    (fun x => { x with nonce := true })).secEnd 1 0

/-- The command that a write of SEC_CMD with go names; an op of no command is refused as a format error. `ent` is what the entropy
source gives. -/
def State.secOp (s : State) (op : Nat) (ent : Option (BitVec 256)) : State :=
  match op with
  | 1 =>
    match ent with
    | some v => s.secNonceLoad v
    | none =>
      let g := fun i => (Config.free (s.fresh + i)).toNat * 2 ^ (64 * i)
      ({ s with fresh := s.fresh + 4 }).secNonceLoad (BitVec.ofNat 256 (g 0 + g 1 + g 2 + g 3))
  | 2 => s.secEnroll
  | 3 => s.secRevoke
  | 4 => s.secLcreq
  | 5 => s.secToken
  | 6 => s.secUnwrap
  | 7 => s.secKeyErase
  | 8 => s.secFwAdvance
  | 9 => s.secSkAdvance
  | 10 => s.secLvload
  | 11 => s.secCert
  | _ => s.secEnd op 3

/-- A write of SEC_CMD. -/
def secCmdWrite (ini : Ini) (val : Word) (ent : Option (BitVec 256)) (s : State) : State :=
  s.regWrite ini (secPage + Machine.secCmd) val (fun v u => if bit v 31 then u.secOp (fld v 0 4) ent else u)

/-- The write of SEC_CMD that starts op `op`. -/
def secOpWrite (op : Nat) (ini : Ini) (s : State) : State := secCmdWrite ini (BitVec.ofNat 32 (op + 2 ^ 31)) none s
def secNonce256 (ini : Ini) (fresh : BitVec 256) (s : State) : State := secCmdWrite ini (BitVec.ofNat 32 (1 + 2 ^ 31)) (some fresh) s

/-- SEC_STAT, SEC_KEYSTAT and SEC_IDPUB. -/
def State.secStatWord (s : State) : Word :=
  BitVec.ofNat 32 (s.lcState + 2 ^ 3 * b2n (bit (s.reg (secPage + secTamper)) 0) + 2 ^ 4 * b2n s.sec.dbg + 2 ^ 5 * s.fuses.toggles)
def State.secKeystatWord (s : State) : Word :=
  BitVec.ofNat 32 (((List.range 4).map (fun k => 2 ^ k * b2n (tget {} s.fuses.keys k).enrolled +
    2 ^ (4 + k) * b2n (tget {} s.fuses.keys k).revoked)).sum)
def State.idpubWord (s : State) (i : Nat) : Word := BitVec.ofNat 32 (imgField (Config.mldsaPub s.identSeed) (4 * i) 4)

/-! ### Tamper (R429) -/

/-- TAMPER_EVENT: the mesh has opened: the latch is set, the secrets go, sessions and tokens end. In HOLD only the latch is
set. -/
def tamperEvent (s : State) : State :=
  if s.aon.mesh then
    let s1 := ((s.modAon (fun a => { a with mesh := false })).modReg (secPage + secTamper) (fun w => setBit w 0)).countUp
      (secPage + secTamper) 8 8 1
    if s.powered then
      let s2 := ((({ s1 with rsvr := { s1.rsvr with swReq := true } }).emptyKeySlots).endSession).endToken
      let s3 := (s2.authFall s).raise lvePg 7
      if bit (s.reg (lvePg + lveCtrl)) 1 then s3.requestDrain else s3
    else s1
  else s

/-- TAMPER_CLEAR: a levee write of 1, ignored while the mesh is open. -/
def tamperClear (ini : Ini) (val : Word) (s : State) : State :=
  s.regGuard ini (secPage + secTamper) (fun u =>
    if bit val 0 && !u.cmpOut 3 then u.modReg (secPage + secTamper) (fun w => clrBit w 0) else u)

/-! ### Attestation (R430, R431) -/

/-- Measurements 1 to 6 as raw bit streams (R431). -/
def measBytes (m : Option Meas) : List Byte :=
  match m with
  | some x => digestBytes x.digest ++ bytesOf 4 x.secver ++ bytesOf 1 x.keyidx
  | none => []
def State.measurement (s : State) (i : Nat) : List Byte :=
  match i with
  | 1 => Config.romVersions ++ bytesOf 2 Config.silRev.toNat
  | 2 => measBytes s.sec.fw
  | 3 => measBytes s.sec.lv
  | 4 => bytesOf 1 s.lcState ++ bytesOf 1 s.fuses.toggles ++ bytesOf 4 s.secKeystatWord.toNat ++ bytesOf 1 s.fuses.fwsvn ++
      bytesOf 1 s.fuses.sksvn ++ bytesOf 1 (b2n s.sec.dbg) ++ bytesOf 1 (s.reg (secPage + secDbgperm)).toNat ++
      bytesOf 4 (s.reg (secPage + secTamper)).toNat
  | 5 => digestBytes s.sec.chain
  | 6 => bytesOf 4 (s.reg (scrPg + fccInteg)).toNat ++ bytesOf 4 (s.reg (fccPg + fccLdone)).toNat ++
      (List.range 24).flatMap (fun r => bytesOf 1 (s.rgn r).loaded.toNat)
  | _ => []

/-- What SEC answers from: identity seed, certificate chain, measurements, entropy. -/
def State.spdmBasis (s : State) : List Byte :=
  bytesOf 32 s.identSeed.toNat ++ s.sec.cert ++ (List.range 6).flatMap (fun i => s.measurement (i + 1)) ++ bytesOf 8 s.fresh

/-- The response: version 1.3 (1.0 for VERSION), the response code, no parameters, then the fields of DSP0274. -/
def State.spdmAnswer (s : State) (req code : Nat) (msg : List Byte) : State :=
  let head := bytesOf 1 (if req = 0x84 then 0x10 else 0x13) ++ bytesOf 1 code ++ bytesOf 2 0
  let body := if req = 0x84 then bytesOf 2 0x100 ++ bytesOf 2 0x1300 else Config.spdmBody req msg s.spdmBasis
  ({ s with fresh := s.fresh + 1 }).modSec (fun x => { x with spdm := { x.spdm with resp := head ++ body } })

/-- An ERROR response: 1 InvalidRequest, 4 UnexpectedRequest. -/
def State.spdmError (s : State) (e : Nat) : State :=
  s.modSec (fun x => { x with spdm := { x.spdm with resp := bytesOf 4 (0x13 + 2 ^ 8 * 0x7F + 2 ^ 16 * e) } })

/-- A request with code `req`: one that does not stand in the message is invalid, one that comes too early unexpected; else SEC
answers and the negotiation or session moves on. -/
def spdmRequest (req code : Nat) (ok : Spdm → Bool) (f : Nat → Spdm → Spdm) (msg : List Byte) (s : State) : State :=
  if msg.length < 4 ∨ 4096 < msg.length ∨ (msg.getD 1 0).toNat ≠ req then s.spdmError 1
  else if !ok s.sec.spdm then s.spdmError 4
  else
    let (sid, s1) := s.freeNat (2 ^ 32)
    (s1.spdmAnswer req code msg).modSec (fun x => { x with spdm := f sid x.spdm })

def spdmVersion := spdmRequest 0x84 0x04 (fun _ => true) (fun _ x => { x with phase := 1, session := 0 })
def spdmCapabilities := spdmRequest 0xE1 0x61 (fun x => x.phase == 1) (fun _ x => { x with phase := 2 })
def spdmAlgorithms := spdmRequest 0xE3 0x63 (fun x => x.phase == 2) (fun _ x => { x with phase := 3 })
def spdmDigests := spdmRequest 0x81 0x01 (fun x => x.phase == 3) (fun _ x => x)
def spdmCertificate := spdmRequest 0x82 0x02 (fun x => x.phase == 3) (fun _ x => x)
def spdmChallenge := spdmRequest 0x83 0x03 (fun x => x.phase == 3) (fun _ x => x)
def spdmMeasurements := spdmRequest 0xE0 0x60 (fun x => x.phase == 3) (fun _ x => x)
def spdmKeyExchange := spdmRequest 0xE4 0x64 (fun x => x.phase == 3) (fun sid x => { x with session := 1, sid := sid })
def spdmFinish := spdmRequest 0xE5 0x65 (fun x => x.session == 1) (fun _ x => { x with session := 2 })
def spdmHeartbeat := spdmRequest 0xE8 0x68 (fun x => x.session == 2) (fun _ x => x)
def spdmKeyUpdate := spdmRequest 0xE9 0x69 (fun x => x.session == 2) (fun _ x => x)
def spdmEndSession := spdmRequest 0xEC 0x6C (fun x => x.session == 2) (fun _ x => { x with session := 0 })

/-! ### The commands -/

/-- LOCKSTEP_MISMATCH (R408). The levee comparator detects a divergence and write-inhibit asserts at once. -/
def execLockstepMismatch (s : State) : Out :=
  .next (s.gate (lockstepMismatch s))

/-- LOCKSTEP_COLD_RESET (R416). 2 µs after a lockstep fault the hardware requests a cold reset. -/
def execLockstepColdReset (s : State) : Out :=
  .next (s.gate (lockstepColdReset s))

/-- SELF_WATCHDOG (R413). The levee self-watchdog expires and acts as a lockstep mismatch. -/
def execSelfWatchdog (s : State) : Out :=
  .next (s.gate (selfWatchdog s))

/-- SELFKICK (R413). A write to LVE_SELFKICK restarts the self-watchdog. -/
def execSelfkick (ini : Ini) (val : Word) (s : State) : Out :=
  .next (s.gate (selfkickWrite ini val s))

/-- WATCHDOG_FIRST (R411). A core watchdog first expires and sets LVE_WDSTAT. -/
def execWatchdogFirst (c : Core) (s : State) : Out :=
  .next (s.gate (watchdogFirst c.val s))

/-- WATCHDOG_SECOND (R411). A core watchdog second expiry requests a core or warm reset. -/
def execWatchdogSecond (c : Core) (s : State) : Out :=
  .next (s.gate (watchdogSecond c.val s))

/-- HTS_WATCHDOG (R412). The HTS watchdog expires and requests a warm reset. -/
def execHtsWatchdog (s : State) : Out :=
  .next (s.gate (htsWatchdog s))

/-- THERMAL_TRIP (R414). Three samples at or above the trip threshold make a DRAIN request. -/
def execThermalTrip (s : State) : Out :=
  .next (s.gate (thermalTrip s))

/-- VOLTAGE_FAULT (R415). A rail outside its window for 10 comparisons makes a DRAIN request. -/
def execVoltageFault (mv : BitVec 16) (rail : Bool) (s : State) : Out :=
  .next (s.gate (voltageFault mv rail s))

/-- LEVEE_SRAM_ERROR (R408). An uncorrectable error in the levee's private SRAM asserts write-inhibit on every channel and leads to a cold reset, recorded as cause 0x7. -/
def execLeveeSramError (s : State) : Out :=
  .next (s.gate (leveeSramError s))

/-- LEVEE_DRAIN_REQUEST (R416). A write of LVE_CTRL.drain makes a DRAIN request. -/
def execLeveeDrainRequest (ini : Ini) (val : Word) (s : State) : Out :=
  .next (s.gate (lveCtrlWrite ini val s))

/-- ALOG_POP (R409). A write of LVE_ALOGCTL.pop removes the oldest access-log entry. -/
def execAlogPop (ini : Ini) (val : Word) (s : State) : Out :=
  .next (s.gate (alogPop ini val s))

/-- NONCE (R427). SEC op NONCE loads a fresh 32-byte nonce. -/
def execNonce (ini : Ini) (fresh : BitVec 256) (s : State) : Out :=
  .next (s.gate (secNonce256 ini fresh s))

/-- ENROLL (R424). SEC op ENROLL enrols an owner key under an authorisation record. -/
def execEnroll (ini : Ini) (s : State) : Out :=
  .next (s.gate (secOpWrite 2 ini s))

/-- REVOKE (R424). SEC op REVOKE revokes an owner key slot. -/
def execRevoke (ini : Ini) (s : State) : Out :=
  .next (s.gate (secOpWrite 3 ini s))

/-- LCREQ (R421). SEC op LCREQ runs an authorised life-cycle transition ending in a cold reset. -/
def execLcreq (ini : Ini) (s : State) : Out :=
  .next (s.gate (secOpWrite 4 ini s))

/-- DBGTOK (R428). SEC op DBGTOK accepts a debug token and sets its expiry. -/
def execDbgtok (ini : Ini) (s : State) : Out :=
  .next (s.gate (secOpWrite 5 ini s))

/-- UNWRAP (R425). SEC op UNWRAP unwraps a media key blob and installs it. -/
def execUnwrap (ini : Ini) (s : State) : Out :=
  .next (s.gate (secOpWrite 6 ini s))

/-- KEYERASE (R425). SEC op KEYERASE empties a key slot and its secure copy. -/
def execKeyerase (ini : Ini) (s : State) : Out :=
  .next (s.gate (secOpWrite 7 ini s))

/-- FWSVN (R424). SEC op FWSVN advances the firmware rollback counter. -/
def execFwsvn (ini : Ini) (s : State) : Out :=
  .next (s.gate (secOpWrite 8 ini s))

/-- SKSVN (R424). SEC op SKSVN advances the skein rollback counter. -/
def execSksvn (ini : Ini) (s : State) : Out :=
  .next (s.gate (secOpWrite 9 ini s))

/-- LVLOAD (R410). SEC op LVLOAD checks a levee image and the ROM enters it. -/
def execLvload (ini : Ini) (s : State) : Out :=
  .next (s.gate (secOpWrite 10 ini s))

/-- CERT (R430). SEC op CERT installs the certificate chain in slot 0. -/
def execCert (ini : Ini) (s : State) : Out :=
  .next (s.gate (secOpWrite 11 ini s))

/-- TAMPER_EVENT (R429). A tamper event wipes secrets, ends sessions and tokens and sets the latch. -/
def execTamperEvent (s : State) : Out :=
  .next (s.gateAon (tamperEvent s))

/-- TAMPER_CLEAR (R429). A levee write of 1 to SEC_TAMPER.tamper clears the latch unless the mesh is open. -/
def execTamperClear (ini : Ini) (val : Word) (s : State) : Out :=
  .next (s.gate (tamperClear ini val s))

/-- GET_VERSION (R430). SEC answers an SPDM GET_VERSION request. -/
def execGetVersion (msg : List Byte) (s : State) : Out :=
  .next (s.gate (spdmVersion msg s))

/-- GET_CAPABILITIES (R430). SEC answers an SPDM GET_CAPABILITIES request. -/
def execGetCapabilities (msg : List Byte) (s : State) : Out :=
  .next (s.gate (spdmCapabilities msg s))

/-- NEGOTIATE_ALGORITHMS (R430). SEC answers an SPDM NEGOTIATE_ALGORITHMS request. -/
def execNegotiateAlgorithms (msg : List Byte) (s : State) : Out :=
  .next (s.gate (spdmAlgorithms msg s))

/-- GET_DIGESTS (R430). SEC answers an SPDM GET_DIGESTS request. -/
def execGetDigests (msg : List Byte) (s : State) : Out :=
  .next (s.gate (spdmDigests msg s))

/-- GET_CERTIFICATE (R430). SEC answers an SPDM GET_CERTIFICATE request. -/
def execGetCertificate (msg : List Byte) (s : State) : Out :=
  .next (s.gate (spdmCertificate msg s))

/-- CHALLENGE (R430). SEC answers an SPDM CHALLENGE with its identity key. -/
def execChallenge (msg : List Byte) (s : State) : Out :=
  .next (s.gate (spdmChallenge msg s))

/-- GET_MEASUREMENTS (R431). SEC answers an SPDM GET_MEASUREMENTS request with its measurements. -/
def execGetMeasurements (msg : List Byte) (s : State) : Out :=
  .next (s.gate (spdmMeasurements msg s))

/-- KEY_EXCHANGE (R430). SEC answers an SPDM KEY_EXCHANGE request. -/
def execKeyExchange (msg : List Byte) (s : State) : Out :=
  .next (s.gate (spdmKeyExchange msg s))

/-- FINISH (R430). SEC answers an SPDM FINISH request. -/
def execFinish (msg : List Byte) (s : State) : Out :=
  .next (s.gate (spdmFinish msg s))

/-- HEARTBEAT (R430). SEC answers an SPDM HEARTBEAT request. -/
def execHeartbeat (msg : List Byte) (s : State) : Out :=
  .next (s.gate (spdmHeartbeat msg s))

/-- KEY_UPDATE (R430). SEC answers an SPDM KEY_UPDATE request. -/
def execKeyUpdate (msg : List Byte) (s : State) : Out :=
  .next (s.gate (spdmKeyUpdate msg s))

/-- END_SESSION (R430). SEC answers an SPDM END_SESSION request. -/
def execEndSession (msg : List Byte) (s : State) : Out :=
  .next (s.gate (spdmEndSession msg s))

end Sys2Proof.Machine
end

