-- ==== Sys2Proof/Machine/Host.lean ====
section
/-!
DEFINITION. The host interface (chapter 19).
-/
namespace Sys2Proof.Machine

def hifPage (p : Nat) : Nat := page .hif p
def State.modHif (s : State) (f : Hif → Hif) : State := { s with hif := f s.hif }

/-! ### Functions and MSI-X (R435, R436) -/

/-- The requester-function code of a vector: 0 PF0, 1 PF1, 2 to 64 VF1 to VF63. -/
def vectorFn (v : Nat) : Nat := if v < 1024 then 0 else (v - 1024) / 16 + 1

/-- A vector is masked, by its entry or its function. -/
def State.masked (s : State) (v : Nat) : Bool := !tget false s.hif.unmasked v || tget false s.hif.fmask (vectorFn v)

/-- Send vector `v`: dropped while the function has MSI-X disabled or is in D3hot, pending while masked. -/
def State.msix (s : State) (v : Nat) : State :=
  let fn := vectorFn v
  if !tget false s.hif.msixEn fn || tget false s.hif.d3 fn then s.countUp (hifPage 0 + hifMsixdrop) 0 32 1
  else if s.masked v then s.modHif (fun x => { x with pba := tset false x.pba v true })
  else s.modHif (fun x => { x with out := { x.out with msi := some v } })

/-- MSIX_SEND: a write of HIF_MSIX. -/
def msixSend (ini : Ini) (val : Word) (s : State) : State :=
  s.regWrite ini (hifPage 0 + hifMsix) val (fun v u => if 2047 < v.toNat then u.raise (hifPage 0) 7 else u.msix v.toNat)

/-- Pending vectors that are no longer masked are sent and their PBA bits clear. -/
def State.pbaFlush (s : State) (p : Nat → Bool) : State :=
  (tkeys (fun v => p v && !s.masked v) s.hif.pba).foldl (fun u v =>
    (u.modHif (fun x => { x with pba := tset false x.pba v false })).msix v) s

/-- MSIX_MASK_CHANGE: the host masks or unmasks an entry, or a function, whose message control it then enables. -/
def msixMaskChange (v : Option Nat) (fn : Nat) (mask : Bool) (s : State) : State :=
  match v with
  | some v => (s.modHif (fun x => { x with unmasked := tset false x.unmasked v !mask })).pbaFlush (fun w => w == v)
  | none => (s.modHif (fun x => { x with fmask := tset false x.fmask fn mask, msixEn := tset false x.msixEn fn true })).pbaFlush
      (fun w => vectorFn w == fn)

/-! ### Outbound requests (R438, R439, R444 to R446) -/

/-- HIF_OWk words. -/
def State.owLo (s : State) (k : Nat) : Word := s.reg (hifPage 1 + hifOwLo + 16 * k)
def State.owGeom (s : State) (k : Nat) : Word := s.reg (hifPage 1 + hifOwGeom + 16 * k)

/-- The enabled window that covers host-range offset `o`. -/
def State.outWindow (s : State) (o : Nat) : Option Nat :=
  (List.range 16).find? (fun k => bit (s.owLo k) 0 && decide (fld (s.owGeom k) 0 16 ≤ o / 2 ^ 30) &&
    decide (o / 2 ^ 30 < fld (s.owGeom k) 0 16 + fld (s.owGeom k) 16 16))

/-- The TDI of a requester function is in ERROR (R453). -/
def State.tdiError (s : State) (fn : Nat) : Bool := decide (1 ≤ fn) && tget 0 s.hif.tdi (fn - 1) == 3

/-- Where an access to the host or the peer range goes: function, address on the host's side, mode and IDE stream; none when it
is not sent. -/
def State.outTarget (s : State) (a : Nat) : Option (Nat × Nat × Nat × Option Nat) :=
  match s.target a with
  | .host o =>
    match s.outWindow o with
    | none => none
    | some k =>
      let lo := s.owLo k
      let fn := fld lo 8 8
      if fld lo 1 2 = 3 ∨ s.tdiError fn = true then none
      else some (fn, s.reg64 (hifPage 1 + hifOwHost + 16 * k) + o - fld (s.owGeom k) 0 16 * 2 ^ 30, fld lo 1 2,
        if bit lo 19 then some (fld lo 16 3) else none)
  | .peer id o =>
    let own := s.reg (hifPage 0 + hifPbrid)
    if bit own 31 ∧ fld own 0 12 = id then none
    else some (0, s.reg64 (hifPage 0 + hifPabase) + id * 2 ^ 34 + o, 1, none)
  | _ => none

/-- The link is up. -/
def State.linkUp (s : State) : Bool := s.hif.link != .down && s.hif.link != .training

/-- An access while the link is in L1 returns it to L0 (R454). -/
def State.wakeLink (s : State) : State := if s.hostL1 then s.modHif (fun x => { x with link := .l0 }) else s

/-- The transaction of the network that an access serves: delivered to HIF, with its address and initiator. -/
def State.outTxn (s : State) (ini : Ini) (a : Nat) (wr : Bool) : Option TxnKey :=
  (s.ocn.txns.find? (fun x => x.stage == .atBlock && x.rsv.addr.toNat == a && x.rsv.src == ini &&
    x.op == (if wr then .write else .read))).map (·.key)

/-- The access is answered: in `ans`, and to the network's transaction that waits for it. -/
def State.outAnswer (s : State) (key : Option TxnKey) (st : Status) (data : List Byte) : State :=
  let s1 := s.answer st (BitVec.ofNat 64 (ofBytes (sliceBytes data 0 8)))
  match key with
  | none => s1
  | some k => s1.blockAnswer k (fun x =>
      let lines := (List.range (x.rsv.nfm1.val + 1)).map (fun i => if st = .ok then lineOfBytes (sliceBytes data (64 * i) 64) else 0)
      { x with
        status := st
        poison := st != .ok
        data := if x.op = .read then lines else x.data
        tsf := if x.op = .read then (List.range (x.rsv.nfm1.val + 1)).map (fun i =>
          wordTsf (i == 0) (i == x.rsv.nfm1.val) 0 0 (statusCode st) (b2n (st != .ok))) else x.tsf })

/-- The first tag that is free. -/
def State.outTag (s : State) : Nat :=
  ((List.range (s.hif.outq.length + 1)).find? (fun t => s.hif.outq.all (fun e => e.tag != t))).getD 0

/-- OUTBOUND_ACCESS: an access to the host or peer range. Posted writes are answered when they are sent; every other request waits
for its completion. -/
def outboundAccess (ini : Ini) (a : Nat) (wr : Bool) (n : Nat) (s : State) : State :=
  let key := s.outTxn ini a wr
  let refuse := s.outAnswer key .slvErr []
  match s.target a with
  | .host _ | .peer _ _ =>
    if !s.linkUp || s.pmu.mode == .drain then refuse
    else match s.outTarget a with
      | none => refuse
      | some (fn, h, mode, ide) =>
        let s1 := s.wakeLink
        let e : OutReq := { tag := s.outTag, ini := ini, ni := nfld a 8 2, fn := fn, addr := h, kind := b2n wr, n := n, mode := mode,
                            ide := ide, key := key }
        let s2 := s1.modHif (fun x => { x with out := { x.out with req := some e } })
        let posted := wr && (mode == 0 || (mode == 2 && (h % 64 != 0 || n % 64 != 0)))
        if posted then s2.outAnswer key .ok [] else s2.modHif (fun x => { x with outq := x.outq ++ [e] })
  | _ => s

/-- A flush is complete: its zero-length read has come back where its mode needs one, and no earlier write of its NI is without
its answer (R439). -/
def flushReady (e : OutReq) (before : List OutReq) : Bool :=
  e.kind == 2 && (e.got || e.mode == 1) && before.all (fun b => !(b.kind == 1 && b.ni == e.ni))

/-- Answer every flush that is complete. -/
def State.flushSettle (s : State) : State :=
  (List.range s.hif.outq.length).foldl (fun u i =>
    match s.hif.outq[i]? with
    | some e => if flushReady e (s.hif.outq.take i) then
        (u.modHif (fun x => { x with outq := x.outq.filter (fun y => y.tag != e.tag) })).outAnswer e.key .ok []
      else u
    | none => u) s

/-- HOST_FLUSH: the zero-length read that R307 uses as a flush of its NI. -/
def hostFlush (ini : Ini) (a : Nat) (s : State) : State :=
  let key := s.outTxn ini a false
  let refuse := s.outAnswer key .slvErr []
  match s.target a with
  | .host _ | .peer _ _ =>
    if !s.linkUp || s.pmu.mode == .drain then refuse
    else match s.outTarget a with
      | none => refuse
      | some (fn, h, mode, ide) =>
        let s1 := s.wakeLink
        let e : OutReq := { tag := s.outTag, ini := ini, ni := nfld a 8 2, fn := fn, addr := h, kind := 2, n := 0, mode := mode,
                            ide := ide, key := key }
        (s1.modHif (fun x => { x with outq := x.outq ++ [e], out := { x.out with req := some e } })).flushSettle
  | _ => s

/-- HOST_COMPLETION: the completion, UIO write completion or GO of request `tag`; UR, CA, poison and GO-Err answer SLVERR with
poison. -/
def hostCompletion (tag : Nat) (ok : Bool) (data : List Byte) (s : State) : State :=
  match s.hif.outq.find? (fun e => e.tag == tag) with
  | none => s
  | some e =>
    if e.kind = 2 ∧ ok = true then
      (s.modHif (fun x => { x with outq := x.outq.map (fun y => if y.tag = tag then { y with got := true } else y) })).flushSettle
    else
      ((s.modHif (fun x => { x with outq := x.outq.filter (fun y => y.tag != tag) })).outAnswer e.key (if ok then .ok else .slvErr)
        data).flushSettle

/-- Requests in flight that a reset ends: answered SLVERR, read data poisoned (R454). -/
def State.endRequests (s : State) (p : OutReq → Bool) : State :=
  (s.hif.outq.filter p).foldl (fun u e => u.outAnswer e.key .slvErr []) (s.modHif (fun x => { x with outq := x.outq.filter (fun e => !p e) }))

/-- SNOOP_RESPONSE: HIF holds no host line: RspIHitI. -/
def snoopResponse (line : Nat) (s : State) : State :=
  if s.linkUp then s.modHif (fun x => { x with out := { x.out with snp := some line } }) else s

/-! ### HDM-DB (R440 to R443) -/

/-- The device address of a DPA in a committed decoder. -/
def State.hdmAddr (s : State) (dpa : Nat) : Option Nat :=
  let size := fun k => let d := tget {} s.hif.hdm k; if d.committed then d.size * 2 ^ 28 else 0
  if dpa < size 0 + size 1 then some (dramBase + s.hvBase * 2 ^ 28 + dpa) else none

/-- The filter set of a line: which 65,536 sets the lines of the range share is not stated; here by the line's low 16 bits. -/
def filterSet (line : Nat) : Nat := Config.filterIndex line % 65536

/-- The oldest line of a full set that `line` would enter. -/
def State.filterVictim (s : State) (line : Nat) : Option Nat :=
  let l := s.drc.filter.filter (fun x => filterSet x == filterSet line)
  if s.inFilter line ∨ l.length < 16 then none else l.head?

def State.modDrc (s : State) (f : Drc → Drc) : State := { s with drc := f s.drc }

/-- The line enters the filter as its newest entry. -/
def State.filterAdd (s : State) (line : Nat) : State :=
  if s.inFilter line then s else s.modDrc (fun d => { d with filter := d.filter ++ [line] })

/-- Read data to the host, poisoned where the DRC cannot give the line (R286). -/
def State.hostRead (s : State) (a : Nat) : State :=
  match s.dramLine 0x21 a false 0 0 with
  | (u, st, d, _) => u.modHif (fun x => { x with out := { x.out with drs := some (d, st != .ok) } })

/-- A host request to the line at `a` waits: the DRAM cannot be accessed, the line's exchange runs, or an older device write of the line is
held. -/
def State.hostWaits (s : State) (a : Nat) : Bool :=
  s.drcShut (a - dramBase) || s.drc.bi.any (fun e => e.line == a / 64 || e.enter == some (a / 64)) || s.lineHeld s.drcQueue (a / 64)

/-- CXL_MEM_REQUEST: served after every older request at the DRC (R291). In DRAIN a read is poisoned and a write discarded; while the DRAM
cannot be accessed, or the line's exchange runs, the request waits, with the link in L0 (R443, R454, R456). An address in no committed decoder is answered as in
DRAIN. -/
def cxlMemRequest (req : CxlReq) (dpa : Nat) (data : Line) (mask : BitVec 64) (s : State) : State :=
  let wr := req == .write || req == .writePartial
  let poison := s.modHif (fun x => { x with out := { x.out with drs := some (0, true) } })
  if !s.linkUp then s
  else if s.pmu.mode = .drain then
    if wr then (s.countUp (hifPage 0 + hifMemdrop) 0 32 1).raise (hifPage 0) 17 else poison
  else match s.hdmAddr dpa with
    | none => if wr then s else poison
    | some a =>
      let line := a / 64
      if s.hostWaits a then s.wakeLink
      else
        let u := State.drcDrain s.flitsLeft s
        if wr then (u.dramLine 0x21 a true data (if req = .write then BitVec.allOnes 64 else mask)).1
        else if req = .readCache then
          match u.filterVictim line with
          | some v => if u.drc.bi.any (fun e => e.line == v) then u else u.biSend { line := v, key := none, enter := some line }
          | none => (u.filterAdd line).hostRead a
        else u.hostRead a

/-- HOST_LINE_RELEASE: MemInv or a clean evict. -/
def hostLineRelease (dpa : Nat) (s : State) : State :=
  match s.hdmAddr dpa with
  | some a => s.modDrc (fun d => { d with filter := d.filter.filter (fun x => x != a / 64) })
  | none => s

/-- BACK_INVALIDATE: the DRC holds a device write to a filtered line and has HIF ask for the line. -/
def backInvalidate (k : TxnKey) (s : State) : State :=
  match s.txn k with
  | none => s
  | some x =>
    let onDram := match s.target x.rsv.addr.toNat with
      | .dram _ => true
      | _ => false
    match s.heldLine x with
    | some l => if x.stage == .atBlock && onDram && s.drc.bi.all (fun e => e.line != l) then s.biSend { line := l, key := some k, enter := none } else s
    | none => s

/-- The exchange of a line is over. -/
def State.biDrop (s : State) (line : Nat) : State := s.modDrc (fun d => { d with bi := d.bi.filter (fun e => e.line != line) })

/-- The exchange that a unit's own write waits for has ended; the write takes its place when the unit's command comes again. -/
def State.biOver (s : State) (line : Nat) (ok : Bool) : State :=
  s.modDrc (fun d => { d with bi := d.bi.map (fun e => if e.line = line then { e with ended := some ok } else e) })

/-- BIRSP_RECEIVE: the entry goes, the held write is performed and answered; a line that waited for the entry's way enters and its
read is served. -/
def birspReceive (line : Nat) (s : State) : State :=
  match s.drc.bi.find? (fun e => e.line == line && e.ended.isNone) with
  | none => s
  | some e =>
    let s1 := (if e.unit.isSome then s.biOver line true else s.biDrop line).modDrc
      (fun d => { d with filter := d.filter.filter (fun x => x != line) })
    let s2 := match e.key with
      | some k => match s1.txn k with
        | some x => s1.dramFlit x
        | none => s1
      | none => s1
    match e.enter with
    | some l => (s2.filterAdd l).hostRead (64 * l)
    | none => s2

/-- BI_TIMEOUT: the held write is answered SLVERR unperformed and the entry stays; a read that waited for the way is poisoned. -/
def biTimeout (line : Nat) (s : State) : State :=
  match s.drc.bi.find? (fun e => e.line == line && e.ended.isNone) with
  | none => s
  | some e =>
    let s1 := ((if e.unit.isSome then s.biOver line false else s.biDrop line).countUp (hifPage 0 + hifBicnt) 16 16 1).raise (hifPage 0) 5
    let s2 := match e.key with
      | some k => match s1.txn k with
        | some x => s1.flitServed x .slvErr none none
        | none => s1
      | none => s1
    if e.enter.isSome then s2.modHif (fun x => { x with out := { x.out with drs := some (0, true) } }) else s2

/-- The filter is emptied: writes held in an exchange are performed at once (R454). -/
def State.emptyFilter (s : State) : State :=
  s.drc.bi.foldl (fun u e => match e.key with
    | some k => match u.txn k with
      | some x => u.dramFlit x
      | none => u
    | none => u) (s.modDrc (fun d => { d with filter := [], bi := [] }))

/-- HDM_COMMIT: decoder 1 maps from the end of decoder 0; a commit beyond DRC_HVSIZE, or before the range is ready, fails. -/
def hdmCommit (k : Nat) (size : Nat) (s : State) : State :=
  let d := tget {} s.hif.hdm k
  if d.committed then s
  else
    let other := tget {} s.hif.hdm (1 - k)
    let total := size + (if other.committed then other.size else 0)
    let ok := s.drc.ready && decide (total ≤ s.hvSize)
    (s.modHif (fun x => { x with hdm := tset {} x.hdm k (if ok then ⟨true, size, false⟩ else { d with err := true }) })).raise (hifPage 0) 4

/-- HDM_UNCOMMIT. -/
def hdmUncommit (k : Nat) (s : State) : State :=
  if (tget {} s.hif.hdm k).committed then
    (s.modHif (fun x => { x with hdm := tset {} x.hdm k {} })).raise (hifPage 0) 4
  else s

/-! ### Peer streams (R447, R448) -/

/-- The enabled peer window that an inbound access from `src` at aperture offset `o` lies in. -/
def State.peerWindow (s : State) (src : BitVec 12) (o : Nat) : Option Nat :=
  (List.range 8).find? (fun k =>
    let c := s.reg (hifPage 2 + hifPwCfg + 32 * k)
    let b := fld (s.reg (hifPage 2 + hifPwBase + 32 * k)) 0 22
    bit c 0 && (bit c 1 || fld c 4 12 == src.toNat) && decide (b ≤ o / 4096) &&
      decide (o / 4096 < b + fld (s.reg (hifPage 2 + hifPwSize + 32 * k)) 0 22))

/-- A peer write is dropped, counted and completed with UR. -/
def State.peerDrop (s : State) : State :=
  (s.countUp (hifPage 2 + hifPwdrop) 0 32 1).modHif (fun x => { x with out := { x.out with ur := true } })

/-- Peer accesses arrive: the link is up and neither DRAIN nor a reset has stopped host intake (R386, R400). -/
def State.peerOpen (s : State) : Bool := s.linkUp && !s.hif.closed

/-- PEER_WRITE: placed through its window, or dropped; the target is device-private DRAM or unowned banks. -/
def peerWrite (src : BitVec 12) (o : Nat) (data : List Byte) (s : State) : State :=
  if !s.peerOpen then s else
  match s.peerWindow src o with
  | none => s.peerDrop
  | some k =>
    let a := s.reg64 (hifPage 2 + hifPwTgt + 32 * k) / 4096 * 4096 % 2 ^ 48 + o - fld (s.reg (hifPage 2 + hifPwBase + 32 * k)) 0 22 * 4096
    let shared := match s.target a with
      | .dram d => s.hvEn && s.inHv d
      | _ => false
    if shared then s.peerDrop
    else match s.memWrite 0x21 a data with
      | (u, .ok) => u.modHif (fun x => { x with out := { x.out with ur := false } })
      | (u, _) => u.peerDrop

/-- PEER_FLUSH: every earlier write of the source has been placed when its command ended, so the flush completes. -/
def peerFlush (src : BitVec 12) (o : Nat) (s : State) : State :=
  if !s.peerOpen then s else
  match s.peerWindow src o with
  | some k => s.raise (hifPage 0) (8 + k)
  | none => s

/-! ### NVMe (R449, R450, R456) -/

/-- The event of NVMe function `f`, with its bit of HIF_NVPEND. -/
def State.nvEvent (s : State) (f : Nat) : State :=
  (s.modReg (hifPage 3 + hifNvpend + 4 * (f / 32)) (fun w => setBit w (f % 32))).toPort (hifPage 0 / 0x1000)
    ⟨fld (s.reg (hifPage 0 + hifDbbase)) 0 13 + f, false⟩

/-- Host requests reach function `f`: the link is up, no warm reset has stopped intake, and the TDI is not in ERROR. -/
def State.nvOpen (s : State) (f : Nat) : Bool := s.linkUp && s.pmu.warm.isNone && s.pmu.cold.isNone && tget 0 s.hif.tdi f != 3

/-- NVME_DOORBELL. -/
def nvmeDoorbell (f q : Nat) (head : Bool) (val : BitVec 16) (s : State) : State :=
  if 64 < q ∨ s.nvOpen f = false then s
  else
    let s1 := (s.wakeLink).modHif (fun x => { x with db := tset 0 x.db (256 * f + 2 * q + b2n head) val.toNat })
    if s.pmu.mode = .drain ∨ (s.pmu.mode = .service ∧ q ≠ 0) then s1 else s1.nvEvent f

/-- NVME_REGISTER_WRITE: a host write of CC, AQA, ASQ or ACQ. -/
def nvmeRegisterWrite (f : Nat) (r : NvReg) (val : DWord) (s : State) : State :=
  if s.nvOpen f = false then s
  else
    let g := fun (x : NvFn) => match r with
      | .cc => { x with cc := val.setWidth 32 }
      | .aqa => { x with aqa := val.setWidth 32 }
      | .asq => { x with asq := val }
      | .acq => { x with acq := val }
    let s1 := (s.wakeLink).modHif (fun x => { x with nv := tset {} x.nv f (g (tget {} x.nv f)) })
    if s.pmu.mode = .drain then s1 else s1.nvEvent f

/-! ### IDE and TDISP (R452, R453) -/

/-- IDE_KM: only in a secured SPDM session. -/
def ideKm (secured : Bool) (stream : Nat) (key : BitVec 256) (s : State) : State :=
  if secured && s.sec.spdm.session == 2 then s.modHif (fun x => { x with ide := tset none x.ide stream (some key) })
  else s.spdmError 4

/-- TDISP_MESSAGE: 0 CONFIG_UNLOCKED to 1 CONFIG_LOCKED by LOCK, to 2 RUN by START, back by STOP. -/
def tdispMessage (t : Nat) (req : TdispReq) (s : State) : State :=
  let old := tget 0 s.hif.tdi t
  let new := match req with
    | .lock => if old = 0 then 1 else old
    | .start => if old = 1 then 2 else old
    | .stop => 0
    | .other => old
  s.modHif (fun x => { x with tdi := tset 0 x.tdi t new })

/-- A locked or running TDI goes to ERROR. -/
def State.tdiFail (s : State) (t : Nat) : State :=
  if tget 0 s.hif.tdi t = 1 ∨ tget 0 s.hif.tdi t = 2 then (s.modHif (fun x => { x with tdi := tset 0 x.tdi t 3 })).raise (hifPage 0) 16
  else s

/-- TDI_ERROR. -/
def tdiErrorCmd (t : Nat) (s : State) : State := s.tdiFail t

/-! ### Link events and function resets (R454, R455) -/

/-- Function state of the functions that `p` names by requester-function code returns to its reset values. -/
def Hif.resetFns (x : Hif) (p : Nat → Bool) : Hif :=
  { x with
    unmasked := tkeep (fun v => !p (vectorFn v)) x.unmasked
    pba := tkeep (fun v => !p (vectorFn v)) x.pba
    fmask := tkeep (fun f => !p f) x.fmask
    msixEn := tkeep (fun f => !p f) x.msixEn
    d3 := tkeep (fun f => !p f) x.d3
    tdi := tkeep (fun f => !p (f + 1)) x.tdi
    nv := tkeep (fun f => !p (f + 1)) x.nv
    db := tkeep (fun k => !p (k / 256 + 1)) x.db
    lcommit := x.lcommit && !p 0 }

/-- The HDM decoders are uncommitted, which is an event where one was committed (R440). -/
def State.hdmClear (s : State) : State :=
  let s1 := s.modHif (fun x => { x with hdm := [] })
  if s.hif.hdm.any (fun d => d.2.committed) then s1.raise (hifPage 0) 4 else s1

/-- PERST_N low or the link down: every function, the HDM decoders, the filter and the requests in flight. -/
def State.linkReset (s : State) : State :=
  let s1 := (s.emptyFilter).endRequests (fun _ => true)
  s1.hdmClear.modHif (fun x => { x.resetFns (fun _ => true) with rate := 0, width := 0 })

/-- PERST_ASSERT; in HOLD and OFF the ball's level is all that changes. -/
def perstAssert (s : State) : State :=
  if s.hif.perst then s
  else if s.powered then
    ((s.linkReset).modHif (fun x => { x with perst := true, link := .down })).raise (hifPage 0) 2
  else s.modHif (fun x => { x with perst := true })

/-- PERST_RELEASE: the link trains once the boot ROM has enabled it. -/
def perstRelease (s : State) : State :=
  s.modHif (fun x => { x with perst := false, link := if x.perst && x.en then .training else x.link })

/-- LINK_DOWN while PERST_N is high; the link trains again. -/
def linkDown (s : State) : State :=
  if s.linkUp && !s.hif.perst then ((s.linkReset).modHif (fun x => { x with link := .training })).raise (hifPage 0) 1 else s

/-- LINK_UP: training ends at a supported rate and width. -/
def linkUpCmd (rate width : Nat) (s : State) : State :=
  if s.hif.en && !s.hif.perst && !s.linkUp && decide (1 ≤ rate) && (width == 16 || width == 8 || width == 4) then
    (s.modHif (fun x => { x with link := .l0, rate := rate, width := width })).raise (hifPage 0) 0
  else s

/-- LINK_L1_ENTRY. -/
def linkL1Entry (l12 : Bool) (s : State) : State :=
  if s.hif.link = .l0 ∨ s.hif.link = .l0p then s.modHif (fun x => { x with link := if l12 then .l12 else .l11 }) else s

/-- FLR of a function: PF0 takes the decoders and the filter with it; a locked TDI goes to ERROR (R453). -/
def flr (fn : Nat) (s : State) : State :=
  let s1 := s.endRequests (fun e => e.fn == fn)
  let s2 := if fn = 0 then (s1.emptyFilter).hdmClear else s1
  let locked := decide (1 ≤ fn) && (tget 0 s.hif.tdi (fn - 1) == 1 || tget 0 s.hif.tdi (fn - 1) == 2)
  let s3 := s2.modHif (fun x => x.resetFns (fun f => f == fn))
  let s4 := if locked then (s3.modHif (fun x => { x with tdi := tset 0 x.tdi (fn - 1) 3 })).raise (hifPage 0) 16 else s3
  s4.raise (hifPage 0) 3

/-- LCOMMIT_WRITE. -/
def lcommitWrite (val : Bool) (s : State) : State :=
  if s.hif.lcommit != val then (s.modHif (fun x => { x with lcommit := val })).raise (hifPage 0) 6 else s

/-! ### Register writes with their own rules, and what registers read (R458) -/

/-- A write of HIF_OWk: fields take effect only while en is 0 or in the write that sets it; an overlap is ignored with cmdig. -/
def owWrite (ini : Ini) (k word : Nat) (val : Word) (s : State) : State :=
  let off := hifPage 1 + hifOwLo + 16 * k + 4 * word
  s.regGuard ini off (fun u =>
    let en := bit (u.owLo k) 0
    let lo (g : Word) := fld g 0 16
    let hi (g : Word) := fld g 0 16 + fld g 16 16
    if word = 0 then
      if en then (if bit val 0 then u else u.modReg off (fun w => clrBit w 0))
      else
        let g := u.owGeom k
        let clash := (List.range 16).any (fun j => j != k && bit (u.owLo j) 0 && decide (lo g < hi (u.owGeom j)) && decide (lo (u.owGeom j) < hi g))
        if bit val 0 && clash then u.raise (hifPage 0) 7 else u.setReg off (val &&& 0x000FFF07)
    else if en then u
    else u.setReg off (if word = 2 then val &&& 0xC0000000 else val))

/-- A write of HIF_DBBASE above 0x1FC0 is ignored with cmdig. -/
def dbbaseWrite (ini : Ini) (val : Word) (s : State) : State :=
  s.regGuard ini (hifPage 0 + hifDbbase) (fun u => if 0x1FC0 < val.toNat then u.raise (hifPage 0) 7 else u.setReg (hifPage 0 + hifDbbase) val)

/-- A write of a word of HIF_PABASE that would set bits [45:0] is ignored with cmdig (R444). -/
def pabaseWrite (ini : Ini) (hi : Bool) (val : Word) (s : State) : State :=
  let off := hifPage 0 + hifPabase + 4 * b2n hi
  s.regGuard ini off (fun u => if (if hi then fld val 0 14 else val.toNat) ≠ 0 then u.raise (hifPage 0) 7 else u.setReg off val)

/-- A write of HIF_NVCSTS for the selected function. -/
def nvcstsWrite (ini : Ini) (val : Word) (s : State) : State :=
  s.regGuard ini (hifPage 3 + hifNvcsts) (fun u =>
    let f := fld (u.reg (hifPage 3 + hifNvsel)) 0 6
    u.modHif (fun x => { x with nv := tset {} x.nv f { tget {} x.nv f with csts := val &&& 0x1F } }))

def LinkSt.code : LinkSt → Nat
  | .down => 0 | .l0 => 1 | .l0p => 2 | .l11 => 3 | .l12 => 4 | .training => 5

/-- HIF_STAT. -/
def State.hifStatWord (s : State) : Word :=
  BitVec.ofNat 32 (b2n s.linkUp + 2 * s.hif.rate + 2 ^ 4 * s.hif.width + 2 ^ 9 * s.hif.link.code + 2 ^ 12 * b2n s.hif.perst +
    2 ^ 13 * b2n (s.pmu.mode == .solo) + 2 ^ 14 * b2n s.hif.lcommit)

/-- The Krovren DVSEC as the host reads it (R451). -/
def State.dvsecWord (s : State) : Word :=
  BitVec.ofNat 32 (b2n (s.pmu.mode == .solo) + 2 * b2n s.hif.lcommit + 4 * b2n s.ply.present + 8 * s.pmu.mode.code +
    2 ^ 7 * b2n (s.pmu.mode == .service || s.pmu.mode == .drain))

/-- HIF_DBVAL, and the NVMe function and TDI that the selectors name. -/
def State.dbvalWord (s : State) : Word :=
  let w := s.reg (hifPage 3 + hifDbsel)
  BitVec.ofNat 32 (tget 0 s.hif.db (256 * fld w 0 6 + 2 * fld w 6 7 + fld w 13 1))
def State.nvSel (s : State) : NvFn := tget {} s.hif.nv (fld (s.reg (hifPage 3 + hifNvsel)) 0 6)
def State.tdistatWord (s : State) : Word := BitVec.ofNat 32 (tget 0 s.hif.tdi (fld (s.reg (hifPage 3 + hifTdisel)) 0 6))

/-! ### The commands -/

/-- MSIX_SEND (R436). A write of HIF_MSIX sends or pends an MSI-X vector. -/
def execMsixSend (ini : Ini) (val : Word) (s : State) : Out :=
  .next (s.gate (msixSend ini val s))

/-- MSIX_MASK_CHANGE (R436). The host masks or unmasks an MSI-X entry or function, and on unmask a vector with its PBA bit set is sent. -/
def execMsixMaskChange (v : Option (Fin 2048)) (fn : Fin 65) (mask : Bool) (s : State) : Out :=
  .next (s.gate (msixMaskChange (v.map (fun x : Fin 2048 => x.val)) fn.val mask s))

/-- OUTBOUND_ACCESS (R438). HIF maps a host-range access through an outbound window and sends it. -/
def execOutboundAccess (ini : Ini) (addr : BitVec 48) (wr : Bool) (n : BitVec 10) (s : State) : Out :=
  .next (s.gate (outboundAccess ini addr.toNat wr n.toNat s))

/-- HOST_FLUSH (R439). A zero-length read flush to the host range is answered after earlier writes. -/
def execHostFlush (ini : Ini) (addr : BitVec 48) (s : State) : Out :=
  .next (s.gate (hostFlush ini addr.toNat s))

/-- HOST_COMPLETION (R439). A completion, UIO write completion or GO for an outbound request arrives from the host and HIF answers the OCN request, with SLVERR and poison on UR, CA or GO-Err. -/
def execHostCompletion (tag : Nat) (ok : Bool) (data : List Byte) (s : State) : Out :=
  .next (s.gate (hostCompletion tag ok data s))

/-- SNOOP_RESPONSE (R439). HIF answers an H2D snoop with RspIHitI. -/
def execSnoopResponse (line : BitVec 42) (s : State) : Out :=
  .next (s.gate (snoopResponse line.toNat s))

/-- CXL_MEM_REQUEST (R441). HIF carries a CXL.mem request to the DRC. -/
def execCxlMemRequest (req : CxlReq) (dpa : BitVec 36) (data : BitVec 512) (mask : BitVec 64) (s : State) : Out :=
  .next (s.gate (cxlMemRequest req dpa.toNat data mask s))

/-- HOST_LINE_RELEASE (R442). A host MemInv or clean evict removes a line from the filter. -/
def execHostLineRelease (dpa : BitVec 36) (s : State) : Out :=
  .next (s.gate (hostLineRelease dpa.toNat s))

/-- BACK_INVALIDATE (R443). A device write to a filtered line holds while HIF sends BISnpInv. -/
def execBackInvalidate (k : TxnKey) (s : State) : Out :=
  .next (s.gate (backInvalidate k s))

/-- BIRSP_RECEIVE (R443). BIRspI arrives and the held device write is performed. -/
def execBirspReceive (line : BitVec 42) (s : State) : Out :=
  .next (s.gate (birspReceive line.toNat s))

/-- BI_TIMEOUT (R443). No BIRsp within HIF_BITMO and the held write is answered SLVERR. -/
def execBiTimeout (line : BitVec 42) (s : State) : Out :=
  .next (s.gate (biTimeout line.toNat s))

/-- HDM_COMMIT (R440). A host HDM decoder commit succeeds or fails with Commit Error. -/
def execHdmCommit (dec : Fin 2) (size : BitVec 8) (s : State) : Out :=
  .next (s.gate (hdmCommit dec.val size.toNat s))

/-- HDM_UNCOMMIT (R440). A host HDM decoder uncommit sets EVT_RAW.hdm. -/
def execHdmUncommit (dec : Fin 2) (s : State) : Out :=
  .next (s.gate (hdmUncommit dec.val s))

/-- PEER_WRITE (R447). An inbound BAR2 write is placed through its peer window or dropped. -/
def execPeerWrite (src : BitVec 12) (o : BitVec 34) (data : List Byte) (s : State) : Out :=
  .next (s.gate (peerWrite src o.toNat data s))

/-- PEER_FLUSH (R448). A zero-length read to a peer window completes after earlier writes and raises pflush. -/
def execPeerFlush (src : BitVec 12) (o : BitVec 34) (s : State) : Out :=
  .next (s.gate (peerFlush src o.toNat s))

/-- NVME_DOORBELL (R450). An NVMe doorbell write stores the value and raises the function's event. -/
def execNvmeDoorbell (f : Fin 64) (q : Nat) (head : Bool) (val : BitVec 16) (s : State) : Out :=
  .next (s.gate (nvmeDoorbell f.val q head val s))

/-- NVME_REGISTER_WRITE (R450). A host write to CC, AQA, ASQ or ACQ stores the value and raises the function's event. -/
def execNvmeRegisterWrite (f : Fin 64) (reg : NvReg) (val : BitVec 64) (s : State) : Out :=
  .next (s.gate (nvmeRegisterWrite f.val reg val s))

/-- IDE_KM (R452). SEC programs IDE keys from an IDE_KM message in a secured session. -/
def execIdeKm (secured : Bool) (stream : Fin 6) (key : BitVec 256) (s : State) : Out :=
  .next (s.gate (ideKm secured stream.val key s))

/-- TDISP_MESSAGE (R453). SEC terminates a TDISP message and sets the TDI state. -/
def execTdispMessage (tdi : Fin 64) (req : TdispReq) (s : State) : Out :=
  .next (s.gate (tdispMessage tdi.val req s))

/-- TDI_ERROR (R453). A host change to a locked TDI moves it to ERROR. -/
def execTdiError (tdi : Fin 64) (s : State) : Out :=
  .next (s.gate (tdiErrorCmd tdi.val s))

/-- PERST_ASSERT (R454). PERST_N low resets every function and empties the filter. -/
def execPerstAssert (s : State) : Out :=
  .next (s.gateAon (perstAssert s))

/-- PERST_RELEASE (R454). PERST_N rises and the host link, once enabled by the boot ROM, starts training again. -/
def execPerstRelease (s : State) : Out :=
  .next (s.gateAon (perstRelease s))

/-- LINK_DOWN (R454). The host link goes down while PERST_N is high and every function resets. -/
def execLinkDown (s : State) : Out :=
  .next (s.gate (linkDown s))

/-- LINK_UP (R455). Host-link training completes and the link reaches L0. -/
def execLinkUp (rate : Fin 5) (width : BitVec 5) (s : State) : Out :=
  .next (s.gate (linkUpCmd rate.val width.toNat s))

/-- LINK_L1_ENTRY (R376). The host link enters L1.1 or L1.2, which HIF_STAT reports and which the DROWSE entry condition requires. -/
def execLinkL1Entry (l12 : Bool) (s : State) : Out :=
  .next (s.gate (linkL1Entry l12 s))

/-- FLR (R454). A Function Level Reset resets one function's HIF state. -/
def execFlr (fn : Fin 65) (s : State) : Out :=
  .next (s.gate (flr fn.val s))

/-- LCOMMIT_WRITE (R451). A host write changing the DVSEC lcommit bit sets EVT_RAW.lcommit. -/
def execLcommitWrite (val : Bool) (s : State) : Out :=
  .next (s.gate (lcommitWrite val s))

end Sys2Proof.Machine
end

