-- ==== Sys2Proof/Machine/Ply.lean ====
section
/-!
DEFINITION. The ply link and twin operation (chapter 20).
-/
namespace Sys2Proof.Machine

def plyPage : Nat := page .ply 0
def State.modPly (s : State) (f : Ply → Ply) : State := { s with ply := f s.ply }

/-! ### The registers of the journal (R462 to R465) -/

def State.txAck (s : State) : Nat := s.reg64 (plyPage + plyTxack)
def State.txSent (s : State) : Nat := s.reg64 (plyPage + plyTxsent)
def State.txTail (s : State) : Nat := s.reg64 (plyPage + plyTxtail)
def State.rxSeq (s : State) : Nat := s.reg64 (plyPage + plyRxseq)
/-- Slots of the transmit and the receive ring. -/
def State.txSlots (s : State) : Nat := 2 ^ fld (s.reg (plyPage + plyTxcfg)) 0 4
def State.rxSlots (s : State) : Nat := 2 ^ fld (s.reg (plyPage + plyRxcfg)) 0 4
/-- PLY_CTRL.en. -/
def State.plyEn (s : State) : Bool := bit (s.reg (plyPage + Machine.plyCtrl)) 0
/-- The link carries frames. -/
def Ply.up (x : Ply) : Bool := x.st == .hello || x.st == .replay || x.st == .sync

/-! ### Frames (R460) -/

/-- Bytes 0 to 251 of a frame. -/
def frameBytes (f : PlyFrame) : List Byte :=
  [f.type, f.flags] ++ bytesOf 2 f.fseq.toNat ++ sliceBytes f.payload 0 240 ++ bytesOf 8 f.ack.toNat

/-- The frame's fcrc agrees. -/
def frameOk (f : PlyFrame) : Bool := crc32c (frameBytes f) == f.fcrc.toNat

/-- Send a frame: it takes the next frame number and the present ack, and stays in the replay buffer. -/
def State.sendFrame (s : State) (type flags : Nat) (payload : List Byte) : State :=
  let f : PlyFrame := { type := BitVec.ofNat 8 type, flags := BitVec.ofNat 8 flags, fseq := BitVec.ofNat 16 s.ply.fseq,
                        payload := sliceBytes payload 0 240, ack := BitVec.ofNat 64 s.rxSeq, fcrc := 0 }
  let g := { f with fcrc := BitVec.ofNat 32 (crc32c (frameBytes f)) }
  s.modPly (fun x => { x with
    fseq := (x.fseq + 1) % 65536
    rbuf := (x.rbuf ++ [g]).drop (x.rbuf.length + 1 - 64) })

/-- A NAK names the frame number in its first payload bytes; so placed by the model. -/
def State.sendNak (s : State) (n : Nat) : State := s.sendFrame 3 0 (bytesOf 2 n)

/-- A HELLO carries its fields in the order of R468, each at its width; the layout is the model's. -/
def State.sendHello (s : State) : State :=
  (s.sendFrame 1 0 (bytesOf 8 Config.dieId.toNat ++ bytesOf 4 s.aon.gen.toNat ++ bytesOf 4 s.aon.role ++ bytesOf 8 s.rxSeq ++
    bytesOf 8 s.txAck ++ bytesOf 8 s.txTail)).modPly (fun x => { x with tail0 := s.txTail })

/-- The fields of a HELLO. -/
def helloOf (l : List Byte) : Hello :=
  { die := imgField l 0 8, gen := imgField l 8 4, role := imgField l 12 4 % 4, rxseq := imgField l 16 8, txack := imgField l 24 8
    txtail := imgField l 32 8 }

/-! ### Training and loss (R459, R461) -/

/-- The link is lost. -/
def State.plyLost (s : State) : State :=
  (s.modPly (fun x => { x with st := .down, present := false, width := 0, peer := none, part := [], placed := [] })).raise
    plyPage 1

/-- Retraining begins. -/
def State.retrain (s : State) : State :=
  (s.modPly (fun x => { x with st := .train, naks := 0 })).countUp (plyPage + plyErr) 16 16 1

/-- Training ends: ×8, or ×4 when lanes 0 to 3 pass, or not at all; a failed retrain loses the link. -/
def State.trained8 (s : State) (lanes preset : Byte) : State :=
  let w := if lanes = 0xFF then 2 else if lanes &&& 0xF = 0xF then 1 else 0
  let s1 := s.setReg (plyPage + plyTrn) (BitVec.ofNat 32 (lanes.toNat + 2 ^ 8 * preset.toNat))
  if w = 0 then (if s.ply.width = 0 then s1.modPly (fun x => { x with st := .down }) else s1.plyLost)
  else
    ((s1.modPly (fun x => { x with st := .hello, width := w, fseq := 0, rseq := 0, rbuf := [], naks := 0, part := [], peer := none })).raise
      plyPage 0).sendHello

/-- PLY_TRAIN and PLY_TRAIN_RETRY: with the ply PLL locked (R380). -/
def plyTrain (lanes preset : Byte) (s : State) : State :=
  if s.plyEn && s.ply.st == .train && !s.pmu.plyGated && bit (s.reg (page .pmu 1 + pmuPllstat)) 7 then s.trained8 lanes preset else s
def plyTrainRetry (lanes preset : Byte) (s : State) : State :=
  if s.plyEn && s.ply.st == .down && !s.ply.shut && !s.pmu.plyGated && bit (s.reg (page .pmu 1 + pmuPllstat)) 7 then s.trained8 lanes preset else s

/-- PLY_LINK_LOST: no valid frame for PLY_LOSTTO, or a failed retrain. -/
def plyLinkLost (s : State) : State := if s.ply.up || (s.ply.st == .train && s.ply.width != 0) then s.plyLost else s

/-! ### Roles (R467 to R470) -/

/-- Take a role and a generation; a change of role raises its event. -/
def State.setRole (s : State) (role gen : Nat) : State :=
  let s1 := s.modAon (fun a => { a with role := role, gen := BitVec.ofNat 32 gen })
  if role = s.aon.role then s1 else s1.raise plyPage 7

/-- The first row of R468's table that matches: role and generation of this part, and conflict. -/
def resolveRoles (die gen role pdie pgen prole : Nat) : Nat × Nat × Bool :=
  let g := max gen pgen
  let mine := decide (pgen < gen) || (gen == pgen && decide (die < pdie))
  if role = 1 ∧ prole ≠ 1 ∧ gen = g then (1, g, false)
  else if prole = 1 ∧ role ≠ 1 ∧ pgen = g then (2, g, false)
  else if role = 1 ∧ prole = 1 then (if mine then 1 else 2, g + 1, true)
  else if role = 1 then (2, g + 1, true)
  else if prole = 1 then (1, g + 1, true)
  else (if mine then 1 else 2, g + 1, false)

/-- A HELLO arrives. A die identifier other than PLY_PEERID keeps the link DOWN, with no further HELLO, until en is written 1 again. -/
def State.hello (s : State) (h : Hello) : State :=
  let s1 := s.setReg64 (plyPage + plyPeerseen) h.die
  let want := s.reg64 (plyPage + plyPeerid)
  if want ≠ 0 ∧ want ≠ h.die then s1.modPly (fun x => { x with st := .down, present := false, width := 0, shut := true })
  else
    let (role, gen, conf) := resolveRoles Config.dieId.toNat s.aon.gen.toNat s.aon.role h.die h.gen h.role
    let s2 := s1.setRole role gen
    let s3 := if conf then (s2.modPly (fun x => { x with conflict := true })).raise plyPage 6 else s2
    let s4 := if h.rxseq < s.txAck then (s3.modPly (fun x => { x with gap := true })).raise plyPage 5 else s3
    (s4.modPly (fun x => { x with peer := some h, st := .replay })).setReg64 (plyPage + plyTxsent) s4.txAck

/-- PLY_PRESENT_RISE (R471): each side's TXACK has reached the tail it reported; the peer's is what this part has acknowledged. -/
def plyPresentRise (s : State) : State :=
  match s.ply.peer with
  | some h =>
    if s.ply.st == .replay && !s.ply.conflict && !s.ply.gap && decide (s.ply.tail0 ≤ s.txAck) && decide (h.txtail ≤ s.rxSeq) then
      (s.modPly (fun x => { x with st := .sync, present := true })).raise plyPage 4
    else s
  | none => s

/-! ### Receiving records (R464, R465, R472) -/

/-- DRAIN's step 1 has begun: PLY neither writes received records nor advances PLY_RXSEQ. -/
def State.plyFrozen (s : State) : Bool := s.pmu.mode == .drain

/-- The header as the receiving part stores it: drain and replay flags, gen, dcrc, data slot, hcrc. -/
def State.storedHeader (s : State) (h data : List Byte) (slot : Nat) (drain replay : Bool) : List Byte :=
  let flags := imgField h 5 1 % 2 + 2 * b2n drain + 4 * b2n replay
  let h1 := sliceBytes h 0 5 ++ bytesOf 1 flags ++ sliceBytes h 6 10 ++ bytesOf 4 s.aon.gen.toNat ++
    bytesOf 4 (if imgField h 5 1 % 2 = 1 then crc32c data else 0) ++ bytesOf 8 slot ++ sliceBytes h 32 28
  h1 ++ bytesOf 4 (crc32c h1)

/-- A whole record has come. Beyond PLY_RXFREE + 2^lg it is not accepted: its other frames are held and the last one is asked for again.
One whose dcrc disagrees is discarded and asked for again from its first frame. Else it is placed; a refused write stops reception and
retrains. -/
def State.placeRecord (s : State) (l : List Byte) (n : Nat) (drain replay : Bool) : State :=
  let seq := imgField l 8 8
  let dat := imgField l 5 1 % 2 == 1
  let data := if dat then sliceBytes l 64 16384 else []
  let slot := seq % s.rxSlots
  let dslot := s.reg64 (plyPage + plyRxdata) + slot * 16384
  let first := (n + 65536 - (l.length / 240 - 1)) % 65536
  if s.reg64 (plyPage + plyRxfree) + s.rxSlots < seq then
    (s.modPly (fun x => { x with rseq := n, part := l.take (l.length - 240) })).sendNak n
  else if dat && crc32c data != imgField l 0x14 4 then
    (s.modPly (fun x => { x with rseq := first, part := [] })).sendNak first
  else
    let (s1, st1) := if dat then s.memWrite 0x33 dslot data else (s, Status.ok)
    let (s2, st2) := s1.memWrite 0x33 (s.reg64 (plyPage + plyRxbase) + 64 * slot) (s.storedHeader l data (if dat then dslot else 0) drain replay)
    if st1 ≠ .ok ∨ st2 ≠ .ok then (s2.modPly (fun x => { x with rxerr := true, part := [] })).retrain
    else s2.modPly (fun x => { x with part := [], placed := x.placed ++ [seq] })

/-- A REC frame: its payload joins the record; the last frame completes it. -/
def State.recArrive (s : State) (f : PlyFrame) (n : Nat) : State :=
  if s.plyFrozen || s.ply.rxerr then s
  else
    let l := (if bit f.flags 2 then [] else s.ply.part) ++ sliceBytes f.payload 0 240
    let s1 := s.modPly (fun x => { x with part := l })
    if bit f.flags 3 then s1.placeRecord l n (bit f.flags 0) (bit f.flags 1) else s1

/-- PLY_RXSEQ_ADVANCE: every write of the oldest placed record is done: PLY_RXSEQ reaches it when it is the next one. -/
def plyRxseqAdvance (s : State) : State :=
  match s.ply.placed with
  | [] => s
  | q :: t =>
    if s.plyFrozen then s
    else
      let s1 := s.modPly (fun x => { x with placed := t })
      if q = s.rxSeq + 1 then (s1.setReg64 (plyPage + plyRxseq) q).raise plyPage 3 else s1

/-! ### A frame arrives -/

/-- The ack of a frame moves PLY_TXACK up. -/
def State.takeAck (s : State) (a : Nat) : State :=
  if s.txAck < a then (s.setReg64 (plyPage + plyTxack) a).raise plyPage 2 else s

/-- What every frame accepted does (R460): the number expected next, the acknowledgement, the peer's drain flag. -/
def State.plyAccept (s : State) (f : PlyFrame) : State :=
  let s1 := (s.modPly (fun x => { x with
    rseq := (f.fseq.toNat + 1) % 65536
    naks := if f.type = 3 then x.naks else 0 })).takeAck f.ack.toNat
  if bit f.flags 0 then (s1.modPly (fun x => { x with peerdrain := true })).raise plyPage 8 else s1

/-- A NAK names frame `n`: the transmitter resends from it out of the replay buffer. A frame that has left the buffer belongs to a
record longer than the buffer: the records not acknowledged are sent again from the ring, from that number onward. -/
def State.resend (s : State) (n : Nat) : State :=
  let l := s.ply.rbuf.dropWhile (fun g => g.fseq.toNat != n)
  if l.isEmpty && decide ((s.ply.fseq + 65536 - n) % 65536 ≤ 69) then
    (s.modPly (fun x => { x with fseq := n, rbuf := [], again := [] })).setReg64 (plyPage + plyTxsent) s.txAck
  else s.modPly (fun x => { x with again := l })

/-- A frame of the link: a bad fcrc is answered with a NAK that names it; a frame other than the one expected is discarded. -/
def plyFrame (f : PlyFrame) (s : State) : State :=
  let n := f.fseq.toNat
  if !s.ply.up then s
  else if !frameOk f then s.sendNak n
  else if n ≠ s.ply.rseq then s
  else
    let s2 := s.plyAccept f
    match f.type.toNat with
    | 1 => s2.hello (helloOf f.payload)
    | 2 => s2.recArrive f n
    | 3 =>
      let s3 := (s2.modPly (fun x => { x with naks := x.naks + 1 })).countUp (plyPage + plyErr) 0 16 1
      if 8 ≤ s3.ply.naks then s3.retrain else s3.resend (imgField f.payload 0 2)
    | 4 => (s2.setRole 1 (s2.aon.gen.toNat + 1)).sendFrame 5 0 []
    -- IDLE carries nothing further; HOACK confirms what R469 step 1 has already done
    | _ => s2

/-- The frame is of the type that the command names. -/
def plyTyped (k : Nat) (f : PlyFrame) (s : State) : State := if f.type.toNat = k then plyFrame f s else s

/-! ### Sending records (R463, R472) -/

/-- Sending stops. -/
def State.txStop (s : State) : State := (s.modPly (fun x => { x with txerr := true })).raise plyPage 9

/-- During DRAIN records are sent only with PMU_DRNCFG.ply, before step 4, and only from the reservoir. -/
def State.plyMaySend (s : State) (a : Nat) : Bool :=
  if s.pmu.drain = 0 then true
  else bit (s.reg (pmuPage 2 + pmuDrncfg)) 16 && decide (s.pmu.drain < 4) && (match s.target a with
    | .reservoir _ _ => true
    | _ => false)

/-- The frames of a record: the first and the last marked. -/
def State.sendRecord (s : State) (l : List Byte) (drain replay : Bool) : State :=
  let n := (l.length + 239) / 240
  (List.range n).foldl (fun u i =>
    u.sendFrame 2 (b2n drain + 2 * b2n replay + 4 * b2n (i == 0) + 8 * b2n (i + 1 == n)) (sliceBytes l (240 * i) 240)) s

/-- PLY_RECORD_SEND: record PLY_TXSENT + 1 is read from the ring and sent. -/
def plyRecordSend (s : State) : State :=
  let n := s.txSent + 1
  let a := s.reg64 (plyPage + plyTxbase) % 2 ^ 48 / 64 * 64 + 64 * (n % s.txSlots)
  if !(s.ply.st == .replay || s.ply.st == .sync) || s.ply.txerr || decide (s.txTail < n) || !s.plyMaySend a then s
  else
    let (s1, st, h) := s.memRead 0x33 a 64
    if st ≠ .ok ∨ imgField h 0 4 ≠ 0x524A5A45 ∨ imgField h 8 8 ≠ n then s1.txStop
    else
      let dat := imgField h 5 1 % 2 == 1
      let da := imgField h 0x18 8 % 2 ^ 48
      if dat && !s.plyMaySend da then s
      else
        let (s2, st2, d) := if dat then s1.memRead 0x33 da 16384 else (s1, Status.ok, [])
        if st2 ≠ .ok then s2.txStop
        else
          let rep := decide (n ≤ s.ply.tail0) && s.ply.st == .replay
          let h1 := sliceBytes h 0 0x14 ++ bytesOf 4 (if dat then crc32c d else 0) ++ sliceBytes h 0x18 40
          (s2.sendRecord (h1 ++ d) (s.pmu.mode == .drain) rep).setReg64 (plyPage + plyTxsent) n

/-! ### Commands from registers -/

/-- A write of PLY_TXTAIL (R463), judged against the tail and the ack as they stand. -/
def plyTxtailWrite (ini : Ini) (val : DWord) (s : State) : State :=
  s.regGuard ini (plyPage + plyTxtail) (fun u =>
    if val.toNat < u.txTail ∨ u.txAck + u.txSlots < val.toNat then u.raise plyPage 10 else u.setReg64 (plyPage + plyTxtail) val.toNat)

/-- A write of PLY_CTRL: en, handover, resolve, retrain. -/
def State.plyCtrlAct (s : State) (old v : Word) : State :=
  let s1 := if bit v 0 && !bit old 0 then s.modPly (fun x => { x with st := .train, txerr := false, rxerr := false, shut := false })
    else if !bit v 0 && bit old 0 then
      (s.modPly (fun x => { x with st := .off, present := false, width := 0, peer := none, part := [], placed := [] })).pllSettle
    else s
  let s2 := if bit v 1 then
      (if s1.ply.present && s1.aon.role == 1 then
        (s1.setRole 2 (s1.aon.gen.toNat + 1)).sendFrame 4 0 []
      else s1.raise plyPage 10)
    else s1
  let s3 := if bit v 2 then s2.modPly (fun x => { x with gap := false, conflict := false }) else s2
  if bit v 3 && s3.ply.up then s3.retrain else s3

def plyCtrlWrite (ini : Ini) (val : Word) (s : State) : State :=
  s.regWrite ini (plyPage + Machine.plyCtrl) val (fun v u => u.plyCtrlAct (s.reg (plyPage + Machine.plyCtrl)) v)

/-- A write of PLY_TAKE: from the host or the levee alone, whatever OWNER holds (R470). -/
def plyTakeWrite (ini : Ini) (val : Word) (s : State) : State :=
  if ini = 0x20 ∨ ini = levee then
    (if !s.ply.present && s.aon.role != 1 && val.toNat == s.aon.gen.toNat + 1 then s.setRole 1 val.toNat else s).answer .ok 0
  else (s.violate plyPage 1 ini (plyPage + plyTake) true).answer .ok 0

/-- A word of a register that takes writes only while en is 0 (R474). -/
def plyStoppedWrite (ini : Ini) (off : Nat) (val : Word) (s : State) : State :=
  s.regGuard ini (plyPage + off) (fun u =>
    let lg := fld val 0 4
    if u.plyEn ∨ (off = plyRxcfg ∧ (lg < 4 ∨ 7 < lg)) then u.raise plyPage 10
    else
      let m : Word := if off = plyTxcfg ∨ off = plyRxcfg then 0xF else if off = plyTxbase ∨ off = plyRxbase then 0xFFFFFFC0
        else if off = plyRxdata then 0xFFFFC000 else if off = plyTxbase + 4 ∨ off = plyRxbase + 4 ∨ off = plyRxdata + 4 then 0xFFFF else 0xFFFFFFFF
      u.setReg (plyPage + off) (val &&& m))

/-- A write of PLY_LOSTTO outside 1 to 1,000 is ignored. -/
def losttoWrite (ini : Ini) (val : Word) (s : State) : State :=
  s.regGuard ini (plyPage + plyLostto) (fun u =>
    if 1 ≤ fld val 0 10 ∧ fld val 0 10 ≤ 1000 then u.setReg (plyPage + plyLostto) (val &&& 0x3FF) else u)

def PlySt.code : PlySt → Nat
  | .off => 0 | .train => 1 | .hello => 2 | .replay => 3 | .sync => 4 | .down => 5

/-- PLY_STAT: a part in SOLO that is not PRIMARY is fenced (R466). -/
def State.plyStatWord (s : State) : Word :=
  let x := s.ply
  BitVec.ofNat 32 (x.st.code + 2 ^ 3 * b2n x.present + 2 ^ 4 * s.aon.role + 2 ^ 6 * b2n (s.pmu.mode == .solo && s.aon.role != 1) +
    2 ^ 7 * b2n x.gap + 2 ^ 8 * b2n x.conflict + 2 ^ 9 * b2n x.peerdrain + 2 ^ 10 * x.width + 2 ^ 12 * b2n x.txerr + 2 ^ 13 * b2n x.rxerr)

/-! ### The commands -/

/-- PLY_TRAIN (R459). With en on both parts the ply link trains bit lock, equalisation, deskew and width. -/
def execPlyTrain (lanes : Byte) (preset : Byte) (s : State) : Out :=
  .next (s.gate (plyTrain lanes preset s))

/-- PLY_TRAIN_RETRY (R459). Every 10 ms a down link tries training again. -/
def execPlyTrainRetry (lanes : Byte) (preset : Byte) (s : State) : Out :=
  .next (s.gate (plyTrainRetry lanes preset s))

/-- PLY_FRAME_RECEIVE (R460). A 256-byte frame arrives and its fcrc and ack are taken. -/
def execPlyFrameReceive (f : PlyFrame) (s : State) : Out :=
  .next (s.gate (plyFrame f s))

/-- PLY_IDLE (R460). An IDLE frame carries only the acknowledgement. -/
def execPlyIdle (f : PlyFrame) (s : State) : Out :=
  .next (s.gate (plyTyped 0 f s))

/-- PLY_HELLO (R468). A HELLO frame is exchanged and the roles and generation are resolved. -/
def execPlyHello (f : PlyFrame) (s : State) : Out :=
  .next (s.gate (plyTyped 1 f s))

/-- PLY_REC (R464). REC frames deliver a journal record into the receive ring. -/
def execPlyRec (f : PlyFrame) (s : State) : Out :=
  .next (s.gate (plyTyped 2 f s))

/-- PLY_NAK (R460). A NAK frame makes the transmitter resend from the named frame. -/
def execPlyNak (f : PlyFrame) (s : State) : Out :=
  .next (s.gate (plyTyped 3 f s))

/-- PLY_HANDOVER (R469). A HANDOVER frame makes the peer PRIMARY, which answers HOACK. -/
def execPlyHandover (f : PlyFrame) (s : State) : Out :=
  .next (s.gate (plyTyped 4 f s))

/-- PLY_HOACK (R469). A HOACK frame confirms the handover. -/
def execPlyHoack (f : PlyFrame) (s : State) : Out :=
  .next (s.gate (plyTyped 5 f s))

/-- PLY_RXSEQ_ADVANCE (R465). Once every write of records up to s is done, RXSEQ advances and rx is set. -/
def execPlyRxseqAdvance (s : State) : Out :=
  .next (s.gate (plyRxseqAdvance s))

/-- PLY_LINK_LOST (R461). No valid frame for PLY_LOSTTO or a failed retrain marks the link DOWN. -/
def execPlyLinkLost (s : State) : Out :=
  .next (s.gate (plyLinkLost s))

/-- PLY_TXTAIL_WRITE (R463). A write of PLY_TXTAIL makes records available to send, or is ignored. -/
def execPlyTxtailWrite (ini : Ini) (val : BitVec 64) (s : State) : Out :=
  .next (s.gate (plyTxtailWrite ini val s))

/-- PLY_RECORD_SEND (R463). PLY reads the next record from the transmit ring and sends it. -/
def execPlyRecordSend (s : State) : Out :=
  .next (s.gate (plyRecordSend s))

/-- PLY_HANDOVER_CMD (R469). A write of PLY_CTRL.handover hands the PRIMARY role over. -/
def execPlyHandoverCmd (ini : Ini) (val : Word) (s : State) : Out :=
  .next (s.gate (plyCtrlWrite ini val s))

/-- PLY_RESOLVE (R471). A write of PLY_CTRL.resolve clears gap and conflict. -/
def execPlyResolve (ini : Ini) (val : Word) (s : State) : Out :=
  .next (s.gate (plyCtrlWrite ini val s))

/-- PLY_RETRAIN (R459). A write of PLY_CTRL.retrain retrains the link. -/
def execPlyRetrain (ini : Ini) (val : Word) (s : State) : Out :=
  .next (s.gate (plyCtrlWrite ini val s))

/-- PLY_TAKE (R470). A write of PLY_TAKE makes a cut-off part PRIMARY at the next generation. -/
def execPlyTake (ini : Ini) (val : Word) (s : State) : Out :=
  .next (s.gate (plyTakeWrite ini val s))

/-- PLY_PRESENT_RISE (R471). Present rises once HELLO, replay and acknowledgements are complete. -/
def execPlyPresentRise (s : State) : Out :=
  .next (s.gate (plyPresentRise s))

end Sys2Proof.Machine
end

