-- ==== Sys2Proof/Machine/Window.lean ====
section
/-!
DEFINITION. The device register window (chapter 2): what every register reads, which rule every write follows, the page header,
ownership and lock, and the answers of R33.
-/
namespace Sys2Proof.Machine

/-! ### What a register reads -/

/-- One half of a 64-bit register. -/
def halfOf (d : DWord) (hi : Bool) : Word := if hi then (d >>> 32).setWidth 32 else d.setWidth 32

/-- CAPS (R28): SYS_CAPS holds the grade (R2), OCNr_CAPS the ports of the router (R270). -/
def capsWord (b : Block) (i : Nat) : Word :=
  match b with
  | .sys => if Config.fastGrade then 1 else 2
  | .ocn => BitVec.ofNat 32 (((List.range 4).map (fun p => 2 ^ p * b2n (hasNi (niAt i p)))).sum +
      ((List.range 4).map (fun p => 2 ^ (4 + p) * b2n (meshHop i p).isSome)).sum + 2 ^ 8 * i)
  | _ => BitVec.ofNat 32 (blockCaps b i)

/-- OCNr_STAT: e0 and e1 say whether the router holds flits of each epoch (R265, R270). -/
def State.ocnStatWord (s : State) (r : Nat) : Word :=
  let x := s.router r
  let holds := fun (e : Bool) => x.bufs.any (fun q => q.2.any (fun f => bit f.side 30 == e))
  BitVec.ofNat 32 (b2n x.wpend + 2 * x.wref + 2 ^ 4 * b2n (s.routerClosed r) + 2 ^ 5 * b2n x.drained + 2 ^ 6 * b2n (holds false) +
    2 ^ 7 * b2n (holds true))

def PortState.code : PortState → Nat
  | .opened => 0 | .closing => 1 | .draining => 2 | .down => 3

/-- OCNr_PORT. -/
def State.ocnPortWord (s : State) (r : Nat) : Word :=
  BitVec.ofNat 32 (((List.range 4).map (fun p =>
    let n := niAt r p
    2 ^ (4 * p) * ((s.ni n).port.code + 4 * b2n (s.portDead n) + 8 * b2n (s.ni n).epoch))).sum)

/-- OCNr_WHEEL reads the staged entry of its slot and output. -/
def State.ocnWheelWord (s : State) (r : Nat) : Word :=
  let w := s.reg (ocnPage r + ocnWheel)
  let e := tget 0 (s.router r).staged (64 * fld w 6 3 + fld w 0 6)
  setFld (setFld w 9 3 (e % 8)) 12 1 (e / 8)

/-- FRGn_CHAIN (R93). -/
def State.chainWord (s : State) (r : Nat) : Word := BitVec.ofNat 32 ((s.rgn r).cost + 2 ^ 8 * (s.rgn r).budget)

/-- The calibration item at offset `o` of the CAL page. -/
def calItemAt (o : Nat) : Nat := if o = calXtal then 61 else (o - 0x40) / 4

/-- Registers of the blocks that read live state: `o` is the page offset, `i` the instance or page index; none for a register
that reads what it stores. -/
def State.liveA (s : State) (b : Block) (i o : Nat) : Option Word :=
  match b with
  | .sys =>
    if o = sysDieid then some (halfOf Config.dieId false) else if o = sysDieid + 4 then some (halfOf Config.dieId true)
    else if o = sysSilrev then some (Config.silRev.setWidth 32) else none
  | .pmu =>
    if i = 0 ∧ o = pmuStat then some s.pmuStatWord else if i = 0 ∧ o = pmuRstcause then some (BitVec.ofNat 32 s.pmu.cause)
    else if i = 2 ∧ o = pmuThrstat then some s.thrstatWord else none
  | .lve =>
    if i ≠ 0 then none else if o = lveWinhstat then some (BitVec.ofNat 32 s.winhSources)
    else if o = lveAlog0 then some s.alog0Word else if o = lveAlog1 then some s.alog1Word else none
  | .sec =>
    if i = 0 then
      (if o = secStat then some s.secStatWord else if o = secKeystat then some s.secKeystatWord
       else if o = secFwsvn then some (BitVec.ofNat 32 s.fuses.fwsvn) else none)
    else if i = 3 ∧ secIdpub ≤ o then some (s.idpubWord ((o - secIdpub) / 4)) else none
  | .cal => if o = calFusest then some s.fusestWord else if o = calClrall then some 0 else some (s.calWord (calItemAt o))
  | .aon =>
    if o = aonStat then some s.aonStatWord
    else if o = aonTime then some (halfOf s.aon.time false) else if o = aonTime + 4 then some (halfOf s.aon.time true)
    else if aonTld ≤ o ∧ o < aonTld + 16 then some (s.tldWord ((o - aonTld) / 4))
    else if o = aonTlstat then some s.tlstatWord else none
  | .pio =>
    if i ≠ 0 then none
    else if o < pioPsrc then some (s.pin ((o - pioPin) / 4)).regs.1
    else if o < pioPinstat then some (s.pin ((o - pioPsrc) / 4)).regs.2
    else if o < pioIn0 then some (s.pinstatWord ((o - pioPinstat) / 4))
    else if o = pioIn0 then some (s.pioInWord 0) else if o = pioIn1 then some (s.pioInWord 1)
    else if o = pioBankstat then some s.pioBankWord
    else if o = pioSwbusy then some (BitVec.ofNat 32 s.swbusy) else if o = pioSwbusy + 4 then some (BitVec.ofNat 32 (s.swbusy / 2 ^ 32))
    else none
  | .hts =>
    if i = 0 then
      (if o = htsStat then some s.htsStatWord
       else if htsCore ≤ o ∧ o < htsCore + 16 then some (s.htsCoreWord ((o - htsCore) / 4))
       else if o = htsParklog then some s.parklogWord else if o = htsParkctl then some s.parkctlWord else none)
    else if i = 1 then (if htsTdr ≤ o ∧ o < htsTdr + 32 then some (s.tdrWord ((o - htsTdr) / 4)) else none)
    else if i = 2 then (if o = htsRhead then some s.rheadWord else if o = htsPtgt then some s.ptgtWord else none)
    else if o = htsStdata then some (halfOf s.htsStdataWord false) else if o = htsStdata + 4 then some (halfOf s.htsStdataWord true) else none
  | .ccx =>
    if o = ccxStat then some (s.ccxStatWord i) else if o = ccxBankstat then some (s.bankstatWord i)
    else if ccxBankthr ≤ o ∧ o < ccxBankthr + 16 then some (s.bankthrWord i ((o - ccxBankthr) / 4))
    else if o = ccxFpown then some (s.fpownWord i)
    else if o = ccxStdata then some (halfOf (s.ccxStdataWord i) false) else if o = ccxStdata + 4 then some (halfOf (s.ccxStdataWord i) true)
    else none
  | .atu => if o = atuInvstat then some (BitVec.ofNat 32 (b2n s.atu.busy)) else none
  | _ => none

/-- The same for the other blocks. -/
def State.liveB (s : State) (b : Block) (i o : Nat) : Option Word :=
  match b with
  | .dma =>
    if o = Machine.dmaStat then some (s.dmaStatWord i)
    else if o = dmaTail then some (BitVec.ofNat 32 (s.dmach i).tail) else if o = dmaTail + 4 then some (BitVec.ofNat 32 ((s.dmach i).tail / 2 ^ 32))
    else if o = dmaFault then some (s.dmach i).fault
    else if o = dmaFaddr then some (halfOf (s.dmach i).faddr false) else if o = dmaFaddr + 4 then some (halfOf (s.dmach i).faddr true) else none
  | .dmac =>
    let m := fun (o0 : Nat) (p : DmaState → Bool) => if o = o0 then some (halfOf (s.dmaMap p) false)
      else if o = o0 + 4 then some (halfOf (s.dmaMap p) true) else none
    if o = Machine.dmaStdata then some (halfOf s.dmaStdata false) else if o = Machine.dmaStdata + 4 then some (halfOf s.dmaStdata true)
    else if o = Machine.dmaBufuse then some s.dmaBufuse
    else (m dmaActive (fun x => x != .idle)).or ((m dmaParked (fun x => x == .parked)).or ((m dmaSusp (fun x => x == .suspended)).or
      (m dmaErrmap (fun x => x == .error))))
  | .ocn =>
    if o = Machine.ocnStat then some (s.ocnStatWord i) else if o = Machine.ocnPort then some (s.ocnPortWord i) else if o = ocnWheel then some (s.ocnWheelWord i)
    else if o = ocnStdata then some (halfOf (s.statWord i) false) else if o = ocnStdata + 4 then some (halfOf (s.statWord i) true) else none
  | .rsv =>
    if i ≠ 0 then none else if o = Machine.rsvStat then some s.rsvStat
    else if rsvBown ≤ o then some (s.bownWord ((o - rsvBown) / 4)) else none
  | .sq => if o = sqStat then some (s.sqStatWord i) else none
  | .fcc =>
    if i = 0 then
      (if o = fccStat then some s.fccStatWord else if o = fccLpos then some (BitVec.ofNat 32 s.fcc.h)
       else if o = fccSvn then some (BitVec.ofNat 32 s.fuses.sksvn) else none)
    else if i = 1 then
      (if o = fccUcq then some s.ucqWord else if o = fccUcqpass then some s.ucqPassWord else if o = fccUcqctl then some s.ucqCtlWord
       else if o = fccScrhold then some s.scrholdWord else none)
    else none
  | .frg =>
    if o = frgStat then some (s.frgStatWord i) else if o = frgCtxsel then some (BitVec.ofNat 32 (s.rgn i).sel)
    else if o = frgCtxstat then some (s.ctxstatWord i) else if o = frgHgstat then some (s.hgstatWord i)
    else if o = frgCycle then some (halfOf (s.rgn i).cyc false) else if o = frgCycle + 4 then some (halfOf (s.rgn i).cyc true)
    else if o = frgOpstat then some (s.opstatWord i) else if o = frgChain then some (s.chainWord i) else none
  | .med =>
    if o = medStat then some (s.medStatWord i) else if o = medRla then some (s.rlWord i false) else if o = medRlb then some (s.rlWord i true)
    else if o = medLunstat then some (s.lunstatWord i) else if o = medLuntime then some (s.luntimeWord i)
    else if o = medTrnstat then some (s.trnstatWord i) else none
  | .medc =>
    if o = medPctrl then some (BitVec.ofNat 32 (b2n s.medc.active)) else if o = medPstat then some s.pstatWord
    else if o = medRtya then some (s.rtyWord false) else if o = medRtyb then some (s.rtyWord true)
    else if o = medKeystat then some (halfOf s.keystatWord false) else if o = medKeystat + 4 then some (halfOf s.keystatWord true)
    else if o = medInhibit then some s.inhibitWord else none
  | .mgd => if o = mgdStat then some s.mgdStatWord else none
  | .drc => if i ≠ 0 then (if drcTrn ≤ o ∧ o < drcTrn + 32 then some (s.drcTrnWord ((o - drcTrn) / 4)) else none) else if o = Machine.drcStat then some s.drcStat else if o = drcHvstat then some s.drcHvstatWord else none
  | .hif =>
    if i = 0 then (if o = hifStat then some s.hifStatWord else none)
    else if i = 3 then
      let n := s.nvSel
      (if o = hifDbval then some s.dbvalWord else if o = hifNvcc then some n.cc else if o = hifNvcsts then some n.csts
       else if o = hifNvaqa then some n.aqa
       else if o = hifNvasq then some (halfOf n.asq false) else if o = hifNvasq + 4 then some (halfOf n.asq true)
       else if o = hifNvacq then some (halfOf n.acq false) else if o = hifNvacq + 4 then some (halfOf n.acq true)
       else if o = hifTdistat then some s.tdistatWord else none)
    else none
  | .ply => if o = plyStat then some s.plyStatWord else if o = plyGen then some s.aon.gen else none
  | .trc => if i = 1 ∧ o = trcPrbstat then some s.prbstatWord else none
  | _ => none

/-- The register word at `off` of a page (R28, R33): ID, CAPS, OWNER and LOCK of the block, live state, or the stored word; an
offset that holds no register reads zero. -/
def State.regRead (s : State) (off : Nat) : Word :=
  match blockAt off with
  | none => 0
  | some r =>
    let o := off % 0x1000
    let i := pageIdx r off
    if o = hId then BitVec.ofNat 32 (r.type + 2 ^ 16 * i + 2 ^ 24)
    else if o = hCaps then capsWord r.blk i
    else if o = hOwner then s.reg (headPage off + hOwner)
    else if o = hLock then s.reg (headPage off + hLock)
    else if o < 0x40 ∧ hEvtRaw ≤ o then s.reg off
    else match regDefAt off with
      | none => 0
      | some _ => ((s.liveA r.blk i o).or (s.liveB r.blk i o)).getD (s.reg off)

/-! ### Writes that follow a rule of their own -/

/-- A write of SYS_HOSTDB: open to every initiator (R31, R38). -/
def hostDoorbell (val : Word) (s : State) : State :=
  ((List.range 16).foldl (fun u i => if bit val i then u.raise sysPage i else u) s).answer .ok 0

/-- A write of FCC_STGCFG outside its range is ignored and sets cmdig (R146). -/
def stgcfgWrite (ini : Ini) (val : Word) (s : State) : State :=
  s.regGuard ini (fccPg + fccStgcfg) (fun u =>
    let n := fld val 8 8
    if n = 0 ∨ 0x80 < n ∨ 256 < fld val 0 8 + n then u.raise fccPg 6 else u.setReg (fccPg + fccStgcfg) (val &&& 0xFFFF))

/-- A write of OCNr_TMO outside 1 to 1,000 is ignored (R270). -/
def ocnTmoWrite (ini : Ini) (r : Nat) (val : Word) (s : State) : State :=
  s.regGuard ini (ocnPage r + ocnTmo) (fun u =>
    if 1 ≤ fld val 0 10 ∧ fld val 0 10 ≤ 1000 then u.setReg (ocnPage r + ocnTmo) (val &&& 0x3FF) else u)

/-- The word of PIO_OUT, PIO_OE, PIO_OUTSET or PIO_OUTCLR at page offset `o`. -/
def gpioIndex (o : Nat) : Nat := (o - pioOut0) / 4

/-- A write of a block's own register with a rule of its own, none where the field-by-field write of R9 is the whole rule. -/
def writeA (ini : Ini) (b : Block) (i o : Nat) (val : Word) : Option (State → State) :=
  match b with
  | .sys => if o = sysHostdb then some (hostDoorbell val) else none
  | .pmu =>
    if i = 0 then
      (if o = pmuModereq then some (modeRequest ini val) else if o = pmuRstreq then some (rstreqWrite ini val)
       else if o = pmuFrgrst then some (fabricRegionReset ini val) else if o = pmuCorerst then some (coreResetCmd ini val) else none)
    else if i = 1 then
      (if o = pmuFplla then some (fpllWrite ini false val) else if o = pmuFpllb then some (fpllWrite ini true val)
       else if o = pmuPmbcmd then some (pmbusCommand ini val) else none)
    else none
  | .lve =>
    if i ≠ 0 then none
    else if o = lveCtrl then some (lveCtrlWrite ini val) else if o = lveAlogctl then some (alogPop ini val)
    else if o = lveWinh ∨ o = lveWinhcfg then some (winhWrite ini (page .lve 0 + o) val)
    else if o = lveLastflt then some (lastfltWrite ini val) else if o = lveSelfkick then some (selfkickWrite ini val) else none
  | .sec =>
    if i ≠ 0 then none
    else if o = secCmd then some (secCmdWrite ini val none) else if o = secTamper then some (tamperClear ini val) else none
  | .cal => if o = calClrall then some (calClearAll ini val) else none
  | .aon => if o = aonCtrl then some (timeLoad ini val) else if o = aonTlctrl then some (tornLogFree ini val) else none
  | .pio =>
    if i ≠ 0 then none
    else if o < pioPsrc then some (pinConfigWrite ini ((o - pioPin) / 4) false val)
    else if o < pioPinstat then some (pinConfigWrite ini ((o - pioPsrc) / 4) true val)
    else if pioOut0 ≤ o ∧ o < pioBankstat then some (gpioOutputWrite ini (gpioIndex o) val) else none
  | .hts =>
    if i = 0 then (if o = htsCmd then some (htsCmdWrite ini val) else if o = htsParkctl then some (parklogPop ini val) else none)
    else if i = 2 then (if o = htsRhead then some (headWrite ini val) else if o = htsPtgt then some (ptgtWrite ini val) else none)
    else none
  | .atu => if o = atuInval then some (atuInvalidate ini val) else none
  | _ => none

/-- The same for the other blocks. -/
def writeB (ini : Ini) (b : Block) (i o : Nat) (val : Word) : Option (State → State) :=
  match b with
  | .dma =>
    if o = dmaCtrl then some (dmaCtrlWrite ini i val) else if o = dmaAppend then some (dmaAppendCmd ini i val)
    else if o = dmaCfg ∨ o = dmaPc ∨ o = dmaPc + 4 then some (dmaIdleWrite ini i o val) else none
  | .dmac => if o = dmaPacecfg then some (pacecfgWrite ini val) else none
  | .ocn =>
    if o = ocnCtrl then some (ocnCtrlWrite ini i val) else if o = ocnTmo then some (ocnTmoWrite ini i val)
    else if o = ocnDead then some (deadReopen ini i val) else if o = ocnClose then some (routerClose ini i val)
    else if o = ocnEpoch then some (epochFlip ini i val) else if o = ocnWheel then some (wheelStage ini i val) else none
  | .rsv => if i = 0 ∧ o = rsvBhand then some (bankHandover ini val) else none
  | .sq => if o = sqCtrl then some (sqCtrlWrite ini i val) else if o = sqWeir then some (weirWrite ini i val) else none
  | .fcc =>
    if i = 0 then (if o = fccCtrl then some (fccCtrlWrite ini val) else if o = fccStgcfg then some (stgcfgWrite ini val) else none)
    else if i = 1 then
      (if o = fccScrctrl then some (scrctrlWrite ini val) else if o = fccScrrate then some (scrrateWrite ini val)
       else if o = fccUcqctl then some (ucqPop ini val) else if o = fccScrhold then some (holdClear ini val)
       else if o = fccInteg then some (integClear ini val) else none)
    else if i = 2 ∧ o = fccCapctrl then some (capCtrlWrite ini val) else none
  | .frg =>
    if o = Machine.frgCtrl then some (castonWrite ini i val) else if o = frgCtxsel then some (ctxselRequest ini i val)
    else if o = frgOpsel then some (opselWriteCmd ini i val) else none
  | .med =>
    if o = Machine.medCtrl then some (medAbort ini i val) else if o = medCmdgo then some (descriptorSubmit ini i val)
    else if o = medIfcfg then some (ifcfgWrite ini i val)
    else if o = medRla then some (rlWrite ini i false val) else if o = medRlb then some (rlWrite ini i true val) else none
  | .medc =>
    if o = medPctrl then some (programSwap ini val) else if o = medPlctl then some (programLoad ini val)
    else if o = medRtya then some (rtyWrite ini false val) else if o = medRtyb then some (rtyWrite ini true val)
    else if o = medKeysel then some (keySlotErase ini val) else if medKey ≤ o then some (medKeyWrite ini ((o - medKey) / 4) val) else none
  | .drc =>
    if i ≠ 0 then none
    else if o = drcHvbase then some (hvRangeWrite ini false val) else if o = drcHvsize then some (hvRangeWrite ini true val)
    else if o = drcHvctrl then some (hvClear ini val) else none
  | .hif =>
    if i = 0 then
      (if o = hifMsix then some (msixSend ini val) else if o = hifDbbase then some (dbbaseWrite ini val)
       else if o = hifPabase then some (pabaseWrite ini false val) else if o = hifPabase + 4 then some (pabaseWrite ini true val) else none)
    else if i = 1 then some (owWrite ini ((o - hifOwLo) / 16) ((o - hifOwLo) % 16 / 4) val)
    else if i = 3 ∧ o = hifNvcsts then some (nvcstsWrite ini val) else none
  | .trc =>
    if i = 0 then
      (if trcOpCfg ≤ o ∧ o < trcOpCfg + 0x40 ∧ o % 16 < 8 then some (probeCfgWrite ini ((o - trcOpCfg) / 16) (decide (o % 16 = 4)) val) else none)
    else if o < trcPrbstat then some (prbWrite ini ((o - trcPrb) / 4) val) else none
  | _ => none

/-- The same for PLY, of whose PLY_TXTAIL a 32-bit write keeps the other half (R463, R474). -/
def State.writePly (s : State) (ini : Ini) (o : Nat) (val : Word) : Option (State → State) :=
  if o = Machine.plyCtrl then some (plyCtrlWrite ini val) else if o = plyTake then some (plyTakeWrite ini val)
  else if o = plyTxtail then some (plyTxtailWrite ini (BitVec.ofNat 64 (val.toNat + 2 ^ 32 * (s.reg (plyPage + plyTxtail + 4)).toNat)))
  else if o = plyTxtail + 4 then some (plyTxtailWrite ini (BitVec.ofNat 64 ((s.reg (plyPage + plyTxtail)).toNat + 2 ^ 32 * val.toNat)))
  else if o = plyTxbase ∨ o = plyTxbase + 4 ∨ o = plyTxcfg ∨ o = plyRxbase ∨ o = plyRxbase + 4 ∨ o = plyRxdata ∨ o = plyRxdata + 4 ∨
      o = plyRxcfg ∨ o = plyRxseq ∨ o = plyRxseq + 4 then some (plyStoppedWrite ini o val)
  else if o = plyLostto then some (losttoWrite ini val) else none

/-- SYS_MBOX0 to 31 take writes of every initiator (R31, R38). -/
def openMbox (b : Block) (o : Nat) : Bool := b == .sys && decide (sysMbox ≤ o) && decide (o < sysMbox + 0x80)

/-- A 32-bit write of a register that the block defines. -/
def State.ownWrite (s : State) (ini : Ini) (off : Nat) (val : Word) : State :=
  match blockAt off, regDefAt off with
  | some r, some _ =>
    let o := off % 0x1000
    let i := pageIdx r off
    if openMbox r.blk o then (s.setReg off val).answer .ok 0
    else
      match (if r.blk == .ply then s.writePly ini o val else (writeA ini r.blk i o val).or (writeB ini r.blk i o val)) with
      | some f => f s
      | none => s.regWrite ini off val (fun _ u => u)
  | _, _ => s.answer .ok 0

/-! ### The page header (R28 to R35) -/

/-- Every field of the LVE pages is SP, the header's too (R409). -/
def headerSp (off : Nat) : Bool := (blockAt off).any (fun r => r.blk == .lve)

/-- A write of a header register: ownership, and SP on the LVE pages, before the action. -/
def State.headerWrite (s : State) (ini : Ini) (off : Nat) (act : State → State) : State :=
  let pg := off / 0x1000 * 0x1000
  (if !s.mayWrite ini off then s.violate pg 1 ini off true
   else if headerSp off && ini != levee then s.refuseSp ini off
   else act s).answer .ok 0

/-- A write of OWNER (R30): the levee writes any identifier; others claim an unowned page for themselves, or write as its owner. A
page other than the first of its block ignores it (R28), and records the owner violation of a write that R31 forbids. -/
def State.ownerWrite (s : State) (ini : Ini) (off : Nat) (val : Word) : State :=
  let pg := off / 0x1000 * 0x1000
  let id : Ini := val.setWidth 8
  (if !s.mayWrite ini off then s.violate pg 1 ini off true
   else if pg ≠ headPage off then s
   else if headerSp off && ini != levee then s.refuseSp ini off
   else if ini == levee || (s.owner off == 0 && id == ini && ini != 0) || (s.owner off != 0 && s.owner off == ini) then
     s.setReg (pg + hOwner) (id.setWidth 32)
   else s.violate pg 1 ini off true).answer .ok 0

/-- A write of LOCK (R32): a 1 sets it, nothing but a reset clears it; a page other than the first of its block ignores it (R28), and
records the owner violation of a write that R31 forbids. -/
def State.lockWrite (s : State) (ini : Ini) (off : Nat) (val : Word) : State :=
  let pg := off / 0x1000 * 0x1000
  if pg ≠ headPage off then (if !s.mayWrite ini off then s.violate pg 1 ini off true else s).answer .ok 0
  else s.headerWrite ini off (fun u => if bit val 0 then u.setReg (pg + hLock) 1 else u)

/-- A write of EVT_BASE (R35). -/
def State.evtBaseWrite (s : State) (ini : Ini) (off : Nat) (val : Word) : State :=
  let pg := off / 0x1000 * 0x1000
  s.headerWrite ini off (fun u =>
    if 0x1FE0 < fld val 0 13 then u.violate pg 4 ini off true else u.setReg (pg + hEvtBase) (BitVec.ofNat 32 (fld val 0 13)))

/-- One 32-bit write to a page (R9, R33). A write of ID, CAPS or STAT is ignored: R31 does not count them among the fields that
ownership covers; CTRL is covered on a page that gives it no field too. -/
def State.wordWrite (s : State) (ini : Ini) (off : Nat) (val : Word) : State :=
  let pg := off / 0x1000 * 0x1000
  let o := off % 0x1000
  if o = hEvtRaw then s.headerWrite ini off (fun u => u.modReg off (fun w => w &&& ~~~val))
  else if o = hEvtEn then s.headerWrite ini off (fun u => u.setReg off val)
  else if o = hEvtBase then s.evtBaseWrite ini off val
  else if o = hErr then s.headerWrite ini off (fun u => u.modReg (pg + hErr) (fun w => w &&& ~~~(val &&& 0x8000001F)))
  else if o = hOwner then s.ownerWrite ini off val
  else if o = hLock then s.lockWrite ini off val
  else if o = hId ∨ o = hCaps ∨ o = hStat then s.answer .ok 0
  else if o = hCtrl ∧ (regDefAt off).isNone then (if s.mayWrite ini off then s else s.violate pg 1 ini off true).answer .ok 0
  else s.ownWrite ini off val

/-! ### Accesses (R24, R33) -/

/-- The access has a width and alignment that the window accepts (R24). -/
def widthOk (off len : Nat) : Bool := (len == 4 && off % 4 == 0) || (len == 8 && off % 8 == 0)

/-- The word at `off` belongs to a declared 64-bit register. -/
def wideAt (off : Nat) : Bool := (regDefAt off).any (fun d => d.wide)

/-- A write of either half of the 64-bit register at `off` would be ignored and reported: of a 64-bit access only the first half is
performed, so that it is reported once. -/
def State.pairShut (s : State) (ini : Ini) (off : Nat) : Bool :=
  !s.mayWrite ini off || (s.locked off && (regDefAt off).any (fun d => d.rwl != 0)) ||
  (match blockAt off with
    | some r =>
      let o := off % 0x1000
      match r.blk with
      | .dma => o == dmaPc && (s.dmach (pageIdx r off)).st != .idle && (s.dmach (pageIdx r off)).st != .error
      | .ply => s.plyEn && (o == plyTxbase || o == plyRxbase || o == plyRxdata || o == plyRxseq)
      | _ => false
    | none => false)

/-- A 64-bit access to a declared 64-bit register is one access; a value that a half refuses is not stored in the other. -/
def State.pairWrite (s : State) (ini : Ini) (off : Nat) (val : DWord) : State :=
  if off = plyPage + plyTxtail then plyTxtailWrite ini val s
  else if off = hifPage 0 + hifPabase ∧ val.toNat % 2 ^ 46 ≠ 0 then pabaseWrite ini false 1 s
  else if s.pairShut ini off then s.wordWrite ini off (halfOf val false)
  else (s.wordWrite ini off (halfOf val false)).wordWrite ini (off + 4) (halfOf val true)

/-- A write of `len` bytes at window offset `off` (R24, R33, R39, R506). -/
def State.windowWrite (s : State) (ini : Ini) (off len : Nat) (val : DWord) : State :=
  if 0x1000000 ≤ off ∧ off < 0x1100000 then aperturePush ini (off - 0x1000000) len val s
  else if 0x240000 ≤ off ∧ off < 0x300000 then routeTableWrite ini ((off - 0x240000) / 0x1000) (off % 0x1000) len val s
  else match blockAt off with
    | none => (s.holeCapture ini off true).answer .decErr 0
    | some _ =>
      if !widthOk off len then (s.violate (off / 0x1000 * 0x1000) 0 ini off true).answer .slvErr 0
      else if len = 4 then s.wordWrite ini off (val.setWidth 32)
      else if wideAt off then s.pairWrite ini off val
      else (s.wordWrite ini off (halfOf val false)).wordWrite ini (off + 4) (halfOf val true)

/-- The 64-bit value that a read of `len` bytes returns. -/
def State.windowValue (s : State) (off len : Nat) : DWord :=
  let w := fun (o : Nat) =>
    if 0x240000 ≤ o ∧ o < 0x300000 then
      halfOf (s.route ((o - 0x240000) / 0x1000) (o % 0x1000 / 0x800) (o % 0x800 / 8)) (decide (o % 8 = 4))
    else s.regRead o
  BitVec.ofNat 64 ((w off).toNat + (if len = 8 then 2 ^ 32 * (w (off + 4)).toNat else 0))

/-- A read of `len` bytes at window offset `off` (R24, R26, R33). Nothing but the violation records and the model's count of free
values changes. -/
def State.windowRead (s : State) (ini : Ini) (off len : Nat) : State :=
  if 0x1000000 ≤ off ∧ off < 0x1100000 then s.answer .ok 0
  else if 0x240000 ≤ off ∧ off < 0x300000 then
    (if widthOk off len then s.answer .ok (s.windowValue off len) else s.answer .slvErr 0)
  else match blockAt off with
    | none => (s.holeCapture ini off false).answer .decErr 0
    | some _ =>
      if widthOk off len then ({ s with fresh := s.fresh + 1 }).answer .ok (s.windowValue off len)
      else (s.violate (off / 0x1000 * 0x1000) 0 ini off false).answer .slvErr 0

/-! ### The commands' operations -/

/-- UNMAPPED_ACCESS (R18). -/
def unmappedAccess (a : Nat) (s : State) : State :=
  match s.target a with
  | .unmapped => s.answer .decErr 0
  | _ => s

/-- HOLE_ACCESS (R39): the offset lies in no page, no table and outside the aperture. -/
def holeAccess (ini : Ini) (off : Nat) (wr : Bool) (s : State) : State :=
  if (blockAt off).isNone ∧ ¬ (0x1000000 ≤ off ∧ off < 0x1100000) ∧ ¬ (0x240000 ≤ off ∧ off < 0x300000) then
    ((s.holeCapture ini off wr).answer .decErr 0).hostSees ini
  else s

/-- A header register of page `p` of the window, where such a page exists. -/
def State.onPage (s : State) (p : Nat) (f : Nat → State) : State :=
  match blockAt (0x1000 * p) with
  | some _ => f (0x1000 * p)
  | none => s

def ownerWriteCmd (ini : Ini) (p : Nat) (val : Word) (s : State) : State := s.onPage p (fun pg => s.wordWrite ini (pg + hOwner) val)
def lockSetCmd (ini : Ini) (p : Nat) (val : Word) (s : State) : State := s.onPage p (fun pg => s.wordWrite ini (pg + hLock) val)
def evtBaseWriteCmd (ini : Ini) (p : Nat) (val : Word) (s : State) : State := s.onPage p (fun pg => s.wordWrite ini (pg + hEvtBase) val)

/-! ### The commands -/

/-- OWNER_WRITE (R30). A write to OWNER claims, transfers or releases the page under the ownership rules. -/
def execOwnerWrite (ini : Ini) (page : Fin 8192) (val : Word) (s : State) : Out :=
  .next (s.gate (ownerWriteCmd ini page.val val s))

/-- LOCK_SET (R32). A write of 1 to LOCK.lock makes every RWL field of the block read-only until a reset. -/
def execLockSet (ini : Ini) (page : Fin 8192) (val : Word) (s : State) : Out :=
  .next (s.gate (lockSetCmd ini page.val val s))

/-- EVT_BASE_WRITE (R35). A write to EVT_BASE sets the HTS event base, or is ignored as a range violation above 0x1FE0. -/
def execEvtBaseWrite (ini : Ini) (page : Fin 8192) (val : Word) (s : State) : Out :=
  .next (s.gate (evtBaseWriteCmd ini page.val val s))

/-- HOLE_ACCESS (R39). An access to a window hole is answered DECERR and captured in SYS_WERR. -/
def execHoleAccess (ini : Ini) (off : BitVec 25) (wr : Bool) (s : State) : Out :=
  .next (s.gate (holeAccess ini off.toNat wr s))

/-- UNMAPPED_ACCESS (R18). An access to an unmapped device physical address is not performed and the initiator NI returns DECERR. -/
def execUnmappedAccess (ini : Ini) (addr : BitVec 48) (wr : Bool) (s : State) : Out :=
  .next (s.gate (unmappedAccess addr.toNat s))

/-- HOST_DOORBELL (R38). A write to SYS_HOSTDB sets the named SYS_EVT_RAW doorbell bits as occurrences. -/
def execHostDoorbell (ini : Ini) (val : Word) (s : State) : Out :=
  .next (s.gate (hostDoorbell val s))

end Sys2Proof.Machine
end

