-- ==== Sys2Proof/Machine/Translate.lean ====
section
/-!
DEFINITION. The ATU's translations (R345): the context table and the page tables, read wherever they lie, and the IOTLB.
-/
namespace Sys2Proof.Machine

/-- A unit reads `n` bytes wherever they lie: in the window by its rules (R23, R24, R33), else as memory. -/
def State.unitRead (s : State) (ini : Ini) (a n : Nat) : State × Status × List Byte :=
  match s.target a with
  | .window o =>
    match s.reach ini true a false with
    | (s0, .ok) =>
      let s1 := s0.windowRead ini o n
      (s1, s1.ans.status, bytesOf n s1.ans.data.toNat)
    | (s0, st) => (s0, st, List.replicate n 0)
  | _ => s.memRead ini a n

/-- Walk from the table at page `ppn` and `level` (3 is the root): the leaf with its level, or the fault. -/
def State.walk (s : State) (ini : Ini) (va : Nat) : Nat → Nat → State × Except XFault (Nat × Nat)
  | ppn, level =>
    let a := ppn * 4096 + 8 * nfld va (12 + 9 * level) 9
    let (s1, st, l) := s.unitRead ini a 8
    let pte := ofBytes l
    let b := Nat.testBit pte
    if st ≠ .ok then (s1, .error .walk)
    else if !b 0 || (b 2 && !b 1) || nfld pte 54 10 ≠ 0 then (s1, .error .invalid)
    else if b 1 || b 3 then (s1, .ok (pte, level))
    else if b 4 || b 6 || b 7 then (s1, .error .invalid)
    else match level with
      | 0 => (s1, .error .invalid)
      | n + 1 => s1.walk ini va (nfld pte 10 44) n

/-- A translation by context `atc`: the physical address, or the cause. -/
def State.atuLookup (s : State) (ini : Ini) (atc va : Nat) (wr : Bool) : State × Except XFault Nat :=
  if fld (s.reg (atuPage + atuCtxn)) 0 11 ≤ atc then (s, .error .ctx)
  else
    let (s1, st, l) := s.unitRead ini (s.reg64 (atuPage + atuCtxbase) % 2 ^ 48 / 16 * 16 + 16 * atc) 16
    let w0 := ofBytes (l.take 8)
    let w1 := ofBytes (l.drop 8)
    if st ≠ .ok then (s1, .error .walk)
    else if nfld w0 60 4 ≠ 9 then (s1, .error .ctx)
    else
      let r : XReq := { wr := wr, user := Nat.testBit w1 0, sum := Nat.testBit w1 1 }
      let use := fun (u : State) (pte level : Nat) => match leafFault r pte level with
        | some f => (u, Except.error f)
        | none => (u, Except.ok (leafAddr pte level va))
      let (s2, hit) := s1.tlbHit s1.atu.tlb atc va
      match hit with
      | some e => use s2 e.pte e.level
      | none =>
        match s2.walk ini va (nfld w0 0 44) 3 with
        | (s3, .error f) => (s3, .error f)
        | (s3, .ok (pte, level)) =>
          let (s4, l') := s3.addTlb s3.atu.tlb 1024 ⟨some atc, nfld va 12 36 / 2 ^ (9 * level), level, pte⟩
          use { s4 with atu := { s4.atu with tlb := l' } } pte level

/-- A translation for an initiator; a fault is captured. -/
def State.atuTranslate (s : State) (ini : Ini) (atc va : Nat) (wr : Bool) : State × Option Nat :=
  match s.atuLookup ini atc va wr with
  | (s1, .ok pa) => (s1, some pa)
  | (s1, .error f) => (s1.atuFault ini atc va f.code, none)

/-- ATU_TRANSLATE: the translation is returned to its initiator: the physical address, or a status other than OK. -/
def atuTranslateCmd (ini : Ini) (atc va : Nat) (wr : Bool) (s : State) : State :=
  match s.atuTranslate ini atc va wr with
  | (s1, some pa) => s1.answer .ok (BitVec.ofNat 64 pa)
  | (s1, none) => s1.answer .slvErr 0

/-! ### The commands -/

/-- ATU_TRANSLATE (R345). The ATU translates an address for a DMA channel or HIF engine, or faults. -/
def execAtuTranslate (ini : Ini) (atc : BitVec 16) (va : BitVec 48) (wr : Bool) (s : State) : Out :=
  .next (s.gate (atuTranslateCmd ini atc.toNat va.toNat wr s))

end Sys2Proof.Machine
end

