-- ==== Sys2Proof/Machine/DmaRun.lean ====
section
/-!
DEFINITION. The DMA channels' bursts (chapter 13): MOVE, the reads it launches and the writes it issues, their answers, pacing and
translation; and one access of a unit of the part to the whole device physical address space.
-/
namespace Sys2Proof.Machine

/-! ### The fields of a MOVE (R298, R305) -/

def DmaMove.skind (m : DmaMove) : Nat := fld m.w0 8 2
def DmaMove.dkind (m : DmaMove) : Nat := fld m.w0 10 2
def DmaMove.pmode (m : DmaMove) : Nat := fld m.w0 12 2
def DmaMove.pq (m : DmaMove) : Nat := fld m.w0 14 7
def DmaMove.pkt (m : DmaMove) : Bool := bit m.w0 22
def DmaMove.len (m : DmaMove) : Nat := fld m.w0 32 32
/-- The class of the transform it applies. -/
def DmaMove.cls (m : DmaMove) : Nat := if bit m.w0 21 then fld m.xf 8 2 else 0
def DmaMove.bitplane (m : DmaMove) : Bool := m.cls == 2 && bit m.xf 19
def DmaMove.inter (m : DmaMove) : Bool := m.cls == 2 && !bit m.xf 19 && !bit m.xf 18
def DmaMove.deinter (m : DmaMove) : Bool := m.cls == 2 && !bit m.xf 19 && bit m.xf 18
def DmaMove.lanes (m : DmaMove) : Nat := fld m.xf 12 4 + 1
def DmaMove.esize (m : DmaMove) : Nat := 2 ^ fld m.xf 16 2
/-- Bytes over which the transform reaches: a group is transformed alone. -/
def DmaMove.group (m : DmaMove) : Nat :=
  if m.cls = 1 then (match fld m.xf 10 2 with
    | 0 => 2 | 1 => 4 | 2 => 8 | _ => 4)
  else if m.bitplane then 128 else 1

/-- What len must be a multiple of (R305). -/
def DmaMove.unit (m : DmaMove) : Nat := if m.inter || m.deinter then m.lanes * m.esize else m.group

/-- A route value that is not reserved. -/
def routeValOk (w : DWord) : Bool := fld w 56 8 == 0 || decide (0xC0 ≤ fld w 56 8)

/-- The conditions of R297 to R300 and R305 on a MOVE; a MOVE that fails one is PROGERR. -/
def DmaMove.ok (m : DmaMove) : Bool :=
  !reservedBits m.w0 [(0, 23), (32, 32)] && m.skind != 3 && decide (m.dkind < 2) && m.pmode != 3 && (!m.pkt || m.skind == 1) && m.len != 0 &&
  (m.skind == 2 || routeValOk m.w1) && routeValOk m.w2 &&
  (match m.skind with
    | 0 => !reservedBits m.w1 [(0, 49), (56, 8)]
    | 1 => !reservedBits m.w1 [(0, 7), (56, 8)] && (m.pkt || m.len % 64 == 0)
    | _ => decide (m.len ≤ 8) && m.dkind == 0) &&
  (if m.dkind = 0 then !reservedBits m.w2 [(0, 49), (56, 8)]
   else !reservedBits m.w2 [(0, 19), (56, 8)] && (m.pkt || m.len % (if bit m.w2 18 then 8 else 4) == 0)) &&
  m.len % m.unit == 0 && (!m.inter || m.skind == 0) && (!m.deinter || m.dkind == 0)

/-! ### Addresses of stream bytes -/

/-- Offset from the operand's address of stream byte `p`, spread over lanes (R305). -/
def DmaMove.lane (m : DmaMove) (p : Nat) : Nat :=
  let e := m.esize
  (p / e) % m.lanes * (64 * fld m.xf 24 24) + p / e / m.lanes * e + p % e

/-- Address of source stream byte `p`, before translation. -/
def DmaMove.srcAddr (m : DmaMove) (p : Nat) : Nat :=
  (((fld m.w1 0 48 : Nat) : Int) + m.soff + ((if m.inter then m.lane p else p : Nat) : Int)).emod (2 ^ 48) |>.toNat

/-- Address of destination stream byte `p`, before translation. -/
def DmaMove.dstAddr (m : DmaMove) (p : Nat) : Nat :=
  (((fld m.w2 0 48 : Nat) : Int) + m.doff + ((if m.deinter then m.lane p else p : Nat) : Int)).emod (2 ^ 48) |>.toNat

/-- Addresses as spans that rise byte by byte. -/
def runsOf (l : List Nat) : List (Nat × Nat) :=
  (l.foldl (fun (acc : List (Nat × Nat)) a =>
    match acc with
    | (b, n) :: t => if b + n = a then (b, n + 1) :: t else (a, 1) :: acc
    | [] => [(a, 1)]) []).reverse

/-! ### Transforms (R305) -/

/-- Output word i bit j = input word j bit i, over the 32 words of a block. -/
def bitplaneBlock (l : List Byte) : List Byte :=
  let w := (List.range 32).map (fun j => ofBytes (sliceBytes l (4 * j) 4))
  (List.range 32).flatMap (fun i => bytesOf 4 ((w.zipIdx.map (fun p => nfld p.1 i 1 * 2 ^ p.2)).sum))

/-- `n` free bytes. -/
def State.freeBytes (s : State) : Nat → State × List Byte
  | 0 => (s, [])
  | n + 1 =>
    let (k, s1) := s.freeNat 256
    let (s2, l) := s1.freeBytes n
    (s2, BitVec.ofNat 8 k :: l)

/-- Bitplane over bytes that begin at stream position `pos`: whole blocks are transformed; what a block that a packet's end or its
first word cuts becomes is not stated: free bytes. -/
def State.bitplaneSpan (s : State) (pos : Nat) (l : List Byte) : State × List Byte :=
  let pre := min l.length ((128 - pos % 128) % 128)
  let body := (l.length - pre) / 128
  let (s1, a) := s.freeBytes pre
  let (s2, c) := s1.freeBytes (l.length - pre - 128 * body)
  (s2, a ++ (List.range body).flatMap (fun i => bitplaneBlock (sliceBytes l (pre + 128 * i) 128)) ++ c)

/-- The transform of bytes that begin at stream position `pos`, a group boundary but for bitplane. -/
def State.transform (s : State) (m : DmaMove) (pos : Nat) (l : List Byte) : State × List Byte :=
  if m.bitplane then s.bitplaneSpan pos l
  else if m.cls = 1 then
    let c := match fld m.xf 10 2 with
      | 0 => 1 | 1 => 3 | 2 => 7 | _ => 2
    (s, (List.range l.length).map (fun i => l.getD (Nat.xor i c) 0))
  else (s, l)

/-! ### Translation and routes -/

/-- Translate byte addresses through the ATU in the channel's context, a page at a time (R314); a fault is captured. -/
def State.dmaTranslate (s : State) (n : Nat) (virt wr : Bool) (l : List Nat) : State × Except XFault (List Nat) :=
  if !virt then (s, .ok l)
  else
    let atc := fld (s.reg (dmaPage n + dmaCfg)) 16 16
    let pages := (l.map (· / 4096)).dedup
    let r := pages.foldl (fun (acc : State × Except XFault (List (Nat × Nat))) p =>
      match acc.2 with
      | .error f => (acc.1, Except.error f)
      | .ok done =>
        let va := (l.find? (fun a => a / 4096 == p)).getD 0
        match acc.1.atuLookup (dmaIni n) atc va wr with
        | (u, .ok pa) => (u, .ok ((p, pa / 4096) :: done))
        | (u, .error f) => (u.atuFault (dmaIni n) atc va f.code, .error f)) (s, Except.ok [])
    match r with
    | (u, .error f) => (u, .error f)
    | (u, .ok map) => (u, .ok (l.map (fun a =>
        ((map.find? (fun e => e.1 == a / 4096)).map (·.2)).getD 0 * 4096 + a % 4096)))

/-- The route of an operand word from NI `i` to NI `t` is a valid entry of the bank in use (R251, R298). -/
def State.routeGood (s : State) (i : Nat) (w : DWord) (t : Nat) : Bool :=
  rtValid (s.route i (b2n (s.ni i).epoch) (if fld w 56 8 = 0 then t else fld w 56 8))

/-- Every span lies at a target that the route reaches. -/
def State.runsGood (s : State) (i : Nat) (w : DWord) (runs : List (Nat × Nat)) : Bool :=
  runs.all (fun r => match s.addrNi r.1 with
    | some t => s.routeGood i w t
    | none => false)

/-- A translation of burst `k` faults: the record, SUSPENDED and EVT_RAW.fault (R314); an abort in progress goes first. -/
def State.dmaSuspend (s : State) (n k : Nat) (wr : Bool) (f : XFault) (addr : Nat) : State :=
  (s.modDma n (fun x => { x with
    st := .suspended
    before := if x.st = .suspended then x.before else x.st
    fault := BitVec.ofNat 32 (1 + 2 * b2n wr + 4 * f.code + 2 ^ 8 * (k % 2 ^ 24))
    faddr := addr })).raise (dmaPage n) 1

/-! ### Issuing writes (R295, R313, R314) -/

/-- The request of a pacing queue is present in the latest sample (R313). -/
def DmaSt.paced (x : DmaSt) (m : DmaMove) (want : Bool) : Bool := tget none x.pace m.pq == some want

/-- The oldest burst whose write has not been issued. -/
def DmaSt.nextWrite (x : DmaSt) : Option DmaBurst := x.bursts.find? (fun b => b.phase != .writing)

/-- Replace the burst in a slot. -/
def DmaSt.setBurst (x : DmaSt) (b : DmaBurst) : DmaSt := { x with bursts := x.bursts.map (fun c => if c.slot = b.slot then b else c) }

/-- The channel may issue a write: no error, no abort, and not held at a write-side fault. -/
def DmaSt.mayIssue (x : DmaSt) : Bool :=
  x.fail.isNone && x.st != .aborting && x.st != .error && x.st != .idle && !(x.st == .suspended && bit x.fault 1)

/-- Issue the write of the oldest buffered burst, where that is possible. -/
def State.dmaIssue (s : State) (n : Nat) : Option State :=
  let x := s.dmach n
  match x.nextWrite with
  | none => none
  | some b =>
    if !x.mayIssue || (s.ni (dmaWriteNi n)).flip || b.phase != .full || (b.mv.pmode == 2 && !x.paced b.mv false) then none
    else if b.mv.dkind = 1 then
      if s.routeGood (dmaWriteNi n) b.mv.w2 (queueNi (fld b.mv.w2 0 7)) then
        some (s.modDma n (fun y => y.setBurst { b with phase := .writing }))
      else some (s.dmaFail n 1 (some 0))
    else
      let va := b.mv.dstAddr b.pos
      match s.dmaTranslate n (bit b.mv.w2 48) true ((List.range b.len).map (fun i => b.mv.dstAddr (b.pos + i))) with
      | (u, .error f) => some (u.dmaSuspend n b.idx true f va)
      | (u, .ok l) =>
        let runs := runsOf l
        if u.runsGood (dmaWriteNi n) b.mv.w2 runs then
          some (u.modDma n (fun y => { y.setBurst { b with phase := .writing, runs := runs } with
            hostW := runs.foldl (fun t r => match u.target r.1 with
              | .host _ | .peer _ _ => tset none t (nfld r.1 8 2) (some r.1)
              | _ => t) y.hostW }))
        else some (u.dmaFail n 1 (some va))

/-! ### Launching reads (R294, R295, R299, R300, R313, R314) -/

/-- Bytes of the queue's words asked for that no burst has been launched for yet: a burst's end has cut their word (R295). -/
def DmaMove.over (m : DmaMove) : Nat := 64 * m.rd - m.pos

/-- Bytes that the MOVE can still move by what is known of it: to its end, or to the end of the words of the packet. -/
def DmaMove.known (m : DmaMove) : Nat :=
  if m.pkt then m.over + (if m.left = some 0 then (if m.over = 0 then 64 else 0) else 64 * m.left.getD 0) else m.len - m.pos

/-- Length of the MOVE's next burst: at most 512 bytes, up to a 512-byte boundary of the destination (R295). -/
def DmaMove.cut (m : DmaMove) : Nat :=
  let room := if m.dkind = 1 then 512 - m.pos % 512 else 512 - m.dstAddr m.pos % 512
  if m.skind = 2 then m.len else min m.known room

/-- Words that the burst of the next `n` bytes asks a queue source for: whole blocks of a bitplane transform. -/
def DmaMove.asks (m : DmaMove) (n : Nat) : Nat :=
  let g := if m.bitplane && !m.pkt then 128 else 64
  (m.pos + n + g - 1) / g * g / 64 - m.rd

/-- The MOVE after the launch of a burst of `n` bytes; whether that burst is known to be the last. -/
def DmaMove.after (m : DmaMove) (n : Nat) : DmaMove × Bool :=
  let w := if m.skind = 1 then m.asks n else 0
  let m1 := { m with pos := m.pos + n, k := m.k + 1, rd := m.rd + w }
  if m.pkt then
    match m.left with
    | some 0 => if m.over = 0 then ({ m1 with left := none, pkts := m.pkts - 1 }, false) else (m1, m1.over == 0 && m.pkts == 0)
    | some l => ({ m1 with left := some (l - w) }, l == w && m1.over == 0 && m.pkts == 0)
    | none => (m1, false)
  else (m1, m1.pos == m.len)

/-- The channel may launch a read of its MOVE now. -/
def DmaSt.mayLaunchRead (x : DmaSt) (m : DmaMove) : Bool :=
  x.st == .run && x.fail.isNone && decide (x.bursts.length < 32) && !(m.pkt && m.left == none) &&
  (m.pmode == 0 || (m.pmode == 1 && x.paced m true) || (m.pmode == 2 && x.paced m false))

/-- The lowest free slot (R294). -/
def DmaSt.freeSlot (x : DmaSt) : Nat := ((List.range 32).find? (fun k => x.bursts.all (fun b => b.slot != k))).getD 0

/-- A burst is launched: it holds its slot; with the last burst the channel goes on to the next instruction (R299). -/
def State.dmaLaunched (s : State) (n : Nat) (b : DmaBurst) (m : DmaMove) : State :=
  let s1 := s.modDma n (fun x => { x with bursts := x.bursts ++ [b], mv := if b.last then none else some m })
  if b.last then s1.dmaNext n 3 else s1

/-- The bursts of a queue source take the bytes that have come, in their order. -/
def State.fillBursts (n q : Nat) : Nat → State → State
  | 0, s => s
  | k + 1, s =>
    let x := s.dmach n
    let c := tget [] x.carry q
    match x.bursts.find? (fun b => b.phase == .reading && b.mv.skind == 1 && fld b.mv.w1 0 7 == q) with
    | none => s
    | some b =>
      if b.words = 0 ∧ b.len ≤ c.length then
        State.fillBursts n q k ((s.modDma n (fun y => { y.setBurst { b with phase := .full, data := c.take b.len } with
          carry := tset [] y.carry q (c.drop b.len) })).dmaCount n 0 b.len)
      else s

/-- Launch the read of the MOVE's next burst, where that is possible. -/
def State.dmaLaunch (s : State) (n : Nat) : Option State :=
  let x := s.dmach n
  match x.mv with
  | none => none
  | some m =>
    if !x.mayLaunchRead m || (s.ni (dmaReadNi n)).flip || s.pmu.mode == .drain then none
    else
      let len := m.cut
      let (m', last) := m.after len
      let b : DmaBurst := { slot := x.freeSlot, mv := m, idx := m.k, pos := m.pos, len := len, first := m.k == 0, last := last,
                            head := m.pkt && m.left == some 0 && m.over == 0, words := if m.skind = 1 then m.asks len else 0 }
      if m.skind = 2 then
        let (u, d) := s.transform m 0 (sliceBytes (bytesOf 8 m.w1.toNat) 0 len)
        some (u.dmaLaunched n { b with phase := .full, data := d } m')
      else if m.skind = 1 then
        if b.words = 0 then some (State.fillBursts n (fld m.w1 0 7) 32 (s.dmaLaunched n b m'))
        else if s.routeGood (dmaReadNi n) m.w1 (queueNi (fld m.w1 0 7)) then some (s.dmaLaunched n b m') else some (s.dmaFail n 1 (some 0))
      else
        let g := m.group
        let lo := m.pos / g * g
        let hi := (m.pos + len + g - 1) / g * g
        match s.dmaTranslate n (bit m.w1 48) false ((List.range (hi - lo)).map (fun i => m.srcAddr (lo + i))) with
        | (u, .error f) => some (u.dmaSuspend n m.k false f (m.srcAddr m.pos))
        | (u, .ok l) =>
          let runs := runsOf l
          if u.runsGood (dmaReadNi n) m.w1 runs then some (u.dmaLaunched n { b with runs := runs } m')
          else some (u.dmaFail n 1 (some (m.srcAddr m.pos)))

/-! ### The engine's choice (R318) -/

/-- DMAn_CFG.pri. -/
def State.dmaPri (s : State) (n : Nat) : Nat := fld (s.reg (dmaPage n + dmaCfg)) 0 2

/-- Of the channels that are ready at an NI the engine takes the highest priority, and among equals the next behind the one it served
last. -/
def State.dmaPick (s : State) (ni : Nat) (ready : List Nat) : Option Nat :=
  let top := ready.filter (fun n => ready.all (fun k => decide (s.dmaPri k ≤ s.dmaPri n)))
  match top.find? (fun n => decide (tget 0 s.dmaTurn ni < n)) with
  | some n => some n
  | none => top.head?

/-- One NI of the engine sends for one channel, where `f` says what a channel sends; one whose send would have to wait is not ready. -/
def State.dmaServe (s : State) (ni : Nat) (chans : List Nat) (f : State → Nat → Option State) : State :=
  match s.dmaPick ni (chans.filter (fun n => (f s n).any (fun u => u.hold.isNone && u.portsOk))) with
  | none => s
  | some n => ((f s n).getD s).dmaServed ni n

/-- Channels that have something in hand: those of an NI. -/
def State.dmaChans (s : State) (ni : Nat) (of : Nat → Nat) : List Nat := (s.dma.map (·.1)).filter (fun n => of n == ni)

/-- One OCN cycle of the DMA engine: each NI issues one write or launches one read (R318). -/
def State.dmaTick (s : State) : State :=
  let w := fun (u : State) (ni : Nat) => u.dmaServe ni (u.dmaChans ni dmaWriteNi) State.dmaIssue
  let r := fun (u : State) (ni : Nat) => u.dmaServe ni (u.dmaChans ni dmaReadNi) State.dmaLaunch
  r (r (w (w s 188) 189) 180) 184

/-- MOVE: the instruction at the pc begins, with the transform and the loop offsets in effect (R298 to R301). -/
def dmaMove (n : Nat) (s : State) : State :=
  match s.dmaAt n 1 with
  | none => s
  | some w =>
    let x := s.dmach n
    match x.word (x.pc + 8), x.word (x.pc + 16) with
    | some w1, some w2 =>
      let m : DmaMove := { w0 := w, w1 := w1, w2 := w2, xf := if bit w 21 then x.xf else 0, soff := x.soff, doff := x.doff,
                           pkts := if bit w 22 then fld w 32 32 else 0 }
      if m.ok then
        -- a sample older than every MOVE that the queue paces decides nothing
        let stale := m.pmode != 0 && x.bursts.all (fun b => b.mv.pmode == 0 || b.mv.pq != m.pq)
        (s.modDma n (fun y => { y with mv := some m, pace := if stale then tset none y.pace m.pq none else y.pace })).dmaTick
      else s.dmaFail n 6 none
    | _, _ => s

/-! ### One access of a unit to the device physical address space -/

/-- A write of `len` bytes to the window with what follows before its DONE: a handover requested through RSV_BHAND takes effect, and the
write is answered OK (R279). -/
def State.registerWrite (s : State) (ini : Ini) (off len : Nat) (val : DWord) : State :=
  let s1 := s.windowWrite ini off len val
  if off ≤ page .rsv 0 + rsvBhand ∧ page .rsv 0 + rsvBhand < off + len then (List.range s1.rsvr.hand.length).foldl (fun u _ => handoverEdge u) s1 else s1

/-- REGISTER_WRITE: a write of `len` bytes at window offset `off`. -/
def registerWriteCmd (ini : Ini) (off len : Nat) (val : DWord) (s : State) : State := (s.registerWrite ini off len val).hostSees ini

/-- Write bytes at a device physical address: registers, memory, or the host and peer ranges, where HIF takes the write (R17, R33,
R307). -/
def State.busWrite (s : State) (ini : Ini) (a : Nat) (l : List Byte) : State × Status :=
  match s.target a with
  | .window o =>
    match s.reach ini true a true with
    | (s0, .ok) =>
      let s1 := s0.registerWrite ini o l.length (BitVec.ofNat 64 (ofBytes l))
      (s1, s1.ans.status)
    | (s0, st) => (s0, st)
  | .host _ | .peer _ _ => s.reach ini true a true
  | _ => s.memWrite ini a l

/-- Read `n` bytes at a device physical address; what the host or a peer part answers is `host`. -/
def State.busRead (s : State) (ini : Ini) (a n : Nat) (host : List Byte) : State × Status × List Byte :=
  match s.target a with
  | .host _ | .peer _ _ => match s.reach ini true a false with
    | (s0, .ok) => (s0, .ok, sliceBytes host 0 n)
    | (s0, st) => (s0, st, List.replicate n 0)
  | _ => s.unitRead ini a n

/-- Read spans in order; the first status other than OK stands. -/
def State.readRuns (s : State) (ini : Ini) (runs : List (Nat × Nat)) (host : List Byte) : State × Status × List Byte :=
  runs.foldl (fun (acc : State × Status × List Byte) r =>
    let (u, st, l) := acc.1.busRead ini r.1 r.2 (host.drop acc.2.2.length)
    (u, if acc.2.1 = .ok then st else acc.2.1, acc.2.2 ++ l)) (s, .ok, [])

/-- Write spans in order; the first status other than OK stands. -/
def State.writeRuns (s : State) (ini : Ini) (runs : List (Nat × Nat)) (data : List Byte) : State × Status :=
  (runs.foldl (fun (acc : State × Status × List Byte) r =>
    let (u, st) := acc.1.busWrite ini r.1 (acc.2.2.take r.2)
    (u, if acc.2.1 = .ok then st else acc.2.1, acc.2.2.drop r.2)) (s, .ok, data)) |> fun x => (x.1, x.2.1)

/-! ### Answers (R295, R300, R307, R316, R317) -/

/-- The error code of an answer (R316, R319), none where it is no error. -/
def answerError (st : Status) (poison : Bool) : Option Nat :=
  match st with
  | .decErr => some 1
  | .slvErr => some 2
  | .dead => some 3
  | .collide => some 4
  | _ => if poison then some 5 else none

/-- Address that DMAn_FADDR holds for a burst: 0 for a queue operand. -/
def DmaBurst.addr (b : DmaBurst) (wr : Bool) : Nat :=
  if wr then (if b.mv.dkind = 1 then 0 else b.mv.dstAddr b.pos) else if b.mv.skind = 1 then 0 else b.mv.srcAddr b.pos

/-- The burst leaves its slot. -/
def State.dropBurst (s : State) (n slot : Nat) : State :=
  s.modDma n (fun x => { x with bursts := x.bursts.filter (fun b => b.slot != slot) })

/-- The target NI of a burst's read or write. -/
def State.burstNi (s : State) (b : DmaBurst) (wr : Bool) : Nat :=
  if wr ∧ b.mv.dkind = 1 then queueNi (fld b.mv.w2 0 7)
  else if !wr ∧ b.mv.skind = 1 then queueNi (fld b.mv.w1 0 7)
  else (s.addrNi ((b.runs.headD (0, 0)).1)).getD 0

/-- A DROWSE answer: the burst waits to be retried; the reservation carried DMAn_CFG.wake (R264, R316). -/
def State.burstDrowse (s : State) (n : Nat) (b : DmaBurst) (wr : Bool) : State :=
  ((s.modDma n (fun x => x.setBurst { b with drowse := true })).dmaCount n 5 1).wakeAt (s.burstNi b wr) (bit (s.reg (dmaPage n + dmaCfg)) 2)

/-- An error answer. -/
def State.burstError (s : State) (n : Nat) (b : DmaBurst) (wr : Bool) (code : Nat) : State :=
  (s.dropBurst n b.slot).dmaFail n code (some (b.addr wr))

/-- The channel has stopped launching: data that come back are discarded. -/
def DmaSt.stopping (x : DmaSt) : Bool := x.fail.isSome || x.st == .aborting

/-- A read's bytes are complete: they pass the transform into the slot. -/
def State.burstFull (s : State) (n : Nat) (b : DmaBurst) (raw : List Byte) : State :=
  let lo := b.pos / b.mv.group * b.mv.group
  let (s1, d) := s.transform b.mv lo raw
  (s1.dmaCount n 0 raw.length).modDma n (fun x => x.setBurst { b with phase := .full, data := sliceBytes d (b.pos - lo) b.len })

/-- A packet's length word has come: it says how many words follow; none follow the last packet's only word (R300). -/
def State.packetWords (s : State) (n : Nat) (b : DmaBurst) (raw : List Byte) : State :=
  let w := (4 + ofBytes (raw.take 4) % 2 ^ 14 + 63) / 64 - 1
  match (s.dmach n).mv with
  | none => s
  | some m =>
    if w = 0 ∧ m.pkts = 0 ∧ m.over = 0 then
      (s.modDma n (fun x => { x.setBurst { b with last := true } with mv := none })).dmaNext n 3
    else s.modDma n (fun x => { x with mv := some { m with left := some w } })

/-- Stream position of the first word that a burst asks for. -/
def DmaBurst.wordPos (b : DmaBurst) : Nat :=
  let g := if b.mv.bitplane && !b.mv.pkt then 128 else 64
  (b.pos + g - 1) / g * g

/-- The words that a burst has asked for are complete: their bytes pass the transform, and the bursts take them in order (R295). -/
def State.wordsFull (s : State) (n : Nat) (b : DmaBurst) (raw : List Byte) : State :=
  let q := fld b.mv.w1 0 7
  let (s1, d) := s.transform b.mv b.wordPos raw
  let c : DmaBurst := { b with words := 0, data := [] }
  let s2 := s1.modDma n (fun x => { x.setBurst c with carry := tset [] x.carry q (tget [] x.carry q ++ d) })
  State.fillBursts n q 32 (if b.head then s2.packetWords n c raw else s2)

/-- The NI of a channel counts a transaction of `k` data flits (R267). -/
def State.countBurst (s : State) (n : Nat) (wr : Bool) (k : Nat) : State :=
  (List.range k).foldl (fun u i => u.countFlit (dmaIni n) 0 wr (i == 0) false) s

/-- The queue's words for the oldest read burst of that queue; EMPTY flits are counted and their words asked for again (R300). -/
def State.burstQueue (s : State) (n : Nat) (b : DmaBurst) (st : Status) : State :=
  let q := fld b.mv.w1 0 7
  let want := b.words - b.data.length / 64
  let (s1, l) := if st = .empty then (s, List.replicate want ((0 : Line), emptyTsf)) else s.queueRead q want
  let got := l.filter (fun f => fld f.2 11 4 != 5)
  let data := b.data ++ got.flatMap (fun f => bytesOf 64 f.1.toNat)
  let s2 := (s1.dmaCount n 4 (l.length - got.length)).countBurst n false l.length
  if data.length < 64 * b.words then s2.modDma n (fun x => x.setBurst { b with data := data }) else s2.wordsFull n b data

/-- A read answer. -/
def State.readAnswer (s : State) (n : Nat) (b : DmaBurst) (st : Status) (poison : Bool) (host : List Byte) : State :=
  let x := s.dmach n
  match answerError st poison with
  | some c => if x.stopping then s.dropBurst n b.slot else s.burstError n b false c
  | none =>
    if st = .drowse then s.burstDrowse n b false
    else if x.stopping then s.dropBurst n b.slot
    else if b.mv.skind = 1 then
      -- the queue serves the channel's requests in the order in which they were launched
      (if (x.bursts.find? (fun c => c.phase == .reading && c.mv.skind == 1 && c.words != 0 && fld c.mv.w1 0 7 == fld b.mv.w1 0 7)) = some b then
        s.burstQueue n b st else s)
    else
      match s.readRuns (dmaIni n) b.runs host with
      | (u, .drowse, _) => u.burstDrowse n b false
      | (u, st', l) => match answerError st' false with
        | some c => u.burstError n b false c
        | none => u.burstFull n b l

/-- The flits of a queue destination, as far as the queue takes them (R300, R172). -/
def State.queueFlits (n : Nat) : Nat → State → DmaBurst → State × DmaBurst
  | 0, s, b => (s, b)
  | k + 1, s, b =>
    let q := fld b.mv.w2 0 7
    if b.data.isEmpty then (s, b)
    else if s.queueReach q (dmaIni n) then
      let l := b.data.take 64
      let rest := b.data.drop 64
      let w := b.mv.w2
      let fin := b.last && rest.isEmpty && bit w 8
      let cw := b2n (b.first && bit w 7) + 2 * b2n fin + 4 * (l.length / (if bit w 18 then 8 else 4)) +
        (if fin then 2 ^ 7 * fld w 9 3 + 2 ^ 10 * fld w 12 6 else 0)
      State.queueFlits n k (queueWriteFlit q (dmaIni n) (BitVec.ofNat 16 cw) (lineOfBytes l) s) { b with data := rest, first := false }
    else (s, b)

/-- A write's DONE: the burst frees its slot, and an abort ends with the last one. -/
def State.burstDone (s : State) (n : Nat) (b : DmaBurst) : State :=
  (((s.dropBurst n b.slot).dmaCount n 1 b.len).dmaCount n 2 1).abortEnd n

/-- A burst's write loses a word to a write from outside the model: which word and to whom are free values. RSV_COLL records it, and the
burst's other words are written (R275). -/
def State.burstCollide (s : State) (n : Nat) (b : DmaBurst) : State :=
  let (k, s1) := s.freeNat (max 1 ((b.len + 63) / 64))
  let (w, s2) := s1.freeNat 256
  let cut := (linePieces (b.runs.headD (0, 0)).1 b.len).getD k (0, 0)
  let lo := cut.1 - (b.runs.headD (0, 0)).1
  match s2.target cut.1 with
  | .reservoir o _ =>
    let s3 := s2.rsvCollide (BitVec.ofNat 8 w) (dmaIni n) (o / 0x40000) (o % 0x40000 / 64)
    let s4 := (s3.busWrite (dmaIni n) (b.runs.headD (0, 0)).1 (b.data.take lo)).1
    (s4.busWrite (dmaIni n) (cut.1 + cut.2) (b.data.drop (lo + cut.2))).1
  | _ => s2

/-- A write answer; one answered OK is performed even while the channel stops. -/
def State.writeAnswer (s0 : State) (n : Nat) (b : DmaBurst) (st : Status) (poison : Bool) : State :=
  let s := if st = .collide ∧ b.mv.dkind = 0 then s0.burstCollide n b else s0
  match answerError st poison with
  | some c => if (s.dmach n).stopping then (s.dropBurst n b.slot) else s.burstError n b true c
  | none =>
    if st = .drowse then s.burstDrowse n b true
    else if b.mv.dkind = 1 then
      match State.queueFlits n 8 s b with
      | (u0, c) =>
      let u := u0.countBurst n true ((b.data.length - c.data.length + 63) / 64)
      if c.data.isEmpty then u.burstDone n b else u.modDma n (fun x => x.setBurst c)
    else
      match s.writeRuns (dmaIni n) b.runs b.data with
      | (u, .drowse) => u.burstDrowse n b true
      | (u, st') => match answerError st' false with
        | some c => if (u.dmach n).stopping then u.dropBurst n b.slot else u.burstError n b true c
        | none => u.burstDone n b

/-- The flush of HIF NI `j` is answered (R307). -/
def State.flushAnswer (s : State) (n j : Nat) (st : Status) (poison : Bool) : State :=
  if (s.dmach n).flush.contains j then
    if st = .drowse then s.dmaCount n 5 1
    else
      let s1 := s.modDma n (fun x => { x with flush := x.flush.filter (fun k => k != j) })
      match answerError st poison with
      | some c => if (s1.dmach n).stopping then s1 else s1.dmaFail n c none
      | none => s1
  else s

/-- DMA_BURST_ANSWER: the answer to the read or the write of the burst in a slot; slots 32 to 35 name the flushes of the HIF NIs. -/
def dmaBurstAnswer (n slot : Nat) (read : Bool) (st : Status) (poison : Bool) (host : List Byte) (s : State) : State :=
  if 32 ≤ slot then ((s.flushAnswer n (slot - 32) st poison).abortEnd n).dmaTick
  else
    match (s.dmach n).bursts.find? (fun b => b.slot == slot && b.phase == (if read then .reading else .writing) && !b.drowse) with
    | none => s
    | some b =>
      ((if read then s.readAnswer n b st poison host else s.writeAnswer n b st poison).abortEnd n).dmaTick

/-- DMA_DROWSE_RETRY: 64 OCN cycles after a refusal what was refused is sent again (R316). -/
def dmaDrowseRetry (n : Nat) (s : State) : State :=
  if (s.dmach n).stopping then s
  else s.modDma n (fun x => { x with bursts := x.bursts.map (fun b => { b with drowse := false }) })

/-- A queue paces a MOVE in progress or a WAIT cond 1 (R312). -/
def DmaSt.samples (x : DmaSt) (q : Nat) : Bool :=
  (x.mv.any (fun m => m.pmode != 0 && m.pq == q)) || x.bursts.any (fun b => b.mv.pmode != 0 && b.mv.pq == q) ||
  (x.waitCond == some 1 && x.wait.any (fun w => fld w 10 7 == q))

/-- DMA_PACE_SAMPLE: the read NI reads SQpq_STAT for every queue that paces the channel (R312, R313). -/
def dmaPaceSample (n : Nat) (st : Status) (s : State) : State :=
  let x := s.dmach n
  let qs := (List.range 128).filter (fun q => x.samples q)
  if qs.isEmpty || x.stopping then s
  else match answerError st false with
    | some c => s.dmaFail n c (some (0x10000000 + sqPage (qs.headD 0) + sqStat))
    | none =>
      if st ≠ .ok then s.dmaCount n 5 1
      else
        let s1 := s.modDma n (fun y => { y with pace := qs.foldl (fun t q => tset none t q (some (s.queue q).pace)) y.pace })
        let s2 := match x.waitCond, x.wait with
          | some 1, some w => if (s.queue (fld w 10 7)).pace = bit w 17 then s1.dmaResumeRun n else s1
          | _, _ => s1
        (s2.dmaServed (dmaReadNi n) n).dmaTick

/-- DMA_RESUME: a write of DMAn_CTRL whose resume bit acts; the operand of the faulting burst is translated again (R315). -/
def dmaResume (ini : Ini) (n : Nat) (val : Word) (s : State) : State :=
  let s1 := dmaCtrlWrite ini n val s
  let a := s1.ans
  { s1.dmaTick with ans := a }

/-- What goes on while no command waits: one cycle of the queues' write ports (R175), one of the DMA engine (R318), the next context of
a shadow load (R104), and an edge of the pad clock for the probe pins (R168); each waits as a command does. DESIGN CHOICE: the table has
no row for these. -/
def State.idle (s : State) : State :=
  [State.queueTick, State.dmaTick, State.shadowTick, State.padEdge].foldl (fun u f => u.gate (f u)) s

/-! ### The commands -/

/-- REGISTER_WRITE (R9). A write to a register that has no row of its own is performed field by field under the access codes, ownership and lock. -/
def execRegisterWrite (ini : Ini) (off : BitVec 25) (len : Nat) (val : BitVec 64) (s : State) : Out :=
  .next (s.gate (registerWriteCmd ini off.toNat len val s))

/-- DMA_RESUME (R315). A write of CTRL.resume retranslates the faulting burst and continues. -/
def execDmaResume (ini : Ini) (d : DmaCh) (val : Word) (s : State) : Out :=
  .next (s.gate (dmaResume ini d.val val s))

/-- MOVE (R298). The MOVE instruction cuts a transfer into bursts and launches them. -/
def execMove (d : DmaCh) (s : State) : Out :=
  .next (s.gate (dmaMove d.val s))

/-- DMA_BURST_ANSWER (R295). A burst's read data or write DONE returns and the slot advances or frees. -/
def execDmaBurstAnswer (d : DmaCh) (burst : Nat) (read : Bool) (status : Status) (poison : Bool) (host : List Byte) (s : State) : Out :=
  .next (s.gate (dmaBurstAnswer d.val burst read status poison host s))

/-- DMA_DROWSE_RETRY (R316). 64 OCN cycles after a DROWSE refusal the channel retries. -/
def execDmaDrowseRetry (d : DmaCh) (s : State) : Out :=
  .next (s.gate (dmaDrowseRetry d.val s))

/-- DMA_PACE_SAMPLE (R312). Every pacing period the read NI reads the pacing queue's STAT. -/
def execDmaPaceSample (d : DmaCh) (status : Status) (s : State) : Out :=
  .next (s.gate (dmaPaceSample d.val status s))

end Sys2Proof.Machine
end

