-- ==== Sys2Proof/Machine/Arrive.lean ====
section
/-!
DEFINITION. The network's reservations at their target NIs, their data and their answers (R254 to R256, R261 to R264), with the
registers, memories, queues, headgates and sequencers behind them.
-/
namespace Sys2Proof.Machine

/-! ### Register accesses of the network (R24) -/

/-- The first enabled byte and the width of a register access: 4 or 8 aligned bytes of one flit; any other set of bytes has width 0.
DESIGN CHOICE: for such a width violation ERR.off takes the low six bits of the address within its line. -/
def accessBytes (r : Rsv) : Nat × Nat :=
  if r.nfm1.val ≠ 0 then (r.addr.toNat % 64, 0)
  else match (List.range 16).find? (fun i => r.bm0.toNat == 0xF * 2 ^ (4 * i)) with
    | some i => (4 * i, 4)
    | none => match (List.range 8).find? (fun i => r.bm0.toNat == 0xFF * 2 ^ (8 * i)) with
      | some i => (8 * i, 8)
      | none => (r.addr.toNat % 64, 0)

/-- Window offset and width of a reservation's register access. -/
def windowSpan (r : Rsv) (o : Nat) : Nat × Nat := (o / 64 * 64 + (accessBytes r).1, (accessBytes r).2)

/-- RDAT flits of a read answered with `st`; the first and the last carry their marks (R248). -/
def readFlits (lines : List Line) (st : Status) : List (BitVec 16) :=
  (List.range lines.length).map (fun i => wordTsf (i == 0) (i + 1 == lines.length) 0 0 (statusCode st) 0)

/-- The block has answered a read. -/
def Txn.readDone (x : Txn) (lines : List Line) (st : Status) : Txn :=
  { x with data := lines, tsf := readFlits lines st, status := st }

/-! ### Delivery (R256) -/

/-- Deliver a read. -/
def State.deliverRead (s : State) (x : Txn) : State :=
  let a := x.rsv.addr.toNat
  match s.target a with
  | .window o =>
    let (off, len) := windowSpan x.rsv o
    let u := s.windowRead x.rsv.src off len
    let d : Line := BitVec.ofNat 512 (u.ans.data.toNat * 2 ^ (8 * (off % 64)))
    u.blockAnswer x.key (fun y => y.readDone (d :: List.replicate x.rsv.nfm1.val 0) u.ans.status)
  | .rom o =>
    s.blockAnswer x.key (fun y => y.readDone ((List.range (x.rsv.nfm1.val + 1)).map (fun i =>
      lineOfBytes ((List.range 64).map (fun j => Config.romByte (o / 64 * 64 + 64 * i + j))))) .ok)
  | _ => s.modTxn x.key (fun y => { y with stage := .atBlock })

/-- Deliver a write whose data have arrived. -/
def State.deliverWrite (s : State) (x : Txn) : State :=
  match s.target x.rsv.addr.toNat with
  | .window o =>
    let (off, len) := windowSpan x.rsv o
    let d := (x.data.headD 0).toNat / 2 ^ (8 * (off % 64))
    let u := s.registerWrite x.rsv.src off len (BitVec.ofNat 64 (d % 2 ^ (8 * len)))
    u.blockAnswer x.key (fun y => { y with status := u.ans.status })
  | .rom _ => s.blockAnswer x.key (fun y => { y with status := .slvErr })
  | _ => s.modTxn x.key (fun y => { y with stage := .atBlock })

/-- The flits of a queue write enter the queue as far as it takes them; a disabled queue discards them (R172, R188). -/
def State.deliverQueue : Nat → TxnKey → State → State
  | 0, _, s => s
  | n + 1, k, s =>
    match s.txn k with
    | none => s
    | some x =>
      let q := x.rsv.queue.val
      if x.rsv.nfm1.val < x.served then s.blockAnswer k (fun y => { y with status := .ok })
      else if !sqEn (s.sqCtl q) || s.queueTakes q x.rsv.src then
        State.deliverQueue n k ((queueWriteFlit q x.rsv.src (x.tsf.getD x.served 0) (x.data.getD x.served 0) s).modTxn k
          (fun y => { y with served := y.served + 1 }))
      else s

/-- A pushed flit in a headgate: its word with first, last and tag from the sideband (R102, R180). -/
def hgFlitOf (d : Line) (t : BitVec 16) : HgFlit := { data := d, first := bit t 0, last := bit t 1, tag := fld t 2 3 }

/-- The flits of a push enter the headgate. Where its region has left RUN and ended the drain since the grant, they are discarded and
counted as the drain's timeout discards flits (R108, R111). -/
def State.deliverPush (s : State) (x : Txn) : State :=
  match headgateAt x.rsv.tgt.val with
  | none => s
  | some (r, k) =>
    let g := s.rgn r
    let n := x.data.length
    let u := if g.st == .run || g.st == .frozen || (g.st == .bindoff && !g.parked) then
        s.modHg r k (fun h => { h with inb := h.inb ++ (List.range n).map (fun i => hgFlitOf (x.data.getD i 0) (x.tsf.getD i 0)) })
      else (s.modRgn r (fun g => { g with hgdrop := satAdd 255 g.hgdrop n })).raise (frgPage r) 6
    u.blockAnswer x.key (fun y => { y with status := .ok })

/-- Deliver a SIGNAL: refused with SLVERR while SEQCFG.sig is 0, latched, or left waiting for the latch (R99, R254). -/
def State.deliverSignal (s : State) (x : Txn) : State :=
  match headgateAt x.rsv.tgt.val with
  | none => s
  | some (r, _) =>
    if !bit (s.seqcfg r) 0 then s.blockAnswer x.key (fun y => { y with status := .slvErr })
    else
      let t := s.modTxn x.key (fun y => { y with stage := .atBlock })
      match s.waitingSignal r with
      | some _ => t
      | none => sequencerSignal r x.rsv.sctx.val t

/-- Deliver the transaction of key `k`. -/
def State.deliverTxn (s : State) (k : TxnKey) : State :=
  match s.txn k with
  | none => s
  | some x => match x.op with
    | .read => s.deliverRead x
    | .write => s.deliverWrite x
    | .qread => s.modTxn k (fun y => { y with stage := .atBlock })
    | .qwrite => s.deliverQueue 9 k
    | .qpush => s.deliverPush x
    | .signal => s.deliverSignal x

/-- Reads and signals may be delivered from pending, writes once their data have arrived. -/
def Txn.ready (x : Txn) : Bool := if x.op.writes then x.stage == .data else x.stage == .pending

/-- The oldest request of NI `i` that target `t` has not delivered yet. -/
def State.nextDelivery (s : State) (i t : Nat) : Option Txn :=
  s.ocn.txns.find? (fun x => x.rsv.ini.val == i && x.rsv.tgt.val == t && x.undelivered)

/-- Deliver the requests of NI `i` at NI `t` in the order of their arrival, as far as they are ready (R256). -/
def State.deliverAll (i t : Nat) : Nat → State → State
  | 0, s => s
  | n + 1, s =>
    match s.nextDelivery i t with
    | none => s
    | some x =>
      if x.ready then
        (let u := s.deliverTxn x.key
         -- a queue write that its queue does not take now stays the oldest
         if (u.txn x.key).any (fun y => y.undelivered) then u else State.deliverAll i t n u)
      else s

/-! ### Arrival of reservations (R254, R255, R263, R264) -/

/-- The reservation comes from an NI of its initiator (R507): a push from a queue's NI, a headgate's traffic from the port of the
headgate, the rest as `unitNi` says. -/
def sourceNi (op : OcnOp) (x : Rsv) : Bool :=
  match op with
  | .qpush => (List.range 32).any (fun j => sqNi j == x.ini.val)
  | .qwrite => unitNi x.src x.addr.toNat true == some x.ini.val ||
      (decide (0x80 ≤ x.src.toNat) && decide (x.src.toNat < 0x98) && (headgateAt x.ini.val).any (fun p => p.1 + 0x80 == x.src.toNat))
  | .write | .signal => unitNi x.src x.addr.toNat true == some x.ini.val
  | _ => unitNi x.src x.addr.toNat false == some x.ini.val

/-- The reservation names a target that its NI serves (R244). -/
def State.servedAt (s : State) (op : OcnOp) (x : Rsv) : Bool :=
  hasNi x.tgt.val && hasNi x.ini.val && sourceNi op x &&
  (match op with
    | .read | .write => s.addrNi x.addr.toNat == some x.tgt.val
    | .qread | .qwrite => queueNi x.queue.val == x.tgt.val
    | .qpush => (headgateAt x.tgt.val).isSome
    | .signal => (headgateAt x.tgt.val).isSome && x.tgt.val % 4 == 0)

/-- The status with which the target refuses the reservation: a closed or dead port, a headgate that does not admit (R115), the
reservoir while it is wiped (R282), the DRAM before it is initialised or in self-refresh (R287), the bridge of a region without power or
in reset (R16). -/
def State.refuses (s : State) (op : OcnOp) (x : Rsv) : Option Status :=
  match s.rsvRefused op x with
  | some st => some st
  | none => match op with
    | .qpush => match headgateAt x.tgt.val with
      | some (r, _) => if s.hgAdmits r then none else some .drowse
      | none => none
    | .signal => match headgateAt x.tgt.val with
      | some (r, _) => if sequencerOn (s.rgn r) || (s.rgn r).st == .frozen then none else some .drowse
      | none => none
    | .read | .write => match s.target x.addr.toNat with
      | .reservoir _ _ => if s.rsvr.wipe then some .drowse else none
      | .dram _ => if !s.drc.init || s.drc.selfref then some .drowse else none
      | _ => none
    | _ => none

/-- The transaction that a reservation belongs to: the oldest that a unit of the part has launched between these NIs and that is under
way (R256), or a new one of an initiator outside the model's units; none where its number is in use, four are outstanding, a flip
holds its NI back (R255, R265), or an older one has yet to arrive. -/
def State.arriving (s : State) (op : OcnOp) (r : Rsv) : Option Txn :=
  let first := s.ocn.txns.find? (fun x => x.stage == .launched && x.rsv.ini == r.ini && x.rsv.tgt == r.tgt)
  match s.txn ⟨r.ini, r.txn⟩ with
  | some x => if first = some x ∧ x.op = op then some x else none
  | none => if first.isNone && s.mayLaunch r.ini.val r.tgt.val then some { rsv := r, op := op, stage := .launched, who := .outside } else none

/-- A reservation arrives at its target NI: refused, or pending as the youngest, and delivered when nothing older of its initiator
waits. -/
def ocnArrive (op : OcnOp) (r : Rsv) (s : State) : State :=
  match s.arriving op r with
  | none => s
  | some x =>
    if !s.servedAt op x.rsv then s
    else
      let rest := s.ocn.txns.filter (fun y => y.key != x.key)
      match s.refuses op x.rsv with
      | some st => (s.setTxns (rest ++ [x.refuse st])).wakeAt x.rsv.tgt.val x.rsv.wake
      | none => State.deliverAll x.rsv.ini.val x.rsv.tgt.val (s.ocn.txns.length + 1) (s.setTxns (rest ++ [{ x with stage := .pending }]))

/-- The rows of the table. -/
def ocnRead (r : Rsv) (s : State) : State := ocnArrive .read r s
def ocnWrite (r : Rsv) (s : State) : State := ocnArrive .write r s
def ocnQread (r : Rsv) (s : State) : State := ocnArrive .qread r s
def ocnQwrite (r : Rsv) (s : State) : State := ocnArrive .qwrite r s
def ocnQpush (r : Rsv) (s : State) : State := ocnArrive .qpush r s
def ocnSignal (r : Rsv) (s : State) : State := ocnArrive .signal r s

/-- WRITE_DATA_ARRIVAL: the data flits of a granted write arrive (R254). A dead port drops them, counts them and answers DEAD (R261).
The part's own units send the data they hold. -/
def writeDataArrival (k : TxnKey) (data : List Line) (cws : List (BitVec 16)) (s : State) : State :=
  match s.txn k with
  | none => s
  | some x =>
    let n := x.rsv.nfm1.val + 1
    if x.stage ≠ .granted ∨ (x.who ≠ .outside ∧ x.grantSeen = false) then s
    else if s.portDead x.rsv.tgt.val then (s.countDead x.rsv.tgt.val false n).modTxn k (fun y => y.deadAnswer)
    else
      let d := if x.who = .outside then (List.range n).map (fun i => data.getD i 0) else x.data
      let t := if x.who = .outside then (List.range n).map (fun i => cws.getD i 0) else x.tsf
      State.deliverAll x.rsv.ini.val x.rsv.tgt.val (s.ocn.txns.length + 1) (s.modTxn k (fun y => { y with stage := .data, data := d, tsf := t }))

/-! ### Answers at the initiator (R254, R262, R267) -/

/-- The unit that launched a transaction learns how it ended. -/
def State.txnEnd (s : State) (x : Txn) (st : Status) (refused : Bool) : State :=
  match x.who with
  | .outside =>
    let t := s.answer st (BitVec.ofNat 64 ((x.data.headD 0).toNat / 2 ^ (8 * (accessBytes x.rsv).1)))
    if s.atWindow x.op x.rsv then t.hostSees x.rsv.src else t
  | .headgate r k => s.hgAnswer r k st
  | .queue q => if refused then s.pushRefused q (x.rsv.nfm1.val + 1) else s
  | .dma n => if st = .ok then s else s.dmaFail n (if refused ∨ st = .slvErr then 9 else (answerError st false).getD 9) none
  | .hts => s.signalResult (((headgateAt x.rsv.tgt.val).map (·.1)).getD 0) st

/-- RESPONSE_ARRIVAL: a GRANT lets the initiator send its data, a push queue those that are oldest now (R179), but for a disabled one, whose
GRANT waits and sets cmdig (R188); DONE, REFUSE or the
last RDAT flit end the transaction, which is counted (R267). -/
def responseArrival (k : TxnKey) (latency : Nat) (s : State) : State :=
  match s.txn k with
  | none => s
  | some x =>
    if x.stage = .answered then
      ((((s.countTxn x latency).txnEnd x x.status x.refused).dropTxn k).unholdAll x.rsv.ini.val)
    else if x.stage = .granted ∧ x.grantSeen = false then
      match x.who with
      | .queue q =>
        if !sqEn (s.sqCtl q) then s.raise (sqPage q) 8 else
        let (u, l) := s.pushGranted q (x.rsv.nfm1.val + 1)
        u.modTxn k (fun y => { y with grantSeen := true, data := l.map (·.1), tsf := l.map (·.2) })
      | _ => s.modTxn k (fun y => { y with grantSeen := true })
    else s

/-- INITIATOR_TIMEOUT: no answer has come for 2 ms: the transaction ends DEAD toward its block; a push's words wait as after a
refusal (R179, R262). -/
def initiatorTimeout (k : TxnKey) (s : State) : State :=
  match s.txn k with
  | none => s
  | some x =>
    if x.grantSeen ∨ x.stage = .held then s
    else
      let refused := match x.who with
        | .queue _ => true
        | _ => false
      ((s.txnEnd x .dead refused).dropTxn k).unholdAll x.rsv.ini.val

/-- QUEUE_WRITE_FLIT: a write flit reaches the queue's write port. Where a producer's flit has waited there since its data arrived,
that flit is the one that the queue takes (R174, R186, R187). -/
def queueFlit (q : Nat) (src : Ini) (cw : BitVec 16) (d : Line) (s : State) : State :=
  match s.ocn.txns.find? (fun x => x.op == .qwrite && x.stage == .data && x.rsv.queue.val == q && x.rsv.src == src) with
  | some x => State.deliverAll x.rsv.ini.val x.rsv.tgt.val s.ocn.txns.length s
  | none => queueWriteFlit q src cw d s

/-! ### The commands -/

/-- OCN_READ (R254). A READ reservation arrives at its target NI and is answered with RDAT flits. -/
def execOcnRead (x : Rsv) (s : State) : Out :=
  .next (s.gate (ocnRead x s))

/-- OCN_WRITE (R254). A WRITE reservation arrives and waits for ingress space before GRANT. -/
def execOcnWrite (x : Rsv) (s : State) : Out :=
  .next (s.gate (ocnWrite x s))

/-- OCN_QREAD (R254). A QREAD reservation arrives at a queue NI. -/
def execOcnQread (x : Rsv) (s : State) : Out :=
  .next (s.gate (ocnQread x s))

/-- OCN_QWRITE (R254). A QWRITE reservation arrives at a queue NI. -/
def execOcnQwrite (x : Rsv) (s : State) : Out :=
  .next (s.gate (ocnQwrite x s))

/-- OCN_QPUSH (R254). A QPUSH reservation arrives at a headgate NI. -/
def execOcnQpush (x : Rsv) (s : State) : Out :=
  .next (s.gate (ocnQpush x s))

/-- OCN_SIGNAL (R254). A SIGNAL reservation arrives and is answered DONE when the latch takes it. -/
def execOcnSignal (x : Rsv) (s : State) : Out :=
  .next (s.gate (ocnSignal x s))

/-- WRITE_DATA_ARRIVAL (R254). The data flits of a granted write arrive and are handed to the block, which answers DONE. -/
def execWriteDataArrival (k : TxnKey) (data : List (BitVec 512)) (cws : List (BitVec 16)) (s : State) : Out :=
  .next (s.gate (writeDataArrival k data cws s))

/-- RESPONSE_ARRIVAL (R254). An RDAT or RESP flit reaches its initiator NI and ends or advances the transaction. -/
def execResponseArrival (k : TxnKey) (latency : Nat) (s : State) : Out :=
  .next (s.gate (responseArrival k latency s))

/-- INITIATOR_TIMEOUT (R262). After 2 ms without an answer the initiator NI ends the transaction DEAD. -/
def execInitiatorTimeout (k : TxnKey) (s : State) : Out :=
  .next (s.gate (initiatorTimeout k s))

/-- QUEUE_WRITE_FLIT (R172). A queue accepts a write flit and applies its open, items and close. -/
def execQueueWriteFlit (q : Queue) (src : Ini) (cw : BitVec 16) (data : BitVec 512) (s : State) : Out :=
  .next (s.gate (queueFlit q.val src cw data s))

end Sys2Proof.Machine
end

