-- ==== Sys2Proof/Machine/Float.lean ====
section
/-!
DEFINITION. Binary floating-point arithmetic for the F and D extensions (R322; IEEE 754-2008 as the unprivileged specification
uses it): exact results over integers, rounded once.
-/
namespace Sys2Proof.Machine

/-- A binary format: bits of the significand with the hidden one, bits of the exponent. -/
structure Fmt where
  p  : Nat
  ew : Nat
deriving DecidableEq, Repr

def fmtS : Fmt := ⟨24, 8⟩
def fmtD : Fmt := ⟨53, 11⟩

def Fmt.bias (f : Fmt) : Int := 2 ^ (f.ew - 1) - 1
/-- Exponent of the least normal number. -/
def Fmt.emin (f : Fmt) : Int := 1 - f.bias
def Fmt.inf (f : Fmt) (s : Bool) : Nat := (2 ^ f.ew - 1) * 2 ^ (f.p - 1) + b2n s * 2 ^ (f.p - 1 + f.ew)
def Fmt.zero (f : Fmt) (s : Bool) : Nat := b2n s * 2 ^ (f.p - 1 + f.ew)
def Fmt.maxFin (f : Fmt) (s : Bool) : Nat := f.inf s - 1
/-- The canonical NaN. -/
def Fmt.nan (f : Fmt) : Nat := (2 ^ f.ew - 1) * 2 ^ (f.p - 1) + 2 ^ (f.p - 2)

/-- A value: a NaN (signalling or not), an infinity, or ± m × 2^e. -/
inductive FVal where
  | nan (sig : Bool)
  | inf (s : Bool)
  | fin (s : Bool) (m : Nat) (e : Int)
deriving DecidableEq, Repr

def FVal.isNan : FVal → Bool
  | .nan _ => true
  | _ => false
def FVal.isSig : FVal → Bool
  | .nan g => g
  | _ => false

/-- What the bits of a format mean. -/
def Fmt.unpack (f : Fmt) (b : Nat) : FVal :=
  let frac := b % 2 ^ (f.p - 1)
  let ex := b / 2 ^ (f.p - 1) % 2 ^ f.ew
  let s := b.testBit (f.p - 1 + f.ew)
  if ex = 2 ^ f.ew - 1 then (if frac = 0 then .inf s else .nan (decide (frac < 2 ^ (f.p - 2))))
  else if ex = 0 then .fin s frac (f.emin - (f.p - 1))
  else .fin s (frac + 2 ^ (f.p - 1)) (ex - f.bias - (f.p - 1))

/-! ### Rounding -/

/-- Flags of fcsr. -/
def fNX : Nat := 1
def fUF : Nat := 2
def fOF : Nat := 4
def fDZ : Nat := 8
def fNV : Nat := 16

/-- m / 2^sh rounded to an integer in mode `rm` (0 nearest even, 1 to zero, 2 down, 3 up, 4 nearest away), and whether it is inexact;
`sticky` says that the exact value lies a little above m. -/
def roundShift (rm : Nat) (s : Bool) (m sh : Nat) (sticky : Bool) : Nat × Bool :=
  let q := m / 2 ^ sh
  let r2 := 2 * (m % 2 ^ sh)
  let h := 2 ^ sh
  let inexact := r2 != 0 || sticky
  let above := decide (h < r2) || (r2 == h && sticky)
  let up := match rm with
    | 0 => above || (r2 == h && q % 2 == 1)
    | 1 => false
    | 2 => s && inexact
    | 3 => !s && inexact
    | _ => above || r2 == h
  (if up then q + 1 else q, inexact)

/-- ± m × 2^e rounded into a format: its bits and flags. Tininess is detected after rounding. -/
def Fmt.round (f : Fmt) (rm : Nat) (s : Bool) (m : Nat) (e : Int) (sticky : Bool) : Nat × Nat :=
  if m = 0 then (f.zero s, 0)
  else
    let top : Int := e + (Nat.log2 m : Nat)
    let qe : Int := max top f.emin - (f.p - 1)
    let d := qe - e
    let (q, ix) := if d ≤ 0 then (m * 2 ^ (-d).toNat, sticky) else roundShift rm s m d.toNat sticky
    let mag := if q < 2 ^ (f.p - 1) then q else (qe + (f.p - 1) + f.bias).toNat * 2 ^ (f.p - 1) + (q - 2 ^ (f.p - 1))
    if f.inf false ≤ mag then
      let toInf := rm = 0 ∨ rm = 4 ∨ (rm = 2 ∧ s = true) ∨ (rm = 3 ∧ s = false)
      (if toInf then f.inf s else f.maxFin s, fOF + fNX)
    else
      let d' := top - (f.p - 1) - e
      let full := d' > 0 ∧ (roundShift rm s m d'.toNat sticky).1 = 2 ^ f.p
      let tiny := top < f.emin ∧ ¬ (top = f.emin - 1 ∧ full)
      (mag + f.zero s, if ix then fNX + (if tiny then fUF else 0) else 0)

/-! ### Arithmetic -/

/-- The canonical NaN, invalid when an operand is signalling. -/
def Fmt.nanOf (f : Fmt) (l : List FVal) : Nat × Nat := (f.nan, if l.any FVal.isSig then fNV else 0)

/-- Sum of two finite values, rounded once. -/
def Fmt.sumFin (f : Fmt) (rm : Nat) (s1 : Bool) (m1 : Nat) (e1 : Int) (s2 : Bool) (m2 : Nat) (e2 : Int) : Nat × Nat :=
  let e := min e1 e2
  let a : Int := (if s1 then -1 else 1) * (m1 * 2 ^ (e1 - e).toNat : Nat)
  let b : Int := (if s2 then -1 else 1) * (m2 * 2 ^ (e2 - e).toNat : Nat)
  let t := a + b
  if t = 0 then (f.zero (if s1 = s2 then s1 else decide (rm = 2)), 0) else f.round rm (decide (t < 0)) t.natAbs e false

def Fmt.add (f : Fmt) (rm a b : Nat) : Nat × Nat :=
  match f.unpack a, f.unpack b with
  | .inf s, .inf t => if s = t then (f.inf s, 0) else (f.nan, fNV)
  | .inf s, .fin _ _ _ => (f.inf s, 0)
  | .fin _ _ _, .inf t => (f.inf t, 0)
  | .fin s m e, .fin t n d => f.sumFin rm s m e t n d
  | x, y => f.nanOf [x, y]

/-- The opposite. -/
def Fmt.neg (f : Fmt) (a : Nat) : Nat := Nat.xor a (f.zero true)
def Fmt.sub (f : Fmt) (rm a b : Nat) : Nat × Nat := f.add rm a (f.neg b) |> fun r => if (f.unpack b).isNan then f.nanOf [f.unpack a, f.unpack b] else r

def Fmt.mul (f : Fmt) (rm a b : Nat) : Nat × Nat :=
  match f.unpack a, f.unpack b with
  | .inf s, .inf t => (f.inf (s != t), 0)
  | .inf s, .fin t m _ => if m = 0 then (f.nan, fNV) else (f.inf (s != t), 0)
  | .fin s m _, .inf t => if m = 0 then (f.nan, fNV) else (f.inf (s != t), 0)
  | .fin s m e, .fin t n d => f.round rm (s != t) (m * n) (e + d) false
  | x, y => f.nanOf [x, y]

/-- ± a × b ± c, rounded once; inf × 0 is invalid whatever c is. -/
def Fmt.fma (f : Fmt) (rm : Nat) (np nc : Bool) (a b c : Nat) : Nat × Nat :=
  let x := f.unpack a
  let y := f.unpack b
  let z := f.unpack c
  let bad := match x, y with
    | .inf _, .fin _ m _ => m == 0
    | .fin _ m _, .inf _ => m == 0
    | _, _ => false
  if bad then (f.nan, fNV)
  else if x.isNan || y.isNan || z.isNan then f.nanOf [x, y, z]
  else
    let prod : FVal := match x, y with
      | .fin s m e, .fin t n d => .fin ((s != t) != np) (m * n) (e + d)
      | .inf s, .inf t => .inf ((s != t) != np)
      | .inf s, .fin t _ _ => .inf ((s != t) != np)
      | .fin s _ _, .inf t => .inf ((s != t) != np)
      | _, _ => .nan false
    match prod, z with
    | .inf s, .inf t => if s = (t != nc) then (f.inf s, 0) else (f.nan, fNV)
    | .inf s, _ => (f.inf s, 0)
    | _, .inf t => (f.inf (t != nc), 0)
    | .fin s m e, .fin t n d => f.sumFin rm s m e (t != nc) n d
    | _, _ => (f.nan, 0)

def Fmt.div (f : Fmt) (rm a b : Nat) : Nat × Nat :=
  match f.unpack a, f.unpack b with
  | .inf _, .inf _ => (f.nan, fNV)
  | .inf s, .fin t _ _ => (f.inf (s != t), 0)
  | .fin s _ _, .inf t => (f.zero (s != t), 0)
  | .fin s m e, .fin t n d =>
    if n = 0 then (if m = 0 then (f.nan, fNV) else (f.inf (s != t), fDZ))
    else
      let k := f.p + 3 + Nat.log2 n
      f.round rm (s != t) (m * 2 ^ k / n) (e - d - k) (m * 2 ^ k % n != 0)
  | x, y => f.nanOf [x, y]

def Fmt.sqrt (f : Fmt) (rm a : Nat) : Nat × Nat :=
  match f.unpack a with
  | .nan g => f.nanOf [.nan g]
  | .inf s => if s then (f.nan, fNV) else (f.inf false, 0)
  | .fin s m e =>
    if m = 0 then (f.zero s, 0)
    else if s then (f.nan, fNV)
    else
      let k := if (e - (2 * f.p + 4)) % 2 = 0 then 2 * f.p + 4 else 2 * f.p + 5
      let n := m * 2 ^ k
      let r := Nat.sqrt n
      f.round rm false r ((e - k) / 2) (r * r != n)

/-! ### Comparison, classes -/

/-- Order of two values that are no NaN: -1, 0 or 1. -/
def FVal.cmp : FVal → FVal → Int
  | .inf s, .inf t => if s = t then 0 else if s then -1 else 1
  | .inf s, _ => if s then -1 else 1
  | _, .inf t => if t then 1 else -1
  | .fin s m e, .fin t n d =>
    let k := min e d
    let a : Int := (if s then -1 else 1) * (m * 2 ^ (e - k).toNat : Nat)
    let b : Int := (if t then -1 else 1) * (n * 2 ^ (d - k).toNat : Nat)
    if a < b then -1 else if a = b then 0 else 1
  | _, _ => 0

/-- FEQ (2), FLT (1) and FLE (0): the quiet comparison is invalid for a signalling NaN only. -/
def Fmt.compare (f : Fmt) (f3 a b : Nat) : Nat × Nat :=
  let x := f.unpack a
  let y := f.unpack b
  if x.isNan || y.isNan then (0, if f3 = 2 ∧ !(x.isSig || y.isSig) then 0 else fNV)
  else
    let c := x.cmp y
    (b2n (if f3 = 2 then c == 0 else if f3 = 1 then decide (c < 0) else decide (c ≤ 0)), 0)

/-- FMIN and FMAX: the number against a NaN, -0 below +0. -/
def Fmt.minMax (f : Fmt) (mx : Bool) (a b : Nat) : Nat × Nat :=
  let x := f.unpack a
  let y := f.unpack b
  let fl := if x.isSig || y.isSig then fNV else 0
  if x.isNan && y.isNan then (f.nan, fl)
  else if x.isNan then (b, fl)
  else if y.isNan then (a, fl)
  else
    let c := x.cmp y
    let less := decide (c < 0) || (c == 0 && a.testBit (f.p - 1 + f.ew))
    (if less != mx then a else b, fl)

/-- FCLASS. -/
def Fmt.classify (f : Fmt) (a : Nat) : Nat :=
  match f.unpack a with
  | .nan g => if g then 2 ^ 8 else 2 ^ 9
  | .inf s => if s then 1 else 2 ^ 7
  | .fin s m _ =>
    let sub := decide (m < 2 ^ (f.p - 1))
    if m = 0 then (if s then 2 ^ 3 else 2 ^ 4)
    else if sub then (if s then 2 ^ 2 else 2 ^ 5)
    else if s then 2 ^ 1 else 2 ^ 6

/-! ### Conversions -/

/-- To an integer of `w` bits: its two's complement bits; out of range and NaN give the nearest limit, invalid. -/
def Fmt.toInt (f : Fmt) (rm w : Nat) (signed : Bool) (a : Nat) : Nat × Nat :=
  let lo : Int := if signed then -(2 ^ (w - 1)) else 0
  let hi : Int := if signed then 2 ^ (w - 1) - 1 else 2 ^ w - 1
  let enc := fun (v : Int) => (v % (2 ^ w : Nat)).toNat
  match f.unpack a with
  | .nan _ => (enc hi, fNV)
  | .inf s => (enc (if s then lo else hi), fNV)
  | .fin s m e =>
    let (q, ix) := if 0 ≤ e then (m * 2 ^ e.toNat, false) else roundShift rm s m (-e).toNat false
    let v : Int := if s then -(q : Int) else q
    if v < lo then (enc lo, fNV) else if hi < v then (enc hi, fNV) else (enc v, if ix then fNX else 0)

/-- From an integer. -/
def Fmt.ofInt (f : Fmt) (rm : Nat) (v : Int) : Nat × Nat := f.round rm (decide (v < 0)) v.natAbs 0 false

/-- From another format. -/
def Fmt.convert (f g : Fmt) (rm a : Nat) : Nat × Nat :=
  match f.unpack a with
  | .nan q => (g.nan, if q then fNV else 0)
  | .inf s => (g.inf s, 0)
  | .fin s m e => g.round rm s m e false

end Sys2Proof.Machine
end

