-- ==== Sys2Proof/Machine/Rv64.lean ====
section
/-!
DEFINITION. The rider cores' standard instructions (R322): RV64IMAFDC with Zicsr, Zifencei, Zicntr and Zicbom under Sv48 and the
PMP, and the frame spill and fill of Xkfr.
-/
namespace Sys2Proof.Machine

/-! ### Physical memory protection (R322) -/

/-- pmpcfg of entry `i`. -/
def State.pmpCfg (s : State) (c i : Nat) : Nat := fld (s.csr c (0x3A0 + i / 8 * 2)) (8 * (i % 8)) 8
/-- pmpaddr of entry `i`. -/
def State.pmpAddr (s : State) (c i : Nat) : Nat := fld (s.csr c (0x3B0 + i)) 0 54

/-- First address and end of the range of entry `i`; none while it is off. -/
def State.pmpRange (s : State) (c i : Nat) : Option (Nat × Nat) :=
  let a := s.pmpAddr c i
  match nfld (s.pmpCfg c i) 3 2 with
  | 0 => none
  | 1 => some (if i = 0 then 0 else 4 * s.pmpAddr c (i - 1), 4 * a)
  | 2 => some (4 * a, 4 * a + 4)
  | _ =>
    let ones := ((List.range 54).find? (fun k => !a.testBit k)).getD 54
    some (a / 2 ^ (ones + 1) * 2 ^ (ones + 3), a / 2 ^ (ones + 1) * 2 ^ (ones + 3) + 2 ^ (ones + 3))

/-- An access of `n` bytes at `a` with privilege `pr` and the permissions `need` (1 read, 2 write, 4 execute) passes the PMP: the
lowest entry that holds one of the bytes must hold all and permit it; machine mode is checked by locked entries only, and needs no
entry. -/
def State.pmpOk (s : State) (c pr a n need : Nat) : Bool :=
  match (List.range 16).find? (fun i => match s.pmpRange c i with
    | some (lo, hi) => decide (lo < a + n) && decide (a < hi)
    | none => false) with
  | none => pr == 3
  | some i => match s.pmpRange c i with
    | none => false
    | some (lo, hi) =>
      decide (lo ≤ a) && decide (a + n ≤ hi) && ((pr == 3 && !(s.pmpCfg c i).testBit 7) || Nat.land (s.pmpCfg c i) need == need)

/-! ### Physical accesses of a core (R341, R343) -/

/-- How an access ends: its bytes, an exception, or an answer DROWSE after which the instruction has not executed yet. -/
inductive Acc where
  | done (l : List Byte)
  | trap (cause : Nat) (tval : DWord)
  | stall
deriving DecidableEq, Repr

/-- The host or peer range can be reached. -/
def State.hostOpen (s : State) (a : Nat) : Bool := s.linkUp && s.pmu.mode != .drain && (s.outTarget a).isSome

/-- Core `c` holds the DRAM line dirty in its L2, and reads and writes it there (R342). -/
def State.l2Holds (s : State) (c line : Nat) : Bool := s.l2.any (fun e => e.1 == line && e.2.1 == c)

/-- A load of `n` bytes by core `c`. -/
def State.physLoad (s : State) (c a n : Nat) : State × Status × List Byte :=
  match s.target a with
  | .window _ => if n = 4 ∨ n = 8 then s.busRead (coreIni c) a n [] else (s, .slvErr, [])
  | .host _ | .peer _ _ =>
    match s.reach (coreIni c) true a false with
    | (s1, .ok) => if s1.hostOpen a then (let (u, l) := s1.freeBytes n; (u, .ok, l)) else (s1, .slvErr, [])
    | (s1, st) => (s1, st, [])
  | .unmapped => (s, .decErr, [])
  | _ => if s.l2Holds c (a / 64) then (s, .ok, s.bytesAt a n) else s.memRead (coreIni c) a n

/-- A store by core `c`: a DRAM line becomes dirty in its L2, and what the DRAM behind it holds is kept (R342). -/
def State.physStore (s : State) (c a : Nat) (l : List Byte) : State × Status :=
  match s.target a with
  | .window _ => if l.length = 4 ∨ l.length = 8 then s.busWrite (coreIni c) a l else (s, .slvErr)
  | .host _ | .peer _ _ =>
    match s.reach (coreIni c) true a true with
    | (s1, .ok) => (s1, if s1.hostOpen a then .ok else .slvErr)
    | (s1, st) => (s1, st)
  | .unmapped => (s, .decErr)
  | .rom _ => (s, .slvErr)
  | .reservoir _ _ => s.memWrite (coreIni c) a l
  | .dram _ =>
    let line := a / 64
    let behind := match s.l2.find? (fun e => e.1 == line && e.2.1 == c) with
      | some e => e.2.2
      | none => s.readLine line
    let (u, st) := if s.l2Holds c line then ((s.setBytes a l).touchLine line, .ok) else s.memWrite (coreIni c) a l
    (if st = .ok then { u with l2 := tput u.l2 line (c, behind) } else u, st)

/-! ### Translation (R344) -/

/-- Why a core's translation fails. -/
inductive XErr where
  | page | access | stall
deriving DecidableEq, Repr

/-- The walk of a core, checked by the PMP as supervisor reads; the leaf with its level, and whether it is global. -/
def State.coreWalk (s : State) (c va : Nat) : Nat → Nat → Bool → State × Except XErr (Nat × Nat × Bool)
  | ppn, level, g =>
    let a := ppn * 4096 + 8 * nfld va (12 + 9 * level) 9
    if !s.pmpOk c 1 a 8 1 then (s, .error .access)
    else
      let (s1, st, l) := s.physLoad c a 8
      let pte := ofBytes l
      let b := Nat.testBit pte
      let g' := g || b 5
      if st = .drowse then (s1, .error .stall)
      else if st ≠ .ok then (s1, .error .access)
      else if !b 0 || (b 2 && !b 1) || nfld pte 54 10 ≠ 0 then (s1, .error .page)
      else if b 1 || b 3 then (s1, .ok (pte, level, g'))
      else if b 4 || b 6 || b 7 then (s1, .error .page)
      else match level with
        | 0 => (s1, .error .page)
        | n + 1 => s1.coreWalk c va (nfld pte 10 44) n g'

/-- Privilege with which loads and stores of a bank access memory (mstatus.MPRV). -/
def Bank.dataPriv (x : Bank) : Nat := if bit x.mst mMprv && x.priv == 3 then fld x.mst mMpp 2 else x.priv.toNat

/-- The physical address of a data access. -/
def State.translate (s : State) (c b : Nat) (va : DWord) (wr : Bool) : State × Except XErr Nat :=
  let x := s.bank c b
  let pr := x.dataPriv
  let satp := x.slot slotSatp
  if pr = 3 ∨ fld satp 60 4 = 0 then (s, .ok va.toNat)
  else if sx 64 va.toNat ≠ sx 48 va.toNat then (s, .error .page)
  else
    let r : XReq := { wr := wr, user := pr == 0, sum := bit x.mst mSum, mxr := bit x.mst mMxr }
    let v := va.toNat % 2 ^ 48
    let asid := fld satp 44 16
    let use := fun (u : State) (pte level : Nat) =>
      match leafFault r pte level with
      | some _ => (u, Except.error XErr.page)
      | none => (u, Except.ok (leafAddr pte level v))
    let (s1, hit) := s.tlbHit (s.core c).tlb asid v
    match hit with
    | some e => use s1 e.pte e.level
    | none =>
      match s1.coreWalk c v (fld satp 0 44) 3 false with
      | (s2, .error f) => (s2, .error f)
      | (s2, .ok (pte, level, g)) =>
        let (s3, l') := s2.addTlb (s2.core c).tlb 1088 ⟨if g then none else some asid, nfld v 12 36 / 2 ^ (9 * level), level, pte⟩
        use (s3.modCore c (fun y => { y with tlb := l' })) pte level

/-- A load of `n` bytes at a virtual address; `res` for LR, which reaches DRAM only. -/
def State.vLoad (s : State) (c b : Nat) (va : DWord) (n : Nat) (res : Bool) : State × Acc × Nat :=
  if va.toNat % n ≠ 0 then (s, .trap 4 va, 0)
  else match s.translate c b va false with
    | (u, .error .page) => (u, .trap 13 va, 0)
    | (u, .error .access) => (u, .trap 5 va, 0)
    | (u, .error .stall) => (u, .stall, 0)
    | (u, .ok pa) =>
      let dram := match u.target pa with
        | .dram _ => true
        | _ => false
      if !u.pmpOk c (u.bank c b).dataPriv pa n 1 || (res && !dram) then (u, .trap 5 va, 0)
      else match u.physLoad c pa n with
        | (v, .ok, l) => (v, .done l, pa)
        | (v, .drowse, _) => (v, .stall, 0)
        | (v, _, _) => (v, .trap 5 va, 0)

/-- Address of a store or an AMO: aligned, translated, permitted; `amo` reaches DRAM only and reads too (R341). -/
def State.vStoreAddr (s : State) (c b : Nat) (va : DWord) (n : Nat) (amo : Bool) : State × Except Acc Nat :=
  if va.toNat % n ≠ 0 then (s, .error (.trap 6 va))
  else match s.translate c b va true with
    | (u, .error .page) => (u, .error (.trap 15 va))
    | (u, .error .access) => (u, .error (.trap 7 va))
    | (u, .error .stall) => (u, .error .stall)
    | (u, .ok pa) =>
      let dram := match u.target pa with
        | .dram _ => true
        | _ => false
      if !u.pmpOk c (u.bank c b).dataPriv pa n (if amo then 3 else 2) || (amo && !dram) then (u, .error (.trap 7 va)) else (u, .ok pa)

/-- A store at a virtual address. -/
def State.vStore (s : State) (c b : Nat) (va : DWord) (l : List Byte) : State × Acc :=
  match s.vStoreAddr c b va l.length false with
  | (u, .error e) => (u, e)
  | (u, .ok pa) => match u.physStore c pa l with
    | (v, .ok) => (v, .done [])
    | (v, .drowse) => (v, .stall)
    | (v, _) => (v, .trap 7 va)

/-- How an instruction ends after its accesses: it goes on, takes the exception, or has not executed. -/
def State.accEnd (s0 : State) (c b : Nat) (u : State) (a : Acc) (f : List Byte → State → State) : State :=
  match a with
  | .done l => f l u
  | .trap cause tval => u.takeTrap c b false cause tval
  | .stall => s0

/-! ### Results -/

/-- Write rd and go on behind an instruction of `len` bytes. -/
def State.retireX (s : State) (c b len rd : Nat) (v : DWord) : State :=
  (s.modBank c b (fun x => (x.setX rd v).setPc (x.pc + BitVec.ofNat 64 len))).retire c

/-- Go on at `target`, rd taking the return address. -/
def State.jumpTo (s : State) (c b len rd : Nat) (target : DWord) : State :=
  (s.modBank c b (fun x => (x.setX rd (x.pc + BitVec.ofNat 64 len)).setPc target)).retire c

/-! ### Fields of an instruction -/

def rvRd (w : Word) : Nat := fld w 7 5
def rvRs1 (w : Word) : Nat := fld w 15 5
def rvRs2 (w : Word) : Nat := fld w 20 5
def rvF3 (w : Word) : Nat := fld w 12 3
def rvF7 (w : Word) : Nat := fld w 25 7
def immI (w : Word) : DWord := BitVec.ofInt 64 (sx 12 (fld w 20 12))
def immS (w : Word) : DWord := BitVec.ofInt 64 (sx 12 (fld w 25 7 * 32 + fld w 7 5))
def immB (w : Word) : DWord := BitVec.ofInt 64 (sx 13 (fld w 31 1 * 4096 + fld w 7 1 * 2048 + fld w 25 6 * 32 + fld w 8 4 * 2))
def immU (w : Word) : DWord := BitVec.ofInt 64 (sx 32 (fld w 12 20 * 4096))
def immJ (w : Word) : DWord := BitVec.ofInt 64 (sx 21 (fld w 31 1 * 2 ^ 20 + fld w 12 8 * 4096 + fld w 20 1 * 2048 + fld w 21 10 * 2))

/-! ### Integer arithmetic (I, M) -/

/-- Sign-extend the low 32 bits. -/
def sext32 (v : DWord) : DWord := (v.setWidth 32).signExtend 64

/-- OP and OP-IMM. -/
def aluOp (f3 : Nat) (alt : Bool) (a b : DWord) : DWord :=
  match f3 with
  | 0 => if alt then a - b else a + b
  | 1 => a <<< (b.toNat % 64)
  | 2 => if a.toInt < b.toInt then 1 else 0
  | 3 => if a.toNat < b.toNat then 1 else 0
  | 4 => a ^^^ b
  | 5 => if alt then a.sshiftRight (b.toNat % 64) else a >>> (b.toNat % 64)
  | 6 => a ||| b
  | _ => a &&& b

/-- The W forms. -/
def aluOpW (f3 : Nat) (alt : Bool) (a b : DWord) : DWord :=
  let x : Word := a.setWidth 32
  let y : Word := b.setWidth 32
  (match f3 with
    | 0 => if alt then x - y else x + y
    | 1 => x <<< (y.toNat % 32)
    | _ => if alt then x.sshiftRight (y.toNat % 32) else x >>> (y.toNat % 32)).signExtend 64

/-- Quotient and remainder: by 0 all ones and the dividend. -/
def divInt (a b : Int) : Int := if b = 0 then -1 else a.tdiv b
def remInt (a b : Int) : Int := if b = 0 then a else a.tmod b

/-- The M extension. -/
def mulOp (f3 : Nat) (a b : DWord) : DWord :=
  match f3 with
  | 0 => a * b
  | 1 => BitVec.ofInt 64 (a.toInt * b.toInt / 2 ^ 64)
  | 2 => BitVec.ofInt 64 (a.toInt * (b.toNat : Int) / 2 ^ 64)
  | 3 => BitVec.ofNat 64 (a.toNat * b.toNat / 2 ^ 64)
  | 4 => BitVec.ofInt 64 (divInt a.toInt b.toInt)
  | 5 => BitVec.ofInt 64 (divInt a.toNat b.toNat)
  | 6 => BitVec.ofInt 64 (remInt a.toInt b.toInt)
  | _ => BitVec.ofInt 64 (remInt a.toNat b.toNat)

/-- Its W forms. -/
def mulOpW (f3 : Nat) (a b : DWord) : DWord :=
  let x : Word := a.setWidth 32
  let y : Word := b.setWidth 32
  (match f3 with
    | 0 => x * y
    | 4 => BitVec.ofInt 32 (divInt x.toInt y.toInt)
    | 5 => BitVec.ofInt 32 (divInt x.toNat y.toNat)
    | 6 => BitVec.ofInt 32 (remInt x.toInt y.toInt)
    | _ => BitVec.ofInt 32 (remInt x.toNat y.toNat)).signExtend 64

/-- Branch conditions; none for the reserved ones. -/
def branchTaken (f3 : Nat) (a b : DWord) : Option Bool :=
  match f3 with
  | 0 => some (a == b)
  | 1 => some (a != b)
  | 4 => some (decide (a.toInt < b.toInt))
  | 5 => some (decide (b.toInt ≤ a.toInt))
  | 6 => some (decide (a.toNat < b.toNat))
  | 7 => some (decide (b.toNat ≤ a.toNat))
  | _ => none

/-- The arithmetic instructions: the result, none for a reserved encoding. -/
def arith (w : Word) (pc a b : DWord) : Option DWord :=
  let f3 := rvF3 w
  let f7 := rvF7 w
  match fld w 0 7 with
  | 0x37 => some (immU w)
  | 0x17 => some (pc + immU w)
  | 0x13 =>
    if f3 = 1 then (if fld w 26 6 = 0 then some (aluOp 1 false a (BitVec.ofNat 64 (fld w 20 6))) else none)
    else if f3 = 5 then
      (if fld w 26 6 = 0 ∨ fld w 26 6 = 0x10 then some (aluOp 5 (bit w 30) a (BitVec.ofNat 64 (fld w 20 6))) else none)
    else some (aluOp f3 false a (immI w))
  | 0x1B =>
    if f3 = 0 then some (aluOpW 0 false a (immI w))
    else if f3 = 1 ∧ f7 = 0 then some (aluOpW 1 false a (BitVec.ofNat 64 (rvRs2 w)))
    else if f3 = 5 ∧ (f7 = 0 ∨ f7 = 0x20) then some (aluOpW 5 (bit w 30) a (BitVec.ofNat 64 (rvRs2 w)))
    else none
  | 0x33 =>
    if f7 = 1 then some (mulOp f3 a b)
    else if f7 = 0 then some (aluOp f3 false a b)
    else if f7 = 0x20 ∧ (f3 = 0 ∨ f3 = 5) then some (aluOp f3 true a b)
    else none
  | 0x3B =>
    if f7 = 1 ∧ (f3 = 0 ∨ 4 ≤ f3) then some (mulOpW f3 a b)
    else if f7 = 0 ∧ (f3 = 0 ∨ f3 = 1 ∨ f3 = 5) then some (aluOpW f3 false a b)
    else if f7 = 0x20 ∧ (f3 = 0 ∨ f3 = 5) then some (aluOpW f3 true a b)
    else none
  | _ => none

/-! ### Atomic memory operations (A) -/

/-- What an AMO stores, in its width. -/
def amoOp (f5 n : Nat) (m r : Nat) : Option Nat :=
  let si := sx (8 * n)
  match f5 with
  | 1 => some r
  | 0 => some ((m + r) % 2 ^ (8 * n))
  | 4 => some (Nat.xor m r)
  | 12 => some (Nat.land m r)
  | 8 => some (Nat.lor m r)
  | 16 => some (if si m ≤ si r then m else r)
  | 20 => some (if si r ≤ si m then m else r)
  | 24 => some (min m r)
  | 28 => some (max m r)
  | _ => none

/-- LR, SC and the AMOs, in DRAM only (R341). -/
def State.atomic (s : State) (c b len : Nat) (w : Word) : State :=
  let x := s.bank c b
  let n := if rvF3 w = 2 then 4 else 8
  let f5 := fld w 27 5
  let va := x.x (rvRs1 w)
  let put := fun (v : Nat) => BitVec.ofInt 64 (sx (8 * n) v)
  if rvF3 w ≠ 2 ∧ rvF3 w ≠ 3 then s.illegal c b w
  else if f5 = 2 then
    if rvRs2 w ≠ 0 then s.illegal c b w
    else match s.vLoad c b va n true with
      | (u, a, pa) => s.accEnd c b u a (fun l v =>
        ({ v with lr := tset none v.lr c (some (pa / 64)) }).retireX c b len (rvRd w) (put (ofBytes l)))
  else if f5 = 3 then
    match s.vStoreAddr c b va n true with
    | (u, .error a) => s.accEnd c b u a (fun _ v => v)
    | (u, .ok pa) =>
      let drop := fun (v : State) => { v with lr := tset none v.lr c none }
      -- the RISC-V specification lets an SC fail though the reservation stands
      let (k, u) := u.freeNat 2
      if tget none u.lr c = some (pa / 64) ∧ k = 0 then
        match u.physStore c pa (bytesOf n (x.x (rvRs2 w)).toNat) with
        | (v, .ok) => (drop v).retireX c b len (rvRd w) 0
        | (_, .drowse) => s
        | (v, _) => v.takeTrap c b false 7 va
      else (drop u).retireX c b len (rvRd w) 1
  else match amoOp f5 n 0 0 with
    | none => s.illegal c b w
    | some _ =>
      match s.vStoreAddr c b va n true with
      | (u, .error a) => s.accEnd c b u a (fun _ v => v)
      | (u, .ok pa) =>
        match u.physLoad c pa n with
        | (_, .drowse, _) => s
        | (u1, .ok, l) =>
          let m := ofBytes l
          match u1.physStore c pa (bytesOf n ((amoOp f5 n m ((x.x (rvRs2 w)).toNat % 2 ^ (8 * n))).getD 0)) with
          | (v, .ok) => v.retireX c b len (rvRd w) (put m)
          | (_, .drowse) => s
          | (v, _) => v.takeTrap c b false 7 va
        | (u1, _, _) => u1.takeTrap c b false 7 va

/-! ### Control and status registers (Zicsr, R323, R324, R330, R349) -/

/-- Bits of sstatus within mstatus. -/
def sstMask : DWord := 0xC6122
/-- The read-only bits of mstatus: UXL and SXL are 2, SD follows FS. -/
def mstFixed (fs : Nat) (s : Bool) : DWord := (if s then 0x200000000 else 0xA00000000) ||| (if fs = 3 then 0x8000000000000000 else 0)
/-- misa. -/
def misaValue : DWord := 0x800000000014112D
/-- Exceptions that may be delegated: every cause of R347 but the machine-mode call. -/
def medelegMask : DWord := 0x700B3FF
/-- The fields of menvcfg and senvcfg that exist: FIOM, CBIE, CBCFE. -/
def envMask : DWord := 0x71

/-- The counters that a mode below machine may read (mcounteren, scounteren). -/
def State.counterOk (s : State) (c : Nat) (pr i : Nat) : Bool :=
  pr == 3 || (bit (s.csr c 0x306) i && (pr == 1 || bit (s.csr c 0x106) i))

/-- The time CSR: the AON tick count (R323). -/
def State.timeCsr (s : State) : DWord := s.aon.time

/-- Read a CSR from privilege `pr`: none where it does not exist or may not be read there. -/
def State.csrRead (s : State) (c b pr n : Nat) : Option DWord :=
  let x := s.bank c b
  let fs := fld x.mst mFs 2
  let fcsr := tget 0 (s.core c).fp 32
  let low := nfld n 8 2
  if n = 1 then (if fs = 0 then none else some (BitVec.ofNat 64 (fld fcsr 0 5)))
  else if n = 2 then (if fs = 0 then none else some (BitVec.ofNat 64 (fld fcsr 5 3)))
  else if n = 3 then (if fs = 0 then none else some (BitVec.ofNat 64 (fld fcsr 0 8)))
  else if n = 0xC00 then (if s.counterOk c pr 0 then some (Config.free s.fresh) else none)
  else if n = 0xC01 then (if s.counterOk c pr 1 then some s.timeCsr else none)
  else if n = 0xC02 then (if s.counterOk c pr 2 then some (s.csr c 0xB02) else none)
  else if 0xFC0 ≤ n ∧ n ≤ 0xFC3 then
    (if pr = 0 then none else
      some (if n = 0xFC0 then BitVec.ofNat 64 x.nodel else if n = 0xFC1 then BitVec.ofNat 64 x.nodeu
        else if n = 0xFC2 then BitVec.ofNat 64 x.thr else BitVec.ofNat 64 (b + 16 * c)))
  else if pr < low then none
  else if n = 0x100 then some ((x.mst &&& sstMask) ||| mstFixed fs true)
  else if n = 0x104 then some (x.slot slotSie)
  else if n = 0x105 then some (x.slot slotStvec)
  else if n = 0x106 ∨ n = 0x10A then some (s.csr c n)
  else if n = 0x140 then some (x.slot slotSscratch)
  else if n = 0x141 then some (x.slot slotSepc)
  else if n = 0x142 then some (x.slot slotScause)
  else if n = 0x143 then some (x.slot slotStval)
  else if n = 0x144 then some (if bit (s.csr c csrMideleg) 16 && s.lint c then 0x10000 else 0)
  else if n = 0x180 then (if pr = 1 ∧ bit (s.csr c 0x300) 20 then none else some (x.slot slotSatp))
  else if n = 0xF14 then some (BitVec.ofNat 64 c)
  else if n = 0xF11 ∨ n = 0xF12 ∨ n = 0xF13 ∨ n = 0xF15 then some (Config.idCsr n)
  else if n = 0x300 then some (x.mst ||| (s.csr c 0x300 &&& 0x700000) ||| mstFixed fs false)
  else if n = 0x301 then some misaValue
  else if n = 0x340 then some (x.slot slotMscratch)
  else if n = 0x341 then some (x.slot slotMepc)
  else if n = 0x342 then some (x.slot slotMcause)
  else if n = 0x343 then some (x.slot slotMtval)
  else if n = 0x344 then some (if s.lint c then 0x10000 else 0)
  else if n = csrMedeleg ∨ n = csrMideleg ∨ n = csrMie ∨ n = csrMtvec ∨ n = 0x306 ∨ n = 0x30A ∨ n = 0x320 ∨ n = 0x3A0 ∨ n = 0x3A2 ∨
      (0x3B0 ≤ n ∧ n < 0x3C0) ∨ n = 0xB02 then some (s.csr c n)
  else if n = 0xB00 then some (Config.free s.fresh)
  else if (0xB03 ≤ n ∧ n ≤ 0xB1F) ∨ (0x323 ≤ n ∧ n ≤ 0x33F) then some 0
  else if n = 0x7C0 then some x.kf
  else if n = 0x7C1 then some (x.slot slotKfbase)
  else none

/-- One byte of a pmpcfg write: a locked entry keeps its byte; W without R is reserved and keeps the permissions' old value. -/
def pmpByte (old new : Nat) : Nat :=
  if old.testBit 7 then old
  else
    let v := Nat.land new 0x9F
    if v.testBit 1 && !v.testBit 0 then v / 8 * 8 + old % 8 else v

/-- A write of a pmpcfg register. -/
def pmpCfgWrite (old v : DWord) : DWord :=
  BitVec.ofNat 64 (((List.range 8).map (fun i => 2 ^ (8 * i) * pmpByte (fld old (8 * i) 8) (fld v (8 * i) 8))).sum)

/-- pmpaddr `i` takes writes: its entry is not locked, nor the next one as a locked top-of-range. -/
def State.pmpAddrOpen (s : State) (c i : Nat) : Bool :=
  !(s.pmpCfg c i).testBit 7 && !(decide (i < 15) && (s.pmpCfg c (i + 1)).testBit 7 && nfld (s.pmpCfg c (i + 1)) 3 2 == 1)

/-- The banked fields of mstatus after a write of `v` through `mask`; MPP takes no reserved level. -/
def Bank.mstWrite (x : Bank) (mask v : DWord) : Bank :=
  let m := mask &&& mstMask
  let new := (x.mst &&& ~~~m) ||| (v &&& m)
  { x with mst := if fld new mMpp 2 = 2 then setFld new mMpp 2 (fld x.mst mMpp 2) else new }

/-- A slot of the lower half written as a CSR. -/
def State.slotCsr (s : State) (c b i : Nat) (v : DWord) : State := s.modBank c b (fun x => x.setSlot i (slotLegal i v))

/-- A field of an environment configuration: CBIE takes no reserved value. -/
def envWrite (old v : DWord) : DWord :=
  let w := v &&& envMask
  if fld w 4 2 = 2 then setFld w 4 2 (fld old 4 2) else w

/-- Write fcsr; the FP state becomes dirty. -/
def State.setFcsr (s : State) (c b lo n v : Nat) : State :=
  (s.modCore c (fun y => { y with fp := tset 0 y.fp 32 (setFld (tget 0 y.fp 32) lo n v) })).modBank c b
    (fun x => { x with mst := setFld x.mst mFs 2 3 })

/-- Write a CSR that the access checks have passed. -/
def State.csrWrite (s : State) (c b n : Nat) (v : DWord) : State :=
  if n = 1 then s.setFcsr c b 0 5 (fld v 0 5)
  else if n = 2 then s.setFcsr c b 5 3 (fld v 0 3)
  else if n = 3 then s.setFcsr c b 0 8 (fld v 0 8)
  else if n = 0x100 then s.modBank c b (fun x => x.mstWrite sstMask v)
  else if n = 0x104 then s.slotCsr c b slotSie v
  else if n = 0x105 then s.slotCsr c b slotStvec v
  else if n = 0x106 ∨ n = 0x306 then s.setCsr c n (v &&& 7)
  else if n = 0x10A ∨ n = 0x30A then s.setCsr c n (envWrite (s.csr c n) v)
  else if n = 0x140 then s.slotCsr c b slotSscratch v
  else if n = 0x141 then s.slotCsr c b slotSepc v
  else if n = 0x142 then s.slotCsr c b slotScause v
  else if n = 0x143 then s.slotCsr c b slotStval v
  else if n = 0x180 then (if fld v 60 4 = 0 ∨ fld v 60 4 = 9 then s.slotCsr c b slotSatp v else s)
  else if n = 0x300 then (s.modBank c b (fun x => x.mstWrite mstMask v)).setCsr c 0x300 (v &&& 0x700000)
  else if n = csrMedeleg then s.setCsr c n (v &&& medelegMask)
  else if n = csrMideleg ∨ n = csrMie then s.setCsr c n (v &&& 0x10000)
  else if n = csrMtvec then s.setCsr c n (v &&& ~~~2)
  else if n = 0x320 then s.setCsr c n (v &&& 5)
  else if n = 0x340 then s.slotCsr c b slotMscratch v
  else if n = 0x341 then s.slotCsr c b slotMepc v
  else if n = 0x342 then s.slotCsr c b slotMcause v
  else if n = 0x343 then s.slotCsr c b slotMtval v
  else if n = 0x3A0 ∨ n = 0x3A2 then s.setCsr c n (pmpCfgWrite (s.csr c n) v)
  else if 0x3B0 ≤ n ∧ n < 0x3C0 then (if s.pmpAddrOpen c (n - 0x3B0) then s.setCsr c n (BitVec.ofNat 64 (fld v 0 54)) else s)
  else if n = 0xB02 then s.setCsr c n v
  else if n = 0x7C0 then
    -- spl, tnest and the reserved bits ignore writes (R349)
    (let keep : DWord := 0x2FF00
     let (k, s1) := s.kfRange (((s.bank c b).kf &&& keep) ||| (v &&& 0x3D003F))
     s1.modBank c b (fun x => x.setSlot slotKf k))
  else if n = 0x7C1 then s.slotCsr c b slotKfbase v
  else s

/-- fcsr and its parts belong to the FP unit (R339). -/
def isFpCsr (n : Nat) : Bool := n == 1 || n == 2 || n == 3

/-- CSRRW, CSRRS, CSRRC and their immediate forms. -/
def State.csrInstr (s : State) (c b len : Nat) (w : Word) : State :=
  let x := s.bank c b
  let n := fld w 20 12
  let pr := x.priv.toNat
  let f3 := rvF3 w
  let src : DWord := if 4 ≤ f3 then BitVec.ofNat 64 (rvRs1 w) else x.x (rvRs1 w)
  let writes := f3 % 4 == 1 || rvRs1 w != 0
  match s.csrRead c b pr n with
  | none => s.illegal c b w
  | some _ =>
    if writes && decide (0xC00 ≤ n) then s.illegal c b w
    else
      let s1 := if isFpCsr n then s.fpReady c b else s
      let old := (s1.csrRead c b pr n).getD 0
      let new := match f3 % 4 with
        | 1 => src
        | 2 => old ||| src
        | _ => old &&& ~~~src
      let s2 := ({ s1 with fresh := s1.fresh + 1 }).retireX c b len (rvRd w) old
      -- the write of minstret stands in place of the instruction's own count
      if writes then s2.csrWrite c b n new else s2

/-! ### System instructions -/

/-- SFENCE.VMA removes the core's translations: of one address (rs1) and one address space (rs2), whose global pages stay (R344). -/
def State.sfence (s : State) (c : Nat) (va asid : Option Nat) : State :=
  s.modCore c (fun y => { y with tlb := y.tlb.filter (fun e =>
    !((match va with
        | some a => e.vpn == nfld a 12 36 / 2 ^ (9 * e.level)
        | none => true) &&
      (match asid with
        | some n => e.ctx == some n
        | none => true))) })

def State.system (s : State) (c b len : Nat) (w : Word) : State :=
  let x := s.bank c b
  let pr := x.priv.toNat
  if rvF3 w = 4 then s.illegal c b w
  else if rvF3 w ≠ 0 then s.csrInstr c b len w
  else if w = 0x00000073 then s.takeTrap c b false (8 + pr) 0
  else if w = 0x00100073 then s.takeTrap c b false 3 x.pc
  else if w = 0x30200073 then s.xret c b true
  else if w = 0x10200073 then s.xret c b false
  else if w = 0x10500073 then s.retireX c b len 0 0
  else if rvF7 w = 9 ∧ rvRd w = 0 then
    if pr = 0 ∨ (pr = 1 ∧ bit (s.csr c 0x300) 20) then s.illegal c b w
    else (s.sfence c (if rvRs1 w = 0 then none else some (x.x (rvRs1 w)).toNat)
      (if rvRs2 w = 0 then none else some (fld (x.x (rvRs2 w)) 0 16))).retireX c b len 0 0
  else s.illegal c b w

/-! ### Cache-block management (Zicbom) -/

/-- A dirty copy of a line is written back, or dropped so that memory holds what stood behind it (R342). -/
def State.cbo (s : State) (line : Nat) (drop : Bool) : State :=
  match s.l2.find? (fun e => e.1 == line) with
  | none => s
  | some e => if drop then ({ s with l2 := tdel s.l2 line }).setBytes (64 * line) (bytesOf 64 e.2.2.toNat) else { s with l2 := tdel s.l2 line }

/-- The level at which an environment-configuration field permits a CBO: none where it is illegal. -/
def State.cboEnv (s : State) (c pr lo n : Nat) : Option Nat :=
  let m := if pr = 3 then 2 ^ n - 1 else fld (s.csr c 0x30A) lo n
  let v := if pr = 0 then fld (s.csr c 0x10A) lo n else 2 ^ n - 1
  if m = 0 ∨ v = 0 then none else some (min m v)

/-- CBO.INVAL (0), CBO.CLEAN (1) and CBO.FLUSH (2): permitted where a load or a store is. -/
def State.cboInstr (s : State) (c b len : Nat) (w : Word) : State :=
  let x := s.bank c b
  let op := fld w 20 12
  let pr := x.priv.toNat
  if rvRd w ≠ 0 ∨ 2 < op then s.illegal c b w
  else match (if op = 0 then s.cboEnv c pr 4 2 else s.cboEnv c pr 6 1) with
    | none => s.illegal c b w
    | some lvl =>
      let va := x.x (rvRs1 w)
      let go := fun (u : State) (pa : Nat) =>
        if (u.target pa == .unmapped) || !(u.pmpOk c x.dataPriv (pa / 64 * 64) 64 1 || u.pmpOk c x.dataPriv (pa / 64 * 64) 64 2) then
          u.takeTrap c b false 7 va
        else (u.cbo (pa / 64) (decide (op = 0 ∧ lvl = 3))).retireX c b len 0 0
      match s.translate c b va false with
      | (u, .ok pa) => go u pa
      | (_, .error .stall) => s
      | (u, .error e) => match u.translate c b va true with
        | (v, .ok pa) => go v pa
        | (v, .error _) => v.takeTrap c b false (if e = .page then 15 else 7) va

/-! ### Floating point (F, D) -/

def State.freg (s : State) (c r : Nat) : DWord := tget 0 (s.core c).fp r
/-- An operand of a format: a single-precision value that is not boxed is the canonical NaN. -/
def State.fop (s : State) (c : Nat) (dbl : Bool) (r : Nat) : Nat :=
  let v := s.freg c r
  if dbl then v.toNat else if fld v 32 32 = 0xFFFFFFFF then fld v 0 32 else fmtS.nan
/-- A result of a format as a register holds it. -/
def boxed (dbl : Bool) (v : Nat) : DWord := BitVec.ofNat 64 (if dbl then v else 0xFFFFFFFF00000000 + v)

/-- Write an FP register; the FP state becomes dirty. -/
def State.setF (s : State) (c b r : Nat) (v : DWord) : State :=
  (s.modCore c (fun y => { y with fp := tset 0 y.fp r v })).modBank c b (fun x => { x with mst := setFld x.mst mFs 2 3 })

/-- Accrue exception flags. -/
def State.accrue (s : State) (c b fl : Nat) : State :=
  if fl = 0 then s else s.setFcsr c b 0 5 (Nat.lor (fld (s.freg c 32) 0 5) fl)

/-- The rounding mode of an instruction, none where it is reserved. -/
def State.rmOf (s : State) (c rm : Nat) : Option Nat :=
  let m := if rm = 7 then fld (s.freg c 32) 5 3 else rm
  if m ≤ 4 then some m else none

/-- An FP result: an FP register or an integer register, with flags. -/
inductive FRes where
  | f (v : DWord)
  | x (v : DWord)
deriving DecidableEq, Repr

/-- Retire an FP instruction. -/
def State.retireF (s : State) (c b len rd : Nat) (r : FRes) (fl : Nat) : State :=
  match r with
  | .f v => ((s.setF c b rd v).accrue c b fl).retireX c b len 0 0
  | .x v => (s.accrue c b fl).retireX c b len rd v

/-- Operations of OP-FP that round: the result, or none where the encoding is reserved. -/
def State.fpRounded (s : State) (c b : Nat) (w : Word) (rm : Nat) : Option (FRes × Nat) :=
  let dbl := bit w 25
  let f := if dbl then fmtD else fmtS
  let a := s.fop c dbl (rvRs1 w)
  let y := s.fop c dbl (rvRs2 w)
  let out := fun (r : Nat × Nat) => some (FRes.f (boxed dbl r.1), r.2)
  let sel := rvRs2 w
  match fld w 27 5 with
  | 0x00 => out (f.add rm a y)
  | 0x01 => out (f.sub rm a y)
  | 0x02 => out (f.mul rm a y)
  | 0x03 => out (f.div rm a y)
  | 0x0B => if sel = 0 then out (f.sqrt rm a) else none
  | 0x08 =>
    if dbl ∧ sel = 0 then out (fmtS.convert fmtD rm (s.fop c false (rvRs1 w)))
    else if !dbl ∧ sel = 1 then out (fmtD.convert fmtS rm (s.fop c true (rvRs1 w))) else none
  | 0x18 =>
    if 3 < sel then none
    else
      let n := if sel < 2 then 32 else 64
      let r := f.toInt rm n (sel % 2 == 0) a
      some (.x (BitVec.ofInt 64 (sx n r.1)), r.2)
  | 0x1A =>
    if 3 < sel then none
    else
      let v := (s.bank c b).x (rvRs1 w)
      out (f.ofInt rm (match sel with
        | 0 => sx 32 v.toNat
        | 1 => ((v.toNat % 2 ^ 32 : Nat) : Int)
        | 2 => v.toInt
        | _ => (v.toNat : Int)))
  | _ => none

/-- Operations of OP-FP that do not round; funct3 selects. -/
def State.fpExact (s : State) (c b : Nat) (w : Word) : Option (FRes × Nat) :=
  let dbl := bit w 25
  let f := if dbl then fmtD else fmtS
  let a := s.fop c dbl (rvRs1 w)
  let y := s.fop c dbl (rvRs2 w)
  let sign := f.zero true
  let f3 := rvF3 w
  match fld w 27 5 with
  | 0x04 =>
    let m := a % sign
    let sy := y / sign % 2
    if f3 = 0 then some (.f (boxed dbl (m + sign * sy)), 0)
    else if f3 = 1 then some (.f (boxed dbl (m + sign * (1 - sy))), 0)
    else if f3 = 2 then some (.f (boxed dbl (m + sign * ((a / sign % 2 + sy) % 2))), 0) else none
  | 0x05 => if f3 ≤ 1 then (let r := f.minMax (f3 == 1) a y; some (.f (boxed dbl r.1), r.2)) else none
  | 0x14 => if f3 ≤ 2 then (let r := f.compare f3 a y; some (.x (BitVec.ofNat 64 r.1), r.2)) else none
  | 0x1C =>
    if rvRs2 w ≠ 0 then none
    else if f3 = 1 then some (.x (BitVec.ofNat 64 (f.classify a)), 0)
    else if f3 = 0 then
      (let v := s.freg c (rvRs1 w)
       some (.x (if dbl then v else sext32 v), 0))
    else none
  | 0x1E =>
    if rvRs2 w ≠ 0 ∨ f3 ≠ 0 then none
    else
      let v := (s.bank c b).x (rvRs1 w)
      some (.f (if dbl then v else boxed false (fld v 0 32)), 0)
  | _ => none

/-- OP-FP. -/
def State.opFp (s : State) (c b len : Nat) (w : Word) : State :=
  let r := if 1 < fld w 25 2 then none
    else match s.fpExact c b w with
      | some r => some r
      | none =>
        let f5 := fld w 27 5
        if f5 = 4 ∨ f5 = 5 ∨ f5 = 0x14 ∨ f5 = 0x1C ∨ f5 = 0x1E then none
        else match s.rmOf c (rvF3 w) with
          | some rm => s.fpRounded c b w rm
          | none => none
  match r with
  | some (v, fl) => s.retireF c b len (rvRd w) v fl
  | none => s.illegal c b w

/-- FMADD, FMSUB, FNMSUB and FNMADD. -/
def State.fpFma (s : State) (c b len : Nat) (w : Word) : State :=
  let dbl := bit w 25
  let f := if dbl then fmtD else fmtS
  match s.rmOf c (rvF3 w) with
  | none => s.illegal c b w
  | some rm =>
    if 1 < fld w 25 2 then s.illegal c b w
    else
      let k := fld w 2 2
      -- 0 a·b+c, 1 a·b−c, 2 −a·b+c, 3 −a·b−c
      let r := f.fma rm (decide (2 ≤ k)) (k == 1 || k == 3) (s.fop c dbl (rvRs1 w)) (s.fop c dbl (rvRs2 w)) (s.fop c dbl (fld w 27 5))
      s.retireF c b len (rvRd w) (.f (boxed dbl r.1)) r.2

/-- FLW, FLD, FSW and FSD. -/
def State.fpMem (s : State) (c b len : Nat) (w : Word) : State :=
  let x := s.bank c b
  let dbl := rvF3 w == 3
  let n := if dbl then 8 else 4
  if rvF3 w ≠ 2 ∧ rvF3 w ≠ 3 then s.illegal c b w
  else if fld w 0 7 = 0x07 then
    match s.vLoad c b (x.x (rvRs1 w) + immI w) n false with
    | (u, a, _) => s.accEnd c b u a (fun l v => v.retireF c b len (rvRd w) (.f (boxed dbl (ofBytes l))) 0)
  else
    match s.vStore c b (x.x (rvRs1 w) + immS w) (bytesOf n (s.freg c (rvRs2 w)).toNat) with
    | (u, a) => s.accEnd c b u a (fun _ v => v.retireX c b len 0 0)

/-- An FP instruction: illegal while mstatus.FS is Off; otherwise the unit is made available first (R339). -/
def State.fpInstr (s : State) (c b len : Nat) (w : Word) : State :=
  if fld (s.bank c b).mst mFs 2 = 0 then s.illegal c b w
  else
    let u := s.fpReady c b
    match fld w 0 7 with
    | 0x07 | 0x27 => u.fpMem c b len w
    | 0x53 => u.opFp c b len w
    | _ => u.fpFma c b len w

/-! ### Loads and stores -/

def State.loadInstr (s : State) (c b len : Nat) (w : Word) : State :=
  let f3 := rvF3 w
  let n := 2 ^ (f3 % 4)
  if f3 = 7 then s.illegal c b w
  else match s.vLoad c b ((s.bank c b).x (rvRs1 w) + immI w) n false with
    | (u, a, _) => s.accEnd c b u a (fun l v => v.retireX c b len (rvRd w)
        (if f3 < 4 then BitVec.ofInt 64 (sx (8 * n) (ofBytes l)) else BitVec.ofNat 64 (ofBytes l)))

def State.storeInstr (s : State) (c b len : Nat) (w : Word) : State :=
  let f3 := rvF3 w
  let x := s.bank c b
  if 3 < f3 then s.illegal c b w
  else match s.vStore c b (x.x (rvRs1 w) + immS w) (bytesOf (2 ^ f3) (x.x (rvRs2 w)).toNat) with
    | (u, a) => s.accEnd c b u a (fun _ v => v.retireX c b len 0 0)

/-! ### Frame spill and fill (R327) -/

/-- Sixteen stores of 8 bytes at machine privilege, without translation. -/
def State.storeFrame (s : State) (c : Nat) : List (Nat × DWord) → State × Acc
  | [] => (s, .done [])
  | (a, v) :: t =>
    if !s.pmpOk c 3 a 8 2 then (s, .trap 7 (BitVec.ofNat 64 a))
    else match s.physStore c a (bytesOf 8 v.toNat) with
      | (u, .ok) => u.storeFrame c t
      | (u, .drowse) => (u, .stall)
      | (u, _) => (u, .trap 7 (BitVec.ofNat 64 a))

/-- Sixteen loads of 8 bytes. -/
def State.loadFrame (s : State) (c : Nat) : List Nat → State × Except Acc (List DWord)
  | [] => (s, .ok [])
  | a :: t =>
    if !s.pmpOk c 3 a 8 1 then (s, .error (.trap 5 (BitVec.ofNat 64 a)))
    else match s.physLoad c a 8 with
      | (u, .ok, l) => match u.loadFrame c t with
        | (v, .ok r) => (v, .ok (BitVec.ofNat 64 (ofBytes l) :: r))
        | (v, .error e) => (v, .error e)
      | (u, .drowse, _) => (u, .error .stall)
      | (u, _, _) => (u, .error (.trap 5 (BitVec.ofNat 64 a)))

/-- Address of spilled frame `i`. -/
def Bank.spillAddr (x : Bank) (i : Nat) : Nat := (x.slot slotKfbase + BitVec.ofNat 64 (128 * i)).toNat

/-- FSPILL; it stalls while the engine has still to load the frame it would store (R337). -/
def State.fspill (s : State) (c b : Nat) : State :=
  let x := s.bank c b
  if x.res < 2 ∨ x.spl = 255 then s.illegal c b 0x0000200B
  else if (s.frameDue c b).contains x.oldest then s
  else match s.storeFrame c ((List.range 16).map (fun i => (x.spillAddr x.spl + 8 * i, tget 0 x.up (16 * x.oldest + i)))) with
    | (u, a) => s.accEnd c b u a (fun _ v =>
      (v.modBank c b (fun y => ((y.kfSet 8 8 (x.spl + 1)).kfSet 3 3 (x.res - 1)).setPc (x.pc + 4))).retire c)

def State.ffill (s : State) (c b : Nat) : State :=
  let x := s.bank c b
  if 5 < x.res ∨ x.spl = 0 then s.illegal c b 0x0000300B
  else
    let f := (x.cur + 6 - x.res) % 6
    match s.loadFrame c ((List.range 16).map (fun i => x.spillAddr (x.spl - 1) + 8 * i)) with
    | (u, .error a) => s.accEnd c b u a (fun _ v => v)
    | (u, .ok l) => (u.modBank c b (fun y =>
        let z := ((y.kfSet 8 8 (x.spl - 1)).kfSet 3 3 (x.res + 1)).setPc (x.pc + 4)
        { z with up := (l.zipIdx).foldl (fun t p => tset 0 t (16 * f + p.2) p.1) z.up })).retire c

def fspillCmd (c : Nat) (s : State) : State := s.onRunning c (fun b u => u.fspill c b)
def ffillCmd (c : Nat) (s : State) : State := s.onRunning c (fun b u => u.ffill c b)

/-! ### Compressed instructions (C) -/

/-- Encoders of the formats that compressed instructions expand to. -/
def encI (op f3 rd rs1 imm : Nat) : Word := BitVec.ofNat 32 (op + 2 ^ 7 * rd + 2 ^ 12 * f3 + 2 ^ 15 * rs1 + 2 ^ 20 * (imm % 4096))
def encR (op f3 f7 rd rs1 rs2 : Nat) : Word := BitVec.ofNat 32 (op + 2 ^ 7 * rd + 2 ^ 12 * f3 + 2 ^ 15 * rs1 + 2 ^ 20 * rs2 + 2 ^ 25 * f7)
def encS (op f3 rs1 rs2 imm : Nat) : Word :=
  BitVec.ofNat 32 (op + 2 ^ 7 * (imm % 32) + 2 ^ 12 * f3 + 2 ^ 15 * rs1 + 2 ^ 20 * rs2 + 2 ^ 25 * (imm / 32 % 128))
def encB (f3 rs1 rs2 imm : Nat) : Word :=
  BitVec.ofNat 32 (0x63 + 2 ^ 7 * nfld imm 11 1 + 2 ^ 8 * nfld imm 1 4 + 2 ^ 12 * f3 + 2 ^ 15 * rs1 + 2 ^ 20 * rs2 + 2 ^ 25 * nfld imm 5 6
    + 2 ^ 31 * nfld imm 12 1)
def encJ (rd imm : Nat) : Word :=
  BitVec.ofNat 32 (0x6F + 2 ^ 7 * rd + 2 ^ 12 * nfld imm 12 8 + 2 ^ 20 * nfld imm 11 1 + 2 ^ 21 * nfld imm 1 10 + 2 ^ 31 * nfld imm 20 1)

/-- A field of `n` bits as its two's complement in `m` bits. -/
def wide (n m v : Nat) : Nat := ((sx n v) % (2 ^ m : Nat)).toNat

/-- Quadrant 0. -/
def expand0 (h : Nat) : Option Word :=
  let rd := 8 + nfld h 2 3
  let rs := 8 + nfld h 7 3
  let i4 := nfld h 10 3 * 8 + nfld h 6 1 * 4 + nfld h 5 1 * 64
  let i8 := nfld h 10 3 * 8 + nfld h 5 2 * 64
  match nfld h 13 3 with
  | 0 =>
    let imm := nfld h 11 2 * 16 + nfld h 7 4 * 64 + nfld h 6 1 * 4 + nfld h 5 1 * 8
    if imm = 0 then none else some (encI 0x13 0 rd 2 imm)
  | 1 => some (encI 0x07 3 rd rs i8)
  | 2 => some (encI 0x03 2 rd rs i4)
  | 3 => some (encI 0x03 3 rd rs i8)
  | 5 => some (encS 0x27 3 rs rd i8)
  | 6 => some (encS 0x23 2 rs rd i4)
  | 7 => some (encS 0x23 3 rs rd i8)
  | _ => none

/-- The register-register group of quadrant 1. -/
def expandArith (h : Nat) : Option Word :=
  let rd := 8 + nfld h 7 3
  let r2 := 8 + nfld h 2 3
  let sh := nfld h 12 1 * 32 + nfld h 2 5
  match nfld h 10 2 with
  | 0 => some (encI 0x13 5 rd rd sh)
  | 1 => some (encI 0x13 5 rd rd (0x400 + sh))
  | 2 => some (encI 0x13 7 rd rd (wide 6 12 sh))
  | _ => match nfld h 12 1, nfld h 5 2 with
    | 0, 0 => some (encR 0x33 0 0x20 rd rd r2)
    | 0, 1 => some (encR 0x33 4 0 rd rd r2)
    | 0, 2 => some (encR 0x33 6 0 rd rd r2)
    | 0, _ => some (encR 0x33 7 0 rd rd r2)
    | _, 0 => some (encR 0x3B 0 0x20 rd rd r2)
    | _, 1 => some (encR 0x3B 0 0 rd rd r2)
    | _, _ => none

/-- Quadrant 1. -/
def expand1 (h : Nat) : Option Word :=
  let rd := nfld h 7 5
  let i6 := nfld h 12 1 * 32 + nfld h 2 5
  let bimm := wide 9 13 (nfld h 12 1 * 256 + nfld h 10 2 * 8 + nfld h 5 2 * 64 + nfld h 3 2 * 2 + nfld h 2 1 * 32)
  match nfld h 13 3 with
  | 0 => some (encI 0x13 0 rd rd (wide 6 12 i6))
  | 1 => if rd = 0 then none else some (encI 0x1B 0 rd rd (wide 6 12 i6))
  | 2 => some (encI 0x13 0 rd 0 (wide 6 12 i6))
  | 3 =>
    if i6 = 0 then none
    else if rd = 2 then
      some (encI 0x13 0 2 2 (wide 10 12 (nfld h 12 1 * 512 + nfld h 6 1 * 16 + nfld h 5 1 * 64 + nfld h 3 2 * 128 + nfld h 2 1 * 32)))
    else some (BitVec.ofNat 32 (0x37 + 2 ^ 7 * rd + 2 ^ 12 * wide 6 20 i6))
  | 4 => expandArith h
  | 5 => some (encJ 0 (wide 12 21 (nfld h 12 1 * 2048 + nfld h 11 1 * 16 + nfld h 9 2 * 256 + nfld h 8 1 * 1024 + nfld h 7 1 * 64
      + nfld h 6 1 * 128 + nfld h 3 3 * 2 + nfld h 2 1 * 32)))
  | 6 => some (encB 0 (8 + nfld h 7 3) 0 bimm)
  | _ => some (encB 1 (8 + nfld h 7 3) 0 bimm)

/-- Quadrant 2. -/
def expand2 (h : Nat) : Option Word :=
  let rd := nfld h 7 5
  let r2 := nfld h 2 5
  let l8 := nfld h 12 1 * 32 + nfld h 5 2 * 8 + nfld h 2 3 * 64
  let l4 := nfld h 12 1 * 32 + nfld h 4 3 * 4 + nfld h 2 2 * 64
  let s8 := nfld h 10 3 * 8 + nfld h 7 3 * 64
  let s4 := nfld h 9 4 * 4 + nfld h 7 2 * 64
  match nfld h 13 3 with
  | 0 => some (encI 0x13 1 rd rd (nfld h 12 1 * 32 + r2))
  | 1 => some (encI 0x07 3 rd 2 l8)
  | 2 => if rd = 0 then none else some (encI 0x03 2 rd 2 l4)
  | 3 => if rd = 0 then none else some (encI 0x03 3 rd 2 l8)
  | 4 =>
    if nfld h 12 1 = 0 then
      (if r2 = 0 then (if rd = 0 then none else some (encI 0x67 0 0 rd 0)) else some (encR 0x33 0 0 rd 0 r2))
    else if r2 = 0 then (if rd = 0 then some 0x00100073 else some (encI 0x67 0 1 rd 0))
    else some (encR 0x33 0 0 rd rd r2)
  | 5 => some (encS 0x27 3 2 r2 s8)
  | 6 => some (encS 0x23 2 2 r2 s4)
  | _ => some (encS 0x23 3 2 r2 s8)

/-- The instruction that a compressed one stands for, none where it is reserved. -/
def expand (h : Nat) : Option Word :=
  match h % 4 with
  | 0 => expand0 h
  | 1 => expand1 h
  | _ => expand2 h

/-! ### An instruction -/

/-- The Xkctx instruction that a word spells (R348). -/
def xkctxOf (w : Word) : Option XkOp :=
  if w = 0x0000002B then some .svU else if w = 0x0000102B then some .svL
  else if w = 0x0000202B then some .ldU else if w = 0x0000302B then some .ldL else none

/-- The Krovren instructions but for Xkctx's, every field not named zero (R348). -/
def State.krovren (s : State) (c b : Nat) (w : Word) : State :=
  let f3 := rvF3 w
  let plain := BitVec.ofNat 32 (fld w 0 7 + 2 ^ 12 * f3) == w
  match fld w 0 7 with
  | 0x0B =>
    if f3 = 0 ∧ rvRd w = 0 then s.fcall c b (rvRs1 w) (BitVec.ofNat 12 (fld w 20 12))
    else if !plain then s.illegal c b w
    else if f3 = 1 then s.fret c b else if f3 = 2 then s.fspill c b else if f3 = 3 then s.ffill c b else s.illegal c b w
  | 0x2B => s.illegal c b w
  | _ =>
    if f3 = 0 ∧ fld w 20 12 = 0 ∧ rvRd w = 0 then hevtCmd c (rvRs1 w) s
    else if f3 = 4 ∧ fld w 20 12 = 0 ∧ rvRs1 w = 0 then hselfCmd c (rvRd w) s
    else if !plain then s.illegal c b w
    else if f3 = 1 then hwaitCmd c s else if f3 = 2 then hexitCmd c s else if f3 = 3 then hyieldCmd c s else s.illegal c b w

/-- Execute the 32-bit instruction `w`, which took `len` bytes. -/
def State.rvExec (s : State) (c b len : Nat) (w : Word) : State :=
  let x := s.bank c b
  let a := x.x (rvRs1 w)
  let y := x.x (rvRs2 w)
  match fld w 0 7 with
  | 0x03 => s.loadInstr c b len w
  | 0x23 => s.storeInstr c b len w
  | 0x63 => match branchTaken (rvF3 w) a y with
    | none => s.illegal c b w
    | some t => if t then s.jumpTo c b len 0 (x.pc + immB w) else s.retireX c b len 0 0
  | 0x6F => s.jumpTo c b len (rvRd w) (x.pc + immJ w)
  | 0x67 => if rvF3 w = 0 then s.jumpTo c b len (rvRd w) ((a + immI w) &&& ~~~1) else s.illegal c b w
  | 0x0F =>
    -- FENCE and FENCE.I order accesses that the model performs in order already
    if rvF3 w ≤ 1 then s.retireX c b len 0 0 else if rvF3 w = 2 then s.cboInstr c b len w else s.illegal c b w
  | 0x73 => s.system c b len w
  | 0x2F => s.atomic c b len w
  | 0x07 | 0x27 | 0x43 | 0x47 | 0x4B | 0x4F | 0x53 => s.fpInstr c b len w
  | 0x0B | 0x2B | 0x5B => s.krovren c b w
  | _ => match arith w x.pc a y with
    | some v => s.retireX c b len (rvRd w) v
    | none => s.illegal c b w

/-- RV64_INSTRUCTION: the running thread of core `c` executes the instruction `w`, of which a compressed one is the low half. -/
def rv64Instruction (c : Nat) (w : Word) (s : State) : State :=
  match xkctxOf w with
  -- it goes on with one that a switch interrupted (R335)
  | some op => ctxCmd op c none s
  | none => s.onRunning c (fun b u =>
      if fld w 0 2 = 3 then u.rvExec c b 4 w
      else match expand (fld w 0 16) with
        -- the instruction word of a trap is the compressed one: only FP accesses can still be illegal
        | some v =>
          if (fld v 0 7 = 0x07 ∨ fld v 0 7 = 0x27) ∧ fld (u.bank c b).mst mFs 2 = 0 then u.illegal c b (BitVec.ofNat 32 (fld w 0 16))
          else u.rvExec c b 2 v
        | none => u.illegal c b (BitVec.ofNat 32 (fld w 0 16)))

/-! ### The commands -/

/-- FSPILL (R327). FSPILL stores the oldest resident frame to the spill stack. -/
def execFspill (c : Core) (s : State) : Out :=
  .next (s.gate (fspillCmd c.val s))

/-- FFILL (R327). FFILL loads a spilled frame back into the ring. -/
def execFfill (c : Core) (s : State) : Out :=
  .next (s.gate (ffillCmd c.val s))

/-- RV64_INSTRUCTION (R322). A standard RV64IMAFDC, Zicsr, Zifencei, Zicntr or Zicbom instruction executes. -/
def execRv64Instruction (c : Core) (w : Word) (s : State) : Out :=
  .next (s.gate (rv64Instruction c.val w s))

end Sys2Proof.Machine
end

