-- ==== Sys2Proof/Machine/Debug.lean ====
section
/-!
DEFINITION. The rider cores' debug module behind the test port (R487). The spec names RISC-V External Debug Support 0.13.2 and gives
no more: the registers, their layout and the optional parts chosen here are PRESUMED from that document (assumption log).
-/
namespace Sys2Proof.Machine

/-! ### Registers of the module -/

def State.dm (s : State) (a : Nat) : Word := tget 0 s.pio.tap.dm a
def State.setDm (s : State) (a : Nat) (v : Word) : State := s.modTap (fun t => { t with dm := tset 0 t.dm a v })

/-- hartsel: the core that the module acts on. -/
def State.dmHart (s : State) : Nat := fld (s.dm 0x10) 16 10 + 2 ^ 10 * fld (s.dm 0x10) 6 10

/-- The resume acknowledgements, kept beside the module's registers. -/
def dmAck : Nat := 0x100

/-- dmstatus: version 2, authenticated; what the selected core does. -/
def State.dmStatus (s : State) : Word :=
  let c := s.dmHart
  let both := fun (i : Nat) (p : Bool) => (2 ^ i + 2 ^ (i + 1)) * b2n p
  let there := decide (c < 4)
  BitVec.ofNat 32 (2 + 2 ^ 7 + both 8 (there && bit s.pio.tap.halt c) + both 10 (there && !bit s.pio.tap.halt c) + both 14 (!there)
    + both 16 (there && bit (s.dm dmAck) c))

/-- abstractcs: two data words, no program buffer; cmderr. -/
def State.abstractcs (s : State) : Word := BitVec.ofNat 32 (2 + 2 ^ 8 * fld (s.dm 0x16) 8 3)

/-- A register of the module. -/
def State.dmRead (s : State) (a : Nat) : Word :=
  if a = 0x11 then s.dmStatus
  else if a = 0x16 then s.abstractcs
  else if a = 0x40 then s.pio.tap.halt.setWidth 32
  else if a = 0x04 ∨ a = 0x05 ∨ a = 0x10 then s.dm a
  else 0

/-! ### dmcontrol -/

/-- A write of dmcontrol: dmactive 0 resets the module; haltreq halts the selected core, resumereq lets it go on. -/
def State.dmControl (s : State) (v : Word) : State :=
  if !bit v 0 then s.modTap (fun t => { t with dm := [], halt := 0 })
  else
    -- the upper bits of hartsel that no core needs read 0
    let u := s.setDm 0x10 (v &&& 0x00070001)
    let c := u.dmHart
    if 3 < c then u
    else if bit v 31 then
      (u.modTap (fun t => { t with halt := setBit t.halt c })).setDm dmAck (clrBit (u.dm dmAck) c)
    else if bit v 30 then
      (u.modTap (fun t => { t with halt := clrBit t.halt c })).setDm dmAck (setBit (u.dm dmAck) c)
    else u

/-! ### Abstract commands -/

/-- cmderr, held until it is cleared. -/
def State.dmError (s : State) (e : Nat) : State := s.setDm 0x16 (BitVec.ofNat 32 (2 ^ 8 * e))

/-- A register of the halted core by its abstract number: dpc and dcsr are the bank's pc and privilege level. -/
def State.absRead (s : State) (c b n : Nat) : Option DWord :=
  let x := s.bank c b
  if n = 0x7B1 then some x.pc
  else if n = 0x7B0 then some (BitVec.ofNat 64 (2 ^ 30 + 2 ^ 6 * 3 + x.priv.toNat))
  else if n < 0x1000 then s.csrRead c b 3 n
  else if 0x1000 ≤ n ∧ n < 0x1020 then some (x.x (n - 0x1000))
  else if 0x1020 ≤ n ∧ n < 0x1040 then (if fld x.mst mFs 2 = 0 then none else some (s.freg c (n - 0x1020)))
  else none

/-- Write such a register. -/
def State.absWrite (s : State) (c b n : Nat) (v : DWord) : State :=
  if n = 0x7B1 then s.modBank c b (fun x => x.setPc (v &&& ~~~1))
  else if n = 0x7B0 then s.modBank c b (fun x => { x with priv := if fld v 0 2 = 2 then x.priv else v.setWidth 2 })
  else if n < 0x1000 then (if 0xC00 ≤ n then s else s.csrWrite c b n v)
  else if n < 0x1020 then s.modBank c b (fun x => x.setX (n - 0x1000) v)
  else s.setF c b (n - 0x1020) v

/-- FP registers and fcsr make the unit available first. -/
def State.absReady (s : State) (c b n : Nat) : State :=
  if (isFpCsr n || (decide (0x1020 ≤ n) && decide (n < 0x1040))) && fld (s.bank c b).mst mFs 2 != 0 then s.fpReady c b else s

/-- A write of command: Access Register on the halted core; every other command is not supported. -/
def State.dmCommand (s : State) (v : Word) : State :=
  let c := s.dmHart
  let n := fld v 0 16
  if fld (s.dm 0x16) 8 3 ≠ 0 then s
  else if fld v 24 8 ≠ 0 ∨ bit v 18 ∨ bit v 19 ∨ (fld v 20 3 ≠ 2 ∧ fld v 20 3 ≠ 3) then s.dmError 2
  else if 3 < c ∨ bit s.pio.tap.halt c = false then s.dmError 4
  else match s.runBank c with
    | none => s.dmError 4
    | some b =>
      let u := s.absReady c b n
      if !bit v 17 then u
      else match u.absRead c b n with
        | none => s.dmError 3
        | some old =>
          if bit v 16 then
            let d : DWord := BitVec.ofNat 64 ((u.dm 0x04).toNat + 2 ^ 32 * (u.dm 0x05).toNat)
            u.absWrite c b n (if fld v 20 3 = 3 then d else (old &&& 0xFFFFFFFF00000000) ||| BitVec.ofNat 64 (u.dm 0x04).toNat)
          else
            let w := (({ u with fresh := u.fresh + 1 }).setDm 0x04 (old.setWidth 32))
            if fld v 20 3 = 3 then w.setDm 0x05 ((old >>> 32).setWidth 32) else w

/-- A write of a register of the module. -/
def State.dmWrite (s : State) (a : Nat) (v : Word) : State :=
  if a = 0x10 then s.dmControl v
  else if !bit (s.dm 0x10) 0 then s
  else if a = 0x04 ∨ a = 0x05 then s.setDm a v
  else if a = 0x16 then s.setDm 0x16 (s.dm 0x16 &&& ~~~(v &&& 0x700))
  else if a = 0x17 then s.dmCommand v
  else s

/-- DMI: an access of the module through the test port, where the instruction is accepted; otherwise it loads BYPASS. -/
def dmi (a : Nat) (wr : Bool) (data : Word) (s : State) : State :=
  let t := tapLoad 0x10 s
  if t.pio.tap.ir = 0x10 then (if wr then t.dmWrite a data else t.modTap (fun x => { x with out := t.dmRead a })) else t

/-! ### The commands -/

/-- DMI (R487). The TAP DMI instruction reaches the rider cores' debug module when authorised. -/
def execDmi (addr : BitVec 7) (wr : Bool) (data : Word) (s : State) : Out :=
  .next (s.gate (dmi addr.toNat wr data s))

end Sys2Proof.Machine
end

