-- ==== Sys2Proof/Machine/Dispatch.lean ====
section
/-!
DEFINITION. One arm per command: each calls the command's meaning.
-/
namespace Sys2Proof.Machine

def exec (i : Instr) (s : State) : Host.Outcome State Fault Refusal :=
  match i with
  | .registerWrite ini off len val => Sys2Proof.Machine.execRegisterWrite ini off len val s
  | .ownerWrite ini page val => Sys2Proof.Machine.execOwnerWrite ini page val s
  | .lockSet ini page val => Sys2Proof.Machine.execLockSet ini page val s
  | .evtBaseWrite ini page val => Sys2Proof.Machine.execEvtBaseWrite ini page val s
  | .holeAccess ini off wr => Sys2Proof.Machine.execHoleAccess ini off wr s
  | .unmappedAccess ini addr wr => Sys2Proof.Machine.execUnmappedAccess ini addr wr s
  | .hostDoorbell ini val => Sys2Proof.Machine.execHostDoorbell ini val s
  | .nop t => Sys2Proof.Machine.execNop t s
  | .add t => Sys2Proof.Machine.execAdd t s
  | .addc t => Sys2Proof.Machine.execAddc t s
  | .sub t => Sys2Proof.Machine.execSub t s
  | .subb t => Sys2Proof.Machine.execSubb t s
  | .cmpeq t => Sys2Proof.Machine.execCmpeq t s
  | .cmpne t => Sys2Proof.Machine.execCmpne t s
  | .cmplt t => Sys2Proof.Machine.execCmplt t s
  | .cmpltu t => Sys2Proof.Machine.execCmpltu t s
  | .cmple t => Sys2Proof.Machine.execCmple t s
  | .cmpleu t => Sys2Proof.Machine.execCmpleu t s
  | .mov t => Sys2Proof.Machine.execMov t s
  | .neg t => Sys2Proof.Machine.execNeg t s
  | .abs t => Sys2Proof.Machine.execAbs t s
  | .and t => Sys2Proof.Machine.execAnd t s
  | .or t => Sys2Proof.Machine.execOr t s
  | .xor t => Sys2Proof.Machine.execXor t s
  | .andn t => Sys2Proof.Machine.execAndn t s
  | .not t => Sys2Proof.Machine.execNot t s
  | .shl t => Sys2Proof.Machine.execShl t s
  | .shr t => Sys2Proof.Machine.execShr t s
  | .sar t => Sys2Proof.Machine.execSar t s
  | .rol t => Sys2Proof.Machine.execRol t s
  | .ror t => Sys2Proof.Machine.execRor t s
  | .sel t => Sys2Proof.Machine.execSel t s
  | .selp t => Sys2Proof.Machine.execSelp t s
  | .selt t => Sys2Proof.Machine.execSelt t s
  | .passeq t => Sys2Proof.Machine.execPasseq t s
  | .passne t => Sys2Proof.Machine.execPassne t s
  | .passlt t => Sys2Proof.Machine.execPasslt t s
  | .passltu t => Sys2Proof.Machine.execPassltu t s
  | .passle t => Sys2Proof.Machine.execPassle t s
  | .passleu t => Sys2Proof.Machine.execPassleu t s
  | .mul t => Sys2Proof.Machine.execMul t s
  | .mulu t => Sys2Proof.Machine.execMulu t s
  | .mac t => Sys2Proof.Machine.execMac t s
  | .macu t => Sys2Proof.Machine.execMacu t s
  | .msu t => Sys2Proof.Machine.execMsu t s
  | .accld t => Sys2Proof.Machine.execAccld t s
  | .add4 t => Sys2Proof.Machine.execAdd4 t s
  | .add2 t => Sys2Proof.Machine.execAdd2 t s
  | .adds4 t => Sys2Proof.Machine.execAdds4 t s
  | .adds2 t => Sys2Proof.Machine.execAdds2 t s
  | .dot4 t => Sys2Proof.Machine.execDot4 t s
  | .dot4u t => Sys2Proof.Machine.execDot4u t s
  | .dot2 t => Sys2Proof.Machine.execDot2 t s
  | .dot2u t => Sys2Proof.Machine.execDot2u t s
  | .ddot4 t => Sys2Proof.Machine.execDdot4 t s
  | .ddot4u t => Sys2Proof.Machine.execDdot4u t s
  | .popc t => Sys2Proof.Machine.execPopc t s
  | .clz t => Sys2Proof.Machine.execClz t s
  | .ctz t => Sys2Proof.Machine.execCtz t s
  | .bext t => Sys2Proof.Machine.execBext t s
  | .bins t => Sys2Proof.Machine.execBins t s
  | .brev t => Sys2Proof.Machine.execBrev t s
  | .gfmul t => Sys2Proof.Machine.execGfmul t s
  | .gfmuls t => Sys2Proof.Machine.execGfmuls t s
  | .gfmad t => Sys2Proof.Machine.execGfmad t s
  | .gfmads t => Sys2Proof.Machine.execGfmads t s
  | .crcb t => Sys2Proof.Machine.execCrcb t s
  | .crch t => Sys2Proof.Machine.execCrch t s
  | .crcw t => Sys2Proof.Machine.execCrcw t s
  | .adds t => Sys2Proof.Machine.execAdds t s
  | .subs t => Sys2Proof.Machine.execSubs t s
  | .addus t => Sys2Proof.Machine.execAddus t s
  | .subus t => Sys2Proof.Machine.execSubus t s
  | .min t => Sys2Proof.Machine.execMin t s
  | .max t => Sys2Proof.Machine.execMax t s
  | .minu t => Sys2Proof.Machine.execMinu t s
  | .maxu t => Sys2Proof.Machine.execMaxu t s
  | .minix t => Sys2Proof.Machine.execMinix t s
  | .bxor3 t => Sys2Proof.Machine.execBxor3 t s
  | .bmaj3 t => Sys2Proof.Machine.execBmaj3 t s
  | .bthr t => Sys2Proof.Machine.execBthr t s
  | .bmux t => Sys2Proof.Machine.execBmux t s
  | .band3 t => Sys2Proof.Machine.execBand3 t s
  | .bor3 t => Sys2Proof.Machine.execBor3 t s
  | .secondStageRetire t => Sys2Proof.Machine.execSecondStageRetire t s
  | .tileContextSwitch t => Sys2Proof.Machine.execTileContextSwitch t s
  | .linkTransfer t src => Sys2Proof.Machine.execLinkTransfer t src s
  | .furrowRegisterEmit t tap => Sys2Proof.Machine.execFurrowRegisterEmit t tap s
  | .channelLineDrive r line pos => Sys2Proof.Machine.execChannelLineDrive r line pos s
  | .sluiceCrossingDeliver t ch => Sys2Proof.Machine.execSluiceCrossingDeliver t ch s
  | .ctxselRequest ini r val => Sys2Proof.Machine.execCtxselRequest ini r val s
  | .sequencerSignal r ctx => Sys2Proof.Machine.execSequencerSignal r ctx s
  | .headgateTagRequest r k => Sys2Proof.Machine.execHeadgateTagRequest r k s
  | .sequencerSwitch r => Sys2Proof.Machine.execSequencerSwitch r s
  | .stallEnd r => Sys2Proof.Machine.execStallEnd r s
  | .caston ini r val => Sys2Proof.Machine.execCaston ini r val s
  | .castonWriteEnable r => Sys2Proof.Machine.execCastonWriteEnable r s
  | .castonResetRelease r => Sys2Proof.Machine.execCastonResetRelease r s
  | .bindoff ini r val => Sys2Proof.Machine.execBindoff ini r val s
  | .bindoffDrainEnd r timeout => Sys2Proof.Machine.execBindoffDrainEnd r timeout s
  | .bindoffReset r => Sys2Proof.Machine.execBindoffReset r s
  | .headgateInboundPresent r k => Sys2Proof.Machine.execHeadgateInboundPresent r k s
  | .headgateOutboundSend r k => Sys2Proof.Machine.execHeadgateOutboundSend r k s
  | .headgateResend r k => Sys2Proof.Machine.execHeadgateResend r k s
  | .opselWrite ini r val => Sys2Proof.Machine.execOpselWrite ini r val s
  | .operatingPointChange r => Sys2Proof.Machine.execOperatingPointChange r s
  | .operatingPointDone r => Sys2Proof.Machine.execOperatingPointDone r s
  | .regionPowerOn r => Sys2Proof.Machine.execRegionPowerOn r s
  | .regionPowerOff r => Sys2Proof.Machine.execRegionPowerOff r s
  | .regionTempSample codes => Sys2Proof.Machine.execRegionTempSample codes s
  | .fccOpen ini val => Sys2Proof.Machine.execFccOpen ini val s
  | .fccAbort ini val => Sys2Proof.Machine.execFccAbort ini val s
  | .sessionOpen ini val => Sys2Proof.Machine.execSessionOpen ini val s
  | .sessionClose ini val => Sys2Proof.Machine.execSessionClose ini val s
  | .aperturePush ini a len data => Sys2Proof.Machine.execAperturePush ini a len data s
  | .streamPartHashed => Sys2Proof.Machine.execStreamPartHashed s
  | .spiOpen => Sys2Proof.Machine.execSpiOpen s
  | .spiPush p bytes => Sys2Proof.Machine.execSpiPush p bytes s
  | .spiAbort => Sys2Proof.Machine.execSpiAbort s
  | .spiStatus => Sys2Proof.Machine.execSpiStatus s
  | .spiId => Sys2Proof.Machine.execSpiId s
  | .streamComplete => Sys2Proof.Machine.execStreamComplete s
  | .signatureVerified => Sys2Proof.Machine.execSignatureVerified s
  | .routingAnalysisDone => Sys2Proof.Machine.execRoutingAnalysisDone s
  | .shadowLoadStart => Sys2Proof.Machine.execShadowLoadStart s
  | .regionSeal => Sys2Proof.Machine.execRegionSeal s
  | .bulkClearDone r => Sys2Proof.Machine.execBulkClearDone r s
  | .scrubSlot ups => Sys2Proof.Machine.execScrubSlot ups s
  | .regionHold r => Sys2Proof.Machine.execRegionHold r s
  | .holdClear ini val => Sys2Proof.Machine.execHoldClear ini val s
  | .canarySlot ups => Sys2Proof.Machine.execCanarySlot ups s
  | .scrubPassTimeout => Sys2Proof.Machine.execScrubPassTimeout s
  | .tmrVoteFix reg f0 f1 f2 => Sys2Proof.Machine.execTmrVoteFix reg f0 f1 f2 s
  | .ucqPop ini val => Sys2Proof.Machine.execUcqPop ini val s
  | .integClear ini val => Sys2Proof.Machine.execIntegClear ini val s
  | .captureArm ini val => Sys2Proof.Machine.execCaptureArm ini val s
  | .captureCancel ini val => Sys2Proof.Machine.execCaptureCancel ini val s
  | .anchorFreeze => Sys2Proof.Machine.execAnchorFreeze s
  | .regionFreeze r => Sys2Proof.Machine.execRegionFreeze r s
  | .captureDone => Sys2Proof.Machine.execCaptureDone s
  | .probeAuthFall => Sys2Proof.Machine.execProbeAuthFall s
  | .queueWriteFlit q src cw data => Sys2Proof.Machine.execQueueWriteFlit q src cw data s
  | .lengthSlotWrite q => Sys2Proof.Machine.execLengthSlotWrite q s
  | .bankSwap q => Sys2Proof.Machine.execBankSwap q s
  | .queueRead q nm1 => Sys2Proof.Machine.execQueueRead q nm1 s
  | .queuePush q nm1 => Sys2Proof.Machine.execQueuePush q nm1 s
  | .queuePushRetry q => Sys2Proof.Machine.execQueuePushRetry q s
  | .sqCtrlWrite ini q val => Sys2Proof.Machine.execSqCtrlWrite ini q val s
  | .sqFlush ini q val => Sys2Proof.Machine.execSqFlush ini q val s
  | .flushDiscard q => Sys2Proof.Machine.execFlushDiscard q s
  | .spillDiscard q => Sys2Proof.Machine.execSpillDiscard q s
  | .sqClear ini q val => Sys2Proof.Machine.execSqClear ini q val s
  | .weirWrite ini q val => Sys2Proof.Machine.execWeirWrite ini q val s
  | .descriptorSubmit ini m val => Sys2Proof.Machine.execDescriptorSubmit ini m val s
  | .descriptorStart m l => Sys2Proof.Machine.execDescriptorStart m l s
  | .medCmd m l => Sys2Proof.Machine.execMedCmd m l s
  | .tornLogAck m l => Sys2Proof.Machine.execTornLogAck m l s
  | .medAddr m l => Sys2Proof.Machine.execMedAddr m l s
  | .medWait m l => Sys2Proof.Machine.execMedWait m l s
  | .medWaitDone m l => Sys2Proof.Machine.execMedWaitDone m l s
  | .medPoll m l => Sys2Proof.Machine.execMedPoll m l s
  | .pollSample m l status us => Sys2Proof.Machine.execPollSample m l status us s
  | .pollTimeout m l us => Sys2Proof.Machine.execPollTimeout m l us s
  | .medDin m l page => Sys2Proof.Machine.execMedDin m l page s
  | .medDout m l => Sys2Proof.Machine.execMedDout m l s
  | .medRlset m l => Sys2Proof.Machine.execMedRlset m l s
  | .medSetf m l => Sys2Proof.Machine.execMedSetf m l s
  | .medLoop m l => Sys2Proof.Machine.execMedLoop m l s
  | .medEndl m l => Sys2Proof.Machine.execMedEndl m l s
  | .medEnd m l => Sys2Proof.Machine.execMedEnd m l s
  | .medAbort ini m val => Sys2Proof.Machine.execMedAbort ini m val s
  | .ifcfgWrite ini m val => Sys2Proof.Machine.execIfcfgWrite ini m val s
  | .trainingDone m codes => Sys2Proof.Machine.execTrainingDone m codes s
  | .medRetrain m ce cause code => Sys2Proof.Machine.execMedRetrain m ce cause code s
  | .patrolTick m => Sys2Proof.Machine.execPatrolTick m s
  | .inhibitAssert m => Sys2Proof.Machine.execInhibitAssert m s
  | .wpAssert m late => Sys2Proof.Machine.execWpAssert m late s
  | .programLoad ini val => Sys2Proof.Machine.execProgramLoad ini val s
  | .programLoadDone => Sys2Proof.Machine.execProgramLoadDone s
  | .programSwap ini val => Sys2Proof.Machine.execProgramSwap ini val s
  | .keyInstall ini val => Sys2Proof.Machine.execKeyInstall ini val s
  | .keySlotErase ini val => Sys2Proof.Machine.execKeySlotErase ini val s
  | .mgdDecode m l => Sys2Proof.Machine.execMgdDecode m l s
  | .warmResetDeferral => Sys2Proof.Machine.execWarmResetDeferral s
  | .mgdPoll e status us => Sys2Proof.Machine.execMgdPoll e status us s
  | .deferralTimeout => Sys2Proof.Machine.execDeferralTimeout s
  | .tornLogFree ini val => Sys2Proof.Machine.execTornLogFree ini val s
  | .hdecCodeword r lw body => Sys2Proof.Machine.execHdecCodeword r lw body s
  | .sdecSoftSet r lw0 lw1 lw2 b0 b1 b2 => Sys2Proof.Machine.execSdecSoftSet r lw0 lw1 lw2 b0 b1 b2 s
  | .setmode r lw w1 w2 => Sys2Proof.Machine.execSetmode r lw w1 w2 s
  | .resetseq r lw w1 w2 => Sys2Proof.Machine.execResetseq r lw w1 w2 s
  | .intakeCodeword r lw body => Sys2Proof.Machine.execIntakeCodeword r lw body s
  | .encCodeword r lw body => Sys2Proof.Machine.execEncCodeword r lw body s
  | .operatorCrcCheck r lw body => Sys2Proof.Machine.execOperatorCrcCheck r lw body s
  | .lzdBlock r block => Sys2Proof.Machine.execLzdBlock r block s
  | .ersRebuild r lw w1 w2 members => Sys2Proof.Machine.execErsRebuild r lw w1 w2 members s
  | .setpred r lw w1 w2 w3 w4 => Sys2Proof.Machine.execSetpred r lw w1 w2 w3 w4 s
  | .filtEnd r lw w1 w2 w3 w4 => Sys2Proof.Machine.execFiltEnd r lw w1 w2 w3 w4 s
  | .filtClear r lw w1 w2 w3 w4 => Sys2Proof.Machine.execFiltClear r lw w1 w2 w3 w4 s
  | .filtBatchClose r => Sys2Proof.Machine.execFiltBatchClose r s
  | .ocnRead x => Sys2Proof.Machine.execOcnRead x s
  | .ocnWrite x => Sys2Proof.Machine.execOcnWrite x s
  | .ocnQread x => Sys2Proof.Machine.execOcnQread x s
  | .ocnQwrite x => Sys2Proof.Machine.execOcnQwrite x s
  | .ocnQpush x => Sys2Proof.Machine.execOcnQpush x s
  | .ocnSignal x => Sys2Proof.Machine.execOcnSignal x s
  | .grant k => Sys2Proof.Machine.execGrant k s
  | .writeDataArrival k data cws => Sys2Proof.Machine.execWriteDataArrival k data cws s
  | .responseArrival k latency => Sys2Proof.Machine.execResponseArrival k latency s
  | .flitForward ro output slot arrivals => Sys2Proof.Machine.execFlitForward ro output slot arrivals s
  | .targetTimeout k => Sys2Proof.Machine.execTargetTimeout k s
  | .deadReopen ini ro val => Sys2Proof.Machine.execDeadReopen ini ro val s
  | .initiatorTimeout k => Sys2Proof.Machine.execInitiatorTimeout k s
  | .portClose n => Sys2Proof.Machine.execPortClose n s
  | .portDown n => Sys2Proof.Machine.execPortDown n s
  | .portReopen n => Sys2Proof.Machine.execPortReopen n s
  | .routeTableWrite ini n off len val => Sys2Proof.Machine.execRouteTableWrite ini n off len val s
  | .routerClose ini ro val => Sys2Proof.Machine.execRouterClose ini ro val s
  | .routerDrained ro => Sys2Proof.Machine.execRouterDrained ro s
  | .epochFlip ini ro val => Sys2Proof.Machine.execEpochFlip ini ro val s
  | .epochSwitch n => Sys2Proof.Machine.execEpochSwitch n s
  | .wheelStage ini ro val => Sys2Proof.Machine.execWheelStage ini ro val s
  | .wheelCommit ini ro val => Sys2Proof.Machine.execWheelCommit ini ro val s
  | .wheelTakeEffect ro => Sys2Proof.Machine.execWheelTakeEffect ro s
  | .statsClear ini ro val => Sys2Proof.Machine.execStatsClear ini ro val s
  | .bankAccess b => Sys2Proof.Machine.execBankAccess b s
  | .bankHandover ini val => Sys2Proof.Machine.execBankHandover ini val s
  | .handoverEdge => Sys2Proof.Machine.execHandoverEdge s
  | .secureWipe cause => Sys2Proof.Machine.execSecureWipe cause s
  | .secureWipeDone => Sys2Proof.Machine.execSecureWipeDone s
  | .reservoirWipeDone => Sys2Proof.Machine.execReservoirWipeDone s
  | .dramAccess k err => Sys2Proof.Machine.execDramAccess k err s
  | .dramInitDone => Sys2Proof.Machine.execDramInitDone s
  | .hvRangeWrite ini size val => Sys2Proof.Machine.execHvRangeWrite ini size val s
  | .hvClear ini val => Sys2Proof.Machine.execHvClear ini val s
  | .hvClearDone => Sys2Proof.Machine.execHvClearDone s
  | .hvDisable ini val => Sys2Proof.Machine.execHvDisable ini val s
  | .dmaStart ini d val => Sys2Proof.Machine.execDmaStart ini d val s
  | .dmaResume ini d val => Sys2Proof.Machine.execDmaResume ini d val s
  | .dmaAbort ini d val => Sys2Proof.Machine.execDmaAbort ini d val s
  | .dmaGo ini d val => Sys2Proof.Machine.execDmaGo ini d val s
  | .dmaAppend ini d val => Sys2Proof.Machine.execDmaAppend ini d val s
  | .dmaFetch d status => Sys2Proof.Machine.execDmaFetch d status s
  | .move d => Sys2Proof.Machine.execMove d s
  | .dmaLoop d => Sys2Proof.Machine.execDmaLoop d s
  | .dmaEndl d => Sys2Proof.Machine.execDmaEndl d s
  | .dmaWait d => Sys2Proof.Machine.execDmaWait d s
  | .dmaWaitExpire d => Sys2Proof.Machine.execDmaWaitExpire d s
  | .dmaSignal d => Sys2Proof.Machine.execDmaSignal d s
  | .link d => Sys2Proof.Machine.execLink d s
  | .dmaEnd d => Sys2Proof.Machine.execDmaEnd d s
  | .xform d => Sys2Proof.Machine.execXform d s
  | .halt d => Sys2Proof.Machine.execHalt d s
  | .dmaDrainDone d => Sys2Proof.Machine.execDmaDrainDone d s
  | .dmaBurstAnswer d burst read status poison host => Sys2Proof.Machine.execDmaBurstAnswer d burst read status poison host s
  | .dmaError d => Sys2Proof.Machine.execDmaError d s
  | .dmaDrowseRetry d => Sys2Proof.Machine.execDmaDrowseRetry d s
  | .dmaPaceSample d status => Sys2Proof.Machine.execDmaPaceSample d status s
  | .fcall c rs1 imm => Sys2Proof.Machine.execFcall c rs1 imm s
  | .fret c => Sys2Proof.Machine.execFret c s
  | .fspill c => Sys2Proof.Machine.execFspill c s
  | .ffill c => Sys2Proof.Machine.execFfill c s
  | .trapEntry c intr cause tval => Sys2Proof.Machine.execTrapEntry c intr cause tval s
  | .xret c m => Sys2Proof.Machine.execXret c m s
  | .frameFault c code => Sys2Proof.Machine.execFrameFault c code s
  | .ctxsvU c cut => Sys2Proof.Machine.execCtxsvU c cut s
  | .ctxsvL c cut => Sys2Proof.Machine.execCtxsvL c cut s
  | .ctxldU c cut => Sys2Proof.Machine.execCtxldU c cut s
  | .ctxldL c cut => Sys2Proof.Machine.execCtxldL c cut s
  | .hevt c rs1 => Sys2Proof.Machine.execHevt c rs1 s
  | .hwait c => Sys2Proof.Machine.execHwait c s
  | .hexit c => Sys2Proof.Machine.execHexit c s
  | .hyield c => Sys2Proof.Machine.execHyield c s
  | .hself c rd => Sys2Proof.Machine.execHself c rd s
  | .rv64Instruction c w => Sys2Proof.Machine.execRv64Instruction c w s
  | .fpLazySwitch c => Sys2Proof.Machine.execFpLazySwitch c s
  | .dispatchDeliver c => Sys2Proof.Machine.execDispatchDeliver c s
  | .engineSaveDone c status => Sys2Proof.Machine.execEngineSaveDone c status s
  | .engineLoadDone c status => Sys2Proof.Machine.execEngineLoadDone c status s
  | .writebackError c addr status => Sys2Proof.Machine.execWritebackError c addr status s
  | .atuTranslate ini atc va wr => Sys2Proof.Machine.execAtuTranslate ini atc va wr s
  | .atuInvalidate ini val => Sys2Proof.Machine.execAtuInvalidate ini val s
  | .atuInvalDone => Sys2Proof.Machine.execAtuInvalDone s
  | .arm ini th => Sys2Proof.Machine.execArm ini th s
  | .cancel ini th => Sys2Proof.Machine.execCancel ini th s
  | .park ini th => Sys2Proof.Machine.execPark ini th s
  | .resume ini th => Sys2Proof.Machine.execResume ini th s
  | .free ini th => Sys2Proof.Machine.execFree ini th s
  | .setpri ini th => Sys2Proof.Machine.execSetpri ini th s
  | .setaff ini th => Sys2Proof.Machine.execSetaff ini th s
  | .eventTake => Sys2Proof.Machine.execEventTake s
  | .occurrenceStart => Sys2Proof.Machine.execOccurrenceStart s
  | .dec => Sys2Proof.Machine.execDec s
  | .cancelAction => Sys2Proof.Machine.execCancelAction s
  | .signalAction => Sys2Proof.Machine.execSignalAction s
  | .signalAnswer r status => Sys2Proof.Machine.execSignalAnswer r status s
  | .dispatchDecision c => Sys2Proof.Machine.execDispatchDecision c s
  | .parkSaveDone th => Sys2Proof.Machine.execParkSaveDone th s
  | .parklogPop ini val => Sys2Proof.Machine.execParklogPop ini val s
  | .headWrite ini val => Sys2Proof.Machine.execHeadWrite ini val s
  | .modeRequest ini val => Sys2Proof.Machine.execModeRequest ini val s
  | .modeTransitionDone us => Sys2Proof.Machine.execModeTransitionDone us s
  | .drowseExit cause => Sys2Proof.Machine.execDrowseExit cause s
  | .twinLost => Sys2Proof.Machine.execTwinLost s
  | .aonPowerUp => Sys2Proof.Machine.execAonPowerUp s
  | .aonPowerLoss => Sys2Proof.Machine.execAonPowerLoss s
  | .wake src => Sys2Proof.Machine.execWake src s
  | .drainStart src => Sys2Proof.Machine.execDrainStart src s
  | .drainRegionsOff => Sys2Proof.Machine.execDrainRegionsOff s
  | .drainJournalPage status => Sys2Proof.Machine.execDrainJournalPage status s
  | .drainInhibit timeout quarterMs => Sys2Proof.Machine.execDrainInhibit timeout quarterMs s
  | .drainPowerOff => Sys2Proof.Machine.execDrainPowerOff s
  | .holdupAssert => Sys2Proof.Machine.execHoldupAssert s
  | .aonTick => Sys2Proof.Machine.execAonTick s
  | .alarmFire => Sys2Proof.Machine.execAlarmFire s
  | .timeLoad ini val => Sys2Proof.Machine.execTimeLoad ini val s
  | .comparatorAssert k sample => Sys2Proof.Machine.execComparatorAssert k sample s
  | .comparatorDeassert k sample => Sys2Proof.Machine.execComparatorDeassert k sample s
  | .pllLock p => Sys2Proof.Machine.execPllLock p s
  | .pllLockLoss p => Sys2Proof.Machine.execPllLockLoss p s
  | .fpllWrite ini b val => Sys2Proof.Machine.execFpllWrite ini b val s
  | .avsMonitor mv0 ma0 mv1 ma1 pwr pmbFault => Sys2Proof.Machine.execAvsMonitor mv0 ma0 mv1 ma1 pwr pmbFault s
  | .pmbusCommand ini val => Sys2Proof.Machine.execPmbusCommand ini val s
  | .pmbusDone nak pec data => Sys2Proof.Machine.execPmbusDone nak pec data s
  | .throttleStep => Sys2Proof.Machine.execThrottleStep s
  | .coldReset straps fuses => Sys2Proof.Machine.execColdReset straps fuses s
  | .sysrst => Sys2Proof.Machine.execSysrst s
  | .coldResetRequest ini val => Sys2Proof.Machine.execColdResetRequest ini val s
  | .warmResetRequest ini val => Sys2Proof.Machine.execWarmResetRequest ini val s
  | .warmResetAssert => Sys2Proof.Machine.execWarmResetAssert s
  | .fabricRegionReset ini val => Sys2Proof.Machine.execFabricRegionReset ini val s
  | .coreReset ini val => Sys2Proof.Machine.execCoreReset ini val s
  | .bootRom outcome => Sys2Proof.Machine.execBootRom outcome s
  | .recoveryChunk => Sys2Proof.Machine.execRecoveryChunk s
  | .recoveryEnd => Sys2Proof.Machine.execRecoveryEnd s
  | .lockstepMismatch => Sys2Proof.Machine.execLockstepMismatch s
  | .lockstepColdReset => Sys2Proof.Machine.execLockstepColdReset s
  | .selfWatchdog => Sys2Proof.Machine.execSelfWatchdog s
  | .selfkick ini val => Sys2Proof.Machine.execSelfkick ini val s
  | .watchdogFirst c => Sys2Proof.Machine.execWatchdogFirst c s
  | .watchdogSecond c => Sys2Proof.Machine.execWatchdogSecond c s
  | .htsWatchdog => Sys2Proof.Machine.execHtsWatchdog s
  | .thermalTrip => Sys2Proof.Machine.execThermalTrip s
  | .voltageFault mv rail => Sys2Proof.Machine.execVoltageFault mv rail s
  | .leveeDrainRequest ini val => Sys2Proof.Machine.execLeveeDrainRequest ini val s
  | .alogPop ini val => Sys2Proof.Machine.execAlogPop ini val s
  | .nonce ini fresh => Sys2Proof.Machine.execNonce ini fresh s
  | .enroll ini => Sys2Proof.Machine.execEnroll ini s
  | .revoke ini => Sys2Proof.Machine.execRevoke ini s
  | .lcreq ini => Sys2Proof.Machine.execLcreq ini s
  | .dbgtok ini => Sys2Proof.Machine.execDbgtok ini s
  | .unwrap ini => Sys2Proof.Machine.execUnwrap ini s
  | .keyerase ini => Sys2Proof.Machine.execKeyerase ini s
  | .fwsvn ini => Sys2Proof.Machine.execFwsvn ini s
  | .sksvn ini => Sys2Proof.Machine.execSksvn ini s
  | .lvload ini => Sys2Proof.Machine.execLvload ini s
  | .cert ini => Sys2Proof.Machine.execCert ini s
  | .tokenExpire => Sys2Proof.Machine.execTokenExpire s
  | .tamperEvent => Sys2Proof.Machine.execTamperEvent s
  | .tamperClear ini val => Sys2Proof.Machine.execTamperClear ini val s
  | .getVersion msg => Sys2Proof.Machine.execGetVersion msg s
  | .getCapabilities msg => Sys2Proof.Machine.execGetCapabilities msg s
  | .negotiateAlgorithms msg => Sys2Proof.Machine.execNegotiateAlgorithms msg s
  | .getDigests msg => Sys2Proof.Machine.execGetDigests msg s
  | .getCertificate msg => Sys2Proof.Machine.execGetCertificate msg s
  | .challenge msg => Sys2Proof.Machine.execChallenge msg s
  | .getMeasurements msg => Sys2Proof.Machine.execGetMeasurements msg s
  | .keyExchange msg => Sys2Proof.Machine.execKeyExchange msg s
  | .finish msg => Sys2Proof.Machine.execFinish msg s
  | .heartbeat msg => Sys2Proof.Machine.execHeartbeat msg s
  | .keyUpdate msg => Sys2Proof.Machine.execKeyUpdate msg s
  | .endSession msg => Sys2Proof.Machine.execEndSession msg s
  | .ideKm secured stream key => Sys2Proof.Machine.execIdeKm secured stream key s
  | .tdispMessage tdi req => Sys2Proof.Machine.execTdispMessage tdi req s
  | .tdiError tdi => Sys2Proof.Machine.execTdiError tdi s
  | .msixSend ini val => Sys2Proof.Machine.execMsixSend ini val s
  | .outboundAccess ini addr wr n => Sys2Proof.Machine.execOutboundAccess ini addr wr n s
  | .hostFlush ini addr => Sys2Proof.Machine.execHostFlush ini addr s
  | .cxlMemRequest req dpa data mask => Sys2Proof.Machine.execCxlMemRequest req dpa data mask s
  | .hostLineRelease dpa => Sys2Proof.Machine.execHostLineRelease dpa s
  | .backInvalidate k => Sys2Proof.Machine.execBackInvalidate k s
  | .birspReceive line => Sys2Proof.Machine.execBirspReceive line s
  | .biTimeout line => Sys2Proof.Machine.execBiTimeout line s
  | .snoopResponse line => Sys2Proof.Machine.execSnoopResponse line s
  | .peerWrite src o data => Sys2Proof.Machine.execPeerWrite src o data s
  | .peerFlush src o => Sys2Proof.Machine.execPeerFlush src o s
  | .nvmeDoorbell f q head val => Sys2Proof.Machine.execNvmeDoorbell f q head val s
  | .nvmeRegisterWrite f reg val => Sys2Proof.Machine.execNvmeRegisterWrite f reg val s
  | .hdmCommit dec size => Sys2Proof.Machine.execHdmCommit dec size s
  | .hdmUncommit dec => Sys2Proof.Machine.execHdmUncommit dec s
  | .perstAssert => Sys2Proof.Machine.execPerstAssert s
  | .linkDown => Sys2Proof.Machine.execLinkDown s
  | .linkUp rate width => Sys2Proof.Machine.execLinkUp rate width s
  | .flr fn => Sys2Proof.Machine.execFlr fn s
  | .lcommitWrite val => Sys2Proof.Machine.execLcommitWrite val s
  | .plyTrain lanes preset => Sys2Proof.Machine.execPlyTrain lanes preset s
  | .plyTrainRetry lanes preset => Sys2Proof.Machine.execPlyTrainRetry lanes preset s
  | .plyFrameReceive f => Sys2Proof.Machine.execPlyFrameReceive f s
  | .plyIdle f => Sys2Proof.Machine.execPlyIdle f s
  | .plyNak f => Sys2Proof.Machine.execPlyNak f s
  | .plyHello f => Sys2Proof.Machine.execPlyHello f s
  | .plyRec f => Sys2Proof.Machine.execPlyRec f s
  | .plyHandover f => Sys2Proof.Machine.execPlyHandover f s
  | .plyHoack f => Sys2Proof.Machine.execPlyHoack f s
  | .plyRxseqAdvance => Sys2Proof.Machine.execPlyRxseqAdvance s
  | .plyLinkLost => Sys2Proof.Machine.execPlyLinkLost s
  | .plyTxtailWrite ini val => Sys2Proof.Machine.execPlyTxtailWrite ini val s
  | .plyRecordSend => Sys2Proof.Machine.execPlyRecordSend s
  | .plyHandoverCmd ini val => Sys2Proof.Machine.execPlyHandoverCmd ini val s
  | .plyResolve ini val => Sys2Proof.Machine.execPlyResolve ini val s
  | .plyRetrain ini val => Sys2Proof.Machine.execPlyRetrain ini val s
  | .plyTake ini val => Sys2Proof.Machine.execPlyTake ini val s
  | .plyPresentRise => Sys2Proof.Machine.execPlyPresentRise s
  | .pinConfigWrite ini pin psrc val => Sys2Proof.Machine.execPinConfigWrite ini pin psrc val s
  | .pinSwitchDone pin => Sys2Proof.Machine.execPinSwitchDone pin s
  | .gpioOutputWrite ini off val => Sys2Proof.Machine.execGpioOutputWrite ini off val s
  | .evinEdge k rise held => Sys2Proof.Machine.execEvinEdge k rise held s
  | .bypass => Sys2Proof.Machine.execBypass s
  | .idcode => Sys2Proof.Machine.execIdcode s
  | .samplePreload data => Sys2Proof.Machine.execSamplePreload data s
  | .extest => Sys2Proof.Machine.execExtest s
  | .clamp => Sys2Proof.Machine.execClamp s
  | .highz => Sys2Proof.Machine.execHighz s
  | .extestPulse => Sys2Proof.Machine.execExtestPulse s
  | .extestTrain => Sys2Proof.Machine.execExtestTrain s
  | .dmi addr wr data => Sys2Proof.Machine.execDmi addr wr data s
  | .calUserWrite ini k val => Sys2Proof.Machine.execCalUserWrite ini k val s
  | .calClrall ini val => Sys2Proof.Machine.execCalClrall ini val s
  | .macrocellUpdate r => Sys2Proof.Machine.execMacrocellUpdate r s
  | .xtalFail => Sys2Proof.Machine.execXtalFail s
  | .pgMainRise => Sys2Proof.Machine.execPgMainRise s
  | .perstRelease => Sys2Proof.Machine.execPerstRelease s
  | .hostCompletion tag ok data => Sys2Proof.Machine.execHostCompletion tag ok data s
  | .msixMaskChange v fn mask => Sys2Proof.Machine.execMsixMaskChange v fn mask s
  | .linkL1Entry l12 => Sys2Proof.Machine.execLinkL1Entry l12 s
  | .leveeSramError => Sys2Proof.Machine.execLeveeSramError s
  | .filtDecodedPacket r lw body => Sys2Proof.Machine.execFiltDecodedPacket r lw body s
  | .lzeBlock r block => Sys2Proof.Machine.execLzeBlock r block s
  | .ersStripeParity r members two => Sys2Proof.Machine.execErsStripeParity r members two s
  | .ioBankSupplyChange bank volt => Sys2Proof.Machine.execIoBankSupplyChange bank volt s

end Sys2Proof.Machine
end

