-- ==== Sys2Proof/Machine/Step.lean ====
section
/-!
DEFINITION. The step: the command at the front of the queue, on the state with the queue's rest.
-/
namespace Sys2Proof.Machine

/-- One step: the command that has waited longest takes its effect. With no command waiting the block goes on by
itself: a cycle of the queues' write ports, one of the DMA engine, the next context of a shadow load and an edge of the pad clock (DESIGN
CHOICE: every other timed happening of the spec is a command of the table). -/
def step (s : State) : Host.Outcome State Fault Refusal :=
  match s.pending with
  | [] => .next s.idle
  | c :: rest => exec c { s with pending := rest }

/-- Put command `c` at the front of the queue. -/
def State.withFront (s : State) (c : Instr) : State := { s with pending := c :: s.pending }

/-- `s` with the command that a table word spells at the front of its queue; a word that spells none changes nothing. -/
def State.withFetchWord (s : State) (nbits w : Nat) : State :=
  match Sys2Proof.decodeTableWord nbits w with
  | some c => s.withFront c
  | none => s

end Sys2Proof.Machine
end

