-- ==== Sys2Proof/Safety.lean ====
section
/-!
DEFINITION. What counts as a safe run: the terms in which statements speak of a step's outcome and of the machine's invariants.
-/
namespace Sys2Proof.Machine

/-- The command completes: it answers a next state. -/
def Completes (c : Instr) (s : State) : Prop := ∃ t, exec c s = .next t

/-- A property that no step loses. -/
def Kept (P : State → Prop) : Prop := ∀ s t, P s → step s = .next t → P t

/-- Every event port holds at most eight occurrences (R357). -/
def PortsBounded (s : State) : Prop := s.portsOk = true

/-- No access of the command in hand is waiting: between commands nothing is held, since a command that has to wait is taken back. -/
def NothingHeld (s : State) : Prop := s.hold = none

/-- Memory is in its canonical form: addresses strictly rising, no byte equal to what an unlisted address reads as. -/
abbrev Memory.wf (m : Tbl Byte) : Prop := twf (fun _ => (0 : Byte)) m = true

/-- The conditions under which a command of a block that leads to `t` takes place: the main rails are up (R374), the event
ports have room for what it raises (R358), and no access of it has to wait for its NI or for the host (R265, R443). -/
abbrev Fits (s t : State) : Prop := s.powered = true ∧ t.portsOk = true ∧ t.hold = none

/-- The command completes in state `t`. -/
def Takes (c : Instr) (s t : State) : Prop := Fits s t → exec c s = .next t

/-- The same for a command of the AON domain, which needs no main rails. -/
def TakesAon (c : Instr) (s t : State) : Prop := t.portsOk = true → exec c s = .next t

/-- Two tiles agree in what a program of the function unit can read: registers, accumulators, flags, tile memory and its pointers. -/
def Tile.sameCore (T U : Tile) : Prop :=
  U.pr = T.pr ∧ U.sh = T.sh ∧ U.acc = T.acc ∧ U.flags = T.flags ∧ U.mem = T.mem ∧ U.ptr = T.ptr ∧ U.head = T.head ∧ U.tail = T.tail ∧
    U.count = T.count

/-- The registers of region r that a collision on a channel line loads: the line-fault capture and EVT_RAW (R89). -/
def lineReg (r o : Nat) : Prop :=
  o = frgPage r + frgLineFault ∨ o = frgPage r + frgLineTiles ∨ o = frgPage r + frgLineCycle ∨ o = frgPage r + frgLineCycle + 4 ∨
  o = frgPage r + hEvtRaw

/-- Between s and u only what the words of the tiles reach has changed: tiles, lines, buffers and crossings, the FOUT latches that read
a line, the probes that watch one, and a line fault with its event (R87 to R89, R168); no frame, no check word and no other register. -/
def State.onlyTiles (s u : State) : Prop :=
  u = { s with fab := u.fab, regs := u.regs, pio := { s.pio with pins := u.pio.pins }, hts := { s.hts with ports := u.hts.ports },
               integ := { s.integ with prb := u.integ.prb } } ∧
  u.fab.frames = s.fab.frames ∧ u.fab.checks = s.fab.checks ∧ ∀ o, ¬ (∃ r, lineReg r o) → u.reg o = s.reg o

/-- The tile and the operation of a command that is a fire of the function unit (R49). -/
def fireOf : Instr → Option (TileId × FuOp)
  | .nop t => some (t, fuNop)
  | .add t => some (t, fuAdd)
  | .addc t => some (t, fuAddc)
  | .sub t => some (t, fuSub)
  | .subb t => some (t, fuSubb)
  | .cmpeq t => some (t, fuCmpeq)
  | .cmpne t => some (t, fuCmpne)
  | .cmplt t => some (t, fuCmplt)
  | .cmpltu t => some (t, fuCmpltu)
  | .cmple t => some (t, fuCmple)
  | .cmpleu t => some (t, fuCmpleu)
  | .mov t => some (t, fuMov)
  | .neg t => some (t, fuNeg)
  | .abs t => some (t, fuAbs)
  | .and t => some (t, fuAnd)
  | .or t => some (t, fuOr)
  | .xor t => some (t, fuXor)
  | .andn t => some (t, fuAndn)
  | .not t => some (t, fuNot)
  | .shl t => some (t, fuShl)
  | .shr t => some (t, fuShr)
  | .sar t => some (t, fuSar)
  | .rol t => some (t, fuRol)
  | .ror t => some (t, fuRor)
  | .sel t => some (t, fuSel)
  | .selp t => some (t, fuSelp)
  | .selt t => some (t, fuSelt)
  | .passeq t => some (t, fuPasseq)
  | .passne t => some (t, fuPassne)
  | .passlt t => some (t, fuPasslt)
  | .passltu t => some (t, fuPassltu)
  | .passle t => some (t, fuPassle)
  | .passleu t => some (t, fuPassleu)
  | .mul t => some (t, fuMul)
  | .mulu t => some (t, fuMulu)
  | .mac t => some (t, fuMac)
  | .macu t => some (t, fuMacu)
  | .msu t => some (t, fuMsu)
  | .accld t => some (t, fuAccld)
  | .add4 t => some (t, fuAdd4)
  | .add2 t => some (t, fuAdd2)
  | .adds4 t => some (t, fuAdds4)
  | .adds2 t => some (t, fuAdds2)
  | .dot4 t => some (t, fuDot4)
  | .dot4u t => some (t, fuDot4u)
  | .dot2 t => some (t, fuDot2)
  | .dot2u t => some (t, fuDot2u)
  | .ddot4 t => some (t, fuDdot4)
  | .ddot4u t => some (t, fuDdot4u)
  | .popc t => some (t, fuPopc)
  | .clz t => some (t, fuClz)
  | .ctz t => some (t, fuCtz)
  | .bext t => some (t, fuBext)
  | .bins t => some (t, fuBins)
  | .brev t => some (t, fuBrev)
  | .gfmul t => some (t, fuGfmul)
  | .gfmuls t => some (t, fuGfmuls)
  | .gfmad t => some (t, fuGfmad)
  | .gfmads t => some (t, fuGfmads)
  | .crcb t => some (t, fuCrcb)
  | .crch t => some (t, fuCrch)
  | .crcw t => some (t, fuCrcw)
  | .adds t => some (t, fuAdds)
  | .subs t => some (t, fuSubs)
  | .addus t => some (t, fuAddus)
  | .subus t => some (t, fuSubus)
  | .min t => some (t, fuMin)
  | .max t => some (t, fuMax)
  | .minu t => some (t, fuMinu)
  | .maxu t => some (t, fuMaxu)
  | .minix t => some (t, fuMinix)
  | .bxor3 t => some (t, fuBxor3)
  | .bmaj3 t => some (t, fuBmaj3)
  | .bthr t => some (t, fuBthr)
  | .bmux t => some (t, fuBmux)
  | .band3 t => some (t, fuBand3)
  | .bor3 t => some (t, fuBor3)
  | _ => none

/-- OWNER, the SP code and LOCK let a write of the whole register at `off` through (R31, R32, R9). -/
def State.passesWhole (s : State) (ini : Ini) (off : Nat) : Bool :=
  match regDefAt off with
  | none => false
  | some d => s.mayWrite ini off && (d.sp == 0 || ini == levee) && (d.rwl == 0 || !s.locked off)

/-- The access is turned away: the answer to it is `st`, and a violation with flag `flag` is recorded on its page. -/
def State.turnedAway (s : State) (flag : Nat) (ini : Ini) (off : Nat) (st : Status) : State :=
  (s.violate (off / 0x1000 * 0x1000) flag ini off true).answer st 0

end Sys2Proof.Machine
end

