-- ==== Sys2Proof/Certificates/Slice0/Obligations.lean ====
section
/-!
DEFINITION. The statements for the provers: for every command where it takes place and what state it leads to (the `Complete` statements), and
what the rules of the spec say of the machine beyond one command. A state after a command is written with the model's own operations, so that
each of these equations is the frame of its command too: what the expression does not name is as before.
-/
open Sys2Proof Sys2Proof.Machine

/-- A step with a command at the front of the queue is that command's effect on the state with the queue's rest; on an empty queue it answers what goes on without a command: a cycle of the queues' write ports, one of the DMA engine, the next context of a shadow load and an edge of the pad clock, each of which waits as a command does, and nothing at all while the main rails are down. The queue is the model's form of what waits at the block (log entry 1), and what the step does on an empty queue is the model's choice (log entry 2), since every other timed happening of the spec is a command of the table. -/
def Obligations.StepTakesTheFrontCommand : Prop :=
    (∀ (c : Instr) (s : State), step (s.withFront c) = exec c s) ∧
    (∀ (s : State) (c : Instr) (rest : List Instr), s.pending = c :: rest → step s = exec c { s with pending := rest }) ∧
    (∀ s : State, s.pending = [] → step s = .next s.idle) ∧
    (∀ s : State, s.pending = [] → s.powered = false → step s = .next s)

/-- No command of the table is refused and none faults, whatever the state and the operands. -/
def Obligations.EveryCommandAnswersANextState : Prop :=
    ∀ (c : Instr) (s : State), Completes c s

/-- Each event of a tile, a link, a furrow, a channel line or a crossing takes place when its operands are there and its receivers are ready. (R47, R61, R65, R74, R82, R83, R87, R106.) -/
def Obligations.FabricTileEventsComplete : Prop :=
    (∀ (s : State) (t : TileId) (e : Stage2) (rest : List Stage2),
      (s.tile t.val).stage2 = e :: rest →
      regionMoves (s.rgn (t.val / 256)) = true →
      e.new = false →
      s.stageFree t.val e = true →
      Takes (.secondStageRetire t) s (((s.modTile t.val (fun T => { T with stage2 := rest })).modTile t.val (fun T => T.retire e)).loadOuts t.val e.doa e.dob e.res) ∧
        (e.doa = false → e.dob = false → e.dtm = false → ((((s.modTile t.val (fun T => { T with stage2 := rest })).modTile t.val (fun T => T.retire e)).loadOuts t.val e.doa e.dob e.res).tile t.val).stage2 = rest ∧ tget 0 ((((s.modTile t.val (fun T => { T with stage2 := rest })).modTile t.val (fun T => T.retire e)).loadOuts t.val e.doa e.dob e.res).tile t.val).acc e.ctx = e.acc)) ∧
    (∀ (s : State) (t : TileId) (c : Nat),
      regionMoves (s.rgn (t.val / 256)) = true →
      fOvr (s.act t.val) = true →
      s.switchReq t.val = some c →
      s.seqStalls (t.val / 256) = false →
      bit (s.rgn (t.val / 256)).loading c = false →
      s.tileStalls (t.val / 256) = false →
      Takes (.tileContextSwitch t) s (s.ownSwitch t.val c)) ∧
    (∀ (s : State) (r : Region),
      regionMoves (s.rgn r.val) = true →
      Takes (.macrocellUpdate r) s (s.regionEdge s.edgeBase r.val)) ∧
    (∀ (s : State) (t : TileId) (src : BitVec 4) (w : Word),
      (s.sinks t.val src.toNat).any isSlot = false →
      s.sourceWord t.val src.toNat = some w →
      regionMoves (s.rgn (t.val / 256)) = true →
      (s.sinks t.val src.toNat).all (s.pointReady false) = true →
      Takes (.linkTransfer t src) s ((s.sinks t.val src.toNat).foldl (fun u p => u.deliver w p) (s.takeSource t.val src.toNat))) ∧
    (∀ (s : State) (t : TileId) (tap : Fin 4) (w : Word) (rest : List Word),
      tapEn (fTap (s.act t.val) tap.val) = true →
      tapDrv (fTap (s.act t.val) tap.val) = true →
      tapFreg (fTap (s.act t.val) tap.val) = true →
      (tget {} (s.tile t.val).fregs tap.val).words = w :: rest →
      regionMoves (s.rgn (t.val / 256)) = true →
      0 < (tget {} (s.tile t.val).fregs tap.val).n0 →
      (tget {} (s.tile t.val).fregs tap.val).out = false →
      (s.segPoints t.val (tapDir (fTap (s.act t.val) tap.val)) (tapSpan (fTap (s.act t.val) tap.val)) (tapTrack (fTap (s.act t.val) tap.val))).all (s.pointReady false) = true →
      Takes (.furrowRegisterEmit t tap) s ((s.segPoints t.val (tapDir (fTap (s.act t.val) tap.val)) (tapSpan (fTap (s.act t.val) tap.val)) (tapTrack (fTap (s.act t.val) tap.val))).foldl (fun u p => u.deliver w p)
        (s.modTile t.val (fun T => { T with fregs := tset {} T.fregs tap.val { tget {} (s.tile t.val).fregs tap.val with words := rest, out := true } })))) ∧
    (∀ (s : State) (r : Region) (line : Fin 8) (pos : Fin 16),
      regionMoves (s.rgn r.val) = true →
      Takes (.channelLineDrive r line pos) s (s.driveLine r.val line.val pos.val)) ∧
    (∀ (s : State) (t : TileId) (ch : Fin 8) (w : Word) (rest : List Word),
      s.xing t.val ch.val = w :: rest →
      sluicePasses (s.rgn (t.val / 256)) = true →
      s.pointReady false (.chan t.val ch.val) = true →
      Takes (.sluiceCrossingDeliver t ch) s ((s.takeXing t.val ch.val w rest).deliver w (.chan t.val ch.val)))

/-- Each command of a region takes place in the states of the region that accept it: requests, switches, cast-on, bind-off, headgates, operating points and power. (R99, R100, R103, R105, R109, R110, R111, R114, R117, R118, R119, R508.) -/
def Obligations.RegionCommandsComplete : Prop :=
    (∀ (s : State) (ini : Ini) (r : Region) (val : Word),
      s.mayWrite ini (frgPage r.val + frgCtxsel) = true →
      sequencerOn ((s.fieldWrite ini (frgPage r.val + frgCtxsel) val).rgn r.val) = true →
      Takes (.ctxselRequest ini r val) s (((s.fieldWrite ini (frgPage r.val + frgCtxsel) val).modRgn r.val (fun g => { g with regReq := some (fld (s.actBits ini (frgPage r.val + frgCtxsel) val) 0 3) })).answer .ok 0)) ∧
    (∀ (s : State) (r : Region) (ctx : BitVec 3),
      s.signalReady r.val = true →
      s.waitingSignal r.val = none →
      Takes (.sequencerSignal r ctx) s (s.modRgn r.val (fun g => { g with sigReq := some ctx.toNat }))) ∧
    (∀ (s : State) (r : Region) (k : Fin 4) (c : Nat),
      s.hgWants r.val k.val = some c →
      bit (s.seqcfg r.val) 1 = true →
      regionMoves (s.rgn r.val) = true →
      c ≠ (s.rgn r.val).sel →
      Takes (.headgateTagRequest r k) s (s.modHg r.val k.val (fun h => { h with req := true }))) ∧
    (∀ (s : State) (r : Region) (src : SelSource) (c : Nat),
      regionMoves (s.rgn r.val) = true →
      s.winner r.val = some (src, c) →
      c ≠ (s.rgn r.val).sel →
      s.pktHold r.val = false →
      s.seqStalls r.val = false →
      s.tileStalls r.val = false →
      Takes (.sequencerSwitch r) s ((s.consumeReq r.val src).enterRegion s.edgeBase r.val c)) ∧
    (∀ (s : State) (r : Region) (c : Nat),
      (s.rgn r.val).stall = some ⟨c, none⟩ →
      ((s.shadowUpTo r.val c).rgn r.val).stall = some ⟨c, none⟩ →
      bit ((s.shadowUpTo r.val c).rgn r.val).loading c = false →
      ((s.shadowUpTo r.val c).rgn r.val).held = false →
      ((s.shadowUpTo r.val c).rgn r.val).st ≠ .frozen →
      Takes (.stallEnd r) s (((s.shadowUpTo r.val c).stallOver r.val).enterRegion ((s.shadowUpTo r.val c).stallOver r.val).stoppedBase r.val c)) ∧
    (∀ (s : State) (r : Region) (c l : Nat),
      (s.rgn r.val).stall = some ⟨c, some l⟩ →
      ((s.shadowUpTo r.val c).rgn r.val).stall = some ⟨c, some l⟩ →
      bit ((s.shadowUpTo r.val c).rgn r.val).loading c = false →
      ((s.shadowUpTo r.val c).rgn r.val).held = false →
      ((s.shadowUpTo r.val c).rgn r.val).st ≠ .frozen →
      Takes (.stallEnd r) s ((((s.shadowUpTo r.val c).stallOver r.val).ownSwitch (256 * r.val + l) c).regionEdge (((s.shadowUpTo r.val c).stallOver r.val).ownSwitch (256 * r.val + l) c).stoppedBase r.val)) ∧
    (∀ (s : State) (ini : Ini) (r : Region) (val : Word),
      s.mayWrite ini (frgPage r.val + frgCtrl) = true →
      bit (s.actBits ini (frgPage r.val + frgCtrl) val) 0 = true →
      bit (s.actBits ini (frgPage r.val + frgCtrl) val) 1 = false →
      ((s.fieldWrite ini (frgPage r.val + frgCtrl) val).rgn r.val).st = .ready →
      (s.fieldWrite ini (frgPage r.val + frgCtrl) val).castOk r.val = true →
      Takes (.caston ini r val) s (((s.fieldWrite ini (frgPage r.val + frgCtrl) val).modRgn r.val (fun g => { g with st := .caston, stage := 1 })).answer .ok 0)) ∧
    (∀ (s : State) (r : Region),
      (s.rgn r.val).st = .caston →
      (s.rgn r.val).stage = 1 →
      Takes (.castonWriteEnable r) s (s.modRgn r.val (fun g => { g with stage := 2 }))) ∧
    (∀ (s : State) (r : Region),
      (s.rgn r.val).st = .caston →
      (s.rgn r.val).stage = 2 →
      (s.rgn r.val).offReq = false →
      s.fcc.lstate = 0 →
      Takes (.castonResetRelease r) s (castonResetReleaseCmd r.val s) ∧
        ((castonResetReleaseCmd r.val s).rgn r.val).st = .run ∧
        ((castonResetReleaseCmd r.val s).rgn r.val).sel = fld (s.seqcfg r.val) 3 3 ∧
        ((castonResetReleaseCmd r.val s).rgn r.val).cyc = 0) ∧
    (∀ (s : State) (ini : Ini) (r : Region) (val : Word),
      s.mayWrite ini (frgPage r.val + frgCtrl) = true →
      bit (s.actBits ini (frgPage r.val + frgCtrl) val) 0 = false →
      bit (s.actBits ini (frgPage r.val + frgCtrl) val) 1 = true →
      ((s.fieldWrite ini (frgPage r.val + frgCtrl) val).rgn r.val).st = .run →
      Takes (.bindoff ini r val) s (((s.fieldWrite ini (frgPage r.val + frgCtrl) val).beginBindoff r.val).answer .ok 0)) ∧
    (∀ (s : State) (r : Region) (timeout : Bool),
      (s.rgn r.val).st = .bindoff →
      (s.rgn r.val).parked = false →
      timeout = true ∨ s.hgEmpty r.val = true →
      Takes (.bindoffDrainEnd r timeout) s (s.endDrain r.val)) ∧
    (∀ (s : State) (r : Region),
      (s.rgn r.val).st = .bindoff →
      (s.rgn r.val).parked = true →
      (s.rgn r.val).offReq = false →
      s.fcc.lstate = 0 →
      Takes (.bindoffReset r) s (bindoffResetCmd r.val s) ∧
        ((bindoffResetCmd r.val s).rgn r.val).st = .ready ∧
        ((bindoffResetCmd r.val s).rgn r.val).parked = false) ∧
    (∀ (s : State) (r : Region) (k : Fin 4) (fl : HgFlit) (rest : List HgFlit),
      (s.hg r.val k.val).inb = fl :: rest →
      regionMoves (s.rgn r.val) = true →
      (s.rgn r.val).parked = false →
      (s.hgWants r.val k.val = none ∨ s.hgWants r.val k.val = some (s.rgn r.val).sel) →
      (s.hg r.val k.val).shown = none →
      (hgInLanes (s.hg r.val k.val).cfg).all (fun i => (s.lanePoints r.val k.val i).all (s.pointReady false)) = true →
      Takes (.headgateInboundPresent r k) s (s.hgShow r.val k.val fl rest)) ∧
    (∀ (s : State) (r : Region) (k : Fin 4),
      (s.rgn r.val).held = false →
      (s.rgn r.val).st ≠ .frozen →
      Takes (.headgateOutboundSend r k) s ((s.hgForm r.val k.val).hgSend r.val k.val)) ∧
    (∀ (s : State) (r : Region) (k : Fin 4),
      (s.hg r.val k.val).again = true →
      (s.rgn r.val).held = false →
      (s.rgn r.val).st ≠ .frozen →
      Takes (.headgateResend r k) s ((s.modHg r.val k.val (fun h => { h with again := false })).hgSend r.val k.val)) ∧
    (∀ (s : State) (ini : Ini) (r : Region) (val : Word),
      s.passesWhole ini (frgPage r.val + frgOpsel) = true →
      s.opRefusal r.val (opPoint val) = 0 →
      s.fcc.lstate = 0 →
      Takes (.opselWrite ini r val) s ((s.opselAct r.val val).answer .ok 0)) ∧
    (∀ (s : State) (r : Region) (p : OpPoint),
      s.opHead r.val = some p →
      s.fab.opRun = false →
      p.pwr = true →
      (s.rgn r.val).op.pwr = true →
      Takes (.operatingPointChange r) s ({ s with fab := { s.fab with opRun := true } })) ∧
    (∀ (s : State) (r : Region) (p : OpPoint),
      s.opHead r.val = some p →
      s.fab.opRun = true →
      p.pwr = true →
      Takes (.operatingPointDone r) s ((s.popOp.modRgn r.val (fun g => { g with op := p, budget := s.opBudget p })).raise (frgPage r.val) 3)) ∧
    (∀ (s : State) (r : Region) (p : OpPoint),
      s.opHead r.val = some p →
      p.pwr = true →
      (s.rgn r.val).st = .off →
      s.fab.opRun = false →
      Takes (.regionPowerOn r) s (((s.popOp.wipeRegion r.val).modRgn r.val (fun g => { g with st := .empty, op := p, budget := s.opBudget p })).raise (frgPage r.val) 3)) ∧
    (∀ (s : State) (r : Region) (p : OpPoint),
      s.opHead r.val = some p →
      p.pwr = false →
      (s.rgn r.val).st = .ready →
      s.regionQuiet r.val = true →
      Takes (.regionPowerOff r) s ((s.regionOff r.val).opEnd r.val)) ∧
    (∀ (s : State) (r : Region) (p : OpPoint),
      s.opHead r.val = some p →
      p.pwr = false →
      (s.rgn r.val).st = .ready →
      s.regionQuiet r.val = false →
      ((s.closePorts r.val).rgn r.val).st = .ready →
      Takes (.regionPowerOff r) s (s.closePorts r.val)) ∧
    (∀ (s : State) (codes : List (BitVec 12)),
      Takes (.regionTempSample codes) s (regionTempSample codes s) ∧
        (regionTempSample codes s).pmu.soc = s.tempOf 24 (codes.getD 24 0))

/-- Each command of the configuration loader takes place in the loader states that accept it. (R130, R131, R132, R134, R135, R136, R139, R141, R143, R145, R279.) -/
def Obligations.LoaderCommandsComplete : Prop :=
    (∀ (s : State) (ini : Ini) (val : Word),
      s.mayWrite ini (fccPg + fccCtrl) = true →
      bit (s.actBits ini (fccPg + fccCtrl) val) 0 = true →
      bit (s.actBits ini (fccPg + fccCtrl) val) 1 = false →
      bit (s.actBits ini (fccPg + fccCtrl) val) 2 = false →
      bit (s.actBits ini (fccPg + fccCtrl) val) 3 = false →
      (s.fieldWrite ini (fccPg + fccCtrl) val).fcc.lstate = 0 →
      Takes (.fccOpen ini val) s (((s.fieldWrite ini (fccPg + fccCtrl) val).fccOpen false).answer .ok 0)) ∧
    (∀ (s : State) (ini : Ini) (val : Word),
      s.mayWrite ini (fccPg + fccCtrl) = true →
      bit (s.actBits ini (fccPg + fccCtrl) val) 0 = false →
      bit (s.actBits ini (fccPg + fccCtrl) val) 1 = true →
      bit (s.actBits ini (fccPg + fccCtrl) val) 2 = false →
      bit (s.actBits ini (fccPg + fccCtrl) val) 3 = false →
      (s.fieldWrite ini (fccPg + fccCtrl) val).fcc.lstate = 1 →
      Takes (.fccAbort ini val) s (((s.fieldWrite ini (fccPg + fccCtrl) val).loadEnd 0x23).answer .ok 0)) ∧
    (∀ (s : State) (ini : Ini) (val : Word),
      s.mayWrite ini (fccPg + fccCtrl) = true →
      bit (s.actBits ini (fccPg + fccCtrl) val) 0 = false →
      bit (s.actBits ini (fccPg + fccCtrl) val) 1 = false →
      bit (s.actBits ini (fccPg + fccCtrl) val) 2 = true →
      bit (s.actBits ini (fccPg + fccCtrl) val) 3 = false →
      (s.fieldWrite ini (fccPg + fccCtrl) val).fcc.lstate = 0 →
      (s.fieldWrite ini (fccPg + fccCtrl) val).fcc.sigOk = true →
      Takes (.sessionOpen ini val) s ((s.fieldWrite ini (fccPg + fccCtrl) val).sessionOpen.answer .ok 0)) ∧
    (∀ (s : State) (ini : Ini) (val : Word),
      s.mayWrite ini (fccPg + fccCtrl) = true →
      bit (s.actBits ini (fccPg + fccCtrl) val) 0 = false →
      bit (s.actBits ini (fccPg + fccCtrl) val) 1 = false →
      bit (s.actBits ini (fccPg + fccCtrl) val) 2 = false →
      bit (s.actBits ini (fccPg + fccCtrl) val) 3 = true →
      (s.fieldWrite ini (fccPg + fccCtrl) val).fcc.sess = true →
      Takes (.sessionClose ini val) s ((s.fieldWrite ini (fccPg + fccCtrl) val).endSession.answer .ok 0)) ∧
    (∀ (s : State) (ini : Ini) (a : BitVec 20) (len : Nat) (data : BitVec 64),
      len = 8 →
      a.toNat % 8 = 0 →
      s.mayWrite ini fccPg = true →
      s.fcc.lstate = 1 →
      s.fcc.spi = false →
      Takes (.aperturePush ini a len data) s ((s.stage8 (s.fcc.h + (a.toNat + 0x100000 - s.fcc.h % 0x100000) % 0x100000) (bytesOf 8 data.toNat)).answer .ok 0)) ∧
    (∀ (s : State),
      s.fcc.lstate = 1 →
      s.fcc.fixed = false →
      s.fcc.part = 0 →
      256 ≤ s.fcc.h →
      s.headerCodes = [] →
      s.stagingOpen = true →
      Takes (.streamPartHashed) s (s.modFcc (fun f => { f with part := 1, pos := 256 }))) ∧
    (∀ (s : State),
      s.spiOn = true →
      Takes (.spiOpen) s (s.fccOpen true)) ∧
    (∀ (s : State) (p : Word) (bytes : List Byte),
      s.spiOn = true →
      s.fcc.lstate = 1 →
      s.fcc.spi = true →
      p.toNat % 8 = 0 →
      bytes.length % 8 = 0 →
      s.fcc.h ≤ p.toNat →
      p.toNat < s.fcc.h + 0x100000 →
      Takes (.spiPush p bytes) s (s.stageMany p.toNat ((List.range (bytes.length / 8)).map (fun i => (bytes.drop (8 * i)).take 8)))) ∧
    (∀ (s : State),
      s.spiOn = true →
      s.fcc.lstate = 1 →
      Takes (.spiAbort) s (s.loadEnd 0x23)) ∧
    (∀ (s : State),
      s.spiOn = true →
      Takes (.spiStatus) s (s.answer .ok ((s.reg (fccPg + fccLres)).zeroExtend 64 <<< 32 ||| (s.fccStatWord).zeroExtend 64))) ∧
    (∀ (s : State),
      s.spiOn = true →
      Takes (.spiId) s (s.answer .ok 0x01000010)) ∧
    (∀ (s : State),
      s.fcc.lstate = 1 →
      s.fcc.fixed = true →
      s.fcc.h = s.totalLen →
      s.tType = 1 →
      anyNonzero (s.strmBytes (s.trailerAt + 8 + 3309) 3) = false →
      s.stagingOpen = true →
      Takes (.streamComplete) s (((s.modFcc (fun f => { f with lstate := 2, auth := none, ana := none })).raise fccPg 0).presentCosts)) ∧
    (∀ (s : State)  (k : List Byte) (v : Bool),
      s.fcc.lstate = 2 →
      s.tType = 1 →
      s.fcc.auth = none →
      s.keyRef s.tKeyidx = .key k →
      Config.mldsaVerify k (digestBytes s.streamDigest) skeinStr (s.strmBytes (s.trailerAt + 8) 3309) = v →
      s.stagingOpen = true →
      Takes (.signatureVerified) s ((s.modFcc (fun f => { f with auth := some v })).verifyEnd)) ∧
    (∀ (s : State),
      s.fcc.lstate = 2 →
      s.fcc.ana = none →
      s.analyseTargets s.targets = none →
      s.stagingOpen = true →
      Takes (.routingAnalysisDone) s ((s.modFcc (fun f => { f with ana := some none })).verifyEnd)) ∧
    (∀ (s : State)  (r : Nat) (rest : List Nat),
      s.fcc.todo = r :: rest →
      s.fcc.lstate = 3 →
      s.hShadow = true →
      s.fcc.cur = none →
      (s.rgn r).st = .run →
      s.shadowBusy r = false →
      Takes (.shadowLoadStart) s ((s.modRgn r (fun g => { g with loading := BitVec.ofNat 8 s.hContexts })).modFcc (fun f => { f with cur := some r }))) ∧
    (∀ (s : State)  (r : Nat),
      s.fcc.cur = some r →
      Takes (.regionSeal) s (regionSeal s)) ∧
    (∀ (s : State) (r : Region),
      s.fcc.bulk.contains r.val = true →
      Takes (.bulkClearDone r) s (((s.wipeRegion r.val).modFcc (fun f => { f with bulk := f.bulk.filter (fun x => x != r.val) })).loadGoesOn)) ∧
    (∀ (s : State)  (b c : Nat) (rest : List (Option (Nat × Nat))),
      s.rsvr.hand = some (b, c) :: rest →
      s.staging b = false →
      Takes (.handoverEdge) s ((({ s with rsvr := { s.rsvr with hand := rest, own := tset 0 s.rsvr.own b c } }).raise (page .rsv 0) 0).answer .ok 0))

/-- Each command of the scrubber, the voted registers, the capture and the probes takes place. (R151, R153, R154, R156, R157, R158, R159, R162, R163, R164, R167.) -/
def Obligations.IntegrityCommandsComplete : Prop :=
    (∀ (s : State) (ups : List (Fin 49152 × Fin 1080)),
      (ups.foldl State.upset s).scrubOn = true →
      (ups.foldl State.upset s).slot < 49152 →
      (ups.foldl State.upset s).slot ≠ 0 →
      (ups.foldl State.upset s).slotSkipped (ups.foldl State.upset s).slot = true →
      Takes (.scrubSlot ups) s (((ups.foldl State.upset s).modInteg (fun i => { i with skips := i.skips + 1 })).setReg (scrPg + fccScrpos) (BitVec.ofNat 32 ((ups.foldl State.upset s).slot + 1)))) ∧
    (∀ (s : State) (ups : List (Fin 49152 × Fin 1080)),
      (ups.foldl State.upset s).scrubOn = true →
      (ups.foldl State.upset s).slot < 49152 →
      (ups.foldl State.upset s).slot ≠ 0 →
      (ups.foldl State.upset s).slotSkipped (ups.foldl State.upset s).slot = false →
      Takes (.scrubSlot ups) s ((((ups.foldl State.upset s).pulse 4 0 0).scrubAct (ups.foldl State.upset s).slot (readFrame ((ups.foldl State.upset s).cells (ups.foldl State.upset s).slot).1 ((ups.foldl State.upset s).cells (ups.foldl State.upset s).slot).2)).setReg (scrPg + fccScrpos) (BitVec.ofNat 32 ((ups.foldl State.upset s).slot + 1)))) ∧
    (∀ (s : State) (ups : List (Fin 49152 × Fin 1080)),
      (ups.foldl State.upset s).scrubOn = true →
      (ups.foldl State.upset s).slot = 0 →
      (ups.foldl State.upset s).writeCanary.slot = 0 →
      (ups.foldl State.upset s).slotSkipped 0 = false →
      Takes (.scrubSlot ups) s ((((ups.foldl State.upset s).writeCanary.pulse 4 0 0).scrubAct 0 (readFrame ((ups.foldl State.upset s).cells 0).1 ((ups.foldl State.upset s).cells 0).2)).setReg (scrPg + fccScrpos) 1)) ∧
    (∀ (s : State) (r : Region),
      (s.rgn r.val).heldLatch = true →
      (s.rgn r.val).st = .run →
      (s.rgn r.val).held = false →
      Takes (.regionHold r) s ((s.stopRegion r.val).modRgn r.val (fun g => { g with held := true, cyc := g.cyc + 1 }))) ∧
    (∀ (s : State) (ini : Ini) (val : Word),
      s.mayWrite ini (scrPg + fccScrhold) = true →
      Takes (.holdClear ini val) s (((List.range 24).foldl (fun w r => if bit (s.actBits ini (scrPg + fccScrhold) val) r then w.modRgn r (fun g => { g with held := false, heldLatch := false }) else w)
        ((s.fieldWrite ini (scrPg + fccScrhold) val).setReg (scrPg + fccScrhold) 0)).answer .ok 0)) ∧
    (∀ (s : State) (ups : List (Fin 1080)),
      s.scrubOn = true →
      s.slot = 49152 →
      Takes (.canarySlot ups) s (canarySlot ups s) ∧
        (canarySlot ups s).slot = 0) ∧
    (∀ (s : State),
      Takes (.scrubPassTimeout) s (s.selfFault 4)) ∧
    (∀ (s : State) (reg : Fin 3) (f0 f1 f2 : Word),
      votedOut (s.votedCopies reg.val f0 f1 f2) = [] →
      Takes (.tmrVoteFix reg f0 f1 f2) s ((s.setReg (votedReg reg.val).1 (vote3 (s.votedCopies reg.val f0 f1 f2))).modInteg (fun x => { x with tmr := tset 0 x.tmr reg.val 0 }))) ∧
    (∀ (s : State) (reg : Fin 3) (f0 f1 f2 : Word) (i : Nat),
      votedOut (s.votedCopies reg.val f0 f1 f2) = [i] →
      tget 0 s.integ.tmr reg.val ≠ i + 1 →
      Takes (.tmrVoteFix reg f0 f1 f2) s ((s.voteSeen reg.val (vote3 (s.votedCopies reg.val f0 f1 f2))).modInteg (fun x => { x with tmr := tset 0 x.tmr reg.val (i + 1) }))) ∧
    (∀ (s : State) (reg : Fin 3) (f0 f1 f2 : Word) (i : Nat) (rest : List Nat),
      votedOut (s.votedCopies reg.val f0 f1 f2) = i :: rest →
      (rest ≠ [] ∨ tget 0 s.integ.tmr reg.val = i + 1) →
      Takes (.tmrVoteFix reg f0 f1 f2) s (((s.voteSeen reg.val (regReset (votedReg reg.val).1)).modInteg (fun x => { x with tmr := tset 0 x.tmr reg.val 0 })).selfFault 5)) ∧
    (∀ (s : State) (ini : Ini) (val : Word),
      s.mayWrite ini (scrPg + fccUcqctl) = true →
      bit (s.actBits ini (scrPg + fccUcqctl) val) 0 = true →
      Takes (.ucqPop ini val) s (((s.fieldWrite ini (scrPg + fccUcqctl) val).modInteg (fun x => { x with ucq := x.ucq.tail })).answer .ok 0)) ∧
    (∀ (s : State) (ini : Ini) (val : Word),
      s.mayWrite ini (scrPg + fccInteg) = true →
      ini = levee →
      bit val 0 = false →
      bit (s.reg (scrPg + fccInteg)) 1 = true →
      fld val 2 3 = 0 →
      Takes (.integClear ini val) s (((s.modReg (scrPg + fccInteg) (fun w => clrBit w 0)).answer .ok 0).inhibitEnd s)) ∧
    (∀ (s : State) (ini : Ini) (val : Word),
      s.mayWrite ini (capPg + fccCapctrl) = true →
      bit (s.actBits ini (capPg + fccCapctrl) val) 0 = true →
      bit (s.actBits ini (capPg + fccCapctrl) val) 1 = false →
      (s.fieldWrite ini (capPg + fccCapctrl) val).capState = 0 →
      Takes (.captureArm ini val) s (((s.fieldWrite ini (capPg + fccCapctrl) val).capCtrl (s.actBits ini (capPg + fccCapctrl) val)).answer .ok 0)) ∧
    (∀ (s : State) (ini : Ini) (val : Word),
      s.mayWrite ini (capPg + fccCapctrl) = true →
      bit (s.actBits ini (capPg + fccCapctrl) val) 0 = false →
      bit (s.actBits ini (capPg + fccCapctrl) val) 1 = true →
      (s.fieldWrite ini (capPg + fccCapctrl) val).capState = 1 →
      Takes (.captureCancel ini val) s (((s.fieldWrite ini (capPg + fccCapctrl) val).captureEnd 6).answer .ok 0)) ∧
    (∀ (s : State),
      s.capState = 1 →
      (s.rgn s.integ.capAnchor).st = .run →
      s.integ.capMatch = none →
      Takes (.anchorFreeze) s (((s.freeze s.integ.capAnchor).setReg64 (capPg + fccCapat) (s.rgn s.integ.capAnchor).cyc.toNat).capProgress)) ∧
    (∀ (s : State) (r : Region),
      s.capState = 2 →
      bit s.integ.capRgn r.val = true →
      (s.rgn r.val).st = .run →
      Takes (.regionFreeze r) s ((s.freeze r.val).capProgress)) ∧
    (∀ (s : State),
      s.capState = 3 →
      s.captureOpen = true →
      Takes (.captureDone) s ((s.writeSections (rgnList s.integ.capRgn).length).captureEnd 0)) ∧
    (∀ (s : State),
      s.probeAuth = false →
      Takes (.probeAuthFall) s ((List.range 16).foldl (fun u k => u.modReg (page .trc 1 + trcPrb + 4 * k) (fun w => clrBit w 0)) s))

/-- Each instruction of a media program takes place for the descriptor that stands at it with the bus free for its LUN. (R199, R200, R202, R203, R204, R205, R206, R207, R216.) -/
def Obligations.MediaProgramStepsComplete : Prop :=
    (∀ (s : State) (m : MedCh) (l : Lun) (d : MedDesc) (u : State),
      (s.medch m.val).pool.find? (fun d => d.lun == l.val) = some d →
      d.started = false →
      s.retrainDue m.val d.ce = false →
      d.abort = false →
      (s.medch m.val).training = false →
      s.mgd.stop = false →
      s.mediaClock m.val = true →
      (s.modDesc m.val (fun e => e.lun == l.val) (fun e => { e with started := true, pg := s.medc.active, pc := e.prog, key := if d.enc = true then tget none s.medc.keys d.keyslot else none })).startStatus m.val d = (none, u) →
      Takes (.descriptorStart m l) s (u.medBoundary m.val l.val)) ∧
    (∀ (s : State) (m : MedCh) (l : Lun) (d : MedDesc),
      s.atInstr m.val l.val 0x01 [.ready, .entry] = some d →
      bit (s.medInstr d) 16 = false →
      Takes (.medCmd m l) s ((s.drive m.val l.val [.cmd (BitVec.ofNat 8 (fld (s.medInstr d) 8 8))]).medNext m.val l.val)) ∧
    (∀ (s : State) (m : MedCh) (l : Lun) (d : MedDesc) (e : Nat),
      s.atInstr m.val l.val 0x01 [.ready, .entry] = some d →
      bit (s.medInstr d) 16 = true →
      d.class = 1 ∨ d.class = 2 →
      s.tornFree = some e →
      d.abort = false →
      Takes (.medCmd m l) s (((s.drive m.val l.val []).tornIssue e m.val d).modRun m.val l.val (fun x => { x with phase := .ack, entry := some e }))) ∧
    (∀ (s : State) (m : MedCh) (l : Lun) (d : MedDesc) (e : Nat),
      s.running m.val l.val = some d →
      d.entry = some e →
      d.phase = .ack →
      s.mgd.stop = false →
      d.abort = false →
      s.inhibit m.val = false →
      s.medEn m.val = true →
      Takes (.tornLogAck m l) s ((((s.drive m.val l.val [.cmd (BitVec.ofNat 8 (fld (s.medInstr d) 8 8))]).modRun m.val l.val (fun x => { x with driven := true })).modLun m.val l.val (fun x => { x with busy := true })).medNext m.val l.val)) ∧
    (∀ (s : State) (m : MedCh) (l : Lun) (d : MedDesc),
      s.atInstr m.val l.val 0x02 [.ready] = some d →
      fld (s.medInstr d) 19 3 = 0 →
      Takes (.medAddr m l) s ((s.drive m.val l.val [.addr ((bytesOf 2 0 ++ bytesOf 4 (s.planeRow m.val d)).take (fld (s.medInstr d) 16 3))]).medNext m.val l.val)) ∧
    (∀ (s : State) (m : MedCh) (l : Lun) (d : MedDesc),
      s.atInstr m.val l.val 0x03 [.ready] = some d →
      Takes (.medWait m l) s (((s.drive m.val l.val []).modRun m.val l.val (fun x => { x with phase := .wait })).yieldBus m.val (bit (s.medInstr d) 16))) ∧
    (∀ (s : State) (m : MedCh) (l : Lun) (d : MedDesc),
      s.running m.val l.val = some d →
      d.phase = .wait →
      s.mgd.stop = false →
      Takes (.medWaitDone m l) s (s.medNext m.val l.val)) ∧
    (∀ (s : State) (m : MedCh) (l : Lun) (d : MedDesc),
      s.atInstr m.val l.val 0x04 [.ready] = some d →
      Takes (.medPoll m l) s ((((s.drive m.val l.val [.cmd (BitVec.ofNat 8 (fld (s.medInstr d) 8 8))]).modRun m.val l.val (fun x => { x with phase := .poll })).modLun m.val l.val (fun x => { x with busy := true })).yieldBus m.val (bit (s.medInstr d) 48))) ∧
    (∀ (s : State) (m : MedCh) (l : Lun) (status : Byte) (us : BitVec 16) (d : MedDesc),
      s.running m.val l.val = some d →
      d.phase = .poll →
      s.mgd.stop = false →
      Nat.land status.toNat (fld (s.medInstr d) 16 8) ≠ fld (s.medInstr d) 16 8 →
      Takes (.pollSample m l status us) s (s.modLun m.val l.val (fun x => { x with status := status }))) ∧
    (∀ (s : State) (m : MedCh) (l : Lun) (status : Byte) (us : BitVec 16) (d : MedDesc),
      s.running m.val l.val = some d →
      d.phase = .poll →
      s.mgd.stop = false →
      Nat.land status.toNat (fld (s.medInstr d) 16 8) = fld (s.medInstr d) 16 8 →
      Nat.land status.toNat (fld (s.medInstr d) 24 8) = 0 →
      d.abort = false →
      d.entry = none →
      (d.class ≠ 2 ∨ d.driven = false) →
      Takes (.pollSample m l status us) s (((s.modRun m.val l.val (fun x => { x with entry := none, driven := false, us := us.toNat, st := status })).modLun m.val l.val (fun x =>
        { x with busy := false, status := status, ops := x.ops + 1, last := us.toNat, longest := max x.longest us.toNat })).medNext m.val l.val)) ∧
    (∀ (s : State) (m : MedCh) (l : Lun) (status : Byte) (us : BitVec 16) (d : MedDesc),
      s.running m.val l.val = some d →
      d.phase = .poll →
      s.mgd.stop = false →
      Nat.land status.toNat (fld (s.medInstr d) 16 8) = fld (s.medInstr d) 16 8 →
      Nat.land status.toNat (fld (s.medInstr d) 24 8) = 0 →
      d.abort = false →
      d.entry = none →
      d.class = 2 →
      d.driven = true →
      Takes (.pollSample m l status us) s ((((s.modRun m.val l.val (fun x => { x with entry := none, driven := false, us := us.toNat, st := status })).modLun m.val l.val (fun x =>
        { x with busy := false, status := status, ops := x.ops + 1, last := us.toNat, longest := max x.longest us.toNat })).eraseTier m.val d).medNext m.val l.val)) ∧
    (∀ (s : State) (m : MedCh) (l : Lun) (us : BitVec 16) (d : MedDesc),
      s.running m.val l.val = some d →
      d.phase = .poll →
      s.mgd.stop = false →
      d.entry = none →
      Takes (.pollTimeout m l us) s ((s.modRun m.val l.val (fun x => { x with entry := none, driven := false, us := us.toNat, st := (s.lunSt m.val l.val).status })).medFinish m.val l.val 2)) ∧
    (∀ (s : State) (m : MedCh) (l : Lun) (page : List Byte) (d : MedDesc),
      s.atInstr m.val l.val 0x05 [.ready, .din] = some d →
      d.phase = .ready →
      d.guard = true →
      Takes (.medDin m l page) s (((s.drive m.val l.val []).modRun m.val l.val (fun x => { x with phase := .mgd, page := sliceBytes page 0 18944 })).queueMgd m.val l.val)) ∧
    (∀ (s : State) (m : MedCh) (l : Lun) (page : List Byte) (d : MedDesc),
      s.atInstr m.val l.val 0x05 [.ready, .din] = some d →
      d.phase = .ready →
      d.guard = false →
      Takes (.medDin m l page) s (medDin m.val l.val page s)) ∧
    (∀ (s : State) (m : MedCh) (l : Lun) (d : MedDesc),
      s.atInstr m.val l.val 0x06 [.ready, .dout] = some d →
      d.guard = true →
      Takes (.medDout m l) s (((s.drive m.val l.val []).modRun m.val l.val (fun x => { x with phase := .mgd })).queueMgd m.val l.val)) ∧
    (∀ (s : State) (m : MedCh) (l : Lun) (d : MedDesc) (u : State) (part : List Byte),
      s.atInstr m.val l.val 0x06 [.ready, .dout] = some d →
      d.guard = false →
      sqEn (s.sqCtl d.queue) = true →
      sqPush (s.sqCtl d.queue) = false →
      State.doutTake d.queue 1024 (s.drive m.val l.val []) d.pkts d.part = (u, [], part) →
      Takes (.medDout m l) s (u.modRun m.val l.val (fun x => { x with phase := .dout, pkts := [], part := part }))) ∧
    (∀ (s : State) (m : MedCh) (l : Lun) (d : MedDesc),
      s.atInstr m.val l.val 0x07 [.ready] = some d →
      (s.lunSt m.val l.val).applied = some (s.readOffsets m.val d) →
      Takes (.medRlset m l) s (((s.drive m.val l.val []).modLun m.val l.val (fun x => { x with applied := some (s.readOffsets m.val d) })).medNext m.val l.val)) ∧
    (∀ (s : State) (m : MedCh) (l : Lun) (d : MedDesc),
      s.atInstr m.val l.val 0x08 [.ready] = some d →
      Takes (.medSetf m l) s ((s.drive m.val l.val [.feat (BitVec.ofNat 8 (fld (s.medInstr d) 8 8)) (bytesOf 4 (fld (s.medInstr d) 16 32))]).medNext m.val l.val)) ∧
    (∀ (s : State) (m : MedCh) (l : Lun) (d : MedDesc),
      s.atInstr m.val l.val 0x09 [.ready] = some d →
      Takes (.medLoop m l) s (((s.drive m.val l.val []).modRun m.val l.val (fun x => { x with plane := 0, loop := some (d.pc + 1) })).medNext m.val l.val)) ∧
    (∀ (s : State) (m : MedCh) (l : Lun) (d : MedDesc) (start : Nat),
      s.atInstr m.val l.val 0x0A [.ready] = some d →
      d.loop = some start →
      d.plane + 1 < d.planes →
      Takes (.medEndl m l) s (((s.drive m.val l.val []).modRun m.val l.val (fun x => { x with plane := d.plane + 1, pc := start })).medBoundary m.val l.val)) ∧
    (∀ (s : State) (m : MedCh) (l : Lun) (d : MedDesc) (start : Nat),
      s.atInstr m.val l.val 0x0A [.ready] = some d →
      d.loop = some start →
      d.planes ≤ d.plane + 1 →
      Takes (.medEndl m l) s (((s.drive m.val l.val []).modRun m.val l.val (fun x => { x with plane := 0, loop := none })).medNext m.val l.val)) ∧
    (∀ (s : State) (m : MedCh) (l : Lun) (d : MedDesc),
      s.atInstr m.val l.val 0x0F [.ready] = some d →
      Takes (.medEnd m l) s (s.medFinish m.val l.val (fld (s.medInstr d) 8 8))) ∧
    (∀ (s : State) (m : MedCh) (l : Lun) (d : MedDesc) (rest : List (Nat × Nat)),
      s.running m.val l.val = some d →
      s.mgd.queue = (m.val, l.val) :: rest →
      d.phase = .mgd →
      fld (s.medInstr d) 0 8 ≠ 0x05 →
      s.mgd.stop = false →
      s.medEn m.val = true →
      Takes (.mgdDecode m l) s (({ s with mgd := { s.mgd with queue := rest } }).mgdProgram m.val l.val d))

/-- Each command of a media channel beside the program steps takes place. (R198, R202, R208, R210, R212, R213, R214, R215, R220.) -/
def Obligations.MediaCommandsComplete : Prop :=
    (∀ (s : State) (ini : Ini) (m : MedCh) (val : Word),
      s.mayWrite ini (medPage m.val + medCmdgo) = true →
      bit (s.actBits ini (medPage m.val + medCmdgo) val) 0 = true →
      ((s.fieldWrite ini (medPage m.val + medCmdgo) val).medch m.val).pool.length < 64 →
      bit ((s.fieldWrite ini (medPage m.val + medCmdgo) val).reg (medPage m.val + medCtrl)) 0 = true →
      Takes (.descriptorSubmit ini m val) s (((s.fieldWrite ini (medPage m.val + medCmdgo) val).submit m.val { words := (List.range 8).map (fun i => (s.fieldWrite ini (medPage m.val + medCmdgo) val).reg (medPage m.val + medCmd + 4 * i)) }).answer .ok 0)) ∧
    (∀ (s : State) (ini : Ini) (m : MedCh) (val : Word),
      s.mayWrite ini (medPage m.val + medCtrl) = true →
      bit (s.actBits ini (medPage m.val + medCtrl) val) 1 = true →
      Takes (.medAbort ini m val) s (((s.fieldWrite ini (medPage m.val + medCtrl) val).medCtrl m.val (s.actBits ini (medPage m.val + medCtrl) val)).answer .ok 0)) ∧
    (∀ (s : State) (ini : Ini) (m : MedCh) (val : Word),
      s.passesWhole ini (medPage m.val + medIfcfg) = true →
      ((s.medch m.val).pool.any (fun d => d.started) || !(medRates (fld val 0 2)).contains (fld val 4 12)) = false →
      Takes (.ifcfgWrite ini m val) s (((s.setReg (medPage m.val + medIfcfg) (val &&& 0xFFF3)).pllSettle.modMed m.val (fun x => { x with training := true })).answer .ok 0)) ∧
    (∀ (s : State) (m : MedCh) (codes : List Word),
      (s.medch m.val).training = true →
      s.mediaClock m.val = true →
      codes = [] →
      Takes (.trainingDone m codes) s (((s.trainDrive m.val []).modMed m.val (fun x => { x with training := false })).raise (medPage m.val) 3)) ∧
    (∀ (s : State) (m : MedCh) (codes : List Word) (c : Word),
      (s.medch m.val).training = true →
      s.mediaClock m.val = true →
      codes = [c] →
      bit c 31 = false →
      Takes (.trainingDone m codes) s ((((s.trainDrive m.val [0]).trained m.val 0 c).modMed m.val (fun x => { x with training := false })).raise (medPage m.val) 3)) ∧
    (∀ (s : State) (m : MedCh) (ce : Fin 8) (cause : RetrainCause) (code : Word),
      (cause = .request ∧ bit (s.medch m.val).retrain ce.val = true) ∨ (cause = .temperature ∧ s.tempDue m.val ce.val = true) →
      (s.medch m.val).training = false →
      (s.medch m.val).pool.any (fun d => d.started && d.ce == ce.val) = false →
      s.mgd.stop = false →
      s.mediaClock m.val = true →
      Takes (.medRetrain m ce cause code) s ((s.trained m.val ce.val code).modMed m.val (fun x => { x with cyc := retrainCycles ce.val }))) ∧
    (∀ (s : State) (m : MedCh) (u : State) (e : List Byte),
      bit (s.reg (medPage m.val + medPatctl)) 0 = true →
      0 < fld (s.reg (medPage m.val + medPatctl)) 16 16 →
      (s.medch m.val).pool.any (fun d => d.patrol && !d.started) = false →
      (s.medch m.val).pool.length < 64 →
      s.memRead (medIni m.val) ((s.reg64 (medPage m.val + medPatbase) + 16 * fld (s.reg (medPage m.val + medPatpos)) 0 16) % 2 ^ 48) 16 = (u, .ok, e) →
      Takes (.patrolTick m) s (patrolTick m.val s) ∧
        ((patrolTick m.val s).medch m.val).pool.length = (u.medch m.val).pool.length + 1) ∧
    (∀ (s : State) (m : MedCh),
      s.inhibit m.val = true →
      Takes (.inhibitAssert m) s (s.modReg (page .lve 0 + lveWinh) (fun w => setBit w m.val))) ∧
    (∀ (s : State) (m : MedCh),
      s.inhibit m.val = false →
      Takes (.inhibitAssert m) s ((s.modReg (page .lve 0 + lveWinh) (fun w => setBit w m.val)).modMed m.val (fun x => { x with wpLow := false }))) ∧
    (∀ (s : State) (m : MedCh) (late : Bool),
      s.inhibit m.val = true →
      late = true ∨ (s.medch m.val).committed = false →
      Takes (.wpAssert m late) s (s.modMed m.val (fun x => { x with wpLow := true }))) ∧
    (∀ (s : State) (ini : Ini) (val : Word),
      s.mayWrite ini (medcPg + medPlctl) = true →
      bit (s.actBits ini (medcPg + medPlctl) val) 31 = true →
      s.pstatWord = 0 →
      s.medc.load = none →
      Takes (.programLoad ini val) s ((({ (s.fieldWrite ini (medcPg + medPlctl) val) with medc := { (s.fieldWrite ini (medcPg + medPlctl) val).medc with load := some (!(s.fieldWrite ini (medcPg + medPlctl) val).medc.active, fld (s.actBits ini (medcPg + medPlctl) val) 0 10, fld (s.actBits ini (medcPg + medPlctl) val) 10 10 + 1, (s.fieldWrite ini (medcPg + medPlctl) val).reg64 (medcPg + medPlsrc)) } }).modReg (medcPg + medPlstat) (fun w => setBit w 0)).answer .ok 0)) ∧
    (∀ (s : State)  (pg : Bool) (first n src : Nat),
      s.medc.load = some (pg, first, n, src) →
      n = 0 →
      Takes (.programLoadDone) s (({ s with medc := { s.medc with load := none } }).modReg (medcPg + medPlstat) (fun w => clrBit w 0))) ∧
    (∀ (s : State)  (pg : Bool) (first n src : Nat) (u : State) (st : Status) (l : List Byte),
      s.medc.load = some (pg, first, n, src) →
      s.memRead 0x35 (src / 8 * 8) (8 * n) = (u, st, l) →
      st ≠ .drowse →
      Takes (.programLoadDone) s (programLoadDone s) ∧
        (programLoadDone s).medc.load = none) ∧
    (∀ (s : State) (ini : Ini) (val : Word),
      s.mayWrite ini (medcPg + medPctrl) = true →
      bit (s.actBits ini (medcPg + medPctrl) val) 1 = true →
      Takes (.programSwap ini val) s (({ (s.fieldWrite ini (medcPg + medPctrl) val) with medc := { (s.fieldWrite ini (medcPg + medPctrl) val).medc with active := !(s.fieldWrite ini (medcPg + medPctrl) val).medc.active } }).answer .ok 0)) ∧
    (∀ (s : State) (ini : Ini) (val : Word),
      ini = 0x34 →
      Takes (.keyInstall ini val) s (keyInstall ini val s) ∧
        tget none (keyInstall ini val s).medc.keys s.medc.slot = some (BitVec.ofNat 512 (ofWords ((List.range 15).map (fun i => tget 0 s.medc.stage i) ++ [val])))) ∧
    (∀ (s : State) (ini : Ini) (val : Word),
      ini = 0x34 →
      bit val 8 = true →
      Takes (.keySlotErase ini val) s (keySlotErase ini val s) ∧
        tget none (keySlotErase ini val s).medc.keys (fld val 0 6) = none) ∧
    (∀ (s : State) (e : Fin 64) (status : Byte) (us : BitVec 16),
      s.mgd.defer = true →
      (s.tornEnt e.val).open = true →
      bit status 6 = true →
      Takes (.mgdPoll e status us) s (((s.modReg (page .mgd 0 + mgdDefer) (fun w => setFld w 0 16 us.toNat)).modTorn e.val (fun x => { x with state := if bit status 0 then .pollFail else .pollOk, st := status })).deferEnd)) ∧
    (∀ (s : State),
      s.mgd.defer = true →
      Takes (.deferralTimeout) s (((s.tornOpen.foldl (fun u e => u.modTorn e (fun x => { x with state := .timeout })) s).modReg (page .mgd 0 + mgdDefer) (fun w => setBit (setFld w 0 16 32000) 23)).deferEnd)) ∧
    (∀ (s : State) (ini : Ini) (val : Word),
      s.mayWrite ini (page .aon 0 + aonTlctrl) = true →
      bit (s.actBits ini (page .aon 0 + aonTlctrl) val) 0 = true →
      ((s.fieldWrite ini (page .aon 0 + aonTlctrl) val).tornEnt (fld ((s.fieldWrite ini (page .aon 0 + aonTlctrl) val).reg (page .aon 0 + aonTlsel)) 0 6)).live = false →
      Takes (.tornLogFree ini val) s (((s.fieldWrite ini (page .aon 0 + aonTlctrl) val).modTorn (fld ((s.fieldWrite ini (page .aon 0 + aonTlctrl) val).reg (page .aon 0 + aonTlsel)) 0 6) (fun x => { x with state := .free })).answer .ok 0))

/-- Each command of a stream queue takes place. (R172, R176, R177, R179, R184, R185, R187, R188, R189.) -/
def Obligations.QueueCommandsComplete : Prop :=
    (∀ (s : State) (q : Queue) (src : Ini) (cw : BitVec 16) (data : BitVec 512),
      s.ocn.txns.find? (fun x => x.op == .qwrite && x.stage == .data && x.rsv.queue.val == q.val && x.rsv.src == src) = none →
      s.queueTakes q.val src = true →
      cwItems cw ≤ itemLimit (s.sqCtl q.val) →
      Takes (.queueWriteFlit q src cw data) s ((s.queuePort q.val).queueCycle q.val { (s.queuePort q.val).queue q.val with todo := flitActs (s.sqCtl q.val) src cw data })) ∧
    (∀ (s : State) (q : Queue) (src : Ini) (cw : BitVec 16) (data : BitVec 512),
      s.ocn.txns.find? (fun x => x.op == .qwrite && x.stage == .data && x.rsv.queue.val == q.val && x.rsv.src == src) = none →
      sqEn (s.sqCtl q.val) = false →
      Takes (.queueWriteFlit q src cw data) s (s.raise (sqPage q.val) 8)) ∧
    (∀ (s : State) (q : Queue) (p : QPkt),
      (s.queue q.val).closing = [p] →
      (s.queue q.val).todo = [] →
      Takes (.lengthSlotWrite q) s ((((s.queueStep q.val { s.queue q.val with closing := [], pkts := (s.queue q.val).pkts ++ [p.withLen] }).raise (sqPage q.val) 0).countUp (sqPage q.val + sqLost) 16 16 0).flushEnd q.val)) ∧
    (∀ (s : State) (q : Queue),
      (s.queue q.val).closing ≠ [] →
      Takes (.lengthSlotWrite q) s (s.queueCycle q.val (s.queue q.val))) ∧
    (∀ (s : State) (q : Queue),
      (s.queue q.val).maySwap = true →
      Takes (.bankSwap q) s (s.queueStep q.val { s.queue q.val with fb := !(s.queue q.val).fb })) ∧
    (∀ (s : State) (q : Queue) (nm1 : Fin 8),
      sqEn (s.sqCtl q.val) = true →
      sqPush (s.sqCtl q.val) = false →
      s.pendingRead q.val = none →
      Takes (.queueRead q nm1) s (s.sendWords q.val (nm1.val + 1)).1) ∧
    (∀ (s : State) (q : Queue) (nm1 : Fin 8) (x : Txn) (u : State) (l : List (Option (Line × BitVec 16))),
      sqEn (s.sqCtl q.val) = true →
      sqPush (s.sqCtl q.val) = false →
      s.pendingRead q.val = some x →
      x.rsv.nfm1 = nm1 →
      s.sendWords q.val (nm1.val + 1) = (u, l) →
      Takes (.queueRead q nm1) s (u.modTxn x.key (fun z => { z.done .ok with data := l.map (fun w => (w.getD (0, emptyTsf)).1), tsf := l.map (fun w => (w.getD (0, emptyTsf)).2) }))) ∧
    (∀ (s : State) (q : Queue) (nm1 : Fin 8),
      sqEn (s.sqCtl q.val) = true →
      sqPush (s.sqCtl q.val) = true →
      nm1.val + 1 ≤ (s.queue q.val).pushable →
      (s.queue q.val).retry = 0 →
      Takes (.queuePush q nm1) s ((s.pushReserve q.val (nm1.val + 1) (s.queue q.val).resv).setQueue q.val { s.queue q.val with resv := (s.queue q.val).resv + (nm1.val + 1) })) ∧
    (∀ (s : State) (q : Queue),
      sqEn (s.sqCtl q.val) = true →
      sqPush (s.sqCtl q.val) = true →
      0 < (s.queue q.val).retry →
      Takes (.queuePushRetry q) s ((s.pushReserve q.val (min 8 (s.queue q.val).retry) (s.queue q.val).resv).setQueue q.val { s.queue q.val with resv := (s.queue q.val).resv + min 8 (s.queue q.val).retry, retry := (s.queue q.val).retry - min 8 (s.queue q.val).retry })) ∧
    (∀ (s : State) (ini : Ini) (q : Queue) (val : Word),
      s.passesWhole ini (sqPage q.val + sqCtrl) = true →
      s.locked (sqPage q.val + sqCtrl) = false →
      sqEn (s.reg (sqPage q.val + sqCtrl)) = false →
      (sqPush val = false ∨ sqDreg val ≤ 23) →
      bit val 6 = false →
      bit val 7 = false →
      Takes (.sqCtrlWrite ini q val) s (((s.setReg (sqPage q.val + sqCtrl) ((val &&& sqCfgMask) ||| (val &&& 1))).paceAgain q.val).answer .ok 0)) ∧
    (∀ (s : State) (ini : Ini) (q : Queue) (val : Word),
      s.passesWhole ini (sqPage q.val + sqCtrl) = true →
      s.locked (sqPage q.val + sqCtrl) = false →
      sqEn (s.reg (sqPage q.val + sqCtrl)) = true →
      (s.reg (sqPage q.val + sqCtrl)) &&& sqCfgMask = val &&& sqCfgMask →
      bit val 6 = true →
      bit val 7 = false →
      Takes (.sqFlush ini q val) s (((((s.setReg (sqPage q.val + sqCtrl) (((s.reg (sqPage q.val + sqCtrl)) &&& sqCfgMask) ||| (val &&& 1))).paceAgain q.val).setQueue q.val (((s.setReg (sqPage q.val + sqCtrl) (((s.reg (sqPage q.val + sqCtrl)) &&& sqCfgMask) ||| (val &&& 1))).paceAgain q.val).queue q.val).cutAll).flushEnd q.val).answer .ok 0)) ∧
    (∀ (s : State) (ini : Ini) (q : Queue) (val : Word),
      s.passesWhole ini (sqPage q.val + sqCtrl) = true →
      s.locked (sqPage q.val + sqCtrl) = false →
      sqEn (s.reg (sqPage q.val + sqCtrl)) = true →
      (s.reg (sqPage q.val + sqCtrl)) &&& sqCfgMask = val &&& sqCfgMask →
      bit val 7 = true →
      Takes (.sqClear ini q val) s ((((s.setReg (sqPage q.val + sqCtrl) (((s.reg (sqPage q.val + sqCtrl)) &&& sqCfgMask) ||| (val &&& 1))).paceAgain q.val).setQueue q.val ((((s.setReg (sqPage q.val + sqCtrl) (((s.reg (sqPage q.val + sqCtrl)) &&& sqCfgMask) ||| (val &&& 1))).paceAgain q.val).queue q.val).cleared (sqPush ((s.reg (sqPage q.val + sqCtrl)) &&& sqCfgMask)))).answer .ok 0)) ∧
    (∀ (s : State) (q : Queue) (p : QPkt) (rest : List QPkt),
      (s.queue q.val).pkts = p :: rest →
      p.cut = true →
      p.nread = 0 →
      Takes (.flushDiscard q) s (((s.queueStep q.val { s.queue q.val with pkts := rest }).countUp (sqPage q.val + sqLost) 16 16 1).flushEnd q.val)) ∧
    (∀ (s : State) (q : Queue) (l : List QPkt),
      s.flitWaits q.val = true →
      sqSpill (s.sqCtl q.val) = true →
      sqEn (s.sqCtl q.val) = true →
      (s.queue q.val).full = true →
      spillFrom (s.queue q.val).pkts = some l →
      Takes (.spillDiscard q) s ((((s.queueStep q.val { s.queue q.val with pkts := l }).countUp (sqPage q.val + sqLost) 0 16 1).raise (sqPage q.val) 6).flushEnd q.val)) ∧
    (∀ (s : State) (ini : Ini) (q : Queue) (val : Word),
      s.passesWhole ini (sqPage q.val + sqWeir) = true →
      fld val 16 10 < fld val 0 10 →
      fld val 0 10 ≤ 512 →
      Takes (.weirWrite ini q val) s (((s.setReg (sqPage q.val + sqWeir) (val &&& 0x03FF03FF)).paceAgain q.val).answer .ok 0))

/-- In a running region whose output is taken, each packet of a codec personality has its effect and what it forms goes to the queue of the headgate. (R229, R231, R233, R234, R235, R236, R237, R240, R241, R504, R505.) -/
def Obligations.CodecCommandsComplete : Prop :=
    (∀ (s : State) (r : Region) (lw : Word) (body : List Byte),
      regionMoves (s.rgn r.val) = true →
      (s.rgn r.val).st = .run →
      (s.cod r.val).outs = [] →
      s.tagLoading r.val (lwTag lw) = false →
      Takes (.hdecCodeword r lw body) s (State.codFlush r.val 64 (s.hdec r.val lw body))) ∧
    (∀ (s : State) (r : Region) (lw0 lw1 lw2 : Word) (b0 b1 b2 : List Byte),
      regionMoves (s.rgn r.val) = true →
      (s.rgn r.val).st = .run →
      (s.cod r.val).outs = [] →
      s.tagLoading r.val (lwTag lw0) = false →
      Takes (.sdecSoftSet r lw0 lw1 lw2 b0 b1 b2) s (State.codFlush r.val 64 (s.sdec r.val lw0 lw1 lw2 b0 b1 b2))) ∧
    (∀ (s : State) (r : Region) (lw w1 w2 : Word),
      regionMoves (s.rgn r.val) = true →
      (s.rgn r.val).st = .run →
      (s.cod r.val).outs = [] →
      s.tagLoading r.val (lwTag lw) = false →
      Takes (.setmode r lw w1 w2) s (State.codFlush r.val 64 (s.control r.val lw w1 w2))) ∧
    (∀ (s : State) (r : Region) (lw w1 w2 : Word),
      regionMoves (s.rgn r.val) = true →
      (s.rgn r.val).st = .run →
      (s.cod r.val).outs = [] →
      s.tagLoading r.val (lwTag lw) = false →
      Takes (.resetseq r lw w1 w2) s (State.codFlush r.val 64 (s.control r.val lw w1 w2))) ∧
    (∀ (s : State) (r : Region) (lw : Word) (body : List Byte),
      regionMoves (s.rgn r.val) = true →
      (s.rgn r.val).st = .run →
      (s.cod r.val).outs = [] →
      s.tagLoading r.val (lwTag lw) = false →
      lwLen lw = 4112 →
      lwTag lw < 4 →
      Takes (.intakeCodeword r lw body) s (State.codFlush r.val 64 (s.emit r.val 0 (lwTag lw) (lwFlags lw) (sliceBytes body 0 4108 ++ bytesOf 4 (crc32c (sliceBytes body 0 4096)))))) ∧
    (∀ (s : State) (r : Region) (lw : Word) (body : List Byte),
      regionMoves (s.rgn r.val) = true →
      (s.rgn r.val).st = .run →
      (s.cod r.val).outs = [] →
      s.tagLoading r.val (lwTag lw) = false →
      lwLen lw = 4112 →
      lwTag lw < 4 →
      (s.cod r.val).encHeld = [] →
      (s.cod r.val).encNext = lwFlags lw % 4 →
      Takes (.encCodeword r lw body) s (State.codFlush r.val 64 (((s.modCod r.val (fun c => { c with encHeld := c.encHeld ++ [(lwFlags lw % 4, some (lwTag lw, sliceBytes body 0 4112 ++ ldpcParity (lwTag lw) (sliceBytes body 0 4112)))] })).modCod r.val (fun x => { x with encNext := (lwFlags lw % 4 + 1) % 4, encHeld := x.encHeld.erase (lwFlags lw % 4, some (lwTag lw, sliceBytes body 0 4112 ++ ldpcParity (lwTag lw) (sliceBytes body 0 4112))) })).emit r.val 0 (lwTag lw) (lwFlags lw % 4) (sliceBytes body 0 4112 ++ ldpcParity (lwTag lw) (sliceBytes body 0 4112))))) ∧
    (∀ (s : State) (r : Region) (lw : Word) (body : List Byte),
      regionMoves (s.rgn r.val) = true →
      (s.rgn r.val).st = .run →
      (s.cod r.val).outs = [] →
      s.tagLoading r.val (lwTag lw) = false →
      lwLen lw = 4112 →
      lwTag lw < 4 →
      (s.cod r.val).encHeld = [] →
      (s.cod r.val).encNext ≠ lwFlags lw % 4 →
      Takes (.encCodeword r lw body) s (State.codFlush r.val 64 ((s.modCod r.val (fun c => { c with encHeld := c.encHeld ++ [(lwFlags lw % 4, some (lwTag lw, sliceBytes body 0 4112 ++ ldpcParity (lwTag lw) (sliceBytes body 0 4112)))] }))))) ∧
    (∀ (s : State) (r : Region) (lw : Word) (body : List Byte),
      regionMoves (s.rgn r.val) = true →
      (s.rgn r.val).st = .run →
      (s.cod r.val).outs = [] →
      s.tagLoading r.val (lwTag lw) = false →
      nfld (lwFlags lw) 2 2 = 0 →
      crcAgrees body = true →
      Takes (.operatorCrcCheck r lw body) s (State.codFlush r.val 64 (s))) ∧
    (∀ (s : State) (r : Region) (lw : Word) (body : List Byte),
      regionMoves (s.rgn r.val) = true →
      (s.rgn r.val).st = .run →
      (s.cod r.val).outs = [] →
      s.tagLoading r.val (lwTag lw) = false →
      nfld (lwFlags lw) 2 2 = 0 →
      crcAgrees body = false →
      Takes (.operatorCrcCheck r lw body) s (State.codFlush r.val 64 (s.emitStatus r.val (operatorRes lw body 1) (2 ^ 17)))) ∧
    (∀ (s : State) (r : Region) (lw : Word) (body : List Byte),
      regionMoves (s.rgn r.val) = true →
      (s.rgn r.val).st = .run →
      (s.cod r.val).outs = [] →
      s.tagLoading r.val (lwTag lw) = false →
      nfld (lwFlags lw) 2 2 ≠ 0 →
      Takes (.operatorCrcCheck r lw body) s (State.codFlush r.val 64 (s.emit r.val 1 (lwTag lw) (lwFlags lw) (sliceBytes body 0 (lwLen lw))))) ∧
    (∀ (s : State) (r : Region) (block : List Byte) (l : List Byte),
      regionMoves (s.rgn r.val) = true →
      (s.rgn r.val).st = .run →
      (s.cod r.val).outs = [] →
      s.tagLoading r.val 0 = false →
      lzdBytes block = some l →
      Takes (.lzdBlock r block) s (State.codFlush r.val 64 (s.emitBytes r.val l))) ∧
    (∀ (s : State) (r : Region) (block : List Byte) (n : Nat) (u : State),
      regionMoves (s.rgn r.val) = true →
      (s.rgn r.val).st = .run →
      (s.cod r.val).outs = [] →
      s.tagLoading r.val 0 = false →
      1 ≤ block.length →
      block.length ≤ 65536 →
      s.lzeClen (lzeTokens block) = (n, u) →
      Takes (.lzeBlock r block) s (State.codFlush r.val 64 (u.emitBytes r.val (bytesOf 2 n ++ bytesOf 2 (block.length - 1) ++ bytesOf 4 (crc32c block) ++ lzeTokens block)))) ∧
    (∀ (s : State) (r : Region) (lw w1 w2 : Word) (members : List (List Byte)),
      regionMoves (s.rgn r.val) = true →
      (s.rgn r.val).st = .run →
      (s.cod r.val).outs = [] →
      s.tagLoading r.val (lwTag lw) = false →
      lwLen lw = 8 →
      fld w1 0 8 = 3 →
      bit w2 8 = false →
      3 ≤ members.length →
      members.length ≤ 15 →
      fld w2 0 4 < members.length - 1 →
      Takes (.ersRebuild r lw w1 w2 members) s (State.codFlush r.val 64 ((s.emitBytes r.val (((List.range (members.headD []).length).map (column members)).map (fun c => BitVec.ofNat 8 (rebuildOne c (members.length - 1) (fld w2 0 4))))).emitStatus r.val
        ⟨0xFF, lwFlags lw % 4, lwTag lw, 3, false, false, false, 0, 0, 0, fld w1 0 8, 0⟩ 0))) ∧
    (∀ (s : State) (r : Region) (members : List (List Byte)) (two : Bool),
      regionMoves (s.rgn r.val) = true →
      (s.rgn r.val).st = .run →
      (s.cod r.val).outs = [] →
      s.tagLoading r.val 0 = false →
      two = false →
      2 ≤ members.length →
      members.length ≤ 14 →
      members.all (fun m => m.length == (members.headD []).length) = true →
      Takes (.ersStripeParity r members two) s (State.codFlush r.val 64 (s.emitBytes r.val ((List.range (members.headD []).length).map (fun o => BitVec.ofNat 8 (stripeP (column members o))))))) ∧
    (∀ (s : State) (r : Region) (lw w1 w2 w3 w4 : Word),
      regionMoves (s.rgn r.val) = true →
      (s.rgn r.val).st = .run →
      (s.cod r.val).outs = [] →
      s.tagLoading r.val (lwTag lw) = false →
      (s.cod r.val).closeDue = false →
      lwLen lw = 16 →
      fld w1 0 8 = 0x10 →
      (s.cod r.val).preds.length < 8 →
      fld w1 14 2 ≠ 3 →
      fld w1 16 3 ≤ 5 →
      Takes (.setpred r lw w1 w2 w3 w4) s (State.codFlush r.val 64 (s.modCod r.val (fun x => { x with preds := x.preds ++ [⟨fld w1 8 6, 2 ^ fld w1 14 2, fld w1 16 3, w2.toNat⟩], ncw := w3.toNat })))) ∧
    (∀ (s : State) (r : Region) (lw w1 w2 w3 w4 : Word),
      regionMoves (s.rgn r.val) = true →
      (s.rgn r.val).st = .run →
      (s.cod r.val).outs = [] →
      s.tagLoading r.val (lwTag lw) = false →
      (s.cod r.val).closeDue = false →
      lwLen lw = 16 →
      fld w1 0 8 = 0x11 →
      Takes (.filtEnd r lw w1 w2 w3 w4) s (State.codFlush r.val 64 (s.modCod r.val (fun x => { x with final := true })))) ∧
    (∀ (s : State) (r : Region) (lw w1 w2 w3 w4 : Word),
      regionMoves (s.rgn r.val) = true →
      (s.rgn r.val).st = .run →
      (s.cod r.val).outs = [] →
      s.tagLoading r.val (lwTag lw) = false →
      (s.cod r.val).closeDue = false →
      lwLen lw = 16 →
      fld w1 0 8 = 0x12 →
      Takes (.filtClear r lw w1 w2 w3 w4) s (State.codFlush r.val 64 (s.modCod r.val (fun x => { x with preds := [], count := 0, batch := 0, total := 0, rows := [], ncw := 0 })))) ∧
    (∀ (s : State) (r : Region) (lw : Word) (body : List Byte),
      regionMoves (s.rgn r.val) = true →
      (s.rgn r.val).st = .run →
      (s.cod r.val).outs = [] →
      s.tagLoading r.val (lwTag lw) = false →
      (s.cod r.val).closeDue = false →
      nfld (lwFlags lw) 2 2 = 0 →
      crcAgrees body = true →
      Takes (.filtDecodedPacket r lw body) s (State.codFlush r.val 64 (s.modCod r.val (fun c => { c with count := c.count + 1, rows := c.rows ++ matching c.preds (sliceBytes body 0 4096), final := decide (c.count + 1 = c.ncw) })))) ∧
    (∀ (s : State) (r : Region),
      regionMoves (s.rgn r.val) = true →
      (s.rgn r.val).st = .run →
      (s.cod r.val).outs = [] →
      (s.cod r.val).closeDue = true →
      Takes (.filtBatchClose r) s (filtBatchClose r.val s))

/-- A reservation that its target serves and does not refuse is pending there and is delivered as far as it goes; data and answers reach the transaction they belong to. (R247, R249, R254, R255, R508.) -/
def Obligations.NetworkArrivalsComplete : Prop :=
    (∀ (s : State) (x : Rsv) (y : Txn),
      s.arriving .read x = some y →
      s.servedAt .read y.rsv = true →
      s.refuses .read y.rsv = none →
      Takes (.ocnRead x) s (State.deliverAll y.rsv.ini.val y.rsv.tgt.val (s.ocn.txns.length + 1) (s.setTxns (s.ocn.txns.filter (fun z => z.key != y.key) ++ [{ y with stage := .pending }])))) ∧
    (∀ (s : State) (x : Rsv) (y : Txn),
      s.arriving .write x = some y →
      s.servedAt .write y.rsv = true →
      s.refuses .write y.rsv = none →
      Takes (.ocnWrite x) s (State.deliverAll y.rsv.ini.val y.rsv.tgt.val (s.ocn.txns.length + 1) (s.setTxns (s.ocn.txns.filter (fun z => z.key != y.key) ++ [{ y with stage := .pending }])))) ∧
    (∀ (s : State) (x : Rsv) (y : Txn),
      s.arriving .qread x = some y →
      s.servedAt .qread y.rsv = true →
      s.refuses .qread y.rsv = none →
      Takes (.ocnQread x) s (State.deliverAll y.rsv.ini.val y.rsv.tgt.val (s.ocn.txns.length + 1) (s.setTxns (s.ocn.txns.filter (fun z => z.key != y.key) ++ [{ y with stage := .pending }])))) ∧
    (∀ (s : State) (x : Rsv) (y : Txn),
      s.arriving .qwrite x = some y →
      s.servedAt .qwrite y.rsv = true →
      s.refuses .qwrite y.rsv = none →
      Takes (.ocnQwrite x) s (State.deliverAll y.rsv.ini.val y.rsv.tgt.val (s.ocn.txns.length + 1) (s.setTxns (s.ocn.txns.filter (fun z => z.key != y.key) ++ [{ y with stage := .pending }])))) ∧
    (∀ (s : State) (x : Rsv) (y : Txn),
      s.arriving .qpush x = some y →
      s.servedAt .qpush y.rsv = true →
      s.refuses .qpush y.rsv = none →
      Takes (.ocnQpush x) s (State.deliverAll y.rsv.ini.val y.rsv.tgt.val (s.ocn.txns.length + 1) (s.setTxns (s.ocn.txns.filter (fun z => z.key != y.key) ++ [{ y with stage := .pending }])))) ∧
    (∀ (s : State) (x : Rsv) (y : Txn),
      s.arriving .signal x = some y →
      s.servedAt .signal y.rsv = true →
      s.refuses .signal y.rsv = none →
      Takes (.ocnSignal x) s (State.deliverAll y.rsv.ini.val y.rsv.tgt.val (s.ocn.txns.length + 1) (s.setTxns (s.ocn.txns.filter (fun z => z.key != y.key) ++ [{ y with stage := .pending }])))) ∧
    (∀ (s : State) (k : TxnKey) (data : List (BitVec 512)) (cws : List (BitVec 16)) (x : Txn),
      s.txn k = some x →
      x.stage = .granted →
      x.who = .outside →
      s.portDead x.rsv.tgt.val = false →
      Takes (.writeDataArrival k data cws) s (State.deliverAll x.rsv.ini.val x.rsv.tgt.val (s.ocn.txns.length + 1) (s.modTxn k (fun y => { y with
        stage := .data
        data := (List.range (x.rsv.nfm1.val + 1)).map (fun i => data.getD i 0)
        tsf := (List.range (x.rsv.nfm1.val + 1)).map (fun i => cws.getD i 0) })))) ∧
    (∀ (s : State) (k : TxnKey) (latency : Nat) (x : Txn),
      s.txn k = some x →
      x.stage = .answered →
      Takes (.responseArrival k latency) s ((((s.countTxn x latency).txnEnd x x.status x.refused).dropTxn k).unholdAll x.rsv.ini.val)) ∧
    (∀ (s : State) (k : TxnKey) (x : Txn),
      s.txn k = some x →
      x.grantSeen = false →
      x.stage ≠ .held →
      x.who = .outside →
      Takes (.initiatorTimeout k) s (((s.txnEnd x .dead false).dropTxn k).unholdAll x.rsv.ini.val))

/-- Each command of a router or of a network interface takes place. (R252, R253, R254, R256, R258, R259, R260, R261, R263, R264, R265, R266, R267.) -/
def Obligations.NetworkCommandsComplete : Prop :=
    (∀ (s : State) (k : TxnKey) (x : Txn),
      s.txn k = some x →
      x.stage = .pending →
      x.op.writes = true →
      (s.olderThan k).any (fun y => y.rsv.tgt.val == x.rsv.tgt.val && y.op.writes && y.stage == .pending && (s.ingress y).1 == (s.ingress x).1 && s.portFree y) = false →
      s.portFree x = true →
      s.rsvRefused x.op x.rsv = none →
      s.admits x = true →
      s.ingressUsed x.rsv.tgt.val (s.ingress x).1 + s.hgHeld x + x.rsv.nfm1.val + 1 ≤ (s.ingress x).2 →
      Takes (.grant k) s ((s.freeNat 256).2.modTxn k (fun y => { y with stage := .granted, handle := BitVec.ofNat 8 (s.freeNat 256).1 }))) ∧
    (∀ (s : State) (ro : Router) (output : Fin 8) (slot : Fin 64) (arrivals : List (Fin 8 × Flit)) (k : Nat) (f : Flit),
      arrivals = [] →
      s.routerClosed ro.val = true →
      s.choose ro.val output.val slot.val = some k →
      (s.router ro.val).head (k / 3) (k % 3) = some f →
      4 ≤ output.val →
      Takes (.flitForward ro output slot arrivals) s (((s.modRouter ro.val (fun x => { x with bufs := tset [] x.bufs k (tget [] x.bufs k).tail, last := tset 0 x.last output.val ((k + 1) % 24) })).probeFlit ro.val output.val (flitOut (k / 3) f).2).pulse 2 ro.val (min output.val 4))) ∧
    (∀ (s : State) (k : TxnKey) (x : Txn),
      s.txn k = some x →
      x.stage = .atBlock ∨ x.stage = .data →
      Takes (.targetTimeout k) s (targetTimeout k s) ∧
        ((targetTimeout k s).reg (ocnPage (x.rsv.tgt.val / 4) + ocnDead)) = setBit (s.reg (ocnPage (x.rsv.tgt.val / 4) + ocnDead)) (x.rsv.tgt.val % 4)) ∧
    (∀ (s : State) (ini : Ini) (ro : Router) (val : Word),
      s.mayWrite ini (ocnPage ro.val + ocnDead) = true →
      Takes (.deadReopen ini ro val) s ((s.fieldWrite ini (ocnPage ro.val + ocnDead) val).answer .ok 0)) ∧
    (∀ (s : State) (n : Ni),
      (s.ni n.val).port = .opened →
      hasNi n.val = true →
      s.ocn.txns = [] →
      Takes (.portClose n) s ((((s.modNi n.val (fun x => { x with port := .closing, woke := false })).modReg (ocnPage (n.val / 4) + ocnClose) (fun w => setBit w (n.val % 4))).setTxns []).wakeAt n.val false)) ∧
    (∀ (s : State) (n : Ni),
      (s.ni n.val).port = .closing ∨ (s.ni n.val).port = .draining →
      s.noneAdmitted n.val = true →
      s.noneOpen n.val = true →
      s.eventsOut n.val = true →
      Takes (.portDown n) s ((s.modNi n.val (fun x => { x with port := .down })).raise (ocnPage (n.val / 4)) 4)) ∧
    (∀ (s : State) (n : Ni),
      (s.ni n.val).port = .down →
      s.domainOn n.val = true →
      Takes (.portReopen n) s ((s.modNi n.val (fun x => { x with port := .opened, woke := false })).modReg (ocnPage (n.val / 4) + ocnClose) (fun w => clrBit w (n.val % 4)))) ∧
    (∀ (s : State) (ini : Ini) (n : Ni) (off : BitVec 12) (len : Nat) (val : BitVec 64),
      s.mayWrite ini (ocnPage 0) = true →
      len = 8 →
      off.toNat % 8 = 0 →
      off.toNat / 0x800 ≠ b2n (s.ni n.val).epoch →
      rtValid (val &&& 0xFFFFFFFFF) = false ∨ routeOk n.val (off.toNat % 0x800 / 8) (val &&& 0xFFFFFFFFF) = true →
      Takes (.routeTableWrite ini n off len val) s ({ s with ocn := { s.ocn with routes := tset (dorEntry n.val (off.toNat % 0x800 / 8)) s.ocn.routes (512 * n.val + 256 * (off.toNat / 0x800) + off.toNat % 0x800 / 8) (val &&& 0xFFFFFFFFF) } }.answer .ok 0)) ∧
    (∀ (s : State) (ini : Ini) (ro : Router) (val : Word),
      s.mayWrite ini (ocnPage ro.val + ocnClose) = true →
      bit (s.actBits ini (ocnPage ro.val + ocnClose) val) 8 = true →
      Takes (.routerClose ini ro val) s ((s.fieldWrite ini (ocnPage ro.val + ocnClose) val).answer .ok 0)) ∧
    (∀ (s : State) (ro : Router),
      s.routerClosed ro.val = true →
      (s.router ro.val).empty = true →
      (s.router ro.val).drained = false →
      Takes (.routerDrained ro) s ((s.modRouter ro.val (fun x => { x with drained := true })).raise (ocnPage ro.val) 3)) ∧
    (∀ (s : State) (ini : Ini) (ro : Router) (val : Word),
      s.mayWrite ini (ocnPage ro.val + ocnEpoch) = true →
      Takes (.epochFlip ini ro val) s (((List.range 4).foldl (fun t p => if bit (s.actBits ini (ocnPage ro.val + ocnEpoch) val) p && hasNi (niAt ro.val p) then t.modNi (niAt ro.val p) (fun x => { x with flip := true }) else t) (s.fieldWrite ini (ocnPage ro.val + ocnEpoch) val)).answer .ok 0)) ∧
    (∀ (s : State) (n : Ni),
      (s.ni n.val).flip = true →
      s.noneOutstanding n.val = true →
      Takes (.epochSwitch n) s ((s.modNi n.val (fun x => { x with flip := false, epoch := !x.epoch })).unholdAll n.val)) ∧
    (∀ (s : State) (ini : Ini) (ro : Router) (val : Word),
      s.mayWrite ini (ocnPage ro.val + ocnWheel) = true →
      bit (s.actBits ini (ocnPage ro.val + ocnWheel) val) 13 = true →
      (s.fieldWrite ini (ocnPage ro.val + ocnWheel) val).locked (ocnPage ro.val + ocnWheel) = false →
      Takes (.wheelStage ini ro val) s (((s.fieldWrite ini (ocnPage ro.val + ocnWheel) val).modRouter ro.val (fun x => { x with staged := tset 0 x.staged (64 * fld (s.actBits ini (ocnPage ro.val + ocnWheel) val) 6 3 + fld (s.actBits ini (ocnPage ro.val + ocnWheel) val) 0 6) (fld (s.actBits ini (ocnPage ro.val + ocnWheel) val) 9 3 + 8 * b2n (bit (s.actBits ini (ocnPage ro.val + ocnWheel) val) 12)) })).answer .ok 0)) ∧
    (∀ (s : State) (ini : Ini) (ro : Router) (val : Word),
      s.mayWrite ini (ocnPage ro.val + ocnCtrl) = true →
      bit (s.actBits ini (ocnPage ro.val + ocnCtrl) val) 0 = true →
      bit (s.actBits ini (ocnPage ro.val + ocnCtrl) val) 1 = false →
      (s.fieldWrite ini (ocnPage ro.val + ocnCtrl) val).wheelRefusal ro.val = 0 →
      Takes (.wheelCommit ini ro val) s (((s.fieldWrite ini (ocnPage ro.val + ocnCtrl) val).modRouter ro.val (fun x => { x with commit := x.staged, wpend := true })).answer .ok 0)) ∧
    (∀ (s : State) (ro : Router),
      (s.router ro.val).wpend = true →
      Takes (.wheelTakeEffect ro) s ((s.modRouter ro.val (fun x => { x with wheel := x.commit, commit := [], wpend := false })).raise (ocnPage ro.val) 0)) ∧
    (∀ (s : State) (ini : Ini) (ro : Router) (val : Word),
      s.mayWrite ini (ocnPage ro.val + ocnCtrl) = true →
      bit (s.actBits ini (ocnPage ro.val + ocnCtrl) val) 0 = false →
      bit (s.actBits ini (ocnPage ro.val + ocnCtrl) val) 1 = true →
      Takes (.statsClear ini ro val) s (((s.fieldWrite ini (ocnPage ro.val + ocnCtrl) val).clearStats ro.val).answer .ok 0))

/-- Each command of the reservoir and of the DRAM controller takes place. (R273, R274, R275, R276, R279, R281, R282, R285, R287, R288, R289, R290.) -/
def Obligations.MemoryCommandsComplete : Prop :=
    (∀ (s : State) (b : RBank) (x : Txn),
      pickReq (s.presented b.val) = some x →
      Takes (.bankAccess b) s (s.bankPerform x (without (s.presented b.val) x))) ∧
    (∀ (s : State) (ini : Ini) (val : Word),
      s.handOk ini (fld val 0 8) (fld val 8 8) = true →
      Takes (.bankHandover ini val) s { s with rsvr := { s.rsvr with hand := s.rsvr.hand ++ [some (fld val 0 8, fld val 8 8)] } }) ∧
    (∀ (s : State) (cause : WipeCause),
      s.rsvr.swReq = true →
      s.ocn.txns = [] →
      Takes (.secureWipe cause) s ((({ s with rsvr := { s.rsvr with swReq := false, swipe := true, keys := [] } }).zeroBanks 240).setTxns [])) ∧
    (∀ (s : State),
      s.rsvr.swipe = true →
      Takes (.secureWipeDone) s (({ s with rsvr := { s.rsvr with swipe := false } }).raise (page .rsv 0) 3)) ∧
    (∀ (s : State),
      s.rsvr.wipe = true →
      Takes (.reservoirWipeDone) s (({ s with rsvr := { s.rsvr with wipe := false } }).raise (page .rsv 0) 4)) ∧
    (∀ (s : State) (k : TxnKey) (err : DramErr) (x : Txn),
      s.drcNext = some x →
      x.key = k →
      err = .none →
      Takes (.dramAccess k err) s (s.dramFlit x)) ∧
    (∀ (s : State) (k : TxnKey) (err : DramErr) (x : Txn),
      s.drcNext = some x →
      x.key = k →
      err ≠ .none →
      Takes (.dramAccess k err) s ((s.setMark x.line err).dramFlit x)) ∧
    (∀ (s : State),
      s.drc.trained = 0xFF →
      s.drc.init = false →
      Takes (.dramInitDone) s (({ s with drc := { s.drc with init := true, marks := [] }, mem := tkeep (fun a => decide (a < dramBase)) s.mem }).raise (page .drc 0) 0)) ∧
    (∀ (s : State) (ini : Ini) (size : Bool) (val : Word),
      s.passesWhole ini (page .drc 0 + drcHvsize) = true →
      size = true →
      s.hvEn = false →
      fld val 0 8 ≤ 192 →
      (s.hvBase + fld val 0 8) * 2 ^ 28 ≤ s.dramBytes / 16 * 15 →
      Takes (.hvRangeWrite ini size val) s ((s.setReg (page .drc 0 + drcHvsize) (BitVec.ofNat 32 (fld val 0 8))).answer .ok 0)) ∧
    (∀ (s : State) (ini : Ini) (val : Word),
      s.passesWhole ini (page .drc 0 + drcHvctrl) = true →
      bit val 0 = true →
      s.hvEn = false →
      Takes (.hvClear ini val) s (((({ s with drc := { s.drc with clr := true, ready := false } }).zeroHv).setReg (page .drc 0 + drcHvctrl) 1).answer .ok 0)) ∧
    (∀ (s : State),
      s.drc.clr = true →
      Takes (.hvClearDone) s (({ s with drc := { s.drc with clr := false, ready := true } }).raise (page .drc 0) 2)) ∧
    (∀ (s : State) (ini : Ini) (val : Word),
      s.passesWhole ini (page .drc 0 + drcHvctrl) = true →
      bit val 0 = false →
      s.hvEn = true →
      s.hif.hdm.any (fun d => d.2.committed) = false →
      Takes (.hvDisable ini val) s ((({ s with drc := { s.drc with clr := false, ready := false } }).setReg (page .drc 0 + drcHvctrl) 0).answer .ok 0))

/-- Each command and each instruction of a DMA channel takes place in the channel states that accept it. (R296, R299, R301, R302, R303, R304, R305, R306, R309, R310, R312, R317.) -/
def Obligations.DmaCommandsComplete : Prop :=
    (∀ (s : State) (ini : Ini) (d : DmaCh) (val : Word),
      s.mayWrite ini (dmaPage d.val + dmaCtrl) = true →
      fld (s.actBits ini (dmaPage d.val + dmaCtrl) val) 0 4 = 1 →
      ((s.fieldWrite ini (dmaPage d.val + dmaCtrl) val).dmach d.val).st = .idle ∨ ((s.fieldWrite ini (dmaPage d.val + dmaCtrl) val).dmach d.val).st = .error →
      Takes (.dmaStart ini d val) s ((((s.fieldWrite ini (dmaPage d.val + dmaCtrl) val).modDma d.val (fun y => { y.clear with st := .run, err := 0, fault := 0 })).dmaGoto d.val ((s.fieldWrite ini (dmaPage d.val + dmaCtrl) val).reg64 (dmaPage d.val + dmaPc) / 8 * 8 % 2 ^ 48)).answer .ok 0)) ∧
    (∀ (s : State) (ini : Ini) (d : DmaCh) (val : Word),
      s.mayWrite ini (dmaPage d.val + dmaCtrl) = true →
      fld (s.actBits ini (dmaPage d.val + dmaCtrl) val) 0 4 = 4 →
      ((s.fieldWrite ini (dmaPage d.val + dmaCtrl) val).dmach d.val).st = .run ∨ ((s.fieldWrite ini (dmaPage d.val + dmaCtrl) val).dmach d.val).st = .wait ∨ ((s.fieldWrite ini (dmaPage d.val + dmaCtrl) val).dmach d.val).st = .parked ∨ ((s.fieldWrite ini (dmaPage d.val + dmaCtrl) val).dmach d.val).st = .suspended ∨ ((s.fieldWrite ini (dmaPage d.val + dmaCtrl) val).dmach d.val).st = .halting →
      Takes (.dmaAbort ini d val) s (((s.fieldWrite ini (dmaPage d.val + dmaCtrl) val).abortBegin d.val).answer .ok 0)) ∧
    (∀ (s : State) (ini : Ini) (d : DmaCh) (val : Word),
      s.mayWrite ini (dmaPage d.val + dmaCtrl) = true →
      fld (s.actBits ini (dmaPage d.val + dmaCtrl) val) 0 4 = 8 →
      ((s.fieldWrite ini (dmaPage d.val + dmaCtrl) val).dmach d.val).waitCond = some 2 →
      ((s.fieldWrite ini (dmaPage d.val + dmaCtrl) val).dmach d.val).fail = none →
      ((s.fieldWrite ini (dmaPage d.val + dmaCtrl) val).dmach d.val).st ≠ .idle →
      Takes (.dmaGo ini d val) s (((s.fieldWrite ini (dmaPage d.val + dmaCtrl) val).dmaResumeRun d.val).answer .ok 0)) ∧
    (∀ (s : State) (ini : Ini) (d : DmaCh) (val : Word),
      s.mayWrite ini (dmaPage d.val + dmaCtrl) = true →
      fld (s.actBits ini (dmaPage d.val + dmaCtrl) val) 0 4 = 8 →
      ((s.fieldWrite ini (dmaPage d.val + dmaCtrl) val).dmach d.val).st = .run →
      Takes (.dmaGo ini d val) s (((s.fieldWrite ini (dmaPage d.val + dmaCtrl) val).modDma d.val (fun y => { y with go := true })).answer .ok 0)) ∧
    (∀ (s : State) (ini : Ini) (d : DmaCh) (val : Word),
      s.mayWrite ini (dmaPage d.val + dmaCtrl) = true →
      fld (s.actBits ini (dmaPage d.val + dmaCtrl) val) 0 4 = 2 →
      ((s.fieldWrite ini (dmaPage d.val + dmaCtrl) val).dmach d.val).st = .suspended →
      ((s.fieldWrite ini (dmaPage d.val + dmaCtrl) val).dmach d.val).fail = none →
      ¬((((s.fieldWrite ini (dmaPage d.val + dmaCtrl) val).modDma d.val (fun x => { x with st := x.before, fault := 0 })).dmach d.val).waitCond = some 2 ∧ (((s.fieldWrite ini (dmaPage d.val + dmaCtrl) val).modDma d.val (fun x => { x with st := x.before, fault := 0 })).dmach d.val).go = true) →
      Takes (.dmaResume ini d val) s ((let v := ((s.fieldWrite ini (dmaPage d.val + dmaCtrl) val).modDma d.val (fun x => { x with st := x.before, fault := 0 })).answer .ok 0
      { v.dmaTick with ans := v.ans }))) ∧
    (∀ (s : State) (ini : Ini) (d : DmaCh) (val : Word),
      s.mayWrite ini (dmaPage d.val + dmaCtrl) = true →
      fld (s.actBits ini (dmaPage d.val + dmaCtrl) val) 0 4 = 2 →
      ((s.fieldWrite ini (dmaPage d.val + dmaCtrl) val).dmach d.val).st = .suspended →
      ((s.fieldWrite ini (dmaPage d.val + dmaCtrl) val).dmach d.val).fail = none →
      (((s.fieldWrite ini (dmaPage d.val + dmaCtrl) val).modDma d.val (fun x => { x with st := x.before, fault := 0 })).dmach d.val).waitCond = some 2 →
      (((s.fieldWrite ini (dmaPage d.val + dmaCtrl) val).modDma d.val (fun x => { x with st := x.before, fault := 0 })).dmach d.val).go = true →
      Takes (.dmaResume ini d val) s ((let v := ((((s.fieldWrite ini (dmaPage d.val + dmaCtrl) val).modDma d.val (fun x => { x with st := x.before, fault := 0 })).modDma d.val (fun x => { x with go := false })).dmaResumeRun d.val).answer .ok 0
      { v.dmaTick with ans := v.ans }))) ∧
    (∀ (s : State) (ini : Ini) (d : DmaCh) (val : Word),
      s.mayWrite ini (dmaPage d.val + dmaAppend) = true →
      bit (s.actBits ini (dmaPage d.val + dmaAppend) val) 0 = true →
      ((s.fieldWrite ini (dmaPage d.val + dmaAppend) val).dmach d.val).st = .parked →
      ((s.fieldWrite ini (dmaPage d.val + dmaAppend) val).dmach d.val).fetch = none →
      ((s.fieldWrite ini (dmaPage d.val + dmaAppend) val).dmach d.val).fail = none →
      Takes (.dmaAppend ini d val) s (((s.fieldWrite ini (dmaPage d.val + dmaAppend) val).issueFetch d.val ((s.fieldWrite ini (dmaPage d.val + dmaAppend) val).dmach d.val).tail).answer .ok 0)) ∧
    (∀ (s : State) (d : DmaCh) (status : Status) (a : Nat) (bs : List Byte),
      (s.dmach d.val).fetch = some (a, .ok, bs) →
      status = .ok →
      (s.dmach d.val).st = .run →
      Takes (.dmaFetch d status) s ((((s.modDma d.val (fun y => { y with fetch := none })).modDma d.val (fun y => { y with lines := (a, bs) :: y.lines.filter (fun l => l.1 != a) })).dmaPoint d.val).latchSettle d.val)) ∧
    (∀ (s : State) (d : DmaCh) (w : DWord),
      s.dmaAt d.val 2 = some w →
      (s.dmach d.val).loop = none →
      Takes (.dmaLoop d) s ((s.modDma d.val (fun x => { x with
        loop := some ⟨x.pc + 8, fld w 8 24, 64 * sx 16 (fld w 32 16), 64 * sx 16 (fld w 48 16)⟩
        soff := 0
        doff := 0 })).dmaNext d.val 1)) ∧
    (∀ (s : State) (d : DmaCh) (w : DWord) (l : DmaLoop),
      s.dmaAt d.val 3 = some w →
      (s.dmach d.val).loop = some l →
      reservedBits w [(0, 8)] = false →
      l.left ≠ 0 →
      Takes (.dmaEndl d) s ((s.modDma d.val (fun x => { x with
        loop := some { l with left := l.left - 1 }
        soff := x.soff + l.ss
        doff := x.doff + l.ds })).dmaGoto d.val l.body)) ∧
    (∀ (s : State) (d : DmaCh) (w : DWord) (l : DmaLoop),
      s.dmaAt d.val 3 = some w →
      (s.dmach d.val).loop = some l →
      reservedBits w [(0, 8)] = false →
      l.left = 0 →
      Takes (.dmaEndl d) s ((s.modDma d.val (fun x => { x with loop := none, soff := 0, doff := 0 })).dmaNext d.val 1)) ∧
    (∀ (s : State) (d : DmaCh) (w : DWord),
      s.dmaAt d.val 4 = some w →
      reservedBits w [(0, 18), (32, 32)] = false →
      fld w 8 2 = 2 →
      (s.dmach d.val).go = true →
      Takes (.dmaWait d) s ((s.modDma d.val (fun x => { x with go := false })).dmaNext d.val 1)) ∧
    (∀ (s : State) (d : DmaCh) (w : DWord),
      s.dmaAt d.val 4 = some w →
      reservedBits w [(0, 18), (32, 32)] = false →
      fld w 8 2 ≠ 2 →
      Takes (.dmaWait d) s (s.dmaHold d.val w .wait)) ∧
    (∀ (s : State) (d : DmaCh),
      (s.dmach d.val).waitCond = some 3 →
      (s.dmach d.val).fail = none →
      Takes (.dmaWaitExpire d) s ((s.modDma d.val (fun x => { x with st := .run, wait := none })).dmaNext d.val 1)) ∧
    (∀ (s : State) (d : DmaCh) (w : DWord),
      s.dmaAt d.val 5 = some w →
      reservedBits w [(0, 12), (16, 9)] = false →
      bit w 8 = false →
      bit w 24 = false →
      Takes (.dmaSignal d) s ((s.raise (dmaPage d.val) (8 + fld w 9 3)).dmaNext d.val 1)) ∧
    (∀ (s : State) (d : DmaCh) (w : DWord),
      s.dmaAt d.val 6 = some w →
      bit w 8 = false →
      reservedBits w [(0, 9), (16, 45)] = false →
      (s.dmach d.val).loop = none →
      Takes (.link d) s ((s.modDma d.val (fun x => { x with lines := [] })).dmaGoto d.val (8 * fld w 16 45))) ∧
    (∀ (s : State) (d : DmaCh) (w : DWord),
      s.dmaAt d.val 6 = some w →
      bit w 8 = true →
      reservedBits w [(0, 9), (16, 45)] = false →
      (s.dmach d.val).latch = false →
      Takes (.dmaEnd d) s ((s.modDma d.val (fun y => { y with st := .parked, tail := (s.dmach d.val).pc, lines := [], latch := false })).raise (dmaPage d.val) 0)) ∧
    (∀ (s : State) (d : DmaCh) (w : DWord),
      s.dmaAt d.val 7 = some w →
      reservedBits w [(0, 20), (24, 24)] = false →
      fld w 8 2 = 1 →
      Takes (.xform d) s ((s.modDma d.val (fun x => { x with xf := w })).dmaNext d.val 1)) ∧
    (∀ (s : State) (d : DmaCh) (w : DWord),
      s.dmaAt d.val 8 = some w →
      reservedBits w [(0, 16)] = false →
      (s.dmach d.val).loop = none →
      Takes (.halt d) s (s.dmaHold d.val w .halting)) ∧
    (∀ (s : State) (d : DmaCh) (w : DWord),
      (s.drainFlush d.val) = s →
      (s.dmach d.val).bursts = [] →
      (s.dmach d.val).flush = [] →
      (s.dmach d.val).fail = none →
      (s.dmach d.val).st = .halting →
      (s.dmach d.val).wait = some w →
      fld w 0 8 = 8 →
      Takes (.dmaDrainDone d) s ((s.modDma d.val (fun y => { y.toIdle with hcode := fld w 8 8 })).raise (dmaPage d.val) 2)) ∧
    (∀ (s : State) (d : DmaCh) (code : Nat),
      (s.dmach d.val).fail = some code →
      (s.dmach d.val).outstanding = false →
      (s.dmach d.val).st = .run →
      Takes (.dmaError d) s ((s.modDma d.val (fun y => { y.clear with st := .error, err := code })).raise (dmaPage d.val) 3)) ∧
    (∀ (s : State) (d : DmaCh) (w : DWord) (w1 w2 : DWord) (m : DmaMove),
      s.dmaAt d.val 1 = some w →
      (s.dmach d.val).word ((s.dmach d.val).pc + 8) = some w1 →
      (s.dmach d.val).word ((s.dmach d.val).pc + 16) = some w2 →
      m = { w0 := w, w1 := w1, w2 := w2, xf := (if bit w 21 then (s.dmach d.val).xf else 0), soff := (s.dmach d.val).soff, doff := (s.dmach d.val).doff, pkts := (if bit w 22 then fld w 32 32 else 0) } →
      m.ok = true →
      m.pmode = 0 →
      Takes (.move d) s ((s.modDma d.val (fun y => { y with mv := some m })).dmaTick)) ∧
    (∀ (s : State) (d : DmaCh) (burst : Nat) (read : Bool) (status : Status) (poison : Bool) (host : List Byte),
      32 ≤ burst →
      (s.dmach d.val).flush.contains (burst - 32) = true →
      status = .ok →
      poison = false →
      Takes (.dmaBurstAnswer d burst read status poison host) s (((s.modDma d.val (fun x => { x with flush := x.flush.filter (fun k => k != burst - 32) })).abortEnd d.val).dmaTick)) ∧
    (∀ (s : State) (d : DmaCh) (burst : Nat) (read : Bool) (status : Status) (poison : Bool) (host : List Byte) (b : DmaBurst),
      burst < 32 →
      (s.dmach d.val).bursts.find? (fun b => b.slot == burst && b.phase == (if read then .reading else .writing) && !b.drowse) = some b →
      Takes (.dmaBurstAnswer d burst read status poison host) s ((((if read then s.readAnswer d.val b status poison host else s.writeAnswer d.val b status poison)).abortEnd d.val).dmaTick)) ∧
    (∀ (s : State) (d : DmaCh),
      (s.dmach d.val).stopping = false →
      Takes (.dmaDrowseRetry d) s (s.modDma d.val (fun x => { x with bursts := x.bursts.map (fun b => { b with drowse := false }) }))) ∧
    (∀ (s : State) (d : DmaCh) (status : Status),
      (s.dmach d.val).stopping = false →
      ((List.range 128).any (fun q => (s.dmach d.val).samples q)) = true →
      status ≠ .ok →
      answerError status false = none →
      Takes (.dmaPaceSample d status) s (s.dmaCount d.val 5 1)) ∧
    (∀ (s : State) (d : DmaCh) (status : Status) (q : Nat),
      (s.dmach d.val).stopping = false →
      ((List.range 128).filter (fun q => (s.dmach d.val).samples q)) = [q] →
      status = .ok →
      (s.dmach d.val).waitCond = none →
      Takes (.dmaPaceSample d status) s (((s.modDma d.val (fun y => { y with pace := tset none y.pace q (some (s.queue q).pace) })).dmaServed (dmaReadNi d.val) d.val).dmaTick))

/-- Each access of the register window or of unmapped space takes place, and so does a doorbell of the host or an access through the test port. (R7, R9, R18, R30, R31, R32, R39, R360, R487.) -/
def Obligations.WindowCommandsComplete : Prop :=
    (∀ (s : State) (ini : Ini) (off : BitVec 25) (len : Nat) (val : BitVec 64),
      len = 4 →
      off.toNat % 4 = 0 →
      (blockAt off.toNat).isSome = true →
      ¬(0x1000000 ≤ off.toNat ∧ off.toNat < 0x1100000) →
      ¬(0x240000 ≤ off.toNat ∧ off.toNat < 0x300000) →
      ¬(off.toNat ≤ page .rsv 0 + rsvBhand ∧ page .rsv 0 + rsvBhand < off.toNat + 4) →
      Takes (.registerWrite ini off len val) s ((s.wordWrite ini off.toNat (val.setWidth 32)).hostSees ini)) ∧
    (∀ (s : State) (ini : Ini) (page : Fin 8192) (val : Word),
      (blockAt (0x1000 * page.val)).isSome = true →
      headPage (0x1000 * page.val + hOwner) = 0x1000 * page.val →
      headerSp (0x1000 * page.val + hOwner) = false →
      ini = levee →
      Takes (.ownerWrite ini page val) s ((s.setReg (0x1000 * page.val + hOwner) ((val.setWidth 8).setWidth 32)).answer .ok 0)) ∧
    (∀ (s : State) (ini : Ini) (page : Fin 8192) (val : Word),
      (blockAt (0x1000 * page.val)).isSome = true →
      headPage (0x1000 * page.val + hLock) = 0x1000 * page.val →
      s.mayWrite ini (0x1000 * page.val + hLock) = true →
      headerSp (0x1000 * page.val + hLock) = false →
      bit val 0 = true →
      Takes (.lockSet ini page val) s ((s.setReg (0x1000 * page.val + hLock) 1).answer .ok 0)) ∧
    (∀ (s : State) (ini : Ini) (page : Fin 8192) (val : Word),
      (blockAt (0x1000 * page.val)).isSome = true →
      s.mayWrite ini (0x1000 * page.val + hEvtBase) = true →
      headerSp (0x1000 * page.val + hEvtBase) = false →
      fld val 0 13 ≤ 0x1FE0 →
      Takes (.evtBaseWrite ini page val) s ((s.setReg (0x1000 * page.val + hEvtBase) (BitVec.ofNat 32 (fld val 0 13))).answer .ok 0)) ∧
    (∀ (s : State) (ini : Ini) (off : BitVec 25) (wr : Bool),
      (blockAt off.toNat).isNone = true →
      ¬(0x1000000 ≤ off.toNat ∧ off.toNat < 0x1100000) →
      ¬(0x240000 ≤ off.toNat ∧ off.toNat < 0x300000) →
      Takes (.holeAccess ini off wr) s (((s.holeCapture ini off.toNat wr).answer .decErr 0).hostSees ini)) ∧
    (∀ (s : State) (ini : Ini) (addr : BitVec 48) (wr : Bool),
      s.target addr.toNat = .unmapped →
      Takes (.unmappedAccess ini addr wr) s (s.answer .decErr 0)) ∧
    (∀ (s : State) (ini : Ini) (val : Word),
      Takes (.hostDoorbell ini val) s (((List.range 16).foldl (fun u i => if bit val i then u.raise sysPage i else u) s).answer .ok 0)) ∧
    (∀ (s : State) (addr : BitVec 7) (wr : Bool) (data : Word),
      s.tapOk 0x10 = true →
      wr = false →
      Takes (.dmi addr wr data) s (let u := s.modTap (fun t => { t with ir := 0x10 })
      u.modTap (fun x => { x with out := u.dmRead addr.toNat }))) ∧
    (∀ (s : State) (addr : BitVec 7) (wr : Bool) (data : Word),
      s.tapOk 0x10 = true →
      wr = true →
      Takes (.dmi addr wr data) s ((s.modTap (fun t => { t with ir := 0x10 })).dmWrite addr.toNat data))

/-- Each instruction and event of a rider core takes place while the core executes, and so do the commands of the ATU. (R322, R327, R328, R329, R335, R339, R341, R345, R346, R368.) -/
def Obligations.CoreCommandsComplete : Prop :=
    (∀ (s : State) (ini : Ini) (atc : BitVec 16) (va : BitVec 48) (wr : Bool) (u : State) (pa : Nat),
      s.atuTranslate ini atc.toNat va.toNat wr = (u, some pa) →
      Takes (.atuTranslate ini atc va wr) s (u.answer .ok (BitVec.ofNat 64 pa))) ∧
    (∀ (s : State) (ini : Ini) (atc : BitVec 16) (va : BitVec 48) (wr : Bool) (u : State),
      s.atuTranslate ini atc.toNat va.toNat wr = (u, none) →
      Takes (.atuTranslate ini atc va wr) s (u.answer .slvErr 0)) ∧
    (∀ (s : State) (ini : Ini) (val : Word),
      s.mayWrite ini (atuPage + atuInval) = true →
      bit (s.actBits ini (atuPage + atuInval) val) 31 = true →
      (s.fieldWrite ini (atuPage + atuInval) val).atu.busy = false →
      Takes (.atuInvalidate ini val) s (({ (s.fieldWrite ini (atuPage + atuInval) val) with atu := { tlb := (s.fieldWrite ini (atuPage + atuInval) val).atu.tlb.filter ((s.fieldWrite ini (atuPage + atuInval) val).invalKeep ((s.fieldWrite ini (atuPage + atuInval) val).reg (atuPage + atuInval))), busy := true } }).answer .ok 0)) ∧
    (∀ (s : State),
      s.atu.busy = true →
      Takes (.atuInvalDone) s (({ s with atu := { s.atu with busy := false } }).raise atuPage 0)) ∧
    (∀ (s : State) (c : Core) (b : Nat),
      s.runBank c.val = some b →
      fld (s.bank c.val b).mst 13 2 ≠ 0 →
      Takes (.fpLazySwitch c) s (s.fpReady c.val b)) ∧
    (∀ (s : State) (c : Core) (rs1 : Fin 32) (imm : BitVec 12) (b n : Nat),
      s.execBank c.val = some b →
      (s.bank c.val b).res ≠ 6 →
      ((s.bank c.val b).tf && (s.bank c.val b).tdep == 7) = false →
      n = ((s.bank c.val b).cur + 1) % 6 →
      s.issues c.val b (none) ((s.retire c.val).modBank c.val b (fun x =>
        let y := (x.kfSet 0 3 n).kfSet 3 3 (x.res + 1)
        let y := if x.tf then y.kfSet 18 3 ((s.bank c.val b).tdep + 1) else y
        { (y.setPc (((s.bank c.val b).x rs1.val + imm.signExtend 64) &&& ~~~1)) with
          up := tset 0 (tkeep (fun i => !(decide (16 * n ≤ i) && decide (i < 16 * n + 16))) y.up) (16 * n) (x.pc + 4) })) = true →
      Takes (.fcall c rs1 imm) s ((s.retire c.val).modBank c.val b (fun x =>
        let y := (x.kfSet 0 3 n).kfSet 3 3 (x.res + 1)
        let y := if x.tf then y.kfSet 18 3 ((s.bank c.val b).tdep + 1) else y
        { (y.setPc (((s.bank c.val b).x rs1.val + imm.signExtend 64) &&& ~~~1)) with
          up := tset 0 (tkeep (fun i => !(decide (16 * n ≤ i) && decide (i < 16 * n + 16))) y.up) (16 * n) (x.pc + 4) }))) ∧
    (∀ (s : State) (c : Core) (b : Nat),
      s.execBank c.val = some b →
      (s.bank c.val b).inTrap = false →
      (s.bank c.val b).res ≠ 1 →
      bit ((s.bank c.val b).x 16) 0 = false →
      s.issues c.val b (none) ((s.retire c.val).modBank c.val b (fun x =>
        let y := ((x.setPc (x.x 16)).kfSet 0 3 ((x.cur + 5) % 6)).kfSet 3 3 (x.res - 1)
        if x.tf then y.kfSet 18 3 (x.tdep - 1) else y)) = true →
      Takes (.fret c) s ((s.retire c.val).modBank c.val b (fun x =>
        let y := ((x.setPc (x.x 16)).kfSet 0 3 ((x.cur + 5) % 6)).kfSet 3 3 (x.res - 1)
        if x.tf then y.kfSet 18 3 (x.tdep - 1) else y))) ∧
    (∀ (s : State) (c : Core) (intr : Bool) (cause : BitVec 6) (tval : BitVec 64) (b : Nat),
      s.execBank c.val = some b →
      intr = false →
      excCause cause.toNat = true →
      s.issues c.val b (none) (s.takeTrap c.val b false cause.toNat tval) = true →
      Takes (.trapEntry c intr cause tval) s (s.takeTrap c.val b false cause.toNat tval)) ∧
    (∀ (s : State) (c : Core) (intr : Bool) (cause : BitVec 6) (tval : BitVec 64) (b : Nat),
      s.execBank c.val = some b →
      intr = true →
      cause.toNat = 16 →
      s.intrReady c.val b = true →
      s.issues c.val b (none) (s.takeTrap c.val b true 16 0) = true →
      Takes (.trapEntry c intr cause tval) s (s.takeTrap c.val b true 16 0)) ∧
    (∀ (s : State) (c : Core) (m : Bool) (b : Nat) (y : Bank),
      s.execBank c.val = some b →
      m = true →
      (s.bank c.val b).retFrame = some y →
      (s.bank c.val b).priv = 3 →
      s.issues c.val b (none) ((s.modBank c.val b (fun _ => y.mret)).retire c.val) = true →
      Takes (.xret c m) s ((s.modBank c.val b (fun _ => y.mret)).retire c.val)) ∧
    (∀ (s : State) (c : Core) (m : Bool) (b : Nat) (y : Bank),
      s.execBank c.val = some b →
      m = false →
      (s.bank c.val b).retFrame = some y →
      (s.bank c.val b).priv = 3 →
      s.issues c.val b (none) ((s.modBank c.val b (fun _ => y.sret)).retire c.val) = true →
      Takes (.xret c m) s ((s.modBank c.val b (fun _ => y.sret)).retire c.val)) ∧
    (∀ (s : State) (c : Core) (cut : Option Nat) (b : Nat) (u : State),
      s.execBank c.val = some b →
      (s.bank c.val b).priv = 3 →
      s.switchDue c.val = false →
      s.saveHalf c.val b true (s.bank c.val b).svc none = (u, none, true) →
      s.frameDue c.val b = [] →
      s.issues c.val b (some .svU) (((u.modBank c.val b (fun y => { y.kfSet 21 1 0 with cont := none })).pcAdd c.val b 4).retire c.val) = true →
      Takes (.ctxsvU c cut) s (((u.modBank c.val b (fun y => { y.kfSet 21 1 0 with cont := none })).pcAdd c.val b 4).retire c.val)) ∧
    (∀ (s : State) (c : Core) (cut : Option Nat) (b : Nat) (u : State),
      s.execBank c.val = some b →
      (s.bank c.val b).priv = 3 →
      s.switchDue c.val = false →
      s.saveHalf c.val b false (s.bank c.val b).svc none = (u, none, true) →
      s.issues c.val b (some .svL) (((u.modBank c.val b (fun y => { y.kfSet 21 1 0 with cont := none })).pcAdd c.val b 4).retire c.val) = true →
      Takes (.ctxsvL c cut) s (((u.modBank c.val b (fun y => { y.kfSet 21 1 0 with cont := none })).pcAdd c.val b 4).retire c.val)) ∧
    (∀ (s : State) (c : Core) (cut : Option Nat) (b mask : Nat) (s1 u : State),
      s.execBank c.val = some b →
      (s.bank c.val b).priv = 3 →
      s.switchDue c.val = false →
      s.nodeMask (coreIni c.val) ((s.bank c.val b).node true) = (s1, .ok, mask) →
      s1.loadHalf c.val b true ((List.range 112).filter (fun i => Nat.testBit mask i)) = (u, none) →
      s.frameDue c.val b = [] →
      s.issues c.val b (some .ldU) (((u.modBank c.val b (fun y => { y.kfSet 21 1 0 with cont := none })).modBank c.val b (fun y => y.setPc ((s.bank c.val b).pc + 4))).retire c.val) = true →
      Takes (.ctxldU c cut) s (((u.modBank c.val b (fun y => { y.kfSet 21 1 0 with cont := none })).modBank c.val b (fun y => y.setPc ((s.bank c.val b).pc + 4))).retire c.val)) ∧
    (∀ (s : State) (c : Core) (cut : Option Nat) (b mask : Nat) (s1 u : State),
      s.execBank c.val = some b →
      (s.bank c.val b).priv = 3 →
      s.switchDue c.val = false →
      s.nodeMask (coreIni c.val) ((s.bank c.val b).node false) = (s1, .ok, mask) →
      s1.loadHalf c.val b false ((List.range 30).filter (fun i => Nat.testBit mask i)) = (u, none) →
      Nat.testBit mask slotPc = true →
      s.issues c.val b (some .ldL) ((u.modBank c.val b (fun y => { y.kfSet 21 1 0 with cont := none })).retire c.val) = true →
      Takes (.ctxldL c cut) s ((u.modBank c.val b (fun y => { y.kfSet 21 1 0 with cont := none })).retire c.val)) ∧
    (∀ (s : State) (c : Core) (rs1 : Fin 32) (b : Nat),
      s.execBank c.val = some b →
      (s.bank c.val b).priv ≠ 0 →
      s.issues c.val b (none) (((s.pcAdd c.val b 4).retire c.val).toPort (0x10000 + c.val) ⟨fld ((((s.pcAdd c.val b 4).retire c.val).bank c.val b).x rs1.val) 0 13, false⟩) = true →
      Takes (.hevt c rs1) s (((s.pcAdd c.val b 4).retire c.val).toPort (0x10000 + c.val) ⟨fld ((((s.pcAdd c.val b 4).retire c.val).bank c.val b).x rs1.val) 0 13, false⟩)) ∧
    (∀ (s : State) (c : Core) (b : Nat),
      s.execBank c.val = some b →
      (s.bank c.val b).priv ≠ 0 →
      s.issues c.val b (none) (((s.pcAdd c.val b 4).retire c.val).hwait c.val b) = true →
      Takes (.hwait c) s (((s.pcAdd c.val b 4).retire c.val).hwait c.val b)) ∧
    (∀ (s : State) (c : Core) (b : Nat),
      s.execBank c.val = some b →
      (s.bank c.val b).priv ≠ 0 →
      s.issues c.val b (none) (((s.pcAdd c.val b 4).retire c.val).hexit c.val b) = true →
      Takes (.hexit c) s (((s.pcAdd c.val b 4).retire c.val).hexit c.val b)) ∧
    (∀ (s : State) (c : Core) (b : Nat),
      s.execBank c.val = some b →
      (s.bank c.val b).priv ≠ 0 →
      s.issues c.val b (none) (((s.pcAdd c.val b 4).retire c.val).hyield c.val b) = true →
      Takes (.hyield c) s (((s.pcAdd c.val b 4).retire c.val).hyield c.val b)) ∧
    (∀ (s : State) (c : Core) (rd : Fin 32) (b : Nat),
      s.execBank c.val = some b →
      (s.bank c.val b).priv ≠ 0 →
      s.issues c.val b (none) (((s.pcAdd c.val b 4).retire c.val).modBank c.val b (fun x => x.setX rd.val (BitVec.ofNat 64 x.thr))) = true →
      Takes (.hself c rd) s (((s.pcAdd c.val b 4).retire c.val).modBank c.val b (fun x => x.setX rd.val (BitVec.ofNat 64 x.thr)))) ∧
    (∀ (s : State) (c : Core) (addr : BitVec 48) (status : Status) (old : Line),
      status ≠ .ok →
      tget (0, (0 : Line)) s.l2 (addr.toNat / 64) = (c.val, old) →
      (s.l2.any (fun e => e.1 == addr.toNat / 64)) = true →
      (s.reg (ccxPage c.val + ccxWberr) &&& 3) = 0 →
      Takes (.writebackError c addr status) s ((((({ s with l2 := tdel s.l2 (addr.toNat / 64) }).setBytes (addr.toNat / 64 * 64) (bytesOf 64 old.toNat)).setReg (ccxPage c.val + ccxWberr) (BitVec.ofNat 32 (1 + 4 * statusCode status))).setReg64 (ccxPage c.val + ccxWbaddr) (addr.toNat / 64 * 64)).raise (ccxPage c.val) 1)) ∧
    (∀ (s : State) (c : Core) (b : Nat) (u : State),
      s.execBank c.val = some b →
      2 ≤ (s.bank c.val b).res →
      (s.bank c.val b).spl ≠ 255 →
      s.storeFrame c.val ((List.range 16).map (fun i => ((s.bank c.val b).spillAddr (s.bank c.val b).spl + 8 * i, tget 0 (s.bank c.val b).up (16 * (s.bank c.val b).oldest + i)))) = (u, .done []) →
      (s.frameDue c.val b).contains (s.bank c.val b).oldest = false →
      s.issues c.val b (none) ((u.modBank c.val b (fun y => ((y.kfSet 8 8 ((s.bank c.val b).spl + 1)).kfSet 3 3 ((s.bank c.val b).res - 1)).setPc ((s.bank c.val b).pc + 4))).retire c.val) = true →
      Takes (.fspill c) s ((u.modBank c.val b (fun y => ((y.kfSet 8 8 ((s.bank c.val b).spl + 1)).kfSet 3 3 ((s.bank c.val b).res - 1)).setPc ((s.bank c.val b).pc + 4))).retire c.val)) ∧
    (∀ (s : State) (c : Core) (b : Nat) (u : State) (l : List DWord),
      s.execBank c.val = some b →
      (s.bank c.val b).res ≤ 5 →
      (s.bank c.val b).spl ≠ 0 →
      s.loadFrame c.val ((List.range 16).map (fun i => (s.bank c.val b).spillAddr ((s.bank c.val b).spl - 1) + 8 * i)) = (u, .ok l) →
      s.issues c.val b (none) ((u.modBank c.val b (fun y =>
        let z := ((y.kfSet 8 8 ((s.bank c.val b).spl - 1)).kfSet 3 3 ((s.bank c.val b).res + 1)).setPc ((s.bank c.val b).pc + 4)
        { z with up := (l.zipIdx).foldl (fun t p => tset 0 t (16 * (((s.bank c.val b).cur + 6 - (s.bank c.val b).res) % 6) + p.2) p.1) z.up })).retire c.val) = true →
      Takes (.ffill c) s ((u.modBank c.val b (fun y =>
        let z := ((y.kfSet 8 8 ((s.bank c.val b).spl - 1)).kfSet 3 3 ((s.bank c.val b).res + 1)).setPc ((s.bank c.val b).pc + 4)
        { z with up := (l.zipIdx).foldl (fun t p => tset 0 t (16 * (((s.bank c.val b).cur + 6 - (s.bank c.val b).res) % 6) + p.2) p.1) z.up })).retire c.val)) ∧
    (∀ (s : State) (c : Core) (w : Word),
      w = 0x2B →
      Takes (.rv64Instruction c w) s (ctxCmd .svU c.val none s)) ∧
    (∀ (s : State) (c : Core) (w : Word),
      w = 0x102B →
      Takes (.rv64Instruction c w) s (ctxCmd .svL c.val none s)) ∧
    (∀ (s : State) (c : Core) (w : Word),
      w = 0x202B →
      Takes (.rv64Instruction c w) s (ctxCmd .ldU c.val none s)) ∧
    (∀ (s : State) (c : Core) (w : Word),
      w = 0x302B →
      Takes (.rv64Instruction c w) s (ctxCmd .ldL c.val none s)) ∧
    (∀ (s : State) (c : Core) (w : Word) (b : Nat),
      xkctxOf w = none →
      s.execBank c.val = some b →
      fld w 0 2 = 3 →
      s.issues c.val b (none) (s.rvExec c.val b 4 w) = true →
      Takes (.rv64Instruction c w) s (s.rvExec c.val b 4 w)) ∧
    (∀ (s : State) (c : Core) (w : Word) (b : Nat) (v : Word),
      xkctxOf w = none →
      s.execBank c.val = some b →
      fld w 0 2 ≠ 3 →
      expand (fld w 0 16) = some v →
      fld v 0 7 ≠ 0x07 →
      fld v 0 7 ≠ 0x27 →
      s.issues c.val b (none) (s.rvExec c.val b 2 v) = true →
      Takes (.rv64Instruction c w) s (s.rvExec c.val b 2 v))

/-- Each command and each step of the hardware task scheduler takes place in the thread states that accept it. (R329, R333, R336, R337, R356, R357, R359, R360, R362, R366, R367.) -/
def Obligations.SchedulerCommandsComplete : Prop :=
    (∀ (s : State) (ini : Ini) (th : Thread),
      s.mayWrite ini (htsPage 0 + htsCmd) = true →
      ((s.fieldWrite ini (htsPage 0 + htsCmd) (BitVec.ofNat 32 (th.val + 2 ^ 12 * 1))).thr th.val).st = .free ∨ ((s.fieldWrite ini (htsPage 0 + htsCmd) (BitVec.ofNat 32 (th.val + 2 ^ 12 * 1))).thr th.val).st = .cancelled →
      fld ((s.fieldWrite ini (htsPage 0 + htsCmd) (BitVec.ofNat 32 (th.val + 2 ^ 12 * 1))).tdw 0) 9 4 ≠ 0 →
      (s.fieldWrite ini (htsPage 0 + htsCmd) (BitVec.ofNat 32 (th.val + 2 ^ 12 * 1))).nodeOk ((s.fieldWrite ini (htsPage 0 + htsCmd) (BitVec.ofNat 32 (th.val + 2 ^ 12 * 1))).stagedNode 3).toNat 320 = true →
      (s.fieldWrite ini (htsPage 0 + htsCmd) (BitVec.ofNat 32 (th.val + 2 ^ 12 * 1))).nodeOk ((s.fieldWrite ini (htsPage 0 + htsCmd) (BitVec.ofNat 32 (th.val + 2 ^ 12 * 1))).stagedNode 5).toNat 1280 = true →
      Takes (.arm ini th) s ((((s.fieldWrite ini (htsPage 0 + htsCmd) (BitVec.ofNat 32 (th.val + 2 ^ 12 * 1))).modThr th.val (fun t => { t with pri := fld ((s.fieldWrite ini (htsPage 0 + htsCmd) (BitVec.ofNat 32 (th.val + 2 ^ 12 * 1))).tdw 0) 3 6, aff := BitVec.ofNat 4 (fld ((s.fieldWrite ini (htsPage 0 + htsCmd) (BitVec.ofNat 32 (th.val + 2 ^ 12 * 1))).tdw 0) 9 4), esat := false, pcause := fld ((s.fieldWrite ini (htsPage 0 + htsCmd) (BitVec.ofNat 32 (th.val + 2 ^ 12 * 1))).tdw 0) 20 4, started := false, cnt := fld ((s.fieldWrite ini (htsPage 0 + htsCmd) (BitVec.ofNat 32 (th.val + 2 ^ 12 * 1))).tdw 1) 0 16, rld := fld ((s.fieldWrite ini (htsPage 0 + htsCmd) (BitVec.ofNat 32 (th.val + 2 ^ 12 * 1))).tdw 1) 16 16, erl := 0, nodel := (s.fieldWrite ini (htsPage 0 + htsCmd) (BitVec.ofNat 32 (th.val + 2 ^ 12 * 1))).stagedNode 3, nodeu := (s.fieldWrite ini (htsPage 0 + htsCmd) (BitVec.ofNat 32 (th.val + 2 ^ 12 * 1))).stagedNode 5, xev := fld ((s.fieldWrite ini (htsPage 0 + htsCmd) (BitVec.ofNat 32 (th.val + 2 ^ 12 * 1))).tdw 7) 0 13, xen := bit ((s.fieldWrite ini (htsPage 0 + htsCmd) (BitVec.ofNat 32 (th.val + 2 ^ 12 * 1))).tdw 7) 13, rel := none })).readyOrWait th.val).answer .ok 0)) ∧
    (∀ (s : State) (ini : Ini) (th : Thread),
      s.mayWrite ini (htsPage 0 + htsCmd) = true →
      ((s.fieldWrite ini (htsPage 0 + htsCmd) (BitVec.ofNat 32 (th.val + 2 ^ 12 * 2))).thr th.val).cancels = true →
      Takes (.cancel ini th) s (((s.fieldWrite ini (htsPage 0 + htsCmd) (BitVec.ofNat 32 (th.val + 2 ^ 12 * 2))).cancelThread th.val none ((s.fieldWrite ini (htsPage 0 + htsCmd) (BitVec.ofNat 32 (th.val + 2 ^ 12 * 2))).cancelRdy th.val)).answer .ok 0)) ∧
    (∀ (s : State) (ini : Ini) (th : Thread),
      s.mayWrite ini (htsPage 0 + htsCmd) = true →
      ((s.fieldWrite ini (htsPage 0 + htsCmd) (BitVec.ofNat 32 (th.val + 2 ^ 12 * 3))).thr th.val).st = .waiting ∨ ((s.fieldWrite ini (htsPage 0 + htsCmd) (BitVec.ofNat 32 (th.val + 2 ^ 12 * 3))).thr th.val).st = .ready ∨ ((s.fieldWrite ini (htsPage 0 + htsCmd) (BitVec.ofNat 32 (th.val + 2 ^ 12 * 3))).thr th.val).st = .running →
      Takes (.park ini th) s (((s.fieldWrite ini (htsPage 0 + htsCmd) (BitVec.ofNat 32 (th.val + 2 ^ 12 * 3))).parkBegin th.val 8).answer .ok 0)) ∧
    (∀ (s : State) (ini : Ini) (th : Thread),
      s.mayWrite ini (htsPage 0 + htsCmd) = true →
      ((s.fieldWrite ini (htsPage 0 + htsCmd) (BitVec.ofNat 32 (th.val + 2 ^ 12 * 4))).thr th.val).st = .parked →
      Takes (.resume ini th) s ((((s.fieldWrite ini (htsPage 0 + htsCmd) (BitVec.ofNat 32 (th.val + 2 ^ 12 * 4))).modThr th.val (fun t => t.consume)).readyOrWait th.val).answer .ok 0)) ∧
    (∀ (s : State) (ini : Ini) (th : Thread),
      s.mayWrite ini (htsPage 0 + htsCmd) = true →
      ((s.fieldWrite ini (htsPage 0 + htsCmd) (BitVec.ofNat 32 (th.val + 2 ^ 12 * 5))).thr th.val).st = .parked ∨ ((s.fieldWrite ini (htsPage 0 + htsCmd) (BitVec.ofNat 32 (th.val + 2 ^ 12 * 5))).thr th.val).st = .cancelled →
      Takes (.free ini th) s (((s.fieldWrite ini (htsPage 0 + htsCmd) (BitVec.ofNat 32 (th.val + 2 ^ 12 * 5))).modThr th.val (fun t => { t with st := .free })).answer .ok 0)) ∧
    (∀ (s : State) (ini : Ini) (th : Thread),
      s.mayWrite ini (htsPage 0 + htsCmd) = true →
      ((s.fieldWrite ini (htsPage 0 + htsCmd) (BitVec.ofNat 32 (th.val + 2 ^ 12 * 6))).thr th.val).st ≠ .free →
      ((s.fieldWrite ini (htsPage 0 + htsCmd) (BitVec.ofNat 32 (th.val + 2 ^ 12 * 6))).rq ((s.fieldWrite ini (htsPage 0 + htsCmd) (BitVec.ofNat 32 (th.val + 2 ^ 12 * 6))).thr th.val).pri).contains th.val = false →
      Takes (.setpri ini th) s ((((s.fieldWrite ini (htsPage 0 + htsCmd) (BitVec.ofNat 32 (th.val + 2 ^ 12 * 6))).rqDel th.val).modThr th.val (fun t => { t with pri := fld ((s.fieldWrite ini (htsPage 0 + htsCmd) (BitVec.ofNat 32 (th.val + 2 ^ 12 * 6))).tdw 0) 3 6 })).answer .ok 0)) ∧
    (∀ (s : State) (ini : Ini) (th : Thread),
      s.mayWrite ini (htsPage 0 + htsCmd) = true →
      ((s.fieldWrite ini (htsPage 0 + htsCmd) (BitVec.ofNat 32 (th.val + 2 ^ 12 * 7))).thr th.val).st ≠ .free →
      fld ((s.fieldWrite ini (htsPage 0 + htsCmd) (BitVec.ofNat 32 (th.val + 2 ^ 12 * 7))).tdw 0) 9 4 ≠ 0 →
      Takes (.setaff ini th) s (((s.fieldWrite ini (htsPage 0 + htsCmd) (BitVec.ofNat 32 (th.val + 2 ^ 12 * 7))).modThr th.val (fun t => { t with aff := BitVec.ofNat 4 (fld ((s.fieldWrite ini (htsPage 0 + htsCmd) (BitVec.ofNat 32 (th.val + 2 ^ 12 * 7))).tdw 0) 9 4) })).answer .ok 0)) ∧
    (∀ (s : State),
      s.hts.queue.length < 1024 →
      (s.hts.ports.filter (fun p => !p.2.isEmpty)) = [] →
      Takes (.eventTake) s s) ∧
    (∀ (s : State)  (u : State),
      u = ((List.range 4).foldl (fun v _ => v.takeOne) s) →
      u.hts.queue.length ≠ 1024 →
      Takes (.eventTake) s u) ∧
    (∀ (s : State)  (o : Occ) (l : List Occ),
      s.skipNone 64 = s →
      s.hts.cur = none →
      s.hts.queue = o :: l →
      fld (tget 0 s.hts.heads o.ev) 14 6 ≠ 0 →
      Takes (.occurrenceStart) s (let u := ({ s with hts := { s.hts with queue := l } }).htsCount 0
      { u with hts := { u.hts with cur := some ⟨o.ev, fld (tget 0 s.hts.heads o.ev) 0 14, fld (tget 0 s.hts.heads o.ev) 14 6⟩ } })) ∧
    (∀ (s : State)  (o : Occ) (l : List Occ),
      s.skipNone 64 = s →
      s.hts.cur = none →
      s.hts.queue = o :: l →
      fld (tget 0 s.hts.heads o.ev) 14 6 = 0 →
      o.own = false →
      Takes (.occurrenceStart) s (((({ s with hts := { s.hts with queue := l } }).htsCount 0).countUp (htsPage 0 + htsUnrt) 0 16 1 |>.modReg (htsPage 0 + htsUnrt) (fun w => setFld w 16 13 o.ev)).raise (htsPage 0) 1)) ∧
    (∀ (s : State)  (o : CurOcc) (w : Word),
      s.skipNone 64 = s →
      s.nextTarget = some (o, w) →
      fld w 12 2 = 0 →
      Takes (.dec) s ((({ s with hts := { s.hts with
        cur := if o.left = 1 then none else some { o with idx := o.idx + 1, left := o.left - 1 } } }).htsCount 1).decThread (fld w 0 12) o.ev)) ∧
    (∀ (s : State)  (o : CurOcc) (w : Word),
      s.skipNone 64 = s →
      s.nextTarget = some (o, w) →
      fld w 12 2 = 1 →
      ((({ s with hts := { s.hts with
        cur := if o.left = 1 then none else some { o with idx := o.idx + 1, left := o.left - 1 } } }).htsCount 1).thr (fld w 0 12)).cancels = true →
      Takes (.cancelAction) s ((({ s with hts := { s.hts with
        cur := if o.left = 1 then none else some { o with idx := o.idx + 1, left := o.left - 1 } } }).htsCount 1).cancelThread (fld w 0 12) (some o.ev) false)) ∧
    (∀ (s : State)  (o : CurOcc) (w : Word),
      s.sigOut < 16 →
      s.skipNone 64 = s →
      s.nextTarget = some (o, w) →
      fld w 12 2 = 2 →
      fld w 16 5 < 24 →
      Takes (.signalAction) s ((({ s with hts := { s.hts with
        cur := if o.left = 1 then none else some { o with idx := o.idx + 1, left := o.left - 1 } } }).htsCount 1).launch .signal { Rsv.base 0x32 24 (niAt (regionRouter (fld w 16 5)) 0) with sctx := Fin.ofNat 8 (fld w 21 3) } .hts [] [])) ∧
    (∀ (s : State) (r : Region) (status : Status) (x : Txn),
      s.ocn.txns.find? (fun x => x.who == .hts && x.stage == .answered && x.rsv.tgt.val == niAt (regionRouter r.val) 0) = some x →
      Takes (.signalAnswer r status) s (((s.dropTxn x.key).unholdAll x.rsv.ini.val).signalResult r.val (if status = .ok then x.status else status))) ∧
    (∀ (s : State) (c : Core) (code : Fin 8) (b : Nat),
      s.runBank c.val = some b →
      1 ≤ code.val →
      code.val ≤ 3 →
      Takes (.frameFault c code) s ((s.withdraw c.val).frameFault c.val b code.val)) ∧
    (∀ (s : State) (c : Core) (l : LinkCmd) (u : State),
      tget none s.hts.link c.val = some l →
      s.halted = false →
      s.runBank c.val = none →
      (s.bank c.val l.bank).st = .held →
      u = { s.withdraw c.val with pmu := { s.pmu with stopped := clrBit s.pmu.stopped c.val } } →
      Takes (.dispatchDeliver c) s ((u.switchBank c.val l.bank).startRunning c.val l.bank l.thr)) ∧
    (∀ (s : State) (c : Core) (status : Status) (j : EngJob) (l : List EngJob) (u : State),
      (s.core c.val).eng = j :: l →
      j.load = false →
      j.half = false →
      (s.bank c.val j.bank).cont = none →
      s.saveHalf c.val j.bank true false none = (u, none, true) →
      status = .ok →
      Takes (.engineSaveDone c status) s ((((u.coreCount c.val 1).releaseFp c.val j.bank)).modCore c.val (fun x => { x with eng := { j with half := true } :: x.eng.tail }))) ∧
    (∀ (s : State) (c : Core) (status : Status) (j : EngJob) (l : List EngJob) (u : State),
      (s.core c.val).eng = j :: l →
      j.load = true →
      j.frames = none →
      (s.bank c.val j.bank).st = .loading →
      (s.thr j.thr).started = false →
      s.loadHalf c.val j.bank false ((List.range 30).filter (fun i => !(i == slotKf))) = (u, none) →
      status = .ok →
      Takes (.engineLoadDone c status) s (((((u.modBank c.val j.bank (fun x => x.setSlot slotKf kfStart)).loadHeld c.val j).coreCount c.val 2).nextJob c.val).loadStart c.val j)) ∧
    (∀ (s : State) (c : Core) (status : Status) (j : EngJob) (l : List EngJob) (u : State),
      (s.core c.val).eng = j :: l →
      j.load = true →
      j.frames = none →
      (s.bank c.val j.bank).st = .loading →
      (s.thr j.thr).started = true →
      s.loadHalf c.val j.bank false (List.range 30) = (u, none) →
      status = .ok →
      Takes (.engineLoadDone c status) s ((u.coreCount c.val 2).modCore c.val (fun x => { x with eng := { j with frames := some (u.bank c.val j.bank).loadFrames } :: x.eng.tail }))) ∧
    (∀ (s : State) (c : Core) (status : Status) (j : EngJob) (l : List EngJob) (f : Nat) (t : List Nat) (u : State),
      (s.core c.val).eng = j :: l →
      j.load = true →
      j.frames = some (f :: t) →
      (s.bank c.val j.bank).st = .loading →
      s.loadHalf c.val j.bank true (frameSlots f) = (u, none) →
      status = .ok →
      Takes (.engineLoadDone c status) s (((u.loadHeld c.val j).frameLoaded c.val j t).loadStart c.val j)) ∧
    (∀ (s : State) (c : Core) (status : Status) (j : EngJob) (l : List EngJob) (f : Nat) (t : List Nat) (u : State),
      (s.core c.val).eng = j :: l →
      j.load = true →
      j.frames = some (f :: t) →
      (s.bank c.val j.bank).st ≠ .loading →
      s.loadHalf c.val j.bank true (frameSlots f) = (u, none) →
      status = .ok →
      Takes (.engineLoadDone c status) s (u.frameLoaded c.val j t)) ∧
    (∀ (s : State) (c : Core) (n : Nat),
      s.halted = false →
      bit (s.reg (ccxPage c.val + ccxCtrl)) 0 = true →
      bit (s.reg (htsPage 0 + htsCtrl)) 0 = true →
      tget none s.hts.link c.val = none →
      s.candidate c.val = some n →
      s.runBank c.val = none →
      (s.thr n).res = true →
      (s.bank c.val (s.thr n).bank).st ≠ .active →
      Takes (.dispatchDecision c) s ((s.noteDispatch c.val n (s.thr n).bank (s.thr n).loaded).sendSwitch c.val n)) ∧
    (∀ (s : State) (c : Core) (n b : Nat) (u : State),
      s.halted = false →
      bit (s.reg (ccxPage c.val + ccxCtrl)) 0 = true →
      bit (s.reg (htsPage 0 + htsCtrl)) 0 = true →
      tget none s.hts.link c.val = none →
      s.candidate c.val = some n →
      s.runBank c.val = none →
      (s.thr n).res = false →
      ((s.core c.val).eng.any (s.loadPends c.val)) = false →
      s.sendLoad c.val n true = some (b, u) →
      Takes (.dispatchDecision c) s (u.noteDispatch c.val n b true)) ∧
    (∀ (s : State) (th : Thread) (p : Parking),
      s.parkingOf th.val = some p →
      p.saved = true →
      Takes (.parkSaveDone th) s ((s.dropParking th.val).parkFinish th.val p.cause p.core)) ∧
    (∀ (s : State) (ini : Ini) (val : Word),
      s.mayWrite ini (htsPage 0 + htsParkctl) = true →
      bit (s.actBits ini (htsPage 0 + htsParkctl) val) 0 = true →
      Takes (.parklogPop ini val) s (({ (s.fieldWrite ini (htsPage 0 + htsParkctl) val) with hts := { (s.fieldWrite ini (htsPage 0 + htsParkctl) val).hts with plog := (s.fieldWrite ini (htsPage 0 + htsParkctl) val).hts.plog.tail } }).answer .ok 0)) ∧
    (∀ (s : State) (ini : Ini) (val : Word),
      s.passesWhole ini (htsPage 2 + htsRhead) = true →
      fld val 0 14 + fld val 14 6 ≤ 16384 →
      Takes (.headWrite ini val) s (({ s with hts := { s.hts with heads := tset 0 s.hts.heads (fld (s.reg (htsPage 2 + htsRsel)) 0 13) (val &&& 0xFFFFF) } }).answer .ok 0))

/-- Each command and event of the PMU and of the AON domain takes place in the modes that accept it. (R375, R376, R377, R379, R380, R381, R382, R384, R386, R387, R389, R391.) -/
def Obligations.PowerCommandsComplete : Prop :=
    (∀ (s : State) (ini : Ini) (val : Word),
      s.mayWrite ini (pmuPage 0 + pmuModereq) = true →
      (s.fieldWrite ini (pmuPage 0 + pmuModereq) val).modeRefusal (Mode.ofCode (fld val 0 4)) = 0 →
      fld val 0 4 ≠ 4 →
      (s.fieldWrite ini (pmuPage 0 + pmuModereq) val).pmu.mode ≠ .drowse →
      Takes (.modeRequest ini val) s (((s.fieldWrite ini (pmuPage 0 + pmuModereq) val).modPmu (fun p => { p with trans := Mode.ofCode (fld val 0 4) })).answer .ok 0)) ∧
    (∀ (s : State) (ini : Ini) (val : Word) (k : Nat),
      s.mayWrite ini (pmuPage 0 + pmuModereq) = true →
      (s.fieldWrite ini (pmuPage 0 + pmuModereq) val).modeRefusal (Mode.ofCode (fld val 0 4)) = k + 1 →
      Takes (.modeRequest ini val) s (((s.fieldWrite ini (pmuPage 0 + pmuModereq) val).modeRefuse (fld val 0 4) (k + 1)).answer .ok 0)) ∧
    (∀ (s : State) (cause : DrowseExit),
      cause = .request →
      s.pmu.trans = s.pmu.ret →
      s.pmu.mode = .drowse →
      s.pmu.trans = none →
      Takes (.drowseExit cause) s (((s.modPmu (fun p => { p with trans := p.ret })).setReg (pmuPage 0 + pmuWakesrc) 3).raise (pmuPage 0) 2)) ∧
    (∀ (s : State) (cause : DrowseExit),
      cause = .aonWake →
      s.aonUp = true →
      s.pmu.mode = .drowse →
      s.pmu.trans = none →
      Takes (.drowseExit cause) s (((s.modPmu (fun p => { p with trans := p.ret })).setReg (pmuPage 0 + pmuWakesrc) 2).raise (pmuPage 0) 2)) ∧
    (∀ (s : State),
      s.twinCfg = true →
      s.ply.present = false →
      s.pmu.mode = .run →
      s.pmu.trans = none →
      Takes (.twinLost) s (s.modPmu (fun p => { p with trans := some .solo }))) ∧
    (∀ (s : State) (k : Fin 6) (sample : BitVec 10),
      bit (s.cmpCfg k.val) 0 = true →
      s.cmpOut k.val = false →
      k.val ≠ 3 →
      bit (s.cmpCfg k.val) 1 = true →
      fld (s.cmpCfg k.val) 2 10 < s.cmpSample k.val sample →
      TakesAon (.comparatorAssert k sample) s ((((s.noteWake k.val).setCmp k.val true (s.cmpSample k.val sample)).modAon (fun a => { a with mesh := a.mesh || k.val == 3 })).raiseAon (1 + k.val))) ∧
    (∀ (s : State) (k : Fin 6) (sample : BitVec 10),
      bit (s.cmpCfg k.val) 0 = true →
      s.cmpOut k.val = false →
      k.val ≠ 3 →
      bit (s.cmpCfg k.val) 1 = false →
      s.cmpSample k.val sample < fld (s.cmpCfg k.val) 2 10 →
      TakesAon (.comparatorAssert k sample) s ((((s.noteWake k.val).setCmp k.val true (s.cmpSample k.val sample)).modAon (fun a => { a with mesh := a.mesh || k.val == 3 })).raiseAon (1 + k.val))) ∧
    (∀ (s : State) (k : Fin 6) (sample : BitVec 10),
      bit (s.cmpCfg k.val) 0 = true →
      s.cmpOut k.val = true →
      k.val ≠ 3 →
      bit (s.cmpCfg k.val) 1 = true →
      s.cmpSample k.val sample + fld (s.cmpCfg k.val) 12 4 < fld (s.cmpCfg k.val) 2 10 →
      TakesAon (.comparatorDeassert k sample) s ((s.setCmp k.val false (s.cmpSample k.val sample)).modAon (fun a => { a with wake := if s.pmu.mode = .hold ∧ k.val = 0 then setBit a.wake 0 else a.wake }))) ∧
    (∀ (s : State),
      bit (s.reg (aonPage + aonCtrl)) 1 = true →
      s.reg64 (aonPage + aonAlarm) ≤ s.aon.time.toNat →
      TakesAon (.alarmFire) s (((s.noteWake 6).modReg (aonPage + aonCtrl) (fun w => clrBit w 1)).raiseAon 0)) ∧
    (∀ (s : State),
      s.sec.dbg = true →
      s.reg64 (page .sec 0 + secDbgexp) ≤ s.aon.time.toNat →
      Takes (.tokenExpire) s (s.endToken.authFall s)) ∧
    (∀ (s : State),
      s.aon.xtal = true →
      s.aon.tload = false →
      TakesAon (.aonTick) s (tokenExpire (alarmFire (s.modAon (fun a => { a with time := (s.aon.time + 1) &&& 0x7FFFFFFFFFFFFFFF, tload := false, xtal := true }))))) ∧
    (∀ (s : State),
      TakesAon (.xtalFail) s ((s.modAon (fun a => { a with xtal := false, xfail := true })).raiseAon 7)) ∧
    (∀ (s : State) (ini : Ini) (val : Word),
      s.mayWrite ini (aonPage + aonCtrl) = true →
      bit (s.actBits ini (aonPage + aonCtrl) val) 0 = true →
      Takes (.timeLoad ini val) s (((s.fieldWrite ini (aonPage + aonCtrl) val).modAon (fun a => { a with tload := true, por := a.por && !bit (s.actBits ini (aonPage + aonCtrl) val) 2 })).answer .ok 0)) ∧
    (∀ (s : State) (p : Fin 8),
      s.pllRuns p.val = true →
      Takes (.pllLock p) s (s.modReg (pmuPage 1 + pmuPllstat) (fun w => setBit w p.val))) ∧
    (∀ (s : State) (p : Fin 8),
      bit (s.reg (pmuPage 1 + pmuPllstat)) p.val = true →
      Takes (.pllLockLoss p) s ((s.modReg (pmuPage 1 + pmuPllstat) (fun w => clrBit w p.val)).raise (pmuPage 0) 4)) ∧
    (∀ (s : State) (ini : Ini) (b : Bool) (val : Word),
      s.passesWhole ini (pmuPage 1 + (if b then pmuFpllb else pmuFplla)) = true →
      64 ≤ fld val 0 8 →
      fld val 0 8 ≤ 128 →
      s.fpllUsed b = false →
      (fld val 0 8 != fld (s.reg (pmuPage 1 + (if b then pmuFpllb else pmuFplla))) 0 8 || (bit (s.reg (pmuPage 1 + (if b then pmuFpllb else pmuFplla))) 8 && !bit val 8)) = true →
      Takes (.fpllWrite ini b val) s (((s.setReg (pmuPage 1 + (if b then pmuFpllb else pmuFplla)) (val &&& 0x1FF)).modReg (pmuPage 1 + pmuPllstat) (fun w => clrBit w (if b then 4 else 3))).answer .ok 0)) ∧
    (∀ (s : State) (mv0 ma0 mv1 ma1 : BitVec 16) (pwr : BitVec 16) (pmbFault : Bool),
      s.railOut false mv0.toNat 30 = false →
      s.railOut true mv1.toNat 30 = false →
      pmbFault = false →
      Takes (.avsMonitor mv0 ma0 mv1 ma1 pwr pmbFault) s (((s.setReg (pmuPage 1 + pmuAvs) (BitVec.ofNat 32 (mv0.toNat + 2 ^ 16 * ma0.toNat))).setReg
        (pmuPage 1 + pmuAvs + 4) (BitVec.ofNat 32 (mv1.toNat + 2 ^ 16 * ma1.toNat))).setReg (pmuPage 1 + pmuPwr) (pwr.setWidth 32))) ∧
    (∀ (s : State) (ini : Ini) (val : Word),
      s.mayWrite ini (pmuPage 1 + pmuPmbcmd) = true →
      bit (s.actBits ini (pmuPage 1 + pmuPmbcmd) val) 31 = true →
      bit ((s.fieldWrite ini (pmuPage 1 + pmuPmbcmd) val).reg (pmuPage 1 + pmuPmbstat)) 0 = false →
      Takes (.pmbusCommand ini val) s (((s.fieldWrite ini (pmuPage 1 + pmuPmbcmd) val).setReg (pmuPage 1 + pmuPmbstat) 1).answer .ok 0)) ∧
    (∀ (s : State) (nak pec : Bool) (data : BitVec 16),
      bit (s.reg (pmuPage 1 + pmuPmbstat)) 0 = true →
      bit (s.reg (pmuPage 1 + pmuPmbcmd)) 8 = true →
      nak = false →
      Takes (.pmbusDone nak pec data) s ((s.setReg (pmuPage 1 + pmuPmbstat) (BitVec.ofNat 32 (4 * b2n pec))).setReg (pmuPage 1 + pmuPmbdata) (data.setWidth 32))) ∧
    (∀ (s : State),
      Takes (.throttleStep) s (throttleStep s)) ∧
    (∀ (s : State) (src : DrainSrc),
      src = .cmp0 →
      s.cmpOut 0 = true →
      s.pmu.mode = .run →
      Takes (.drainStart src) s (drainStart src s) ∧
        (drainStart src s).pmu.mode = .drain ∧
        (drainStart src s).pmu.drain = 1 ∧
        (drainStart src s).hif.closed = true ∧
        (drainStart src s).mgd.stop = true) ∧
    (∀ (s : State) (src : DrainSrc),
      src = .levee →
      s.pmu.drainReq = true →
      s.pmu.mode = .run →
      Takes (.drainStart src) s (drainStart src s) ∧
        (drainStart src s).pmu.mode = .drain ∧
        (drainStart src s).pmu.drain = 1 ∧
        (drainStart src s).pmu.drainReq = false) ∧
    (∀ (s : State),
      s.pmu.drain = 1 →
      (s.drainEndsLoad.regionsOff (List.range 24)).allOff (List.range 24) = true →
      Takes (.drainRegionsOff) s (drainRegionsOff s) ∧
        (drainRegionsOff s).pmu.drain = 3 ∧
        (drainRegionsOff s).fab.opq = [] ∧
        (drainRegionsOff s).pmu.jlen = fld (s.reg (pmuPage 2 + pmuDrnjlen)) 0 9) ∧
    (∀ (s : State),
      s.pmu.drain = 1 →
      (s.drainEndsLoad.regionsOff (List.range 24)).allOff (List.range 24) = false →
      Takes (.drainRegionsOff) s (s.drainEndsLoad.regionsOff (List.range 24))) ∧
    (∀ (s : State) (status : Byte) (u : State),
      s.pmu.drain = 3 →
      s.pagesDone < s.pmu.jlen →
      s.journalTarget s.pagesDone = (u, none) →
      Takes (.drainJournalPage status) s ((u.modReg (pmuPage 2 + pmuDrnstat) (fun w => setFld w 3 9 (s.pagesDone + 1))).modPmu (fun p => { p with jok := p.jok }))) ∧
    (∀ (s : State) (status : Byte) (u v : State) (m l row e : Nat) (bs : List Byte),
      s.pmu.drain = 3 →
      s.pagesDone < s.pmu.jlen →
      s.journalTarget s.pagesDone = (u, some (m, l, row)) →
      u.memRead 0x35 (bankAddr (fld (s.reg (pmuPage 2 + pmuDrncfg)) 0 8) + 16384 * s.pagesDone) 16384 = (v, .ok, bs) →
      v.inhibit m = false →
      v.tornFree = some e →
      Takes (.drainJournalPage status) s ((((v.tornIssue e m { words := [BitVec.ofNat 32 (fld (s.reg (pmuPage 2 + pmuDrnprog)) 0 11 + 2 ^ 11 + 2 ^ 15 * (l / 4) + 2 ^ 18 * (l % 4) + 2 ^ 23), BitVec.ofNat 32 row] }).modTorn e (fun x => { x with mgd := true, live := false, st := status, state := .free })).modReg
        (pmuPage 2 + pmuDrnstat) (fun w => setFld w 3 9 (s.pagesDone + 1))).modPmu (fun p => { p with jok := p.jok + b2n (!bit status 0) }))) ∧
    (∀ (s : State) (timeout : Bool) (quarterMs : BitVec 16),
      s.pmu.drain = 3 →
      s.pmu.jlen ≤ s.pagesDone →
      Takes (.drainInhibit timeout quarterMs) s (((s.setDrain 4).setReg (aonPage + aonDrnlog) (BitVec.ofNat 32 (1 + 2 * b2n (!s.pmu.holdup) + 4 * b2n s.pmu.holdup +
        2 ^ 4 * s.pmu.jok + 2 ^ 16 * quarterMs.toNat))).modPmu (fun p => { p with holdup := false }))) ∧
    (∀ (s : State),
      s.cmpOut 1 = true →
      1 ≤ s.pmu.drain →
      s.pmu.drain ≤ 3 →
      Takes (.holdupAssert) s (((s.setDrain 4).setReg (aonPage + aonDrnlog) 4).modPmu (fun p => { p with holdup := true })))

/-- Each reset, each step of the boot and each change of the power mode takes place. (R375, R381, R386, R396, R397, R398, R399, R400, R401, R402, R404, R405.) -/
def Obligations.ResetCommandsComplete : Prop :=
    (∀ (s : State) (us : BitVec 24),
      s.pmu.mode = .boot →
      s.pmu.trans = some .run →
      Takes (.modeTransitionDone us) s (((s.modPmu (fun p => { p with mode := .run, trans := none })).setReg (pmuPage 0 + pmuTrlat) (us.setWidth 32)).raise (pmuPage 0) 0)) ∧
    (∀ (s : State) (us : BitVec 24),
      s.pmu.mode = .boot →
      s.pmu.trans = some .hold →
      Takes (.modeTransitionDone us) s s.holdEntry) ∧
    (∀ (s : State),
      s.pmu.mode = .off →
      TakesAon (.aonPowerUp) s (aonPowerUp s) ∧
        (aonPowerUp s).pmu.mode = .hold ∧
        (aonPowerUp s).pmu.cause = 1 ∧
        (aonPowerUp s).fuses = s.fuses ∧
        (aonPowerUp s).pending = s.pending ∧
        (aonPowerUp s).mem = []) ∧
    (∀ (s : State),
      TakesAon (.aonPowerLoss) s (aonPowerLoss s) ∧
        (aonPowerLoss s).pmu.mode = .off ∧
        (aonPowerLoss s).fuses = s.fuses ∧
        (aonPowerLoss s).pending = s.pending ∧
        (aonPowerLoss s).mem = [] ∧
        (aonPowerLoss s).regs = State.reset.regs) ∧
    (∀ (s : State) (src : WakeSrc),
      src = .wakePin →
      s.pmu.mode = .hold →
      bit (s.reg (aonPage + aonWake)) 7 = true →
      TakesAon (.wake src) s ((s.modAon (fun a => { a with pwren := true, rise0 := false, wake := 0 })).modPmu (fun p => { p with trans := some .boot }))) ∧
    (∀ (s : State) (src : WakeSrc) (k : Fin 6),
      src = .cmp k →
      s.pmu.mode = .hold →
      bit (s.reg (aonPage + aonWake)) k.val = true →
      bit s.aon.wake k.val = true →
      TakesAon (.wake src) s ((s.modAon (fun a => { a with pwren := true, rise0 := false, wake := 0 })).modPmu (fun p => { p with trans := some .boot }))) ∧
    (∀ (s : State) (src : WakeSrc),
      src = .alarm →
      s.pmu.mode = .hold →
      bit (s.reg (aonPage + aonWake)) 6 = true →
      bit s.aon.wake 6 = true →
      TakesAon (.wake src) s ((s.modAon (fun a => { a with pwren := true, rise0 := false, wake := 0 })).modPmu (fun p => { p with trans := some .boot }))) ∧
    (∀ (s : State),
      s.pmu.mode = .hold →
      s.aon.pwren = true →
      TakesAon (.pgMainRise) s (s.modPmu (fun p => { p with cold := some 2 }))) ∧
    (∀ (s : State),
      s.pmu.drain = 4 →
      bit (s.reg (aonPage + aonDrnlog)) 0 = true →
      Takes (.drainPowerOff) s s.holdEntry) ∧
    (∀ (s : State) (straps : BitVec 16) (fuses : FuseRead) (cause : Nat),
      s.pmu.cold = some cause →
      TakesAon (.coldReset straps fuses) s (s.coldReset cause straps.toNat fuses.bad)) ∧
    (∀ (s : State),
      s.pmu.mode ≠ .drain →
      Takes (.sysrst) s { s with pmu := { s.pmu with cold := some (s.pmu.cold.getD 3), warm := none, deferred := false }, mgd := { s.mgd with defer := false } }) ∧
    (∀ (s : State) (ini : Ini) (val : Word),
      s.mayWrite ini (pmuPage 0 + pmuRstreq) = true →
      bit (s.actBits ini (pmuPage 0 + pmuRstreq) val) 0 = true →
      bit (s.actBits ini (pmuPage 0 + pmuRstreq) val) 1 = false →
      ini = levee →
      Takes (.coldResetRequest ini val) s (((s.fieldWrite ini (pmuPage 0 + pmuRstreq) val).requestCold 4).answer .ok 0)) ∧
    (∀ (s : State) (ini : Ini) (val : Word),
      s.mayWrite ini (pmuPage 0 + pmuRstreq) = true →
      bit (s.actBits ini (pmuPage 0 + pmuRstreq) val) 0 = false →
      bit (s.actBits ini (pmuPage 0 + pmuRstreq) val) 1 = true →
      Takes (.warmResetRequest ini val) s (((s.fieldWrite ini (pmuPage 0 + pmuRstreq) val).requestWarm (if ini = levee then 5 else 6)).answer .ok 0)) ∧
    (∀ (s : State),
      s.pmu.warm.isSome = true →
      s.pmu.deferred = false →
      Takes (.warmResetDeferral) s ((s.deferBegin).modPmu (fun p => { p with deferred := true }))) ∧
    (∀ (s : State)  (cause : Nat),
      s.pmu.warm = some cause →
      s.pmu.deferred = true →
      s.mgd.defer = false →
      s.dma.all (fun d => !d.2.outstanding) = true →
      Takes (.warmResetAssert) s (s.warmReset cause)) ∧
    (∀ (s : State) (ini : Ini) (val : Word),
      s.mayWrite ini (pmuPage 0 + pmuFrgrst) = true →
      (s.actBits ini (pmuPage 0 + pmuFrgrst) val).toNat % 2 ^ 24 ≠ 0 →
      (s.fieldWrite ini (pmuPage 0 + pmuFrgrst) val).resetting = false →
      (s.fieldWrite ini (pmuPage 0 + pmuFrgrst) val).pmu.mode = .run →
      Takes (.fabricRegionReset ini val) s ((((List.range 24).filter (fun i => bit (s.actBits ini (pmuPage 0 + pmuFrgrst) val) i)).foldl State.regionReset (s.fieldWrite ini (pmuPage 0 + pmuFrgrst) val)).answer .ok 0)) ∧
    (∀ (s : State) (ini : Ini) (val : Word),
      s.mayWrite ini (pmuPage 0 + pmuCorerst) = true →
      (s.actBits ini (pmuPage 0 + pmuCorerst) val).toNat % 2 ^ 4 ≠ 0 →
      (s.fieldWrite ini (pmuPage 0 + pmuCorerst) val).resetting = false →
      (s.fieldWrite ini (pmuPage 0 + pmuCorerst) val).pmu.mode = .run →
      Takes (.coreReset ini val) s ((((List.range 4).filter (fun i => bit (s.actBits ini (pmuPage 0 + pmuCorerst) val) i)).foldl State.coreReset (s.fieldWrite ini (pmuPage 0 + pmuCorerst) val)).answer .ok 0)) ∧
    (∀ (s : State) (outcome : BootOutcome),
      s.runBank 0 = some 0 →
      s.pmu.mode = .boot →
      s.pmu.fwIn = false →
      s.pmu.recov = false →
      s.rsvr.wipe = false →
      s.lcState = 0 →
      Takes (.bootRom outcome) s s.toRecovery) ∧
    (∀ (s : State) (outcome : BootOutcome),
      s.runBank 0 = some 0 →
      s.pmu.mode = .boot →
      s.pmu.fwIn = false →
      s.pmu.recov = false →
      s.rsvr.wipe = false →
      s.lcState = 5 →
      Takes (.bootRom outcome) s (s.bootstat 0 8 0x87)) ∧
    (∀ (s : State) (outcome : BootOutcome) (l : List Byte) (cb : Byte) (u : State),
      s.runBank 0 = some 0 →
      s.pmu.mode = .boot →
      s.pmu.fwIn = false →
      s.pmu.recov = false →
      s.rsvr.wipe = false →
      s.lcState ≠ 0 →
      s.lcState ≠ 5 →
      fld (s.reg (pmuPage 0 + pmuStrap)) 10 3 < 4 →
      bit (s.reg (pmuPage 0 + pmuStrap)) 2 = true →
      outcome = ⟨.image l, .fail cb⟩ →
      cb.toNat ≠ 0 →
      u = s.bootStart.bootChannel (fld (s.reg (pmuPage 0 + pmuStrap)) 3 5) (.image l) →
      Takes (.bootRom outcome) s (if u.imageCode l false = 0 then (u.bootPages (.image l)).enterFirmware l (7 + 2 ^ 5 + 2 ^ 6 * b2n (fld (s.reg (pmuPage 0 + pmuStrap)) 8 2 != 3))
      else (((((u.bootPages (.image l)).bootstat 8 8 (u.imageCode l false)).bootChannel (((fld (s.reg (pmuPage 0 + pmuStrap)) 3 5) + 1) % 32) (.fail cb)).bootPages (.fail cb)).bootstat 16 8 cb.toNat).toRecovery)) ∧
    (∀ (s : State) (outcome : BootOutcome) (l : List Byte) (ca : Byte) (u : State),
      s.runBank 0 = some 0 →
      s.pmu.mode = .boot →
      s.pmu.fwIn = false →
      s.pmu.recov = false →
      s.rsvr.wipe = false →
      s.lcState ≠ 0 →
      s.lcState ≠ 5 →
      fld (s.reg (pmuPage 0 + pmuStrap)) 10 3 < 4 →
      bit (s.reg (pmuPage 0 + pmuStrap)) 2 = true →
      outcome = ⟨.fail ca, .image l⟩ →
      ca.toNat ≠ 0 →
      u = ((((s.bootStart.bootChannel (fld (s.reg (pmuPage 0 + pmuStrap)) 3 5) (.fail ca)).bootPages (.fail ca)).bootstat 8 8 ca.toNat).bootChannel (((fld (s.reg (pmuPage 0 + pmuStrap)) 3 5) + 1) % 32) (.image l)).bootPages (.image l) →
      Takes (.bootRom outcome) s (if u.imageCode l false = 0 then (u.enterFirmware l (7 + 2 ^ 5 + 2 ^ 6 * b2n (fld (s.reg (pmuPage 0 + pmuStrap)) 8 2 != 3))).bootstat 24 1 1
      else (u.bootstat 16 8 (u.imageCode l false)).toRecovery)) ∧
    (∀ (s : State) (outcome : BootOutcome) (ca cb : Byte) (u : State),
      s.runBank 0 = some 0 →
      s.pmu.mode = .boot →
      s.pmu.fwIn = false →
      s.pmu.recov = false →
      s.rsvr.wipe = false →
      s.lcState ≠ 0 →
      s.lcState ≠ 5 →
      fld (s.reg (pmuPage 0 + pmuStrap)) 10 3 < 4 →
      bit (s.reg (pmuPage 0 + pmuStrap)) 2 = true →
      outcome = ⟨.fail ca, .fail cb⟩ →
      ca.toNat ≠ 0 →
      cb.toNat ≠ 0 →
      u = (((s.bootStart.bootChannel (fld (s.reg (pmuPage 0 + pmuStrap)) 3 5) (.fail ca)).bootPages (.fail ca)).bootstat 8 8 ca.toNat).bootChannel (((fld (s.reg (pmuPage 0 + pmuStrap)) 3 5) + 1) % 32) (.fail cb) →
      Takes (.bootRom outcome) s (((u.bootPages (.fail cb)).bootstat 16 8 cb.toNat).toRecovery)) ∧
    (∀ (s : State),
      s.pmu.recov = true →
      s.pmu.mode = .boot →
      (s.runBank 0).isSome = true →
      bit (s.reg (sysPage + hEvtRaw)) 0 = true →
      (s.reg (sysPage + sysMbox)).toNat = 1 →
      Takes (.recoveryChunk) s ((s.modPmu (fun p => { p with area := (List.range 64).foldl (fun t i => tset 0 t ((s.reg (sysPage + sysMbox + 4)).toNat + i) (BitVec.ofNat 8 (fld (s.reg (sysPage + sysMbox + 4 * (16 + i / 4))) (8 * (i % 4)) 8))) p.area })).setReg
        (sysPage + sysMbox) 0)) ∧
    (∀ (s : State),
      s.pmu.recov = true →
      s.pmu.mode = .boot →
      (s.runBank 0).isSome = true →
      bit (s.reg (sysPage + hEvtRaw)) 0 = true →
      (s.reg (sysPage + sysMbox)).toNat = 2 →
      s.lcState = 0 →
      Takes (.recoveryEnd) s ((if s.imageCode s.areaImage false = 0 then (s.enterFirmware s.areaImage 7).bootstat 24 1 1 else s.toRecovery).setReg (sysPage + sysMbox) 0))

/-- Each event of the levee and each command of the security block takes place. (R408, R409, R410, R411, R412, R414, R416, R419, R427, R428, R429, R430.) -/
def Obligations.LeveeCommandsComplete : Prop :=
    (∀ (s : State),
      Takes (.lockstepMismatch) s ((s.modLve (fun x => { x with lockstep := true })).lastFault 1 0)) ∧
    (∀ (s : State),
      s.lve.lockstep = true →
      s.pmu.mode ≠ .drain →
      Takes (.lockstepColdReset) s { s with pmu := { s.pmu with cold := some (s.pmu.cold.getD 4), warm := none, deferred := false }, mgd := { s.mgd with defer := false } }) ∧
    (∀ (s : State),
      Takes (.selfWatchdog) s ((s.modLve (fun x => { x with lockstep := true })).lastFault 2 0)) ∧
    (∀ (s : State) (ini : Ini) (val : Word),
      s.mayWrite ini (lvePg + lveSelfkick) = true →
      Takes (.selfkick ini val) s ((s.fieldWrite ini (lvePg + lveSelfkick) val).answer .ok 0)) ∧
    (∀ (s : State) (c : Core),
      s.wdRuns c.val = true →
      bit s.lve.wd1 c.val = false →
      Takes (.watchdogFirst c) s (((s.modLve (fun x => { x with wd1 := setBit x.wd1 c.val })).modReg (lvePg + lveWdstat) (fun w => setBit w c.val)).raise lvePg 0)) ∧
    (∀ (s : State) (c : Core),
      s.wdRuns c.val = true →
      bit s.lve.wd1 c.val = true →
      bit (s.reg (lvePg + lveWdcfg)) 5 = false →
      s.resetting = false →
      s.pmu.mode ≠ .drain →
      Takes (.watchdogSecond c) s (((s.lastFault 3 c.val).wdRestart c.val).coreReset c.val)) ∧
    (∀ (s : State),
      bit (s.reg (lvePg + lveWdcfg)) 4 = true →
      s.htsStuck = true →
      Takes (.htsWatchdog) s (((s.lastFault 4 0).raise lvePg 1).requestWarm 7)) ∧
    (∀ (s : State),
      bit (s.reg (lvePg + lveTrip)) 8 = true →
      (fld (s.reg (lvePg + lveTrip)) 0 8 : Int) ≤ s.dieTemp →
      Takes (.thermalTrip) s (((s.lowerCause.lastFault 5 0).raise lvePg 2).requestDrain)) ∧
    (∀ (s : State) (mv : BitVec 16) (rail : Bool),
      bit (s.reg (lvePg + lveVmon)) 0 = true →
      s.railOut rail mv.toNat (fld (s.reg (lvePg + lveVmon)) 8 8) = true →
      Takes (.voltageFault mv rail) s (((s.lastFault 6 0).raise lvePg 3).requestDrain)) ∧
    (∀ (s : State),
      Takes (.leveeSramError) s ((s.modLve (fun x => { x with lockstep := true })).lastFault 7 0)) ∧
    (∀ (s : State) (ini : Ini) (val : Word),
      s.mayWrite ini (lvePg + lveCtrl) = true →
      bit (s.actBits ini (lvePg + lveCtrl) val) 0 = true →
      Takes (.leveeDrainRequest ini val) s ((s.fieldWrite ini (lvePg + lveCtrl) val).requestDrain.answer .ok 0)) ∧
    (∀ (s : State) (ini : Ini) (val : Word),
      s.mayWrite ini (lvePg + lveAlogctl) = true →
      bit (s.actBits ini (lvePg + lveAlogctl) val) 0 = true →
      Takes (.alogPop ini val) s (((s.fieldWrite ini (lvePg + lveAlogctl) val).modLve (fun x => { x with alog := x.alog.tail })).answer .ok 0)) ∧
    (∀ (s : State) (ini : Ini) (fresh : BitVec 256),
      s.mayWrite ini (secPage + Machine.secCmd) = true →
      bit (s.actBits ini (secPage + Machine.secCmd) (BitVec.ofNat 32 (1 + 2 ^ 31))) 31 = true →
      fld (s.actBits ini (secPage + Machine.secCmd) (BitVec.ofNat 32 (1 + 2 ^ 31))) 0 4 = 1 →
      Takes (.nonce ini fresh) s (((s.fieldWrite ini (secPage + Machine.secCmd) (BitVec.ofNat 32 (1 + 2 ^ 31))).secNonceLoad fresh).answer .ok 0)) ∧
    (∀ (s : State) (ini : Ini),
      s.mayWrite ini (secPage + Machine.secCmd) = true →
      bit (s.actBits ini (secPage + Machine.secCmd) (BitVec.ofNat 32 (2 + 2 ^ 31))) 31 = true →
      fld (s.actBits ini (secPage + Machine.secCmd) (BitVec.ofNat 32 (2 + 2 ^ 31))) 0 4 = 2 →
      Takes (.enroll ini) s (((s.fieldWrite ini (secPage + Machine.secCmd) (BitVec.ofNat 32 (2 + 2 ^ 31))).secEnroll).answer .ok 0)) ∧
    (∀ (s : State) (ini : Ini),
      s.mayWrite ini (secPage + Machine.secCmd) = true →
      bit (s.actBits ini (secPage + Machine.secCmd) (BitVec.ofNat 32 (3 + 2 ^ 31))) 31 = true →
      fld (s.actBits ini (secPage + Machine.secCmd) (BitVec.ofNat 32 (3 + 2 ^ 31))) 0 4 = 3 →
      Takes (.revoke ini) s (((s.fieldWrite ini (secPage + Machine.secCmd) (BitVec.ofNat 32 (3 + 2 ^ 31))).secRevoke).answer .ok 0)) ∧
    (∀ (s : State) (ini : Ini),
      s.mayWrite ini (secPage + Machine.secCmd) = true →
      bit (s.actBits ini (secPage + Machine.secCmd) (BitVec.ofNat 32 (4 + 2 ^ 31))) 31 = true →
      fld (s.actBits ini (secPage + Machine.secCmd) (BitVec.ofNat 32 (4 + 2 ^ 31))) 0 4 = 4 →
      Takes (.lcreq ini) s (((s.fieldWrite ini (secPage + Machine.secCmd) (BitVec.ofNat 32 (4 + 2 ^ 31))).secLcreq).answer .ok 0)) ∧
    (∀ (s : State) (ini : Ini),
      s.mayWrite ini (secPage + Machine.secCmd) = true →
      bit (s.actBits ini (secPage + Machine.secCmd) (BitVec.ofNat 32 (5 + 2 ^ 31))) 31 = true →
      fld (s.actBits ini (secPage + Machine.secCmd) (BitVec.ofNat 32 (5 + 2 ^ 31))) 0 4 = 5 →
      Takes (.dbgtok ini) s (((s.fieldWrite ini (secPage + Machine.secCmd) (BitVec.ofNat 32 (5 + 2 ^ 31))).secToken).answer .ok 0)) ∧
    (∀ (s : State) (ini : Ini),
      s.mayWrite ini (secPage + Machine.secCmd) = true →
      bit (s.actBits ini (secPage + Machine.secCmd) (BitVec.ofNat 32 (6 + 2 ^ 31))) 31 = true →
      fld (s.actBits ini (secPage + Machine.secCmd) (BitVec.ofNat 32 (6 + 2 ^ 31))) 0 4 = 6 →
      Takes (.unwrap ini) s (((s.fieldWrite ini (secPage + Machine.secCmd) (BitVec.ofNat 32 (6 + 2 ^ 31))).secUnwrap).answer .ok 0)) ∧
    (∀ (s : State) (ini : Ini),
      s.mayWrite ini (secPage + Machine.secCmd) = true →
      bit (s.actBits ini (secPage + Machine.secCmd) (BitVec.ofNat 32 (7 + 2 ^ 31))) 31 = true →
      fld (s.actBits ini (secPage + Machine.secCmd) (BitVec.ofNat 32 (7 + 2 ^ 31))) 0 4 = 7 →
      Takes (.keyerase ini) s (((s.fieldWrite ini (secPage + Machine.secCmd) (BitVec.ofNat 32 (7 + 2 ^ 31))).secKeyErase).answer .ok 0)) ∧
    (∀ (s : State) (ini : Ini),
      s.mayWrite ini (secPage + Machine.secCmd) = true →
      bit (s.actBits ini (secPage + Machine.secCmd) (BitVec.ofNat 32 (8 + 2 ^ 31))) 31 = true →
      fld (s.actBits ini (secPage + Machine.secCmd) (BitVec.ofNat 32 (8 + 2 ^ 31))) 0 4 = 8 →
      Takes (.fwsvn ini) s (((s.fieldWrite ini (secPage + Machine.secCmd) (BitVec.ofNat 32 (8 + 2 ^ 31))).secFwAdvance).answer .ok 0)) ∧
    (∀ (s : State) (ini : Ini),
      s.mayWrite ini (secPage + Machine.secCmd) = true →
      bit (s.actBits ini (secPage + Machine.secCmd) (BitVec.ofNat 32 (9 + 2 ^ 31))) 31 = true →
      fld (s.actBits ini (secPage + Machine.secCmd) (BitVec.ofNat 32 (9 + 2 ^ 31))) 0 4 = 9 →
      Takes (.sksvn ini) s (((s.fieldWrite ini (secPage + Machine.secCmd) (BitVec.ofNat 32 (9 + 2 ^ 31))).secSkAdvance).answer .ok 0)) ∧
    (∀ (s : State) (ini : Ini),
      s.mayWrite ini (secPage + Machine.secCmd) = true →
      bit (s.actBits ini (secPage + Machine.secCmd) (BitVec.ofNat 32 (10 + 2 ^ 31))) 31 = true →
      fld (s.actBits ini (secPage + Machine.secCmd) (BitVec.ofNat 32 (10 + 2 ^ 31))) 0 4 = 10 →
      Takes (.lvload ini) s (((s.fieldWrite ini (secPage + Machine.secCmd) (BitVec.ofNat 32 (10 + 2 ^ 31))).secLvload).answer .ok 0)) ∧
    (∀ (s : State) (ini : Ini),
      s.mayWrite ini (secPage + Machine.secCmd) = true →
      bit (s.actBits ini (secPage + Machine.secCmd) (BitVec.ofNat 32 (11 + 2 ^ 31))) 31 = true →
      fld (s.actBits ini (secPage + Machine.secCmd) (BitVec.ofNat 32 (11 + 2 ^ 31))) 0 4 = 11 →
      Takes (.cert ini) s (((s.fieldWrite ini (secPage + Machine.secCmd) (BitVec.ofNat 32 (11 + 2 ^ 31))).secCert).answer .ok 0)) ∧
    (∀ (s : State),
      s.aon.mesh = true →
      s.powered = false →
      TakesAon (.tamperEvent) s (((s.modAon (fun a => { a with mesh := false })).modReg (secPage + secTamper) (fun w => setBit w 0)).countUp (secPage + secTamper) 8 8 1)) ∧
    (∀ (s : State),
      s.aon.mesh = true →
      s.powered = true →
      TakesAon (.tamperEvent) s (tamperEvent s) ∧
        (tamperEvent s).rsvr.swReq = true ∧
        (tamperEvent s).sec.dbg = false ∧
        (tamperEvent s).fcc.sess = false ∧
        (tamperEvent s).medc.keys = [] ∧
        (tamperEvent s).aon.mesh = false) ∧
    (∀ (s : State) (ini : Ini) (val : Word),
      s.passesWhole ini (secPage + secTamper) = true →
      bit val 0 = true →
      s.cmpOut 3 = false →
      Takes (.tamperClear ini val) s ((s.modReg (secPage + secTamper) (fun w => clrBit w 0)).answer .ok 0))

/-- A request whose length and code are right is answered and moves the responder on; in another phase it is answered with an error; the session number that KEY_EXCHANGE gives is a free value. (R430, R431.) -/
def Obligations.SpdmRequestsComplete : Prop :=
    (∀ (s : State) (msg : List Byte),
      4 ≤ msg.length →
      msg.length ≤ 4096 →
      (msg.getD 1 0).toNat = 132 →
      Takes (.getVersion msg) s ((((s.freeNat (2 ^ 32)).2).spdmAnswer 132 4 msg).modSec (fun y => { y with spdm := (fun x : Spdm => { x with phase := 1, session := 0 }) y.spdm }))) ∧
    (∀ (s : State) (msg : List Byte),
      4 ≤ msg.length →
      msg.length ≤ 4096 →
      (msg.getD 1 0).toNat = 225 →
      s.sec.spdm.phase = 1 →
      Takes (.getCapabilities msg) s ((((s.freeNat (2 ^ 32)).2).spdmAnswer 225 97 msg).modSec (fun y => { y with spdm := (fun x : Spdm => { x with phase := 2 }) y.spdm }))) ∧
    (∀ (s : State) (msg : List Byte),
      4 ≤ msg.length →
      msg.length ≤ 4096 →
      (msg.getD 1 0).toNat = 225 →
      s.sec.spdm.phase ≠ 1 →
      Takes (.getCapabilities msg) s (s.spdmError 4)) ∧
    (∀ (s : State) (msg : List Byte),
      4 ≤ msg.length →
      msg.length ≤ 4096 →
      (msg.getD 1 0).toNat = 227 →
      s.sec.spdm.phase = 2 →
      Takes (.negotiateAlgorithms msg) s ((((s.freeNat (2 ^ 32)).2).spdmAnswer 227 99 msg).modSec (fun y => { y with spdm := (fun x : Spdm => { x with phase := 3 }) y.spdm }))) ∧
    (∀ (s : State) (msg : List Byte),
      4 ≤ msg.length →
      msg.length ≤ 4096 →
      (msg.getD 1 0).toNat = 227 →
      s.sec.spdm.phase ≠ 2 →
      Takes (.negotiateAlgorithms msg) s (s.spdmError 4)) ∧
    (∀ (s : State) (msg : List Byte),
      4 ≤ msg.length →
      msg.length ≤ 4096 →
      (msg.getD 1 0).toNat = 129 →
      s.sec.spdm.phase = 3 →
      Takes (.getDigests msg) s ((((s.freeNat (2 ^ 32)).2).spdmAnswer 129 1 msg).modSec (fun y => { y with spdm := (fun x : Spdm => x) y.spdm }))) ∧
    (∀ (s : State) (msg : List Byte),
      4 ≤ msg.length →
      msg.length ≤ 4096 →
      (msg.getD 1 0).toNat = 129 →
      s.sec.spdm.phase ≠ 3 →
      Takes (.getDigests msg) s (s.spdmError 4)) ∧
    (∀ (s : State) (msg : List Byte),
      4 ≤ msg.length →
      msg.length ≤ 4096 →
      (msg.getD 1 0).toNat = 130 →
      s.sec.spdm.phase = 3 →
      Takes (.getCertificate msg) s ((((s.freeNat (2 ^ 32)).2).spdmAnswer 130 2 msg).modSec (fun y => { y with spdm := (fun x : Spdm => x) y.spdm }))) ∧
    (∀ (s : State) (msg : List Byte),
      4 ≤ msg.length →
      msg.length ≤ 4096 →
      (msg.getD 1 0).toNat = 130 →
      s.sec.spdm.phase ≠ 3 →
      Takes (.getCertificate msg) s (s.spdmError 4)) ∧
    (∀ (s : State) (msg : List Byte),
      4 ≤ msg.length →
      msg.length ≤ 4096 →
      (msg.getD 1 0).toNat = 131 →
      s.sec.spdm.phase = 3 →
      Takes (.challenge msg) s ((((s.freeNat (2 ^ 32)).2).spdmAnswer 131 3 msg).modSec (fun y => { y with spdm := (fun x : Spdm => x) y.spdm }))) ∧
    (∀ (s : State) (msg : List Byte),
      4 ≤ msg.length →
      msg.length ≤ 4096 →
      (msg.getD 1 0).toNat = 131 →
      s.sec.spdm.phase ≠ 3 →
      Takes (.challenge msg) s (s.spdmError 4)) ∧
    (∀ (s : State) (msg : List Byte),
      4 ≤ msg.length →
      msg.length ≤ 4096 →
      (msg.getD 1 0).toNat = 224 →
      s.sec.spdm.phase = 3 →
      Takes (.getMeasurements msg) s ((((s.freeNat (2 ^ 32)).2).spdmAnswer 224 96 msg).modSec (fun y => { y with spdm := (fun x : Spdm => x) y.spdm }))) ∧
    (∀ (s : State) (msg : List Byte),
      4 ≤ msg.length →
      msg.length ≤ 4096 →
      (msg.getD 1 0).toNat = 224 →
      s.sec.spdm.phase ≠ 3 →
      Takes (.getMeasurements msg) s (s.spdmError 4)) ∧
    (∀ (s : State) (msg : List Byte),
      4 ≤ msg.length →
      msg.length ≤ 4096 →
      (msg.getD 1 0).toNat = 228 →
      s.sec.spdm.phase = 3 →
      Takes (.keyExchange msg) s ((((s.freeNat (2 ^ 32)).2).spdmAnswer 228 100 msg).modSec (fun y => { y with spdm := (fun x : Spdm => { x with session := 1, sid := (s.freeNat (2 ^ 32)).1 }) y.spdm }))) ∧
    (∀ (s : State) (msg : List Byte),
      4 ≤ msg.length →
      msg.length ≤ 4096 →
      (msg.getD 1 0).toNat = 228 →
      s.sec.spdm.phase ≠ 3 →
      Takes (.keyExchange msg) s (s.spdmError 4)) ∧
    (∀ (s : State) (msg : List Byte),
      4 ≤ msg.length →
      msg.length ≤ 4096 →
      (msg.getD 1 0).toNat = 229 →
      s.sec.spdm.session = 1 →
      Takes (.finish msg) s ((((s.freeNat (2 ^ 32)).2).spdmAnswer 229 101 msg).modSec (fun y => { y with spdm := (fun x : Spdm => { x with session := 2 }) y.spdm }))) ∧
    (∀ (s : State) (msg : List Byte),
      4 ≤ msg.length →
      msg.length ≤ 4096 →
      (msg.getD 1 0).toNat = 229 →
      s.sec.spdm.session ≠ 1 →
      Takes (.finish msg) s (s.spdmError 4)) ∧
    (∀ (s : State) (msg : List Byte),
      4 ≤ msg.length →
      msg.length ≤ 4096 →
      (msg.getD 1 0).toNat = 232 →
      s.sec.spdm.session = 2 →
      Takes (.heartbeat msg) s ((((s.freeNat (2 ^ 32)).2).spdmAnswer 232 104 msg).modSec (fun y => { y with spdm := (fun x : Spdm => x) y.spdm }))) ∧
    (∀ (s : State) (msg : List Byte),
      4 ≤ msg.length →
      msg.length ≤ 4096 →
      (msg.getD 1 0).toNat = 232 →
      s.sec.spdm.session ≠ 2 →
      Takes (.heartbeat msg) s (s.spdmError 4)) ∧
    (∀ (s : State) (msg : List Byte),
      4 ≤ msg.length →
      msg.length ≤ 4096 →
      (msg.getD 1 0).toNat = 233 →
      s.sec.spdm.session = 2 →
      Takes (.keyUpdate msg) s ((((s.freeNat (2 ^ 32)).2).spdmAnswer 233 105 msg).modSec (fun y => { y with spdm := (fun x : Spdm => x) y.spdm }))) ∧
    (∀ (s : State) (msg : List Byte),
      4 ≤ msg.length →
      msg.length ≤ 4096 →
      (msg.getD 1 0).toNat = 233 →
      s.sec.spdm.session ≠ 2 →
      Takes (.keyUpdate msg) s (s.spdmError 4)) ∧
    (∀ (s : State) (msg : List Byte),
      4 ≤ msg.length →
      msg.length ≤ 4096 →
      (msg.getD 1 0).toNat = 236 →
      s.sec.spdm.session = 2 →
      Takes (.endSession msg) s ((((s.freeNat (2 ^ 32)).2).spdmAnswer 236 108 msg).modSec (fun y => { y with spdm := (fun x : Spdm => { x with session := 0 }) y.spdm }))) ∧
    (∀ (s : State) (msg : List Byte),
      4 ≤ msg.length →
      msg.length ≤ 4096 →
      (msg.getD 1 0).toNat = 236 →
      s.sec.spdm.session ≠ 2 →
      Takes (.endSession msg) s (s.spdmError 4))

/-- Each access that crosses the host link and each event of the link takes place. (R433, R436, R438, R439, R441, R443, R445, R446, R448, R451, R453, R456.) -/
def Obligations.HostCommandsComplete : Prop :=
    (∀ (s : State) (ini : Ini) (val : Word),
      s.mayWrite ini (hifPage 0 + hifMsix) = true →
      (s.actBits ini (hifPage 0 + hifMsix) val).toNat ≤ 2047 →
      Takes (.msixSend ini val) s (((s.fieldWrite ini (hifPage 0 + hifMsix) val).msix (s.actBits ini (hifPage 0 + hifMsix) val).toNat).answer .ok 0)) ∧
    (∀ (s : State) (ini : Ini) (val : Word),
      s.mayWrite ini (hifPage 0 + hifMsix) = true →
      2047 < (s.actBits ini (hifPage 0 + hifMsix) val).toNat →
      Takes (.msixSend ini val) s (((s.fieldWrite ini (hifPage 0 + hifMsix) val).raise (hifPage 0) 7).answer .ok 0)) ∧
    (∀ (s : State) (v : Option (Fin 2048)) (fn : Fin 65) (mask : Bool) (x : Fin 2048),
      v = some x →
      Takes (.msixMaskChange v fn mask) s ((s.modHif (fun h => { h with unmasked := tset false h.unmasked x.val !mask })).pbaFlush (fun w => w == x.val))) ∧
    (∀ (s : State) (v : Option (Fin 2048)) (fn : Fin 65) (mask : Bool),
      v = none →
      Takes (.msixMaskChange v fn mask) s ((s.modHif (fun h => { h with fmask := tset false h.fmask fn.val mask, msixEn := tset false h.msixEn fn.val true })).pbaFlush (fun w => vectorFn w == fn.val))) ∧
    (∀ (s : State) (ini : Ini) (addr : BitVec 48) (wr : Bool) (n : BitVec 10) (o f h m : Nat) (ide : Option Nat) (e : OutReq),
      s.target addr.toNat = .host o →
      s.linkUp = true →
      s.pmu.mode ≠ .drain →
      s.outTarget addr.toNat = some (f, h, m, ide) →
      wr = false →
      e = ⟨s.outTag, ini, nfld addr.toNat 8 2, f, h, 0, n.toNat, m, ide, s.outTxn ini addr.toNat wr, false⟩ →
      Takes (.outboundAccess ini addr wr n) s ((s.wakeLink.modHif (fun x => { x with out := { x.out with req := some e } })).modHif (fun x => { x with outq := x.outq ++ [e] }))) ∧
    (∀ (s : State) (ini : Ini) (addr : BitVec 48) (wr : Bool) (n : BitVec 10) (o f h m : Nat) (ide : Option Nat) (e : OutReq),
      s.target addr.toNat = .host o →
      s.linkUp = true →
      s.pmu.mode ≠ .drain →
      s.outTarget addr.toNat = some (f, h, m, ide) →
      wr = true →
      m = 0 →
      e = ⟨s.outTag, ini, nfld addr.toNat 8 2, f, h, 1, n.toNat, m, ide, s.outTxn ini addr.toNat wr, false⟩ →
      Takes (.outboundAccess ini addr wr n) s ((s.wakeLink.modHif (fun x => { x with out := { x.out with req := some e } })).outAnswer (s.outTxn ini addr.toNat wr) .ok [])) ∧
    (∀ (s : State) (ini : Ini) (addr : BitVec 48) (wr : Bool) (n : BitVec 10) (o : Nat),
      s.target addr.toNat = .host o →
      s.linkUp = false →
      Takes (.outboundAccess ini addr wr n) s (s.outAnswer (s.outTxn ini addr.toNat wr) .slvErr [])) ∧
    (∀ (s : State) (ini : Ini) (addr : BitVec 48) (o f h m : Nat) (ide : Option Nat) (e : OutReq),
      s.target addr.toNat = .host o →
      s.linkUp = true →
      s.pmu.mode ≠ .drain →
      s.outTarget addr.toNat = some (f, h, m, ide) →
      e = ⟨s.outTag, ini, nfld addr.toNat 8 2, f, h, 2, 0, m, ide, s.outTxn ini addr.toNat false, false⟩ →
      Takes (.hostFlush ini addr) s ((s.wakeLink.modHif (fun x => { x with outq := x.outq ++ [e], out := { x.out with req := some e } })).flushSettle)) ∧
    (∀ (s : State) (tag : Nat) (ok : Bool) (data : List Byte) (e : OutReq),
      s.hif.outq.find? (fun e => e.tag == tag) = some e →
      e.kind = 2 →
      ok = true →
      Takes (.hostCompletion tag ok data) s ((s.modHif (fun x => { x with outq := x.outq.map (fun y => if y.tag = tag then { y with got := true } else y) })).flushSettle)) ∧
    (∀ (s : State) (tag : Nat) (ok : Bool) (data : List Byte) (e : OutReq),
      s.hif.outq.find? (fun e => e.tag == tag) = some e →
      e.kind ≠ 2 →
      Takes (.hostCompletion tag ok data) s (((s.modHif (fun x => { x with outq := x.outq.filter (fun y => y.tag != tag) })).outAnswer e.key (if ok then .ok else .slvErr) data).flushSettle)) ∧
    (∀ (s : State) (line : BitVec 42),
      s.linkUp = true →
      Takes (.snoopResponse line) s (s.modHif (fun x => { x with out := { x.out with snp := some line.toNat } }))) ∧
    (∀ (s : State) (req : CxlReq) (dpa : BitVec 36) (data : BitVec 512) (mask : BitVec 64) (a : Nat),
      req = .write →
      s.linkUp = true →
      s.pmu.mode ≠ .drain →
      s.hdmAddr dpa.toNat = some a →
      s.hostWaits a = false →
      s.drcNext = none →
      s.inCarve (a - dramBase) = false →
      Takes (.cxlMemRequest req dpa data mask) s ((s.writeLine (a / 64) data (BitVec.allOnes 64) 0).setMark (a / 64) .none)) ∧
    (∀ (s : State) (req : CxlReq) (dpa : BitVec 36) (data : BitVec 512) (mask : BitVec 64) (a : Nat) (u : State),
      req = .writePartial →
      s.linkUp = true →
      s.pmu.mode ≠ .drain →
      s.hdmAddr dpa.toNat = some a →
      s.hostWaits a = false →
      s.drcNext = none →
      s.inCarve (a - dramBase) = false →
      mask ≠ BitVec.allOnes 64 →
      s.checkLine 0x21 a = (u, true) →
      Takes (.cxlMemRequest req dpa data mask) s ((u.writeLine (a / 64) data mask 0).setMark (a / 64) .none)) ∧
    (∀ (s : State) (req : CxlReq) (dpa : BitVec 36) (data : BitVec 512) (mask : BitVec 64) (a : Nat) (u : State),
      req ≠ .write →
      req ≠ .writePartial →
      req ≠ .readCache →
      s.linkUp = true →
      s.pmu.mode ≠ .drain →
      s.hdmAddr dpa.toNat = some a →
      s.hostWaits a = false →
      s.drcNext = none →
      s.inCarve (a - dramBase) = false →
      s.checkLine 0x21 a = (u, true) →
      Takes (.cxlMemRequest req dpa data mask) s (u.modHif (fun x => { x with out := { x.out with drs := some (u.readLine (a / 64), false) } }))) ∧
    (∀ (s : State) (req : CxlReq) (dpa : BitVec 36) (data : BitVec 512) (mask : BitVec 64) (a : Nat),
      req = .readCache →
      s.linkUp = true →
      s.pmu.mode ≠ .drain →
      s.hdmAddr dpa.toNat = some a →
      s.hostWaits a = false →
      s.drcNext = none →
      Takes (.cxlMemRequest req dpa data mask) s (match s.filterVictim (a / 64) with
      | some v => if s.drc.bi.any (fun e => e.line == v) then s else s.biSend { line := v, key := none, enter := some (a / 64) }
      | none => (s.filterAdd (a / 64)).hostRead a)) ∧
    (∀ (s : State) (dpa : BitVec 36) (a : Nat),
      s.hdmAddr dpa.toNat = some a →
      Takes (.hostLineRelease dpa) s (s.modDrc (fun d => { d with filter := d.filter.filter (fun x => x != a / 64) }))) ∧
    (∀ (s : State) (k : TxnKey) (x : Txn) (o l : Nat),
      s.txn k = some x →
      s.target x.rsv.addr.toNat = .dram o →
      s.heldLine x = some l →
      x.stage = .atBlock →
      (s.drc.bi.all (fun e => e.line != l)) = true →
      Takes (.backInvalidate k) s (s.biSend { line := l, key := some k, enter := none })) ∧
    (∀ (s : State) (line : BitVec 42) (k : TxnKey) (x : Txn),
      s.drc.bi.find? (fun e => e.line == line.toNat && e.ended.isNone) = some { line := line.toNat, key := some k, enter := none } →
      s.txn k = some x →
      Takes (.birspReceive line) s (((s.biDrop line.toNat).modDrc (fun d => { d with filter := d.filter.filter (fun x => x != line.toNat) })).dramFlit x)) ∧
    (∀ (s : State) (line : BitVec 42) (n : Ini),
      s.drc.bi.find? (fun e => e.line == line.toNat && e.ended.isNone) = some { line := line.toNat, key := none, enter := none, unit := some n } →
      Takes (.birspReceive line) s ((s.biOver line.toNat true).modDrc (fun d => { d with filter := d.filter.filter (fun x => x != line.toNat) }))) ∧
    (∀ (s : State) (line : BitVec 42) (l : Nat),
      s.drc.bi.find? (fun e => e.line == line.toNat && e.ended.isNone) = some { line := line.toNat, key := none, enter := some l } →
      Takes (.birspReceive line) s ((((s.biDrop line.toNat).modDrc (fun d => { d with filter := d.filter.filter (fun x => x != line.toNat) })).filterAdd l).hostRead (64 * l))) ∧
    (∀ (s : State) (line : BitVec 42) (k : TxnKey) (x : Txn),
      s.drc.bi.find? (fun e => e.line == line.toNat && e.ended.isNone) = some { line := line.toNat, key := some k, enter := none } →
      (((s.biDrop line.toNat).countUp (hifPage 0 + hifBicnt) 16 16 1).raise (hifPage 0) 5).txn k = some x →
      Takes (.biTimeout line) s ((((s.biDrop line.toNat).countUp (hifPage 0 + hifBicnt) 16 16 1).raise (hifPage 0) 5).flitServed x .slvErr none none)) ∧
    (∀ (s : State) (line : BitVec 42) (n : Ini),
      s.drc.bi.find? (fun e => e.line == line.toNat && e.ended.isNone) = some { line := line.toNat, key := none, enter := none, unit := some n } →
      Takes (.biTimeout line) s (((s.biOver line.toNat false).countUp (hifPage 0 + hifBicnt) 16 16 1).raise (hifPage 0) 5)) ∧
    (∀ (s : State) (line : BitVec 42) (l : Nat),
      s.drc.bi.find? (fun e => e.line == line.toNat && e.ended.isNone) = some { line := line.toNat, key := none, enter := some l } →
      Takes (.biTimeout line) s ((((s.biDrop line.toNat).countUp (hifPage 0 + hifBicnt) 16 16 1).raise (hifPage 0) 5).modHif (fun x => { x with out := { x.out with drs := some (0, true) } }))) ∧
    (∀ (s : State) (dec : Fin 2) (size : BitVec 8),
      (tget {} s.hif.hdm dec.val).committed = false →
      s.drc.ready = true →
      size.toNat + (if (tget {} s.hif.hdm (1 - dec.val)).committed then (tget {} s.hif.hdm (1 - dec.val)).size else 0) ≤ s.hvSize →
      Takes (.hdmCommit dec size) s ((s.modHif (fun x => { x with hdm := tset {} x.hdm dec.val ⟨true, size.toNat, false⟩ })).raise (hifPage 0) 4)) ∧
    (∀ (s : State) (dec : Fin 2) (size : BitVec 8),
      (tget {} s.hif.hdm dec.val).committed = false →
      s.drc.ready = false →
      Takes (.hdmCommit dec size) s ((s.modHif (fun x => { x with hdm := tset {} x.hdm dec.val { tget {} s.hif.hdm dec.val with err := true } })).raise (hifPage 0) 4)) ∧
    (∀ (s : State) (dec : Fin 2),
      (tget {} s.hif.hdm dec.val).committed = true →
      Takes (.hdmUncommit dec) s ((s.modHif (fun x => { x with hdm := tset {} x.hdm dec.val {} })).raise (hifPage 0) 4)) ∧
    (∀ (s : State) (src : BitVec 12) (o : BitVec 34) (data : List Byte) (k b v : Nat) (u : State),
      s.peerOpen = true →
      s.peerWindow src o.toNat = some k →
      s.target (s.reg64 (hifPage 2 + hifPwTgt + 32 * k) / 4096 * 4096 % 2 ^ 48 + o.toNat - fld (s.reg (hifPage 2 + hifPwBase + 32 * k)) 0 22 * 4096) = .reservoir b v →
      s.memWrite 0x21 (s.reg64 (hifPage 2 + hifPwTgt + 32 * k) / 4096 * 4096 % 2 ^ 48 + o.toNat - fld (s.reg (hifPage 2 + hifPwBase + 32 * k)) 0 22 * 4096) data = (u, .ok) →
      Takes (.peerWrite src o data) s (u.modHif (fun x => { x with out := { x.out with ur := false } }))) ∧
    (∀ (s : State) (src : BitVec 12) (o : BitVec 34) (data : List Byte),
      s.peerOpen = true →
      s.peerWindow src o.toNat = none →
      Takes (.peerWrite src o data) s s.peerDrop) ∧
    (∀ (s : State) (src : BitVec 12) (o : BitVec 34) (k : Nat),
      s.peerOpen = true →
      s.peerWindow src o.toNat = some k →
      Takes (.peerFlush src o) s (s.raise (hifPage 0) (8 + k))) ∧
    (∀ (s : State) (f : Fin 64) (q : Nat) (head : Bool) (val : BitVec 16),
      q ≤ 64 →
      s.nvOpen f.val = true →
      s.pmu.mode = .run →
      Takes (.nvmeDoorbell f q head val) s (((s.wakeLink).modHif (fun x => { x with db := tset 0 x.db (256 * f.val + 2 * q + b2n head) val.toNat })).nvEvent f.val)) ∧
    (∀ (s : State) (f : Fin 64) (reg : NvReg) (val : BitVec 64),
      s.nvOpen f.val = true →
      s.pmu.mode ≠ .drain →
      reg = .cc →
      Takes (.nvmeRegisterWrite f reg val) s (((s.wakeLink).modHif (fun x => { x with nv := tset {} x.nv f.val { tget {} x.nv f.val with cc := val.setWidth 32 } })).nvEvent f.val)) ∧
    (∀ (s : State) (f : Fin 64) (reg : NvReg) (val : BitVec 64),
      s.nvOpen f.val = true →
      s.pmu.mode ≠ .drain →
      reg = .aqa →
      Takes (.nvmeRegisterWrite f reg val) s (((s.wakeLink).modHif (fun x => { x with nv := tset {} x.nv f.val { tget {} x.nv f.val with aqa := val.setWidth 32 } })).nvEvent f.val)) ∧
    (∀ (s : State) (f : Fin 64) (reg : NvReg) (val : BitVec 64),
      s.nvOpen f.val = true →
      s.pmu.mode ≠ .drain →
      reg = .asq →
      Takes (.nvmeRegisterWrite f reg val) s (((s.wakeLink).modHif (fun x => { x with nv := tset {} x.nv f.val { tget {} x.nv f.val with asq := val } })).nvEvent f.val)) ∧
    (∀ (s : State) (f : Fin 64) (reg : NvReg) (val : BitVec 64),
      s.nvOpen f.val = true →
      s.pmu.mode ≠ .drain →
      reg = .acq →
      Takes (.nvmeRegisterWrite f reg val) s (((s.wakeLink).modHif (fun x => { x with nv := tset {} x.nv f.val { tget {} x.nv f.val with acq := val } })).nvEvent f.val)) ∧
    (∀ (s : State) (secured : Bool) (stream : Fin 6) (key : BitVec 256),
      secured = true →
      s.sec.spdm.session = 2 →
      Takes (.ideKm secured stream key) s (s.modHif (fun x => { x with ide := tset none x.ide stream.val (some key) }))) ∧
    (∀ (s : State) (tdi : Fin 64) (req : TdispReq),
      req = .lock →
      tget 0 s.hif.tdi tdi.val = 0 →
      Takes (.tdispMessage tdi req) s (s.modHif (fun x => { x with tdi := tset 0 x.tdi tdi.val 1 }))) ∧
    (∀ (s : State) (tdi : Fin 64) (req : TdispReq),
      req = .start →
      tget 0 s.hif.tdi tdi.val = 1 →
      Takes (.tdispMessage tdi req) s (s.modHif (fun x => { x with tdi := tset 0 x.tdi tdi.val 2 }))) ∧
    (∀ (s : State) (tdi : Fin 64) (req : TdispReq),
      req = .stop →
      Takes (.tdispMessage tdi req) s (s.modHif (fun x => { x with tdi := tset 0 x.tdi tdi.val 0 }))) ∧
    (∀ (s : State) (tdi : Fin 64),
      Takes (.tdiError tdi) s (s.tdiFail tdi.val)) ∧
    (∀ (s : State),
      s.hif.perst = false →
      s.powered = true →
      TakesAon (.perstAssert) s (((s.linkReset).modHif (fun x => { x with perst := true, link := .down })).raise (hifPage 0) 2)) ∧
    (∀ (s : State),
      s.hif.perst = false →
      s.powered = false →
      TakesAon (.perstAssert) s (s.modHif (fun x => { x with perst := true }))) ∧
    (∀ (s : State),
      TakesAon (.perstRelease) s (s.modHif (fun x => { x with perst := false, link := if x.perst && x.en then .training else x.link }))) ∧
    (∀ (s : State),
      s.linkUp = true →
      s.hif.perst = false →
      Takes (.linkDown) s (((s.linkReset).modHif (fun x => { x with link := .training })).raise (hifPage 0) 1)) ∧
    (∀ (s : State) (rate : Fin 5) (width : BitVec 5),
      s.hif.en = true →
      s.hif.perst = false →
      s.linkUp = false →
      1 ≤ rate.val →
      width.toNat = 16 ∨ width.toNat = 8 ∨ width.toNat = 4 →
      Takes (.linkUp rate width) s ((s.modHif (fun x => { x with link := .l0, rate := rate.val, width := width.toNat })).raise (hifPage 0) 0)) ∧
    (∀ (s : State) (l12 : Bool),
      s.hif.link = .l0 →
      Takes (.linkL1Entry l12) s (s.modHif (fun x => { x with link := if l12 then .l12 else .l11 }))) ∧
    (∀ (s : State) (fn : Fin 65),
      fn.val ≠ 0 →
      tget 0 s.hif.tdi (fn.val - 1) = 0 →
      Takes (.flr fn) s (((s.endRequests (fun e => e.fn == fn.val)).modHif (fun x => x.resetFns (fun f => f == fn.val))).raise (hifPage 0) 3)) ∧
    (∀ (s : State) (val : Bool),
      s.hif.lcommit ≠ val →
      Takes (.lcommitWrite val) s ((s.modHif (fun x => { x with lcommit := val })).raise (hifPage 0) 6))

/-- Each command of the ply link takes place, and each type of frame that is accepted has its effect. (R459, R460, R461, R463, R464, R465, R467, R468, R469, R470.) -/
def Obligations.PlyCommandsComplete : Prop :=
    (∀ (s : State) (lanes : Byte) (preset : Byte),
      s.plyEn = true →
      s.ply.st = .train →
      s.pmu.plyGated = false →
      bit (s.reg (page .pmu 1 + pmuPllstat)) 7 = true →
      Takes (.plyTrain lanes preset) s (s.trained8 lanes preset)) ∧
    (∀ (s : State) (lanes : Byte) (preset : Byte),
      s.plyEn = true →
      s.ply.st = .down →
      s.ply.shut = false →
      s.pmu.plyGated = false →
      bit (s.reg (page .pmu 1 + pmuPllstat)) 7 = true →
      Takes (.plyTrainRetry lanes preset) s (s.trained8 lanes preset)) ∧
    (∀ (s : State) (f : PlyFrame),
      s.ply.up = true →
      frameOk f = false →
      Takes (.plyFrameReceive f) s (s.sendNak f.fseq.toNat)) ∧
    (∀ (s : State) (f : PlyFrame),
      s.ply.up = true →
      frameOk f = true →
      f.fseq.toNat ≠ s.ply.rseq →
      Takes (.plyFrameReceive f) s s) ∧
    (∀ (s : State) (f : PlyFrame),
      s.ply.up = true →
      frameOk f = true →
      f.fseq.toNat = s.ply.rseq →
      f.type.toNat = 0 →
      Takes (.plyFrameReceive f) s (s.plyAccept f)) ∧
    (∀ (s : State) (f : PlyFrame),
      s.ply.up = true →
      frameOk f = true →
      f.fseq.toNat = s.ply.rseq →
      f.type.toNat = 0 →
      Takes (.plyIdle f) s (s.plyAccept f)) ∧
    (∀ (s : State) (f : PlyFrame),
      s.ply.up = true →
      frameOk f = true →
      f.fseq.toNat = s.ply.rseq →
      f.type.toNat = 1 →
      Takes (.plyHello f) s ((s.plyAccept f).hello (helloOf f.payload))) ∧
    (∀ (s : State) (f : PlyFrame),
      s.ply.up = true →
      frameOk f = true →
      f.fseq.toNat = s.ply.rseq →
      f.type.toNat = 2 →
      Takes (.plyRec f) s ((s.plyAccept f).recArrive f f.fseq.toNat)) ∧
    (∀ (s : State) (f : PlyFrame),
      s.ply.up = true →
      frameOk f = true →
      f.fseq.toNat = s.ply.rseq →
      f.type.toNat = 3 →
      ((((s.plyAccept f).modPly (fun x => { x with naks := x.naks + 1 })).countUp (plyPage + plyErr) 0 16 1).ply.naks) < 8 →
      Takes (.plyNak f) s ((((s.plyAccept f).modPly (fun x => { x with naks := x.naks + 1 })).countUp (plyPage + plyErr) 0 16 1).resend (imgField f.payload 0 2))) ∧
    (∀ (s : State) (f : PlyFrame),
      s.ply.up = true →
      frameOk f = true →
      f.fseq.toNat = s.ply.rseq →
      f.type.toNat = 4 →
      Takes (.plyHandover f) s (((s.plyAccept f).setRole 1 ((s.plyAccept f).aon.gen.toNat + 1)).sendFrame 5 0 [])) ∧
    (∀ (s : State) (f : PlyFrame),
      s.ply.up = true →
      frameOk f = true →
      f.fseq.toNat = s.ply.rseq →
      f.type.toNat = 5 →
      Takes (.plyHoack f) s (s.plyAccept f)) ∧
    (∀ (s : State)  (q : Nat) (l : List Nat),
      s.ply.placed = q :: l →
      s.plyFrozen = false →
      q = s.rxSeq + 1 →
      Takes (.plyRxseqAdvance) s (((s.modPly (fun x => { x with placed := l })).setReg64 (plyPage + plyRxseq) q).raise plyPage 3)) ∧
    (∀ (s : State),
      s.ply.up = true →
      Takes (.plyLinkLost) s s.plyLost) ∧
    (∀ (s : State) (ini : Ini) (val : BitVec 64),
      s.passesWhole ini (plyPage + plyTxtail) = true →
      s.txTail ≤ val.toNat →
      val.toNat ≤ s.txAck + s.txSlots →
      Takes (.plyTxtailWrite ini val) s ((s.setReg64 (plyPage + plyTxtail) val.toNat).answer .ok 0)) ∧
    (∀ (s : State)  (a : Nat) (h : List Byte) (u : State),
      s.ply.st = .sync →
      s.ply.txerr = false →
      s.txSent + 1 ≤ s.txTail →
      a = s.reg64 (plyPage + plyTxbase) % 2 ^ 48 / 64 * 64 + 64 * ((s.txSent + 1) % s.txSlots) →
      s.plyMaySend a = true →
      s.memRead 0x33 a 64 = (u, .ok, h) →
      imgField h 0 4 = 0x524A5A45 →
      imgField h 8 8 = s.txSent + 1 →
      imgField h 5 1 % 2 = 0 →
      Takes (.plyRecordSend) s ((u.sendRecord (sliceBytes h 0 0x14 ++ bytesOf 4 0 ++ sliceBytes h 0x18 40) (s.pmu.mode == .drain) false).setReg64 (plyPage + plyTxsent) (s.txSent + 1))) ∧
    (∀ (s : State)  (a : Nat) (h : List Byte) (u : State),
      s.ply.st = .sync →
      s.ply.txerr = false →
      s.txSent + 1 ≤ s.txTail →
      a = s.reg64 (plyPage + plyTxbase) % 2 ^ 48 / 64 * 64 + 64 * ((s.txSent + 1) % s.txSlots) →
      s.plyMaySend a = true →
      s.memRead 0x33 a 64 = (u, .ok, h) →
      imgField h 0 4 ≠ 0x524A5A45 →
      Takes (.plyRecordSend) s u.txStop) ∧
    (∀ (s : State) (ini : Ini) (val : Word),
      s.mayWrite ini (plyPage + Machine.plyCtrl) = true →
      (s.actBits ini (plyPage + Machine.plyCtrl) val) = 2 →
      bit (s.reg (plyPage + Machine.plyCtrl)) 0 = false →
      (s.fieldWrite ini (plyPage + Machine.plyCtrl) val).ply.present = true →
      (s.fieldWrite ini (plyPage + Machine.plyCtrl) val).aon.role = 1 →
      Takes (.plyHandoverCmd ini val) s ((((s.fieldWrite ini (plyPage + Machine.plyCtrl) val).setRole 2 ((s.fieldWrite ini (plyPage + Machine.plyCtrl) val).aon.gen.toNat + 1)).sendFrame 4 0 []).answer .ok 0)) ∧
    (∀ (s : State) (ini : Ini) (val : Word),
      s.mayWrite ini (plyPage + Machine.plyCtrl) = true →
      (s.actBits ini (plyPage + Machine.plyCtrl) val) = 4 →
      bit (s.reg (plyPage + Machine.plyCtrl)) 0 = false →
      Takes (.plyResolve ini val) s (((s.fieldWrite ini (plyPage + Machine.plyCtrl) val).modPly (fun x => { x with gap := false, conflict := false })).answer .ok 0)) ∧
    (∀ (s : State) (ini : Ini) (val : Word),
      s.mayWrite ini (plyPage + Machine.plyCtrl) = true →
      (s.actBits ini (plyPage + Machine.plyCtrl) val) = 8 →
      bit (s.reg (plyPage + Machine.plyCtrl)) 0 = false →
      (s.fieldWrite ini (plyPage + Machine.plyCtrl) val).ply.up = true →
      Takes (.plyRetrain ini val) s ((s.fieldWrite ini (plyPage + Machine.plyCtrl) val).retrain.answer .ok 0)) ∧
    (∀ (s : State) (ini : Ini) (val : Word),
      ini = levee →
      s.ply.present = false →
      s.aon.role ≠ 1 →
      val.toNat = s.aon.gen.toNat + 1 →
      Takes (.plyTake ini val) s ((s.setRole 1 val.toNat).answer .ok 0)) ∧
    (∀ (s : State)  (h : Hello),
      s.ply.peer = some h →
      s.ply.st = .replay →
      s.ply.conflict = false →
      s.ply.gap = false →
      s.ply.tail0 ≤ s.txAck →
      h.txtail ≤ s.rxSeq →
      Takes (.plyPresentRise) s ((s.modPly (fun x => { x with st := .sync, present := true })).raise plyPage 4))

/-- Each command of a pin, of the test access port and of the calibration block takes place. (R476, R479, R480, R482, R484, R486, R489, R490, R496.) -/
def Obligations.PinCommandsComplete : Prop :=
    (∀ (s : State) (ini : Ini) (pin : Pin) (psrc : Bool) (val : Word),
      psrc = false →
      pinJudge ini (fld (s.pin pin.val).regs.1 4 2) val = .take →
      s.locked (pioPg 0 + pioPin + 4 * pin.val) = false →
      (s.pin pin.val).sw = false →
      Takes (.pinConfigWrite ini pin psrc val) s ((s.pinTake pin.val (val &&& 0xFFF, (s.pin pin.val).regs.2)).answer .ok 0)) ∧
    (∀ (s : State) (ini : Ini) (pin : Pin) (psrc : Bool) (val : Word),
      psrc = false →
      pinJudge ini (fld (s.pin pin.val).regs.1 4 2) val = .take →
      s.locked (pioPg 0 + pioPin + 4 * pin.val) = false →
      (s.pin pin.val).sw = true →
      Takes (.pinConfigWrite ini pin psrc val) s ((s.modPin pin.val (fun x => { x with stored := some (val &&& 0xFFF, (s.pin pin.val).regs.2) })).answer .ok 0)) ∧
    (∀ (s : State) (ini : Ini) (pin : Pin) (psrc : Bool) (val : Word),
      psrc = true →
      psrcJudge ini (s.pin pin.val) val = .take →
      s.locked (pioPg 0 + pioPsrc + 4 * pin.val) = false →
      (s.pin pin.val).sw = false →
      Takes (.pinConfigWrite ini pin psrc val) s ((s.pinTake pin.val ((s.pin pin.val).regs.1, val &&& 0x1FFFF)).answer .ok 0)) ∧
    (∀ (s : State) (pin : Pin),
      (s.pin pin.val).sw = true →
      (s.pin pin.val).stored = none →
      Takes (.pinSwitchDone pin) s ((s.modPin pin.val (fun x => { x with sw := false, stored := none })).raise (pioPg 0) 17)) ∧
    (∀ (s : State) (pin : Pin) (v : Word × Word),
      (s.pin pin.val).sw = true →
      (s.pin pin.val).stored = some v →
      Takes (.pinSwitchDone pin) s (((s.modPin pin.val (fun x => { x with sw := false, stored := none })).raise (pioPg 0) 17).pinTake pin.val v)) ∧
    (∀ (s : State) (ini : Ini) (off : Fin 8) (val : Word),
      off.val = 0 →
      s.locked (pioPg 0 + pioOut0) = false →
      Takes (.gpioOutputWrite ini off val) s ((s.modReg (pioPg 0 + pioOut0) (fun w => (w &&& ~~~(s.gpioMask ini 0)) ||| (val &&& s.gpioMask ini 0))).answer .ok 0)) ∧
    (∀ (s : State) (ini : Ini) (off : Fin 8) (val : Word),
      off.val = 1 →
      s.locked (pioPg 0 + pioOut0 + 4) = false →
      Takes (.gpioOutputWrite ini off val) s ((s.modReg (pioPg 0 + pioOut0 + 4) (fun w => (w &&& ~~~(s.gpioMask ini 1)) ||| (val &&& s.gpioMask ini 1))).answer .ok 0)) ∧
    (∀ (s : State) (ini : Ini) (off : Fin 8) (val : Word),
      off.val = 2 →
      s.locked (pioPg 0 + pioOut0) = false →
      Takes (.gpioOutputWrite ini off val) s ((s.modReg (pioPg 0 + pioOe0) (fun w => (w &&& ~~~(s.gpioMask ini 0)) ||| (val &&& s.gpioMask ini 0))).answer .ok 0)) ∧
    (∀ (s : State) (ini : Ini) (off : Fin 8) (val : Word),
      off.val = 3 →
      s.locked (pioPg 0 + pioOut0 + 4) = false →
      Takes (.gpioOutputWrite ini off val) s ((s.modReg (pioPg 0 + pioOe0 + 4) (fun w => (w &&& ~~~(s.gpioMask ini 1)) ||| (val &&& s.gpioMask ini 1))).answer .ok 0)) ∧
    (∀ (s : State) (ini : Ini) (off : Fin 8) (val : Word),
      off.val = 4 →
      Takes (.gpioOutputWrite ini off val) s ((s.modReg (pioPg 0 + pioOut0) (fun w => w ||| (val &&& s.gpioMask ini 0))).answer .ok 0)) ∧
    (∀ (s : State) (ini : Ini) (off : Fin 8) (val : Word),
      off.val = 5 →
      Takes (.gpioOutputWrite ini off val) s ((s.modReg (pioPg 0 + pioOut0 + 4) (fun w => w ||| (val &&& s.gpioMask ini 1))).answer .ok 0)) ∧
    (∀ (s : State) (ini : Ini) (off : Fin 8) (val : Word),
      off.val = 6 →
      Takes (.gpioOutputWrite ini off val) s ((s.modReg (pioPg 0 + pioOut0) (fun w => w &&& ~~~(val &&& s.gpioMask ini 0))).answer .ok 0)) ∧
    (∀ (s : State) (ini : Ini) (off : Fin 8) (val : Word),
      off.val = 7 →
      Takes (.gpioOutputWrite ini off val) s ((s.modReg (pioPg 0 + pioOut0 + 4) (fun w => w &&& ~~~(val &&& s.gpioMask ini 1))).answer .ok 0)) ∧
    (∀ (s : State) (k : Fin 16) (rise : Bool) (held : Bool) (n : Nat),
      s.evinPins k.val = [n] →
      held = true →
      bit (BitVec.ofNat 2 (fld (s.reg (pioPg 1 + pioEvinCfg + 4 * k.val)) 0 2)) (if rise then 0 else 1) = true →
      (s.pin n).sw = false →
      s.bankVolt n ≠ 0 →
      (tget [] s.hts.ports (pioPg 0 / 0x1000)).length < 8 →
      Takes (.evinEdge k rise held) s ((s.setReg64 (pioPg 1 + pioEvts + 8 * k.val) s.aon.time.toNat).raise (pioPg 0) k.val)) ∧
    (∀ (s : State),
      s.tapOk 0xFF = true →
      Takes (.bypass) s (s.modTap (fun t => { t with ir := 0xFF }))) ∧
    (∀ (s : State),
      s.tapOk 0x00 = true →
      Takes (.extest) s (s.modTap (fun t => { t with ir := 0x00 }))) ∧
    (∀ (s : State),
      s.tapOk 0x03 = true →
      Takes (.clamp) s (s.modTap (fun t => { t with ir := 0x03 }))) ∧
    (∀ (s : State),
      s.tapOk 0x04 = true →
      Takes (.highz) s (s.modTap (fun t => { t with ir := 0x04 }))) ∧
    (∀ (s : State),
      s.tapOk 0x05 = true →
      Takes (.extestPulse) s (s.modTap (fun t => { t with ir := 0x05 }))) ∧
    (∀ (s : State),
      s.tapOk 0x06 = true →
      Takes (.extestTrain) s (s.modTap (fun t => { t with ir := 0x06 }))) ∧
    (∀ (s : State),
      Takes (.idcode) s ((s.modTap (fun t => { t with ir := 0x02 })).modTap (fun t => { t with out := idcodeWord }))) ∧
    (∀ (s : State) (data : List Bool),
      s.tapOk 0x01 = true →
      Takes (.samplePreload data) s ((s.modTap (fun t => { t with ir := 0x01 })).modTap (fun x => { x with bsr := data }))) ∧
    (∀ (s : State) (ini : Ini) (k : Fin 62) (val : Word),
      s.mayWrite ini (calOff k.val) = true →
      Takes (.calUserWrite ini k val) s ((s.fieldWrite ini (calOff k.val) val).answer .ok 0)) ∧
    (∀ (s : State) (ini : Ini) (val : Word),
      s.mayWrite ini (page .cal 0 + calClrall) = true →
      bit (s.actBits ini (page .cal 0 + calClrall) val) 0 = true →
      Takes (.calClrall ini val) s (((List.range 62).foldl (fun u k => if calSp k && ini != levee then u else u.modReg (calOff k) (fun w => setFld w 0 8 0)) (s.fieldWrite ini (page .cal 0 + calClrall) val)).answer .ok 0)) ∧
    (∀ (s : State) (bank : Fin 3) (volt : Fin 3),
      Takes (.ioBankSupplyChange bank volt) s { s with pio := { s.pio with volt := tset 0 s.pio.volt bank.val volt.val } })

/-- When R44 lets a tile fire and its active frame carries the operation's opcode, the command is that fire; the 77 operations of R49 by name. (R44, R49.) -/
def Obligations.FiresComplete : Prop :=
    (∀ (s : State) (t : TileId),
      s.canFire t.val fuNop = true →
      Takes (.nop t) s (s.fireEffect t.val fuNop)) ∧
    (∀ (s : State) (t : TileId),
      s.canFire t.val fuAdd = true →
      Takes (.add t) s (s.fireEffect t.val fuAdd)) ∧
    (∀ (s : State) (t : TileId),
      s.canFire t.val fuAddc = true →
      Takes (.addc t) s (s.fireEffect t.val fuAddc)) ∧
    (∀ (s : State) (t : TileId),
      s.canFire t.val fuSub = true →
      Takes (.sub t) s (s.fireEffect t.val fuSub)) ∧
    (∀ (s : State) (t : TileId),
      s.canFire t.val fuSubb = true →
      Takes (.subb t) s (s.fireEffect t.val fuSubb)) ∧
    (∀ (s : State) (t : TileId),
      s.canFire t.val fuCmpeq = true →
      Takes (.cmpeq t) s (s.fireEffect t.val fuCmpeq)) ∧
    (∀ (s : State) (t : TileId),
      s.canFire t.val fuCmpne = true →
      Takes (.cmpne t) s (s.fireEffect t.val fuCmpne)) ∧
    (∀ (s : State) (t : TileId),
      s.canFire t.val fuCmplt = true →
      Takes (.cmplt t) s (s.fireEffect t.val fuCmplt)) ∧
    (∀ (s : State) (t : TileId),
      s.canFire t.val fuCmpltu = true →
      Takes (.cmpltu t) s (s.fireEffect t.val fuCmpltu)) ∧
    (∀ (s : State) (t : TileId),
      s.canFire t.val fuCmple = true →
      Takes (.cmple t) s (s.fireEffect t.val fuCmple)) ∧
    (∀ (s : State) (t : TileId),
      s.canFire t.val fuCmpleu = true →
      Takes (.cmpleu t) s (s.fireEffect t.val fuCmpleu)) ∧
    (∀ (s : State) (t : TileId),
      s.canFire t.val fuMov = true →
      Takes (.mov t) s (s.fireEffect t.val fuMov)) ∧
    (∀ (s : State) (t : TileId),
      s.canFire t.val fuNeg = true →
      Takes (.neg t) s (s.fireEffect t.val fuNeg)) ∧
    (∀ (s : State) (t : TileId),
      s.canFire t.val fuAbs = true →
      Takes (.abs t) s (s.fireEffect t.val fuAbs)) ∧
    (∀ (s : State) (t : TileId),
      s.canFire t.val fuAnd = true →
      Takes (.and t) s (s.fireEffect t.val fuAnd)) ∧
    (∀ (s : State) (t : TileId),
      s.canFire t.val fuOr = true →
      Takes (.or t) s (s.fireEffect t.val fuOr)) ∧
    (∀ (s : State) (t : TileId),
      s.canFire t.val fuXor = true →
      Takes (.xor t) s (s.fireEffect t.val fuXor)) ∧
    (∀ (s : State) (t : TileId),
      s.canFire t.val fuAndn = true →
      Takes (.andn t) s (s.fireEffect t.val fuAndn)) ∧
    (∀ (s : State) (t : TileId),
      s.canFire t.val fuNot = true →
      Takes (.not t) s (s.fireEffect t.val fuNot)) ∧
    (∀ (s : State) (t : TileId),
      s.canFire t.val fuShl = true →
      Takes (.shl t) s (s.fireEffect t.val fuShl)) ∧
    (∀ (s : State) (t : TileId),
      s.canFire t.val fuShr = true →
      Takes (.shr t) s (s.fireEffect t.val fuShr)) ∧
    (∀ (s : State) (t : TileId),
      s.canFire t.val fuSar = true →
      Takes (.sar t) s (s.fireEffect t.val fuSar)) ∧
    (∀ (s : State) (t : TileId),
      s.canFire t.val fuRol = true →
      Takes (.rol t) s (s.fireEffect t.val fuRol)) ∧
    (∀ (s : State) (t : TileId),
      s.canFire t.val fuRor = true →
      Takes (.ror t) s (s.fireEffect t.val fuRor)) ∧
    (∀ (s : State) (t : TileId),
      s.canFire t.val fuSel = true →
      Takes (.sel t) s (s.fireEffect t.val fuSel)) ∧
    (∀ (s : State) (t : TileId),
      s.canFire t.val fuSelp = true →
      Takes (.selp t) s (s.fireEffect t.val fuSelp)) ∧
    (∀ (s : State) (t : TileId),
      s.canFire t.val fuSelt = true →
      Takes (.selt t) s (s.fireEffect t.val fuSelt)) ∧
    (∀ (s : State) (t : TileId),
      s.canFire t.val fuPasseq = true →
      Takes (.passeq t) s (s.fireEffect t.val fuPasseq)) ∧
    (∀ (s : State) (t : TileId),
      s.canFire t.val fuPassne = true →
      Takes (.passne t) s (s.fireEffect t.val fuPassne)) ∧
    (∀ (s : State) (t : TileId),
      s.canFire t.val fuPasslt = true →
      Takes (.passlt t) s (s.fireEffect t.val fuPasslt)) ∧
    (∀ (s : State) (t : TileId),
      s.canFire t.val fuPassltu = true →
      Takes (.passltu t) s (s.fireEffect t.val fuPassltu)) ∧
    (∀ (s : State) (t : TileId),
      s.canFire t.val fuPassle = true →
      Takes (.passle t) s (s.fireEffect t.val fuPassle)) ∧
    (∀ (s : State) (t : TileId),
      s.canFire t.val fuPassleu = true →
      Takes (.passleu t) s (s.fireEffect t.val fuPassleu)) ∧
    (∀ (s : State) (t : TileId),
      s.canFire t.val fuMul = true →
      Takes (.mul t) s (s.fireEffect t.val fuMul)) ∧
    (∀ (s : State) (t : TileId),
      s.canFire t.val fuMulu = true →
      Takes (.mulu t) s (s.fireEffect t.val fuMulu)) ∧
    (∀ (s : State) (t : TileId),
      s.canFire t.val fuMac = true →
      Takes (.mac t) s (s.fireEffect t.val fuMac)) ∧
    (∀ (s : State) (t : TileId),
      s.canFire t.val fuMacu = true →
      Takes (.macu t) s (s.fireEffect t.val fuMacu)) ∧
    (∀ (s : State) (t : TileId),
      s.canFire t.val fuMsu = true →
      Takes (.msu t) s (s.fireEffect t.val fuMsu)) ∧
    (∀ (s : State) (t : TileId),
      s.canFire t.val fuAccld = true →
      Takes (.accld t) s (s.fireEffect t.val fuAccld)) ∧
    (∀ (s : State) (t : TileId),
      s.canFire t.val fuAdd4 = true →
      Takes (.add4 t) s (s.fireEffect t.val fuAdd4)) ∧
    (∀ (s : State) (t : TileId),
      s.canFire t.val fuAdd2 = true →
      Takes (.add2 t) s (s.fireEffect t.val fuAdd2)) ∧
    (∀ (s : State) (t : TileId),
      s.canFire t.val fuAdds4 = true →
      Takes (.adds4 t) s (s.fireEffect t.val fuAdds4)) ∧
    (∀ (s : State) (t : TileId),
      s.canFire t.val fuAdds2 = true →
      Takes (.adds2 t) s (s.fireEffect t.val fuAdds2)) ∧
    (∀ (s : State) (t : TileId),
      s.canFire t.val fuDot4 = true →
      Takes (.dot4 t) s (s.fireEffect t.val fuDot4)) ∧
    (∀ (s : State) (t : TileId),
      s.canFire t.val fuDot4u = true →
      Takes (.dot4u t) s (s.fireEffect t.val fuDot4u)) ∧
    (∀ (s : State) (t : TileId),
      s.canFire t.val fuDot2 = true →
      Takes (.dot2 t) s (s.fireEffect t.val fuDot2)) ∧
    (∀ (s : State) (t : TileId),
      s.canFire t.val fuDot2u = true →
      Takes (.dot2u t) s (s.fireEffect t.val fuDot2u)) ∧
    (∀ (s : State) (t : TileId),
      s.canFire t.val fuDdot4 = true →
      Takes (.ddot4 t) s (s.fireEffect t.val fuDdot4)) ∧
    (∀ (s : State) (t : TileId),
      s.canFire t.val fuDdot4u = true →
      Takes (.ddot4u t) s (s.fireEffect t.val fuDdot4u)) ∧
    (∀ (s : State) (t : TileId),
      s.canFire t.val fuPopc = true →
      Takes (.popc t) s (s.fireEffect t.val fuPopc)) ∧
    (∀ (s : State) (t : TileId),
      s.canFire t.val fuClz = true →
      Takes (.clz t) s (s.fireEffect t.val fuClz)) ∧
    (∀ (s : State) (t : TileId),
      s.canFire t.val fuCtz = true →
      Takes (.ctz t) s (s.fireEffect t.val fuCtz)) ∧
    (∀ (s : State) (t : TileId),
      s.canFire t.val fuBext = true →
      Takes (.bext t) s (s.fireEffect t.val fuBext)) ∧
    (∀ (s : State) (t : TileId),
      s.canFire t.val fuBins = true →
      Takes (.bins t) s (s.fireEffect t.val fuBins)) ∧
    (∀ (s : State) (t : TileId),
      s.canFire t.val fuBrev = true →
      Takes (.brev t) s (s.fireEffect t.val fuBrev)) ∧
    (∀ (s : State) (t : TileId),
      s.canFire t.val fuGfmul = true →
      Takes (.gfmul t) s (s.fireEffect t.val fuGfmul)) ∧
    (∀ (s : State) (t : TileId),
      s.canFire t.val fuGfmuls = true →
      Takes (.gfmuls t) s (s.fireEffect t.val fuGfmuls)) ∧
    (∀ (s : State) (t : TileId),
      s.canFire t.val fuGfmad = true →
      Takes (.gfmad t) s (s.fireEffect t.val fuGfmad)) ∧
    (∀ (s : State) (t : TileId),
      s.canFire t.val fuGfmads = true →
      Takes (.gfmads t) s (s.fireEffect t.val fuGfmads)) ∧
    (∀ (s : State) (t : TileId),
      s.canFire t.val fuCrcb = true →
      Takes (.crcb t) s (s.fireEffect t.val fuCrcb)) ∧
    (∀ (s : State) (t : TileId),
      s.canFire t.val fuCrch = true →
      Takes (.crch t) s (s.fireEffect t.val fuCrch)) ∧
    (∀ (s : State) (t : TileId),
      s.canFire t.val fuCrcw = true →
      Takes (.crcw t) s (s.fireEffect t.val fuCrcw)) ∧
    (∀ (s : State) (t : TileId),
      s.canFire t.val fuAdds = true →
      Takes (.adds t) s (s.fireEffect t.val fuAdds)) ∧
    (∀ (s : State) (t : TileId),
      s.canFire t.val fuSubs = true →
      Takes (.subs t) s (s.fireEffect t.val fuSubs)) ∧
    (∀ (s : State) (t : TileId),
      s.canFire t.val fuAddus = true →
      Takes (.addus t) s (s.fireEffect t.val fuAddus)) ∧
    (∀ (s : State) (t : TileId),
      s.canFire t.val fuSubus = true →
      Takes (.subus t) s (s.fireEffect t.val fuSubus)) ∧
    (∀ (s : State) (t : TileId),
      s.canFire t.val fuMin = true →
      Takes (.min t) s (s.fireEffect t.val fuMin)) ∧
    (∀ (s : State) (t : TileId),
      s.canFire t.val fuMax = true →
      Takes (.max t) s (s.fireEffect t.val fuMax)) ∧
    (∀ (s : State) (t : TileId),
      s.canFire t.val fuMinu = true →
      Takes (.minu t) s (s.fireEffect t.val fuMinu)) ∧
    (∀ (s : State) (t : TileId),
      s.canFire t.val fuMaxu = true →
      Takes (.maxu t) s (s.fireEffect t.val fuMaxu)) ∧
    (∀ (s : State) (t : TileId),
      s.canFire t.val fuMinix = true →
      Takes (.minix t) s (s.fireEffect t.val fuMinix)) ∧
    (∀ (s : State) (t : TileId),
      s.canFire t.val fuBxor3 = true →
      Takes (.bxor3 t) s (s.fireEffect t.val fuBxor3)) ∧
    (∀ (s : State) (t : TileId),
      s.canFire t.val fuBmaj3 = true →
      Takes (.bmaj3 t) s (s.fireEffect t.val fuBmaj3)) ∧
    (∀ (s : State) (t : TileId),
      s.canFire t.val fuBthr = true →
      Takes (.bthr t) s (s.fireEffect t.val fuBthr)) ∧
    (∀ (s : State) (t : TileId),
      s.canFire t.val fuBmux = true →
      Takes (.bmux t) s (s.fireEffect t.val fuBmux)) ∧
    (∀ (s : State) (t : TileId),
      s.canFire t.val fuBand3 = true →
      Takes (.band3 t) s (s.fireEffect t.val fuBand3)) ∧
    (∀ (s : State) (t : TileId),
      s.canFire t.val fuBor3 = true →
      Takes (.bor3 t) s (s.fireEffect t.val fuBor3))

/-- In HOLD and OFF, a command that is not one of the AON domain (comparators, alarm, tick, crystal, AON supply, wake, power good, cold reset, PERST_N, tamper) changes nothing. -/
def Obligations.UnpoweredBlocksStandStill : Prop :=
    ∀ (c : Instr) (s : State), s.powered = false →
      (match c with
        | .comparatorAssert _ _ | .comparatorDeassert _ _ | .alarmFire | .aonTick | .xtalFail | .aonPowerUp | .aonPowerLoss | .wake _
        | .pgMainRise | .coldReset _ _ | .perstAssert | .perstRelease | .tamperEvent => Completes c s
        | _ => exec c s = .next s)

/-- The invariants of PortsBoundedKept and NothingHeldKept hold at reset. -/
def Obligations.PortsBoundedAtReset : Prop :=
    PortsBounded State.reset ∧ NothingHeld State.reset

/-- A block sends no occurrence that its port of eight has no room for: from every state whose ports hold at most eight occurrences each, every step of every command leads to such a state (R357, R358). -/
def Obligations.PortsBoundedKept : Prop :=
    Kept PortsBounded

/-- A command whose access has to wait for its NI or for the host takes no effect and is taken again (R265, R443; the model's own form of waiting, see the log): from every state in which nothing is held every step leads to such a state. -/
def Obligations.NothingHeldKept : Prop :=
    Kept NothingHeld

/-- R26: a read of a register of the window, of the width the register takes, leaves everything but the answer; `fresh` is the model's own counter of free values and no state of the device. -/
def Obligations.RegisterReadsChangeNothing : Prop :=
    ∀ (s : State) (ini : Ini) (off len : Nat), (blockAt off).isSome = true → widthOk off len = true →
      ¬(0x1000000 ≤ off ∧ off < 0x1100000) → ¬(0x240000 ≤ off ∧ off < 0x300000) →
      s.windowRead ini off len = { s with ans := ⟨.ok, s.windowValue off len⟩, fresh := s.fresh + 1 }

/-- R34: the bit is set whether or not it was; one event of number EVT_BASE.base + i enters the block's port exactly when EVT_EN bit i is 1; another register, another port and memory are as before; and a write of EVT_EN sends nothing. -/
def Obligations.EventRaised : Prop :=
    (∀ (s : State) (pg i : Nat), (s.raise pg i).reg (pg + hEvtRaw) = setBit (s.reg (pg + hEvtRaw)) i ∧
      tget [] (s.raise pg i).hts.ports (pg / 0x1000) = tget [] s.hts.ports (pg / 0x1000) ++
        (if bit (s.reg (pg + hEvtEn)) i then [⟨fld (s.reg (pg + hEvtBase)) 0 13 + i, pg == page .hts 0⟩] else []) ∧
      (∀ o, o ≠ pg + hEvtRaw → (s.raise pg i).reg o = s.reg o) ∧
      (∀ k, k ≠ pg / 0x1000 → tget [] (s.raise pg i).hts.ports k = tget [] s.hts.ports k) ∧ (s.raise pg i).mem = s.mem) ∧
    (∀ (s : State) (off : Nat) (w : Word), (s.setReg off w).hts = s.hts)

/-- R29: with ERR's flags clear a violation loads flag, id, off and wr; otherwise it sets its flag and ovf and leaves id, off and wr; EVT_RAW.err is set in every case. -/
def Obligations.FirstViolationIsKept : Prop :=
    ∀ (s : State) (pg flag : Nat) (ini : Ini) (off : Nat) (wr : Bool), flag < 5 →
      (s.violate pg flag ini off wr).reg (pg + hEvtRaw) = setBit (s.reg (pg + hEvtRaw)) 31 ∧
      ((s.reg (pg + hErr) &&& 0x8000001F) = 0 →
        (s.violate pg flag ini off wr).reg (pg + hErr) = BitVec.ofNat 32 (2 ^ flag + 2 ^ 8 * ini.toNat + 2 ^ 16 * (off % 0x1000) + 2 ^ 28 * b2n wr)) ∧
      ((s.reg (pg + hErr) &&& 0x8000001F) ≠ 0 →
        bit ((s.violate pg flag ini off wr).reg (pg + hErr)) flag = true ∧ bit ((s.violate pg flag ini off wr).reg (pg + hErr)) 31 = true ∧
        ∀ k, 5 ≤ k → k < 31 → bit ((s.violate pg flag ini off wr).reg (pg + hErr)) k = bit (s.reg (pg + hErr)) k)

/-- R31, R32: a write to a page that another initiator owns changes no register but ERR and EVT_RAW of its page; an owner or the levee writes a register without restricted fields. -/
def Obligations.OwnerAndLockTurnAway : Prop :=
    (∀ (s : State) (ini : Ini) (off : Nat) (val : Word) (act : Word → State → State), s.mayWrite ini off = false →
      s.regWrite ini off val act = s.turnedAway 1 ini off .ok ∧
      ((regDefAt off).isSome = true → ∀ f, s.regGuard ini off f = s.turnedAway 1 ini off .ok)) ∧
    (∀ (s : State) (ini : Ini) (off : Nat) (f : State → State) (d : RegDef), regDefAt off = some d → s.mayWrite ini off = true → d.sp = 0 →
      d.rwl ≠ 0 → s.locked off = true → s.regGuard ini off f = s.turnedAway 2 ini off .ok) ∧
    (∀ (s : State) (flag : Nat) (ini : Ini) (off : Nat) (st : Status) (o : Nat), o ≠ off / 0x1000 * 0x1000 + hErr → o ≠ off / 0x1000 * 0x1000 + hEvtRaw →
      (s.turnedAway flag ini off st).reg o = s.reg o)

/-- R39: SYS_WERR and SYS_WERR_ADDR capture a hole access as R29 captures a violation; the access is answered DECERR with zero data, which the host sees as a successful completion (R33), and nothing else changes. -/
def Obligations.HoleAccessIsCaptured : Prop :=
    ∀ (s : State) (ini : Ini) (off : BitVec 25) (wr : Bool), (blockAt off.toNat).isNone = true →
      ¬(0x1000000 ≤ off.toNat ∧ off.toNat < 0x1100000) → ¬(0x240000 ≤ off.toNat ∧ off.toNat < 0x300000) →
      Takes (.holeAccess ini off wr) s (holeAccess ini off.toNat wr s) ∧
      (holeAccess ini off.toNat wr s).ans = ⟨if ini = 0x20 then .ok else .decErr, 0⟩ ∧
      bit ((holeAccess ini off.toNat wr s).reg (page .sys 0 + sysWerr)) 0 = true ∧
      ((s.reg (page .sys 0 + sysWerr) &&& 3) ≠ 0 → (holeAccess ini off.toNat wr s).reg (page .sys 0 + sysWerrAddr) = s.reg (page .sys 0 + sysWerrAddr)) ∧
      ((s.reg (page .sys 0 + sysWerr) &&& 3) = 0 → (holeAccess ini off.toNat wr s).reg (page .sys 0 + sysWerrAddr) = BitVec.ofNat 32 off.toNat) ∧
      (holeAccess ini off.toNat wr s).mem = s.mem ∧
      (∀ o, o ≠ page .sys 0 + sysWerr → o ≠ page .sys 0 + sysWerrAddr → o ≠ page .sys 0 + hEvtRaw → (holeAccess ini off.toNat wr s).reg o = s.reg o)

/-- The frame of the 77 fires, where the fire takes place. s0 is s with the result that leaves the second stage at the same edge written (R48). Beyond s0 nothing changes but tiles, what takes their words and the capture of a line collision (Safety.State.onlyTiles); no frame or check word changes; another tile keeps its registers, accumulators, flags, tile memory and pointers; the firing tile keeps every register but dreg, every flag of another context (and all of them where fw = 0), every memory word but the one it writes, and where the operation has latency 2 all of these (R46, R47, R50, R55). -/
def Obligations.FireFrame : Prop :=
    ∀ (c : Instr) (t : TileId) (op : FuOp) (s : State), fireOf c = some (t, op) → s.canFire t.val op = true → Fits s (fire t.val op s) →
      ∃ u, exec c s = .next u ∧
      let s0 := secondStageRetire t.val s
      s0.onlyTiles u ∧
      (∀ k, k ≠ t.val → (s0.tile k).sameCore (u.tile k)) ∧
      (∀ k, k ≠ 8 * s.ctxOf t.val + fDreg (s.act t.val) ∨ 8 ≤ fDreg (s.act t.val) ∨ op.lat2 = true →
        tget 0 (u.tile t.val).pr k = tget 0 (s0.tile t.val).pr k) ∧
      (∀ k, k + 8 ≠ fDreg (s.act t.val) ∨ op.lat2 = true → tget 0 (u.tile t.val).sh k = tget 0 (s0.tile t.val).sh k) ∧
      (u.tile t.val).acc = (s0.tile t.val).acc ∧
      (∀ k, k ≠ s.ctxOf t.val ∨ fFw (s.act t.val) = false ∨ op.lat2 = true → tget 0 (u.tile t.val).flags k = tget 0 (s0.tile t.val).flags k) ∧
      (∀ k, k ≠ (s0.tile t.val).memTarget (fMode (s.act t.val)) (fBase (s.act t.val)) (s.memAddr t.val (s.act t.val) (s.pds t.val)) ∨
          fDtm (s.act t.val) = false ∨ fMen (s.act t.val) = false ∨ op.lat2 = true →
        tget 0 (u.tile t.val).mem k = tget 0 (s0.tile t.val).mem k)

/-- R46, R50, R54, R55: the destination register of the active context takes the result, the flags z, n and those the operation names follow it where fw = 1 and the others stay, and memory takes it where dtm = 1 and the gate is open. A result that leaves the second stage at the same edge is written first (R48), which gives s0. -/
def Obligations.LatencyOneFire : Prop :=
    ∀ (t : Nat) (op : FuOp) (s : State), s.canFire t op = true → op.lat2 = false → (op.run (s.fuIn t)).idle = false →
      let f := s.act t
      let o := op.run (s.fuIn t)
      let T := (secondStageRetire t s).tile t
      let U := (fire t op s).tile t
      (fDreg f < 8 → tget 0 U.pr (8 * s.ctxOf t + fDreg f) = o.res) ∧
      (8 ≤ fDreg f → fDreg f < 16 → tget 0 U.sh (fDreg f - 8) = o.res) ∧
      (fFw f = true → bit (tget 0 U.flags (s.ctxOf t)) 0 = (o.res == 0) ∧ bit (tget 0 U.flags (s.ctxOf t)) 1 = bit o.res 31 ∧
        bit (tget 0 U.flags (s.ctxOf t)) 2 = o.fc.getD (bit (tget 0 T.flags (s.ctxOf t)) 2) ∧
        bit (tget 0 U.flags (s.ctxOf t)) 3 = o.fv.getD (bit (tget 0 T.flags (s.ctxOf t)) 3) ∧
        bit (tget 0 U.flags (s.ctxOf t)) 4 = o.ft.getD (bit (tget 0 T.flags (s.ctxOf t)) 4)) ∧
      (fDtm f = true → fMen f = true → fMode f ≠ 2 → (fTgate f = false ∨ o.ft = some true) →
        tget 0 U.mem (T.memTarget (fMode f) (fBase f) (s.memAddr t f (s.pds t))) = o.res) ∧
      (fDoa f = true → hsel true (s.pds t) (fHsOa f) = true → (fTgate f = false ∨ o.ft = some true) → U.oa.val = some o.res) ∧
      (fDob f = true → hsel true (s.pds t) (fHsOb f) = true → (fTgate f = false ∨ o.ft = some true) → U.ob.val = some o.res)

/-- R46 to R48: the fire appends the result, the accumulator and the context it belongs to behind what is left there; the retirement of a lone result writes ACC, the register and the flags of that context, whatever context is active then. -/
def Obligations.LatencyTwoFire : Prop :=
    (∀ (t : Nat) (op : FuOp) (s : State), s.canFire t op = true → op.lat2 = true →
        let T := (secondStageRetire t s).tile t
        ∃ e : Stage2, ((fire t op s).tile t).stage2 = T.stage2 ++ [e] ∧ e.ctx = s.ctxOf t ∧ e.res = (op.run (s.fuIn t)).res ∧
          e.acc = (op.run (s.fuIn t)).acc.getD (tget 0 T.acc (s.ctxOf t)) ∧ e.dreg = fDreg (s.act t) ∧ e.fw = fFw (s.act t) ∧
          e.new = true) ∧
    (∀ (t : Nat) (s : State) (e : Stage2), (s.tile t).stage2 = [e] → e.new = false → regionMoves (s.rgn (t / 256)) = true →
        s.stageFree t e = true →
        let U := (secondStageRetire t s).tile t
        U.stage2 = [] ∧ tget 0 U.acc e.ctx = e.acc ∧ (∀ k, k ≠ e.ctx → tget 0 U.acc k = tget 0 (s.tile t).acc k) ∧
          (e.dreg < 8 → tget 0 U.pr (8 * e.ctx + e.dreg) = e.res) ∧
          (e.fw = true → bit (tget 0 U.flags e.ctx) 0 = (e.res == 0) ∧ bit (tget 0 U.flags e.ctx) 1 = bit e.res 31) ∧
          (∀ k, k ≠ e.ctx → tget 0 U.flags k = tget 0 (s.tile t).flags k))

/-- R49, R50, in terms of whole words: sums and differences wrap, c and v are the unsigned and signed overflow, ACC takes 64-bit products, a compare answers its truth in the result and in t, and a saturating form answers the nearest value that 32 bits hold. -/
def Obligations.ArithmeticResults : Prop :=
    ∀ i : FuIn,
      (fuAdd.run i).res = i.a + i.b ∧ (fuAdd.run i).fc = some (i.a.uaddOverflow i.b) ∧ (fuAdd.run i).fv = some (i.a.saddOverflow i.b) ∧
      (fuAddc.run i).res = i.a + i.b + (if bit i.fl 2 then 1 else 0) ∧ (fuSubb.run i).res = i.a - i.b - (if bit i.fl 2 then 0 else 1) ∧
      (fuSub.run i).res = i.a - i.b ∧ (fuSub.run i).fc = some (!i.a.ult i.b) ∧ (fuSub.run i).fv = some (i.a.ssubOverflow i.b) ∧
      (fuNeg.run i).res = -i.a ∧ (fuAbs.run i).res.toNat = i.a.toInt.natAbs ∧ (fuAbs.run i).fv = some (i.a == 0x80000000) ∧
      (fuCmplt.run i).ft = some (i.a.slt i.b) ∧ (fuCmpltu.run i).ft = some (i.a.ult i.b) ∧ (fuCmple.run i).ft = some (i.a.sle i.b) ∧
      (fuCmpleu.run i).ft = some (i.a.ule i.b) ∧ (fuCmpeq.run i).ft = some (i.a == i.b) ∧
      (∀ op ∈ [fuCmpeq, fuCmpne, fuCmplt, fuCmpltu, fuCmple, fuCmpleu], (op.run i).res = (if (op.run i).ft = some true then 1 else 0) ∧
        (op.run i).fc = (fuSub.run i).fc ∧ (op.run i).fv = (fuSub.run i).fv) ∧
      (∀ op ∈ [fuPasseq, fuPassne, fuPasslt, fuPassltu, fuPassle, fuPassleu], (op.run i).res = i.a) ∧
      (fuPasslt.run i).ft = some (i.a.slt i.b) ∧ (fuPassltu.run i).ft = some (i.a.ult i.b) ∧
      (fuMul.run i).acc = some (i.a.signExtend 64 * i.b.signExtend 64) ∧ (fuMulu.run i).acc = some (i.a.setWidth 64 * i.b.setWidth 64) ∧
      (fuMac.run i).acc = some (i.acc + i.a.signExtend 64 * i.b.signExtend 64) ∧ (fuMacu.run i).acc = some (i.acc + i.a.setWidth 64 * i.b.setWidth 64) ∧
      (fuMsu.run i).acc = some (i.acc - i.a.signExtend 64 * i.b.signExtend 64) ∧ (fuAccld.run i).acc = some (i.b.setWidth 64 * 2 ^ 32 + i.a.setWidth 64) ∧
      (∀ op ∈ [fuMul, fuMulu, fuMac, fuMacu, fuMsu, fuAccld, fuDot4, fuDot4u, fuDot2, fuDot2u, fuDdot4, fuDdot4u],
        ∃ v, (op.run i).acc = some v ∧ (op.run i).res = if i.hi then (v >>> 32).setWidth 32 else v.setWidth 32) ∧
      (fuAdds.run i).res.toInt = max (-2 ^ 31) (min (2 ^ 31 - 1) (i.a.toInt + i.b.toInt)) ∧ (fuAdds.run i).fv = some (i.a.saddOverflow i.b) ∧
      (fuSubs.run i).res.toInt = max (-2 ^ 31) (min (2 ^ 31 - 1) (i.a.toInt - i.b.toInt)) ∧ (fuSubs.run i).fv = some (i.a.ssubOverflow i.b) ∧
      (fuAddus.run i).res.toNat = min (2 ^ 32 - 1) (i.a.toNat + i.b.toNat) ∧ (fuSubus.run i).res.toNat = i.a.toNat - i.b.toNat ∧
      (fuMin.run i).res.toInt = min i.a.toInt i.b.toInt ∧ (fuMax.run i).res.toInt = max i.a.toInt i.b.toInt ∧
      (fuMinu.run i).res.toNat = min i.a.toNat i.b.toNat ∧ (fuMaxu.run i).res.toNat = max i.a.toNat i.b.toNat

/-- R49, bit by bit: the carry of a rotate is the bit that went round, the counts name the first one bit, a field extract reads zero above bit 31 and a field insert changes its field alone. -/
def Obligations.ShiftAndBitResults : Prop :=
    ∀ i : FuIn,
      (fuShl.run i).res = i.a <<< (i.b.toNat % 32) ∧ (fuShr.run i).res = i.a >>> (i.b.toNat % 32) ∧ (fuSar.run i).res = i.a.sshiftRight (i.b.toNat % 32) ∧
      (∀ k, k < 32 → bit (fuRol.run i).res ((k + i.b.toNat) % 32) = bit i.a k ∧ bit (fuRor.run i).res k = bit i.a ((k + i.b.toNat) % 32)) ∧
      (i.b.toNat % 32 ≠ 0 → (fuRol.run i).fc = some (bit (fuRol.run i).res 0) ∧ (fuRor.run i).fc = some (bit (fuRor.run i).res 31) ∧
        (fuShl.run i).fc = some (bit i.a (32 - i.b.toNat % 32)) ∧ (fuShr.run i).fc = some (bit i.a (i.b.toNat % 32 - 1)) ∧ (fuSar.run i).fc = (fuShr.run i).fc) ∧
      (i.b.toNat % 32 = 0 → ∀ op ∈ [fuShl, fuShr, fuSar, fuRol, fuRor], (op.run i).fc = some false ∧ (op.run i).res = i.a) ∧
      (i.c = 0 → (fuSel.run i).res = i.b) ∧ (i.c ≠ 0 → (fuSel.run i).res = i.a) ∧
      (i.a = 0 → (fuClz.run i).res = 32 ∧ (fuCtz.run i).res = 32 ∧ (fuPopc.run i).res = 0) ∧
      (i.a ≠ 0 → (fuClz.run i).res.toNat < 32 ∧ bit i.a (31 - (fuClz.run i).res.toNat) = true ∧ (∀ k, 31 - (fuClz.run i).res.toNat < k → bit i.a k = false) ∧
        (fuCtz.run i).res.toNat < 32 ∧ bit i.a (fuCtz.run i).res.toNat = true ∧ (∀ k, k < (fuCtz.run i).res.toNat → bit i.a k = false)) ∧
      (∀ k, k < 32 → bit (fuBrev.run i).res k = bit i.a (31 - k) ∧
        bit (fuBext.run i).res k = (decide (k ≤ i.imm / 32 % 32) && bit i.a (i.imm % 32 + k)) ∧
        bit (fuBins.run i).res k = (if i.imm % 32 ≤ k ∧ k ≤ i.imm % 32 + i.imm / 32 % 32 then bit i.b (k - i.imm % 32) else bit i.a k) ∧
        bit (fuBmaj3.run i).res k = decide (2 ≤ b2n (bit i.a k) + b2n (bit i.b k) + b2n (bit i.c k)) ∧
        bit (fuBthr.run i).res k = decide (i.imm % 4 ≤ b2n (bit i.a k) + b2n (bit i.b k) + b2n (bit i.c k)) ∧
        bit (fuBmux.run i).res k = (if bit i.c k then bit i.a k else bit i.b k))

/-- The product is the one linear in its second factor that takes 1 to the first factor and 2^(k+1) to x times what it takes 2^k to, where x times v is 2v reduced by 0x11D or 0x11B; the four operations multiply lane by lane under the polynomial that imm[8] selects, the scalar forms by imm[7:0]. -/
def Obligations.GfMultiplication : Prop :=
    (∀ (w x y z : Nat), w < 512 → x < 256 → y < 256 → z < 256 → gfMul (gfPoly w) x (y ^^^ z) = gfMul (gfPoly w) x y ^^^ gfMul (gfPoly w) x z) ∧
    (∀ (w x : Nat), x < 256 → gfMul (gfPoly w) x 1 = x) ∧
    (∀ (w x k : Nat), x < 256 → k < 7 → let v := gfMul (gfPoly w) x (2 ^ k)
      gfMul (gfPoly w) x (2 ^ (k + 1)) = if v < 128 then 2 * v else (2 * v) ^^^ (if w / 256 % 2 = 1 then 0x11B else 0x11D)) ∧
    (∀ (i : FuIn) (k : Nat), k < 4 →
      lane (fuGfmul.run i).res 8 k = gfMul (gfPoly i.imm) (lane i.a 8 k) (lane i.b 8 k) ∧
      lane (fuGfmuls.run i).res 8 k = gfMul (gfPoly i.imm) (lane i.a 8 k) (i.imm % 256) ∧
      lane (fuGfmad.run i).res 8 k = lane i.c 8 k ^^^ gfMul (gfPoly i.imm) (lane i.a 8 k) (lane i.b 8 k) ∧
      lane (fuGfmads.run i).res 8 k = lane i.c 8 k ^^^ gfMul (gfPoly i.imm) (lane i.a 8 k) (i.imm % 256)) ∧
    gfMul (gfPoly 0) 0x02 0x80 = 0x1D ∧ gfMul (gfPoly 0x100) 0x02 0x80 = 0x1B

/-- One bit of the message at a time: the register shifts right and, where its bit 0 and the message bit differ, 0x82F63B78 is added. CRCB takes A's low byte, CRCH two and CRCW all four bytes, lowest first; the spec's check value of the nine bytes 123456789 comes out. -/
def Obligations.CrcIsBitSerial : Prop :=
    (∀ (i : FuIn) (n : Nat) (op : FuOp), (n = 1 ∧ op = fuCrcb) ∨ (n = 2 ∧ op = fuCrch) ∨ (n = 4 ∧ op = fuCrcw) →
      (op.run i).res = (List.range (8 * n)).foldl (fun (c : Word) j => if bit c 0 != bit i.a j then (c >>> 1) ^^^ 0x82F63B78 else c >>> 1) i.b) ∧
    (∀ i : FuIn,
      let one := (fuCrcw.run { i with a := 0x34333231, b := 0xFFFFFFFF }).res
      let two := (fuCrcw.run { i with a := 0x38373635, b := one }).res
      (fuCrcb.run { i with a := 0x39, b := two }).res ^^^ 0xFFFFFFFF = 0xE3069283)

/-- The three cases of R53 by field, the count that wraps, and the four fires of the rule's table. -/
def Obligations.MinixUpdatesTheState : Prop :=
    (∀ i : FuIn,
      let A := i.a.toNat % 256
      let B := i.b.toNat
      let r := (fuMinix.run i).res.toNat
      (fuMinix.run i).ft = some (decide (A < B % 256)) ∧ r / 2 ^ 24 = (B / 2 ^ 24 + 1) % 256 ∧
      (A < B % 256 → r % 256 = A ∧ r / 2 ^ 8 % 256 = B % 256 ∧ r / 2 ^ 16 % 256 = B / 2 ^ 24) ∧
      (B % 256 ≤ A → r % 256 = B % 256 ∧ r / 2 ^ 8 % 256 = min A (B / 2 ^ 8 % 256) ∧ r / 2 ^ 16 % 256 = B / 2 ^ 16 % 256)) ∧
    (∀ i : FuIn, (fuMinix.run { i with a := 9, b := 0xFFFF }).res = 0x0100FF09 ∧ (fuMinix.run { i with a := 4, b := 0x0100FF09 }).res = 0x02010904 ∧
      (fuMinix.run { i with a := 7, b := 0x02010904 }).res = 0x03010704 ∧ (fuMinix.run { i with a := 4, b := 0x03010704 }).res = 0x04010404)

/-- R276: through the plain view an enabled byte is the one written, through the set view it is set into what stood there, through the clear view cleared from it; every other byte of memory is as before, and after a status other than OK every byte is; a read through any view answers the plain word. Stated of the word that a reservoir bank performs, and of the line that a unit writes below the host's addresses while no request of another unit stands at a bank or at a DRAM controller (one that stands there may be performed in the same command). -/
def Obligations.MemoryWritesAreExact : Prop :=
    (∀ (s : State) (q : WordReq),
      (q.wr = true → (s.bankWord q).2.1 = .ok → ∀ k, (s.bankWord q).1.byteAt k =
        if k / 64 = rsvLine q.off ∧ bit q.mask (k % 64) = true then
          let new := BitVec.ofNat 8 (fld q.data (8 * (k % 64)) 8)
          if q.view = 1 then s.byteAt k ||| new else if q.view = 2 then s.byteAt k &&& ~~~new else new
        else s.byteAt k) ∧
      (q.wr = false ∨ (s.bankWord q).2.1 ≠ .ok → ∀ k, (s.bankWord q).1.byteAt k = s.byteAt k) ∧
      (q.wr = false → (s.bankWord q).2.1 = .ok → (s.bankWord q).2.2 = s.readLine (rsvLine q.off))) ∧
    (∀ (s : State) (ini : Ini) (first : Bool) (a : Nat) (d : Line) (m : BitVec 64), s.ocn.txns = [] →
      (a < 0x400000000000 → (s.lineWrite ini first a d m).2 = .ok → ∀ k, (s.lineWrite ini first a d m).1.byteAt k =
        if k / 64 = (s.plainAddr a).1 / 64 ∧ bit m (k % 64) = true then
          let new := BitVec.ofNat 8 (fld d (8 * (k % 64)) 8)
          if (s.plainAddr a).2 = 1 then s.byteAt k ||| new else if (s.plainAddr a).2 = 2 then s.byteAt k &&& ~~~new else new
        else s.byteAt k) ∧
      ((s.lineWrite ini first a d m).2 ≠ .ok → ∀ k, (s.lineWrite ini first a d m).1.byteAt k = s.byteAt k))

/-- Addresses rising and no byte listed that equals what an unlisted address reads as: kept by the accesses of the reservoir and of the DRAM controller, by the wipes and clears, and by a lost write-back. -/
def Obligations.MemoryFormKeptByStores : Prop :=
    ∀ (s t : State) (c : Instr), Memory.wf s.mem → exec c s = .next t →
      (match c with
        | .bankAccess _ | .dramAccess _ _ | .secureWipe _ | .hvClear _ _ | .dramInitDone | .writebackError _ _ _ => Memory.wf t.mem
        | _ => True)

/-- R281, R287, R289: banks 240 to 255, the host-visible range, and all of the DRAM read zero afterwards; every other byte is as before. -/
def Obligations.WipesZeroTheirRange : Prop :=
    (∀ (s : State) (cause : WipeCause) (t : State), s.rsvr.swReq = true → Fits s s → exec (.secureWipe cause) s = .next t →
        t.rsvr.keys = [] ∧ t.rsvr.swReq = false ∧ ∀ k, t.byteAt k = if bankAddr 240 ≤ k ∧ k < bankAddr 256 then 0 else s.byteAt k) ∧
    (∀ (s : State) (ini : Ini) (val : Word) (t : State), s.passesWhole ini (page .drc 0 + drcHvctrl) = true → bit val 0 = true → s.hvEn = false →
        Fits s s → exec (.hvClear ini val) s = .next t →
        t.hvEn = true ∧ ∀ k, t.byteAt k = if dramBase ≤ k ∧ s.inHv (k - dramBase) = true then 0 else s.byteAt k) ∧
    (∀ (s t : State), s.drc.trained = 0xFF → s.drc.init = false → Fits s (dramInitDone s) → exec .dramInitDone s = .next t →
        t.drc.init = true ∧ ∀ k, t.byteAt k = if dramBase ≤ k then 0 else s.byteAt k)

/-- With a decoder committed the write leaves the register and raises cmdig; otherwise en reads 0 and every byte of memory is kept. A range opened again is cleared before (its bytes read zero as en turns 1). -/
def Obligations.HvDisableNeedsUncommitted : Prop :=
    (∀ (s : State) (ini : Ini) (val : Word), s.passesWhole ini (page .drc 0 + drcHvctrl) = true → bit val 0 = false → s.hvEn = true →
      (s.hif.hdm.any (fun d => d.2.committed) = true → Takes (.hvDisable ini val) s ((s.raise (page .drc 0) 3).answer .ok 0)) ∧
      (s.hif.hdm.any (fun d => d.2.committed) = false → Fits s (hvDisable ini val s) →
        ∃ t, exec (.hvDisable ini val) s = .next t ∧ t.hvEn = false ∧ t.mem = s.mem)) ∧
    (∀ (s : State) (ini : Ini) (val : Word) (t : State), bit val 0 = true → s.hvEn = false → exec (.hvDisable ini val) s = .next t → t.hvEn = true →
      ∀ k, dramBase ≤ k → s.inHv (k - dramBase) = true → t.byteAt k = 0)

/-- R183, R184: low not below high, or high above 512, leaves everything but cmdig; otherwise the marks are stored and pace is 1 from high upwards, 0 from low downwards and as before between; the queue's packets and counters are untouched. -/
def Obligations.WeirJudgesPace : Prop :=
    ∀ (s : State) (ini : Ini) (q : Queue) (val : Word), s.passesWhole ini (sqPage q.val + sqWeir) = true →
      ((fld val 0 10 ≤ fld val 16 10 ∨ 512 < fld val 0 10) → Takes (.weirWrite ini q val) s ((s.raise (sqPage q.val) 8).answer .ok 0)) ∧
      (fld val 16 10 < fld val 0 10 → fld val 0 10 ≤ 512 → Fits s s → ∃ t, exec (.weirWrite ini q val) s = .next t ∧
        fld (t.reg (sqPage q.val + sqWeir)) 0 10 = fld val 0 10 ∧ fld (t.reg (sqPage q.val + sqWeir)) 16 10 = fld val 16 10 ∧
        (let m := (s.queue q.val).watched (sqWsel (s.sqCtl q.val))
         (fld val 0 10 ≤ m → (t.queue q.val).pace = true) ∧ (m ≤ fld val 16 10 → (t.queue q.val).pace = false) ∧
         (fld val 16 10 < m → m < fld val 0 10 → (t.queue q.val).pace = (s.queue q.val).pace)) ∧
        (t.queue q.val) = { s.queue q.val with pace := (t.queue q.val).pace } ∧ (∀ k, k ≠ q.val → t.queue k = s.queue k) ∧
        (∀ o, o ≠ sqPage q.val + sqWeir → t.reg o = s.reg o) ∧ t.mem = s.mem)

/-- R304, R309: outside a loop a LINK with end = 0 leaves the channel running at the target, its data and transform as they were, and a channel that executes END is parked with its tail at that word, its bursts kept; no other channel's state is touched, and memory is as it was (for a LINK, whose fetch takes its turn at a bank, where no request of another unit waits there). -/
def Obligations.LinkAndEnd : Prop :=
    (∀ (s : State) (d : DmaCh) (w : DWord), s.dmaAt d.val 6 = some w → bit w 8 = false → reservedBits w [(0, 9), (16, 45)] = false → (s.dmach d.val).loop = none →
        Fits s (dmaLink d.val s) → s.programAddr (8 * fld w 16 45 / 64 * 64) = true →
        ∃ t, exec (.link d) s = .next t ∧ (t.dmach d.val).pc = 8 * fld w 16 45 ∧ (t.dmach d.val).st = .run ∧
          (t.dmach d.val).bursts = (s.dmach d.val).bursts ∧ (t.dmach d.val).xf = (s.dmach d.val).xf ∧ (s.ocn.txns = [] → t.mem = s.mem) ∧
          (∀ k, k ≠ d.val → t.dmach k = s.dmach k)) ∧
    (∀ (s : State) (d : DmaCh) (w : DWord), s.dmaAt d.val 6 = some w → bit w 8 = true → reservedBits w [(0, 9), (16, 45)] = false → (s.dmach d.val).latch = false →
        Fits s (dmaEnd d.val s) →
        ∃ t, exec (.dmaEnd d) s = .next t ∧ (t.dmach d.val).st = .parked ∧ (t.dmach d.val).tail = (s.dmach d.val).pc ∧
          (t.dmach d.val).bursts = (s.dmach d.val).bursts ∧ (t.dmach d.val).loop = (s.dmach d.val).loop ∧
          bit (t.reg (dmaPage d.val + hEvtRaw)) 0 = true ∧ t.mem = s.mem ∧ (∀ k, k ≠ d.val → t.dmach k = s.dmach k))

/-- R325 to R327: the new frame holds the return address in x16 and zeros in x17 to x31, the globals and pass registers carry over, and the return finds pc, frame state and all 32 registers as they were; memory is untouched. R337: while the register engine has still to load the caller's frame, FRET leaves the core as it is. -/
def Obligations.FcallThenFretReturns : Prop :=
    (∀ (s : State) (c : Core) (b : Nat) (rs1 : Fin 32) (imm : BitVec 12), s.execBank c.val = some b → (s.bank c.val b).tf = false →
      1 ≤ (s.bank c.val b).res → (s.bank c.val b).res < 6 → (s.bank c.val b).cur < 6 → bit (s.bank c.val b).pc 0 = false →
      (s.bank c.val b).cont = none → s.frameDue c.val b = [] → Fits s s →
      ∃ t u, exec (.fcall c rs1 imm) s = .next t ∧
        (t.bank c.val b).pc = (((s.bank c.val b).x rs1.val + imm.signExtend 64) &&& ~~~1) ∧
        (t.bank c.val b).x 16 = (s.bank c.val b).pc + 4 ∧ (∀ r, 17 ≤ r → r < 32 → (t.bank c.val b).x r = 0) ∧
        (∀ r, r < 16 → (t.bank c.val b).x r = (s.bank c.val b).x r) ∧ (t.bank c.val b).res = (s.bank c.val b).res + 1 ∧ t.mem = s.mem ∧
        exec (.fret c) t = .next u ∧ (u.bank c.val b).pc = (s.bank c.val b).pc + 4 ∧ (∀ r, r < 32 → (u.bank c.val b).x r = (s.bank c.val b).x r) ∧
        (u.bank c.val b).cur = (s.bank c.val b).cur ∧ (u.bank c.val b).res = (s.bank c.val b).res ∧ u.mem = s.mem) ∧
    (∀ (s : State) (c : Core) (b : Nat), s.execBank c.val = some b → (s.bank c.val b).tf = false → (s.bank c.val b).res ≠ 1 → (s.bank c.val b).cur < 6 →
      bit ((s.bank c.val b).x 16) 0 = false → ((s.bank c.val b).cur + 5) % 6 ∈ s.frameDue c.val b → Takes (.fret c) s s)

/-- R328, R330, R347: for an exception that is not delegated, taken while tf and tnest are 0. The trap frame is slots 96 on of the bank's upper half. What remains changed after the return is the trap's own record and the retired count. -/
def Obligations.TrapThenReturn : Prop :=
    ∀ (s : State) (c : Core) (b : Nat) (cause : BitVec 6) (tval : BitVec 64), s.execBank c.val = some b → (s.bank c.val b).tf = false →
      (s.bank c.val b).tnest = false → excCause cause.toNat = true → s.delegated c.val b false cause.toNat = false →
      bit (s.bank c.val b).pc 0 = false →
      (s.bank c.val b).cont = none → s.frameDue c.val b = [] → Fits s s →
      ∃ t u, exec (.trapEntry c false cause tval) s = .next t ∧
        (t.bank c.val b).pc = (s.csr c.val csrMtvec &&& ~~~3) ∧ (t.bank c.val b).slot slotMepc = (s.bank c.val b).pc ∧
        (t.bank c.val b).slot slotMcause = BitVec.ofNat 64 cause.toNat ∧ (t.bank c.val b).slot slotMtval = tval ∧ (t.bank c.val b).priv = 3 ∧
        bit (t.bank c.val b).mst mMie = false ∧ (t.bank c.val b).tf = true ∧
        (∀ r, 16 ≤ r → r < 32 → (t.bank c.val b).x r = tget 0 (s.bank c.val b).up (96 + (r - 16))) ∧
        (∀ r, r < 16 → (t.bank c.val b).x r = (s.bank c.val b).x r) ∧ t.mem = s.mem ∧
        exec (.xret c true) t = .next u ∧ (u.bank c.val b).pc = (s.bank c.val b).pc ∧ (u.bank c.val b).priv = (s.bank c.val b).priv ∧
        bit (u.bank c.val b).mst mMie = bit (s.bank c.val b).mst mMie ∧ (u.bank c.val b).tf = false ∧
        (∀ r, r < 32 → (u.bank c.val b).x r = (s.bank c.val b).x r) ∧ u.mem = s.mem

/-- R368: in user mode each raises exception 2 (here undelegated, with no trap frame in use) and leaves the scheduler alone; otherwise HSELF answers the thread's number and HEVT puts one occurrence of event rs1[12:0] into the core's port. -/
def Obligations.XkhtsNeedPrivilege : Prop :=
    (∀ (s : State) (c : Core) (b : Nat) (i : Instr), (match i with
        | .hevt d _ | .hwait d | .hexit d | .hyield d | .hself d _ => d = c
        | _ => False) → s.execBank c.val = some b → (s.bank c.val b).priv = 0 → (s.bank c.val b).tf = false →
        bit (s.csr c.val csrMedeleg) 2 = false → (s.bank c.val b).cont = none → s.frameDue c.val b = [] → Fits s s →
        ∃ t, exec i s = .next t ∧ (t.bank c.val b).slot slotMcause = 2 ∧ (t.bank c.val b).slot slotMepc = ((s.bank c.val b).pc &&& ~~~1) ∧
          (t.bank c.val b).priv = 3 ∧ t.hts = s.hts ∧ t.mem = s.mem) ∧
    (∀ (s : State) (c : Core) (b : Nat) (rd : Fin 32), s.execBank c.val = some b → (s.bank c.val b).priv ≠ 0 → rd ≠ 0 →
        (s.bank c.val b).cont = none → s.frameDue c.val b = [] → Fits s s →
        ∃ t, exec (.hself c rd) s = .next t ∧ (t.bank c.val b).x rd.val = BitVec.ofNat 64 (s.bank c.val b).thr ∧
          (t.bank c.val b).pc = (s.bank c.val b).pc + 4 ∧ (∀ r, r ≠ rd.val → r < 32 → (t.bank c.val b).x r = (s.bank c.val b).x r) ∧ t.hts = s.hts) ∧
    (∀ (s : State) (c : Core) (b : Nat) (rs1 : Fin 32), s.execBank c.val = some b → (s.bank c.val b).priv ≠ 0 → (s.bank c.val b).cont = none → s.frameDue c.val b = [] → Fits s s →
        (tget [] s.hts.ports (0x10000 + c.val)).length < 8 →
        ∃ t, exec (.hevt c rs1) s = .next t ∧
          tget [] t.hts.ports (0x10000 + c.val) = tget [] s.hts.ports (0x10000 + c.val) ++ [⟨fld ((s.bank c.val b).x rs1.val) 0 13, false⟩] ∧
          (t.bank c.val b).pc = (s.bank c.val b).pc + 4 ∧ ∀ r, r < 32 → (t.bank c.val b).x r = (s.bank c.val b).x r)

/-- R322: the words of ADD, SUB, AND, OR, XOR, SLTU and MUL for every choice of registers. x0 reads zero and keeps reading zero; no other register, no byte of memory and nothing of the scheduler changes. -/
def Obligations.RvRegisterArithmetic : Prop :=
    ∀ (s : State) (c : Core) (b : Nat) (rd rs1 rs2 : Fin 32) (f : Nat × Nat × (DWord → DWord → DWord)),
      f ∈ [(0, 0, fun x y => x + y), (0, 0x20, fun x y => x - y), (7, 0, fun x y => x &&& y), (6, 0, fun x y => x ||| y),
        (4, 0, fun x y => x ^^^ y), (3, 0, fun x y => if x.toNat < y.toNat then 1 else 0), (0, 1, fun x y => x * y)] →
      s.execBank c.val = some b → (s.bank c.val b).cont = none → s.frameDue c.val b = [] → Fits s s →
      ∃ t, exec (.rv64Instruction c (BitVec.ofNat 32 (0x33 + 2 ^ 7 * rd.val + 2 ^ 12 * f.1 + 2 ^ 15 * rs1.val + 2 ^ 20 * rs2.val + 2 ^ 25 * f.2.1))) s = .next t ∧
        (∀ r, r < 32 → (t.bank c.val b).x r = if r = rd.val ∧ r ≠ 0 then f.2.2 ((s.bank c.val b).x rs1.val) ((s.bank c.val b).x rs2.val) else (s.bank c.val b).x r) ∧
        (t.bank c.val b).x 0 = 0 ∧ (t.bank c.val b).pc = (s.bank c.val b).pc + 4 ∧ t.mem = s.mem ∧ t.hts = s.hts

/-- R346: no entry of the named context stays (all of them with no page named, every entry with all = 1), entries of other contexts stay; a go while busy changes nothing but cmdig; ATU_INVAL_DONE clears busy and sets EVT_RAW.inv. -/
def Obligations.AtuInvalidateRemoves : Prop :=
    (∀ (s : State) (ini : Ini) (val : Word), s.mayWrite ini (atuPage + atuInval) = true → bit (s.actBits ini (atuPage + atuInval) val) 31 = true →
        s.atu.busy = false →
        let w := (s.fieldWrite ini (atuPage + atuInval) val).reg (atuPage + atuInval)
        Fits s (s.fieldWrite ini (atuPage + atuInval) val) →
        ∃ t, exec (.atuInvalidate ini val) s = .next t ∧ t.atu.busy = true ∧ (∀ e ∈ t.atu.tlb, e ∈ s.atu.tlb) ∧
          (bit w 16 = true → t.atu.tlb = []) ∧ (bit w 17 = false → ∀ e ∈ t.atu.tlb, e.ctx ≠ some (fld w 0 10)) ∧
          (bit w 16 = false → ∀ e ∈ s.atu.tlb, e.ctx ≠ some (fld w 0 10) → e ∈ t.atu.tlb)) ∧
    (∀ (s : State) (ini : Ini) (val : Word), s.mayWrite ini (atuPage + atuInval) = true → bit (s.actBits ini (atuPage + atuInval) val) 31 = true →
        s.atu.busy = true → Takes (.atuInvalidate ini val) s (((s.fieldWrite ini (atuPage + atuInval) val).raise atuPage 2).answer .ok 0)) ∧
    (∀ s : State, s.atu.busy = true → Fits s (atuInvalDone s) →
        ∃ t, exec .atuInvalDone s = .next t ∧ t.atu = { s.atu with busy := false } ∧ bit (t.reg (atuPage + hEvtRaw)) 0 = true ∧ t.mem = s.mem)

/-- R427: NONCE loads the eight words and makes the nonce fresh; each of ENROLL, REVOKE, LCREQ and DBGTOK leaves no fresh nonce, whatever its result. -/
def Obligations.NonceIsConsumed : Prop :=
    (∀ (s : State) (ini : Ini) (v : BitVec 256), s.mayWrite ini (secPage + secCmd) = true → bit (s.actBits ini (secPage + secCmd) (BitVec.ofNat 32 (1 + 2 ^ 31))) 31 = true →
        fld (s.actBits ini (secPage + secCmd) (BitVec.ofNat 32 (1 + 2 ^ 31))) 0 4 = 1 → Fits s (secNonce256 ini v s) →
        ∃ t, exec (.nonce ini v) s = .next t ∧ t.sec.nonce = true ∧ ∀ i, i < 8 → t.reg (secPage + secNonce + 4 * i) = BitVec.ofNat 32 (fld v (32 * i) 32)) ∧
    (∀ s : State, s.secEnroll.sec.nonce = false ∧ s.secRevoke.sec.nonce = false ∧ s.secLcreq.sec.nonce = false ∧ s.secToken.sec.nonce = false) ∧
    (∀ (s : State) (ini : Ini) (v : Word) (k : Nat), k ∈ [2, 3, 4, 5] → s.mayWrite ini (secPage + secCmd) = true →
        bit (s.actBits ini (secPage + secCmd) v) 31 = true → fld (s.actBits ini (secPage + secCmd) v) 0 4 = k →
        (secCmdWrite ini v none s).sec.nonce = false)

/-- R393, R396, R397, R400, R417: the AON page, LVE_LASTFLT, the fuses and the time stand through each; a warm reset keeps every byte of memory (but for the sections that a capture caught while it copies has already written, R164), a cold reset and HOLD leave none; both resets end in BOOT. -/
def Obligations.ResetsKeepTheAonDomain : Prop :=
    (∀ (s t : State) (straps : BitVec 16) (f : FuseRead) (cause : Nat), s.pmu.cold = some cause → s.powered = true → t.portsOk = true → t = s.coldReset cause straps.toNat f.bad →
        exec (.coldReset straps f) s = .next t ∧ t.fuses = s.fuses ∧ t.aon.time = s.aon.time ∧ t.pmu.mode = .boot ∧ (∀ k, t.byteAt k = 0) ∧
        t.reg (lvePg + lveLastflt) = s.reg (lvePg + lveLastflt) ∧ ∀ o, o / 0x1000 * 0x1000 = aonPage → t.reg o = s.reg o) ∧
    (∀ (s : State) (cause : Nat), (s.warmReset cause).fuses = s.fuses ∧ (s.warmReset cause).aon.time = s.aon.time ∧ (s.warmReset cause).pmu.mode = .boot ∧
        (s.capState ≠ 3 → (s.warmReset cause).mem = s.mem) ∧ (s.warmReset cause).reg (lvePg + lveLastflt) = s.reg (lvePg + lveLastflt) ∧
        ∀ o, o / 0x1000 * 0x1000 = aonPage → (s.warmReset cause).reg o = s.reg o) ∧
    (∀ s : State, s.holdEntry.fuses = s.fuses ∧ s.holdEntry.aon.time = s.aon.time ∧ s.holdEntry.pmu.mode = .hold ∧ (∀ k, s.holdEntry.byteAt k = 0) ∧
        s.holdEntry.reg (lvePg + lveLastflt) = s.reg (lvePg + lveLastflt) ∧ ∀ o, o / 0x1000 * 0x1000 = aonPage → s.holdEntry.reg o = s.reg o) ∧
    (∀ (s : State) (cause core : Nat), fld (s.reg (lvePg + lveLastflt)) 0 4 ≠ 0 → s.lastFault cause core = s)

/-- R436: vectors 0 to 1,023 are PF0's and 1,024 + 16f + e function f + 1's; a masked one sets its PBA bit and sends nothing, one whose function has MSI-X disabled or is in D3hot is dropped and counted, a number above 2,047 only raises cmdig, and any other is sent and leaves the PBA alone. -/
def Obligations.MsixVectors : Prop :=
    (∀ v, v < 1024 → vectorFn v = 0) ∧ (∀ f e, e < 16 → vectorFn (1024 + 16 * f + e) = f + 1) ∧
    (∀ (s : State) (ini : Ini) (val : Word), s.mayWrite ini (hifPage 0 + hifMsix) = true →
      let v := (s.actBits ini (hifPage 0 + hifMsix) val).toNat
      let w := s.fieldWrite ini (hifPage 0 + hifMsix) val
      let t := msixSend ini val s
      Takes (.msixSend ini val) s t ∧
      (2047 < v → t = (w.raise (hifPage 0) 7).answer .ok 0) ∧
      (v ≤ 2047 → (tget false w.hif.msixEn (vectorFn v) = false ∨ tget false w.hif.d3 (vectorFn v) = true) → t = (w.countUp (hifPage 0 + hifMsixdrop) 0 32 1).answer .ok 0) ∧
      (v ≤ 2047 → tget false w.hif.msixEn (vectorFn v) = true → tget false w.hif.d3 (vectorFn v) = false →
        (w.masked v = true → tget false t.hif.pba v = true ∧ t.hif.out = w.hif.out ∧ ∀ k, k ≠ v → tget false t.hif.pba k = tget false w.hif.pba k) ∧
        (w.masked v = false → t.hif.out.msi = some v ∧ t.hif.pba = w.hif.pba)))

/-- HIF_PBRID reads as the ID stands; the refused access leaves the queue and the record of requests sent to the host. -/
def Obligations.OwnPbrIdRefused : Prop :=
    (∀ s : State, s.windowValue (hifPage 0 + hifPbrid) 4 = (s.reg (hifPage 0 + hifPbrid)).setWidth 64) ∧
    (∀ (s : State) (ini : Ini) (a : BitVec 48) (wr : Bool) (n : BitVec 10) (id o : Nat), s.target a.toNat = .peer id o →
      bit (s.reg (hifPage 0 + hifPbrid)) 31 = true → fld (s.reg (hifPage 0 + hifPbrid)) 0 12 = id → Fits s s → s.outTxn ini a.toNat wr = none →
      ∃ t, exec (.outboundAccess ini a wr n) s = .next t ∧ t.ans = ⟨.slvErr, 0⟩ ∧ t.hif = s.hif ∧ t.mem = s.mem)

/-- R360: the count of a WAITING thread goes down and at zero the thread is READY at its queue's tail; a READY, RUNNING or PARKED thread's early count grows up to 0xFFFF and esat is set there; CANCELLED takes it without effect; FREE counts a stray. Other threads are untouched. -/
def Obligations.DecActionByState : Prop :=
    ∀ (s : State) (n ev : Nat), s.parkingOf n = none →
      (∀ k, k ≠ n → (s.decThread n ev).thr k = s.thr k) ∧ (s.decThread n ev).mem = s.mem ∧
      ((s.thr n).st = .waiting → 2 ≤ (s.thr n).cnt → (s.decThread n ev).thr n = { s.thr n with cnt := (s.thr n).cnt - 1 }) ∧
      ((s.thr n).st = .waiting → (s.thr n).cnt = 1 → ((s.decThread n ev).thr n).st = .ready ∧ ((s.decThread n ev).thr n).cnt = 0 ∧
        ((s.decThread n ev).rq (s.thr n).pri) = s.rq (s.thr n).pri ++ [n]) ∧
      ((s.thr n).st = .ready ∨ (s.thr n).st = .running ∨ (s.thr n).st = .parked →
        ((s.decThread n ev).thr n).erl = min 0xFFFF ((s.thr n).erl + 1) ∧ ((s.decThread n ev).thr n).st = (s.thr n).st ∧
        ((s.thr n).erl < 0xFFFE → (s.decThread n ev).reg (htsPage 0 + hEvtRaw) = s.reg (htsPage 0 + hEvtRaw)) ∧
        (0xFFFE ≤ (s.thr n).erl → ((s.decThread n ev).thr n).esat = true ∧ bit ((s.decThread n ev).reg (htsPage 0 + hEvtRaw)) 7 = true)) ∧
      ((s.thr n).st = .cancelled → s.decThread n ev = s) ∧
      ((s.thr n).st = .free → bit ((s.decThread n ev).reg (htsPage 0 + hEvtRaw)) 2 = true ∧ ((s.decThread n ev).thr n) = s.thr n ∧
        fld ((s.decThread n ev).reg (htsPage 0 + htsStray)) 16 12 = n % 4096 ∧
        fld ((s.decThread n ev).reg (htsPage 0 + htsStray)) 0 16 = min 0xFFFF (fld (s.reg (htsPage 0 + htsStray)) 0 16 + 1))

/-- R377, R378: the 63-bit count wraps, a requested load takes AON_TSET in its place, and alen is cleared with EVT_RAW.alarm set exactly when it was 1 and the new time is at least AON_ALARM. -/
def Obligations.TimeAdvancesAndAlarms : Prop :=
    ∀ s : State, s.aon.xtal = true → s.sec.dbg = false → (aonTick s).portsOk = true →
      ∃ t, exec .aonTick s = .next t ∧
        t.aon.time.toNat = (if s.aon.tload then s.reg64 (aonPage + aonTset) else s.aon.time.toNat + 1) % 2 ^ 63 ∧ t.aon.tload = false ∧ t.mem = s.mem ∧ t.fab = s.fab ∧
        (bit (s.reg (aonPage + aonCtrl)) 1 = true → s.reg64 (aonPage + aonAlarm) ≤ t.aon.time.toNat →
          bit (t.reg (aonPage + aonCtrl)) 1 = false ∧ bit (t.reg (aonPage + hEvtRaw)) 0 = true) ∧
        (bit (s.reg (aonPage + aonCtrl)) 1 = false ∨ t.aon.time.toNat < s.reg64 (aonPage + aonAlarm) →
          t.reg (aonPage + aonCtrl) = s.reg (aonPage + aonCtrl) ∧ t.reg (aonPage + hEvtRaw) = s.reg (aonPage + hEvtRaw))

/-- R481, R489: the bits of pins that are not a core's or the levee's, and every bit for a writer that is neither, keep their value; OUTSET only sets and OUTCLR only clears; no pin's function, no other register and no byte of memory changes. -/
def Obligations.GpioWritesItsOwnPins : Prop :=
    ∀ (s : State) (ini : Ini) (k : Fin 8) (val : Word), s.locked (pioPg 0 + pioOut0 + 4 * (k.val % 2)) = false → Fits s s →
      ∃ t, exec (.gpioOutputWrite ini k val) s = .next t ∧
        let off := if k.val / 2 = 1 then pioPg 0 + pioOe0 + 4 * (k.val % 2) else pioPg 0 + pioOut0 + 4 * (k.val % 2)
        (∀ b, b < 32 →
          let own := fld (s.pin (32 * (k.val % 2) + b)).regs.1 4 2
          let reaches := (isCore ini || ini == levee) && (own == ownCore || own == ownLevee) && decide (k.val % 2 = 0 ∨ b < 16)
          bit (t.reg off) b = if reaches then (if k.val / 2 ≤ 1 then bit val b else if k.val / 2 = 2 then bit (s.reg off) b || bit val b
            else bit (s.reg off) b && !bit val b) else bit (s.reg off) b) ∧
        (∀ o, o ≠ off → t.reg o = s.reg o) ∧ t.pio = s.pio ∧ t.mem = s.mem
end

