-- ==== Sys2Proof/Laws/State.lean ====
section
/-!
SUPPORT. What each basic update of the state leaves alone: one lemma per update and field.
-/
namespace Sys2Proof.Machine

variable (s : State)

/-! `setReg` touches `regs` alone. -/
@[simp] theorem State.setReg_pending (off : Nat) (v : Word) : (s.setReg off v).pending = s.pending := rfl
@[simp] theorem State.setReg_mem (off : Nat) (v : Word) : (s.setReg off v).mem = s.mem := rfl
@[simp] theorem State.setReg_ans (off : Nat) (v : Word) : (s.setReg off v).ans = s.ans := rfl
@[simp] theorem State.setReg_fresh (off : Nat) (v : Word) : (s.setReg off v).fresh = s.fresh := rfl
@[simp] theorem State.setReg_hold (off : Nat) (v : Word) : (s.setReg off v).hold = s.hold := rfl
@[simp] theorem State.setReg_fab (off : Nat) (v : Word) : (s.setReg off v).fab = s.fab := rfl
@[simp] theorem State.setReg_lve (off : Nat) (v : Word) : (s.setReg off v).lve = s.lve := rfl
@[simp] theorem State.setReg_fuses (off : Nat) (v : Word) : (s.setReg off v).fuses = s.fuses := rfl
@[simp] theorem State.setReg_sec (off : Nat) (v : Word) : (s.setReg off v).sec = s.sec := rfl
@[simp] theorem State.setReg_pio (off : Nat) (v : Word) : (s.setReg off v).pio = s.pio := rfl
@[simp] theorem State.setReg_ocn (off : Nat) (v : Word) : (s.setReg off v).ocn = s.ocn := rfl
@[simp] theorem State.setReg_cal (off : Nat) (v : Word) : (s.setReg off v).cal = s.cal := rfl
@[simp] theorem State.setReg_sq (off : Nat) (v : Word) : (s.setReg off v).sq = s.sq := rfl
@[simp] theorem State.setReg_rsvr (off : Nat) (v : Word) : (s.setReg off v).rsvr = s.rsvr := rfl
@[simp] theorem State.setReg_drc (off : Nat) (v : Word) : (s.setReg off v).drc = s.drc := rfl
@[simp] theorem State.setReg_fcc (off : Nat) (v : Word) : (s.setReg off v).fcc = s.fcc := rfl
@[simp] theorem State.setReg_integ (off : Nat) (v : Word) : (s.setReg off v).integ = s.integ := rfl
@[simp] theorem State.setReg_med (off : Nat) (v : Word) : (s.setReg off v).med = s.med := rfl
@[simp] theorem State.setReg_medc (off : Nat) (v : Word) : (s.setReg off v).medc = s.medc := rfl
@[simp] theorem State.setReg_codec (off : Nat) (v : Word) : (s.setReg off v).codec = s.codec := rfl
@[simp] theorem State.setReg_dma (off : Nat) (v : Word) : (s.setReg off v).dma = s.dma := rfl
@[simp] theorem State.setReg_dmaTurn (off : Nat) (v : Word) : (s.setReg off v).dmaTurn = s.dmaTurn := rfl
@[simp] theorem State.setReg_mgd (off : Nat) (v : Word) : (s.setReg off v).mgd = s.mgd := rfl
@[simp] theorem State.setReg_aon (off : Nat) (v : Word) : (s.setReg off v).aon = s.aon := rfl
@[simp] theorem State.setReg_pmu (off : Nat) (v : Word) : (s.setReg off v).pmu = s.pmu := rfl
@[simp] theorem State.setReg_hif (off : Nat) (v : Word) : (s.setReg off v).hif = s.hif := rfl
@[simp] theorem State.setReg_ply (off : Nat) (v : Word) : (s.setReg off v).ply = s.ply := rfl
@[simp] theorem State.setReg_cores (off : Nat) (v : Word) : (s.setReg off v).cores = s.cores := rfl
@[simp] theorem State.setReg_atu (off : Nat) (v : Word) : (s.setReg off v).atu = s.atu := rfl
@[simp] theorem State.setReg_hts (off : Nat) (v : Word) : (s.setReg off v).hts = s.hts := rfl
@[simp] theorem State.setReg_l2 (off : Nat) (v : Word) : (s.setReg off v).l2 = s.l2 := rfl
@[simp] theorem State.setReg_lr (off : Nat) (v : Word) : (s.setReg off v).lr = s.lr := rfl

/-! `setReg64` touches `regs` alone. -/
@[simp] theorem State.setReg64_pending (off v : Nat) : (s.setReg64 off v).pending = s.pending := rfl
@[simp] theorem State.setReg64_mem (off v : Nat) : (s.setReg64 off v).mem = s.mem := rfl
@[simp] theorem State.setReg64_ans (off v : Nat) : (s.setReg64 off v).ans = s.ans := rfl
@[simp] theorem State.setReg64_fresh (off v : Nat) : (s.setReg64 off v).fresh = s.fresh := rfl
@[simp] theorem State.setReg64_hold (off v : Nat) : (s.setReg64 off v).hold = s.hold := rfl
@[simp] theorem State.setReg64_fab (off v : Nat) : (s.setReg64 off v).fab = s.fab := rfl
@[simp] theorem State.setReg64_lve (off v : Nat) : (s.setReg64 off v).lve = s.lve := rfl
@[simp] theorem State.setReg64_fuses (off v : Nat) : (s.setReg64 off v).fuses = s.fuses := rfl
@[simp] theorem State.setReg64_sec (off v : Nat) : (s.setReg64 off v).sec = s.sec := rfl
@[simp] theorem State.setReg64_pio (off v : Nat) : (s.setReg64 off v).pio = s.pio := rfl
@[simp] theorem State.setReg64_ocn (off v : Nat) : (s.setReg64 off v).ocn = s.ocn := rfl
@[simp] theorem State.setReg64_cal (off v : Nat) : (s.setReg64 off v).cal = s.cal := rfl
@[simp] theorem State.setReg64_sq (off v : Nat) : (s.setReg64 off v).sq = s.sq := rfl
@[simp] theorem State.setReg64_rsvr (off v : Nat) : (s.setReg64 off v).rsvr = s.rsvr := rfl
@[simp] theorem State.setReg64_drc (off v : Nat) : (s.setReg64 off v).drc = s.drc := rfl
@[simp] theorem State.setReg64_fcc (off v : Nat) : (s.setReg64 off v).fcc = s.fcc := rfl
@[simp] theorem State.setReg64_integ (off v : Nat) : (s.setReg64 off v).integ = s.integ := rfl
@[simp] theorem State.setReg64_med (off v : Nat) : (s.setReg64 off v).med = s.med := rfl
@[simp] theorem State.setReg64_medc (off v : Nat) : (s.setReg64 off v).medc = s.medc := rfl
@[simp] theorem State.setReg64_codec (off v : Nat) : (s.setReg64 off v).codec = s.codec := rfl
@[simp] theorem State.setReg64_dma (off v : Nat) : (s.setReg64 off v).dma = s.dma := rfl
@[simp] theorem State.setReg64_dmaTurn (off v : Nat) : (s.setReg64 off v).dmaTurn = s.dmaTurn := rfl
@[simp] theorem State.setReg64_mgd (off v : Nat) : (s.setReg64 off v).mgd = s.mgd := rfl
@[simp] theorem State.setReg64_aon (off v : Nat) : (s.setReg64 off v).aon = s.aon := rfl
@[simp] theorem State.setReg64_pmu (off v : Nat) : (s.setReg64 off v).pmu = s.pmu := rfl
@[simp] theorem State.setReg64_hif (off v : Nat) : (s.setReg64 off v).hif = s.hif := rfl
@[simp] theorem State.setReg64_ply (off v : Nat) : (s.setReg64 off v).ply = s.ply := rfl
@[simp] theorem State.setReg64_cores (off v : Nat) : (s.setReg64 off v).cores = s.cores := rfl
@[simp] theorem State.setReg64_atu (off v : Nat) : (s.setReg64 off v).atu = s.atu := rfl
@[simp] theorem State.setReg64_hts (off v : Nat) : (s.setReg64 off v).hts = s.hts := rfl
@[simp] theorem State.setReg64_l2 (off v : Nat) : (s.setReg64 off v).l2 = s.l2 := rfl
@[simp] theorem State.setReg64_lr (off v : Nat) : (s.setReg64 off v).lr = s.lr := rfl

/-! `modReg` touches `regs` alone. -/
@[simp] theorem State.modReg_pending (off : Nat) (f : Word → Word) : (s.modReg off f).pending = s.pending := rfl
@[simp] theorem State.modReg_mem (off : Nat) (f : Word → Word) : (s.modReg off f).mem = s.mem := rfl
@[simp] theorem State.modReg_ans (off : Nat) (f : Word → Word) : (s.modReg off f).ans = s.ans := rfl
@[simp] theorem State.modReg_fresh (off : Nat) (f : Word → Word) : (s.modReg off f).fresh = s.fresh := rfl
@[simp] theorem State.modReg_hold (off : Nat) (f : Word → Word) : (s.modReg off f).hold = s.hold := rfl
@[simp] theorem State.modReg_fab (off : Nat) (f : Word → Word) : (s.modReg off f).fab = s.fab := rfl
@[simp] theorem State.modReg_lve (off : Nat) (f : Word → Word) : (s.modReg off f).lve = s.lve := rfl
@[simp] theorem State.modReg_fuses (off : Nat) (f : Word → Word) : (s.modReg off f).fuses = s.fuses := rfl
@[simp] theorem State.modReg_sec (off : Nat) (f : Word → Word) : (s.modReg off f).sec = s.sec := rfl
@[simp] theorem State.modReg_pio (off : Nat) (f : Word → Word) : (s.modReg off f).pio = s.pio := rfl
@[simp] theorem State.modReg_ocn (off : Nat) (f : Word → Word) : (s.modReg off f).ocn = s.ocn := rfl
@[simp] theorem State.modReg_cal (off : Nat) (f : Word → Word) : (s.modReg off f).cal = s.cal := rfl
@[simp] theorem State.modReg_sq (off : Nat) (f : Word → Word) : (s.modReg off f).sq = s.sq := rfl
@[simp] theorem State.modReg_rsvr (off : Nat) (f : Word → Word) : (s.modReg off f).rsvr = s.rsvr := rfl
@[simp] theorem State.modReg_drc (off : Nat) (f : Word → Word) : (s.modReg off f).drc = s.drc := rfl
@[simp] theorem State.modReg_fcc (off : Nat) (f : Word → Word) : (s.modReg off f).fcc = s.fcc := rfl
@[simp] theorem State.modReg_integ (off : Nat) (f : Word → Word) : (s.modReg off f).integ = s.integ := rfl
@[simp] theorem State.modReg_med (off : Nat) (f : Word → Word) : (s.modReg off f).med = s.med := rfl
@[simp] theorem State.modReg_medc (off : Nat) (f : Word → Word) : (s.modReg off f).medc = s.medc := rfl
@[simp] theorem State.modReg_codec (off : Nat) (f : Word → Word) : (s.modReg off f).codec = s.codec := rfl
@[simp] theorem State.modReg_dma (off : Nat) (f : Word → Word) : (s.modReg off f).dma = s.dma := rfl
@[simp] theorem State.modReg_dmaTurn (off : Nat) (f : Word → Word) : (s.modReg off f).dmaTurn = s.dmaTurn := rfl
@[simp] theorem State.modReg_mgd (off : Nat) (f : Word → Word) : (s.modReg off f).mgd = s.mgd := rfl
@[simp] theorem State.modReg_aon (off : Nat) (f : Word → Word) : (s.modReg off f).aon = s.aon := rfl
@[simp] theorem State.modReg_pmu (off : Nat) (f : Word → Word) : (s.modReg off f).pmu = s.pmu := rfl
@[simp] theorem State.modReg_hif (off : Nat) (f : Word → Word) : (s.modReg off f).hif = s.hif := rfl
@[simp] theorem State.modReg_ply (off : Nat) (f : Word → Word) : (s.modReg off f).ply = s.ply := rfl
@[simp] theorem State.modReg_cores (off : Nat) (f : Word → Word) : (s.modReg off f).cores = s.cores := rfl
@[simp] theorem State.modReg_atu (off : Nat) (f : Word → Word) : (s.modReg off f).atu = s.atu := rfl
@[simp] theorem State.modReg_hts (off : Nat) (f : Word → Word) : (s.modReg off f).hts = s.hts := rfl
@[simp] theorem State.modReg_l2 (off : Nat) (f : Word → Word) : (s.modReg off f).l2 = s.l2 := rfl
@[simp] theorem State.modReg_lr (off : Nat) (f : Word → Word) : (s.modReg off f).lr = s.lr := rfl

/-! `countUp` touches `regs` alone. -/
@[simp] theorem State.countUp_pending (off lo n k : Nat) : (s.countUp off lo n k).pending = s.pending := rfl
@[simp] theorem State.countUp_mem (off lo n k : Nat) : (s.countUp off lo n k).mem = s.mem := rfl
@[simp] theorem State.countUp_ans (off lo n k : Nat) : (s.countUp off lo n k).ans = s.ans := rfl
@[simp] theorem State.countUp_fresh (off lo n k : Nat) : (s.countUp off lo n k).fresh = s.fresh := rfl
@[simp] theorem State.countUp_hold (off lo n k : Nat) : (s.countUp off lo n k).hold = s.hold := rfl
@[simp] theorem State.countUp_fab (off lo n k : Nat) : (s.countUp off lo n k).fab = s.fab := rfl
@[simp] theorem State.countUp_lve (off lo n k : Nat) : (s.countUp off lo n k).lve = s.lve := rfl
@[simp] theorem State.countUp_fuses (off lo n k : Nat) : (s.countUp off lo n k).fuses = s.fuses := rfl
@[simp] theorem State.countUp_sec (off lo n k : Nat) : (s.countUp off lo n k).sec = s.sec := rfl
@[simp] theorem State.countUp_pio (off lo n k : Nat) : (s.countUp off lo n k).pio = s.pio := rfl
@[simp] theorem State.countUp_ocn (off lo n k : Nat) : (s.countUp off lo n k).ocn = s.ocn := rfl
@[simp] theorem State.countUp_cal (off lo n k : Nat) : (s.countUp off lo n k).cal = s.cal := rfl
@[simp] theorem State.countUp_sq (off lo n k : Nat) : (s.countUp off lo n k).sq = s.sq := rfl
@[simp] theorem State.countUp_rsvr (off lo n k : Nat) : (s.countUp off lo n k).rsvr = s.rsvr := rfl
@[simp] theorem State.countUp_drc (off lo n k : Nat) : (s.countUp off lo n k).drc = s.drc := rfl
@[simp] theorem State.countUp_fcc (off lo n k : Nat) : (s.countUp off lo n k).fcc = s.fcc := rfl
@[simp] theorem State.countUp_integ (off lo n k : Nat) : (s.countUp off lo n k).integ = s.integ := rfl
@[simp] theorem State.countUp_med (off lo n k : Nat) : (s.countUp off lo n k).med = s.med := rfl
@[simp] theorem State.countUp_medc (off lo n k : Nat) : (s.countUp off lo n k).medc = s.medc := rfl
@[simp] theorem State.countUp_codec (off lo n k : Nat) : (s.countUp off lo n k).codec = s.codec := rfl
@[simp] theorem State.countUp_dma (off lo n k : Nat) : (s.countUp off lo n k).dma = s.dma := rfl
@[simp] theorem State.countUp_dmaTurn (off lo n k : Nat) : (s.countUp off lo n k).dmaTurn = s.dmaTurn := rfl
@[simp] theorem State.countUp_mgd (off lo n k : Nat) : (s.countUp off lo n k).mgd = s.mgd := rfl
@[simp] theorem State.countUp_aon (off lo n k : Nat) : (s.countUp off lo n k).aon = s.aon := rfl
@[simp] theorem State.countUp_pmu (off lo n k : Nat) : (s.countUp off lo n k).pmu = s.pmu := rfl
@[simp] theorem State.countUp_hif (off lo n k : Nat) : (s.countUp off lo n k).hif = s.hif := rfl
@[simp] theorem State.countUp_ply (off lo n k : Nat) : (s.countUp off lo n k).ply = s.ply := rfl
@[simp] theorem State.countUp_cores (off lo n k : Nat) : (s.countUp off lo n k).cores = s.cores := rfl
@[simp] theorem State.countUp_atu (off lo n k : Nat) : (s.countUp off lo n k).atu = s.atu := rfl
@[simp] theorem State.countUp_hts (off lo n k : Nat) : (s.countUp off lo n k).hts = s.hts := rfl
@[simp] theorem State.countUp_l2 (off lo n k : Nat) : (s.countUp off lo n k).l2 = s.l2 := rfl
@[simp] theorem State.countUp_lr (off lo n k : Nat) : (s.countUp off lo n k).lr = s.lr := rfl

/-! `toPort` touches `hts` alone. -/
@[simp] theorem State.toPort_pending (k : Nat) (o : Occ) : (s.toPort k o).pending = s.pending := rfl
@[simp] theorem State.toPort_regs (k : Nat) (o : Occ) : (s.toPort k o).regs = s.regs := rfl
@[simp] theorem State.toPort_mem (k : Nat) (o : Occ) : (s.toPort k o).mem = s.mem := rfl
@[simp] theorem State.toPort_ans (k : Nat) (o : Occ) : (s.toPort k o).ans = s.ans := rfl
@[simp] theorem State.toPort_fresh (k : Nat) (o : Occ) : (s.toPort k o).fresh = s.fresh := rfl
@[simp] theorem State.toPort_hold (k : Nat) (o : Occ) : (s.toPort k o).hold = s.hold := rfl
@[simp] theorem State.toPort_fab (k : Nat) (o : Occ) : (s.toPort k o).fab = s.fab := rfl
@[simp] theorem State.toPort_lve (k : Nat) (o : Occ) : (s.toPort k o).lve = s.lve := rfl
@[simp] theorem State.toPort_fuses (k : Nat) (o : Occ) : (s.toPort k o).fuses = s.fuses := rfl
@[simp] theorem State.toPort_sec (k : Nat) (o : Occ) : (s.toPort k o).sec = s.sec := rfl
@[simp] theorem State.toPort_pio (k : Nat) (o : Occ) : (s.toPort k o).pio = s.pio := rfl
@[simp] theorem State.toPort_ocn (k : Nat) (o : Occ) : (s.toPort k o).ocn = s.ocn := rfl
@[simp] theorem State.toPort_cal (k : Nat) (o : Occ) : (s.toPort k o).cal = s.cal := rfl
@[simp] theorem State.toPort_sq (k : Nat) (o : Occ) : (s.toPort k o).sq = s.sq := rfl
@[simp] theorem State.toPort_rsvr (k : Nat) (o : Occ) : (s.toPort k o).rsvr = s.rsvr := rfl
@[simp] theorem State.toPort_drc (k : Nat) (o : Occ) : (s.toPort k o).drc = s.drc := rfl
@[simp] theorem State.toPort_fcc (k : Nat) (o : Occ) : (s.toPort k o).fcc = s.fcc := rfl
@[simp] theorem State.toPort_integ (k : Nat) (o : Occ) : (s.toPort k o).integ = s.integ := rfl
@[simp] theorem State.toPort_med (k : Nat) (o : Occ) : (s.toPort k o).med = s.med := rfl
@[simp] theorem State.toPort_medc (k : Nat) (o : Occ) : (s.toPort k o).medc = s.medc := rfl
@[simp] theorem State.toPort_codec (k : Nat) (o : Occ) : (s.toPort k o).codec = s.codec := rfl
@[simp] theorem State.toPort_dma (k : Nat) (o : Occ) : (s.toPort k o).dma = s.dma := rfl
@[simp] theorem State.toPort_dmaTurn (k : Nat) (o : Occ) : (s.toPort k o).dmaTurn = s.dmaTurn := rfl
@[simp] theorem State.toPort_mgd (k : Nat) (o : Occ) : (s.toPort k o).mgd = s.mgd := rfl
@[simp] theorem State.toPort_aon (k : Nat) (o : Occ) : (s.toPort k o).aon = s.aon := rfl
@[simp] theorem State.toPort_pmu (k : Nat) (o : Occ) : (s.toPort k o).pmu = s.pmu := rfl
@[simp] theorem State.toPort_hif (k : Nat) (o : Occ) : (s.toPort k o).hif = s.hif := rfl
@[simp] theorem State.toPort_ply (k : Nat) (o : Occ) : (s.toPort k o).ply = s.ply := rfl
@[simp] theorem State.toPort_cores (k : Nat) (o : Occ) : (s.toPort k o).cores = s.cores := rfl
@[simp] theorem State.toPort_atu (k : Nat) (o : Occ) : (s.toPort k o).atu = s.atu := rfl
@[simp] theorem State.toPort_l2 (k : Nat) (o : Occ) : (s.toPort k o).l2 = s.l2 := rfl
@[simp] theorem State.toPort_lr (k : Nat) (o : Occ) : (s.toPort k o).lr = s.lr := rfl

/-! `answer` touches `ans` alone. -/
@[simp] theorem State.answer_pending (st : Status) (d : DWord) : (s.answer st d).pending = s.pending := rfl
@[simp] theorem State.answer_regs (st : Status) (d : DWord) : (s.answer st d).regs = s.regs := rfl
@[simp] theorem State.answer_mem (st : Status) (d : DWord) : (s.answer st d).mem = s.mem := rfl
@[simp] theorem State.answer_fresh (st : Status) (d : DWord) : (s.answer st d).fresh = s.fresh := rfl
@[simp] theorem State.answer_hold (st : Status) (d : DWord) : (s.answer st d).hold = s.hold := rfl
@[simp] theorem State.answer_fab (st : Status) (d : DWord) : (s.answer st d).fab = s.fab := rfl
@[simp] theorem State.answer_lve (st : Status) (d : DWord) : (s.answer st d).lve = s.lve := rfl
@[simp] theorem State.answer_fuses (st : Status) (d : DWord) : (s.answer st d).fuses = s.fuses := rfl
@[simp] theorem State.answer_sec (st : Status) (d : DWord) : (s.answer st d).sec = s.sec := rfl
@[simp] theorem State.answer_pio (st : Status) (d : DWord) : (s.answer st d).pio = s.pio := rfl
@[simp] theorem State.answer_ocn (st : Status) (d : DWord) : (s.answer st d).ocn = s.ocn := rfl
@[simp] theorem State.answer_cal (st : Status) (d : DWord) : (s.answer st d).cal = s.cal := rfl
@[simp] theorem State.answer_sq (st : Status) (d : DWord) : (s.answer st d).sq = s.sq := rfl
@[simp] theorem State.answer_rsvr (st : Status) (d : DWord) : (s.answer st d).rsvr = s.rsvr := rfl
@[simp] theorem State.answer_drc (st : Status) (d : DWord) : (s.answer st d).drc = s.drc := rfl
@[simp] theorem State.answer_fcc (st : Status) (d : DWord) : (s.answer st d).fcc = s.fcc := rfl
@[simp] theorem State.answer_integ (st : Status) (d : DWord) : (s.answer st d).integ = s.integ := rfl
@[simp] theorem State.answer_med (st : Status) (d : DWord) : (s.answer st d).med = s.med := rfl
@[simp] theorem State.answer_medc (st : Status) (d : DWord) : (s.answer st d).medc = s.medc := rfl
@[simp] theorem State.answer_codec (st : Status) (d : DWord) : (s.answer st d).codec = s.codec := rfl
@[simp] theorem State.answer_dma (st : Status) (d : DWord) : (s.answer st d).dma = s.dma := rfl
@[simp] theorem State.answer_dmaTurn (st : Status) (d : DWord) : (s.answer st d).dmaTurn = s.dmaTurn := rfl
@[simp] theorem State.answer_mgd (st : Status) (d : DWord) : (s.answer st d).mgd = s.mgd := rfl
@[simp] theorem State.answer_aon (st : Status) (d : DWord) : (s.answer st d).aon = s.aon := rfl
@[simp] theorem State.answer_pmu (st : Status) (d : DWord) : (s.answer st d).pmu = s.pmu := rfl
@[simp] theorem State.answer_hif (st : Status) (d : DWord) : (s.answer st d).hif = s.hif := rfl
@[simp] theorem State.answer_ply (st : Status) (d : DWord) : (s.answer st d).ply = s.ply := rfl
@[simp] theorem State.answer_cores (st : Status) (d : DWord) : (s.answer st d).cores = s.cores := rfl
@[simp] theorem State.answer_atu (st : Status) (d : DWord) : (s.answer st d).atu = s.atu := rfl
@[simp] theorem State.answer_hts (st : Status) (d : DWord) : (s.answer st d).hts = s.hts := rfl
@[simp] theorem State.answer_l2 (st : Status) (d : DWord) : (s.answer st d).l2 = s.l2 := rfl
@[simp] theorem State.answer_lr (st : Status) (d : DWord) : (s.answer st d).lr = s.lr := rfl

/-! `setByte` touches `mem` alone. -/
@[simp] theorem State.setByte_pending (a : Nat) (b : Byte) : (s.setByte a b).pending = s.pending := rfl
@[simp] theorem State.setByte_regs (a : Nat) (b : Byte) : (s.setByte a b).regs = s.regs := rfl
@[simp] theorem State.setByte_ans (a : Nat) (b : Byte) : (s.setByte a b).ans = s.ans := rfl
@[simp] theorem State.setByte_fresh (a : Nat) (b : Byte) : (s.setByte a b).fresh = s.fresh := rfl
@[simp] theorem State.setByte_hold (a : Nat) (b : Byte) : (s.setByte a b).hold = s.hold := rfl
@[simp] theorem State.setByte_fab (a : Nat) (b : Byte) : (s.setByte a b).fab = s.fab := rfl
@[simp] theorem State.setByte_lve (a : Nat) (b : Byte) : (s.setByte a b).lve = s.lve := rfl
@[simp] theorem State.setByte_fuses (a : Nat) (b : Byte) : (s.setByte a b).fuses = s.fuses := rfl
@[simp] theorem State.setByte_sec (a : Nat) (b : Byte) : (s.setByte a b).sec = s.sec := rfl
@[simp] theorem State.setByte_pio (a : Nat) (b : Byte) : (s.setByte a b).pio = s.pio := rfl
@[simp] theorem State.setByte_ocn (a : Nat) (b : Byte) : (s.setByte a b).ocn = s.ocn := rfl
@[simp] theorem State.setByte_cal (a : Nat) (b : Byte) : (s.setByte a b).cal = s.cal := rfl
@[simp] theorem State.setByte_sq (a : Nat) (b : Byte) : (s.setByte a b).sq = s.sq := rfl
@[simp] theorem State.setByte_rsvr (a : Nat) (b : Byte) : (s.setByte a b).rsvr = s.rsvr := rfl
@[simp] theorem State.setByte_drc (a : Nat) (b : Byte) : (s.setByte a b).drc = s.drc := rfl
@[simp] theorem State.setByte_fcc (a : Nat) (b : Byte) : (s.setByte a b).fcc = s.fcc := rfl
@[simp] theorem State.setByte_integ (a : Nat) (b : Byte) : (s.setByte a b).integ = s.integ := rfl
@[simp] theorem State.setByte_med (a : Nat) (b : Byte) : (s.setByte a b).med = s.med := rfl
@[simp] theorem State.setByte_medc (a : Nat) (b : Byte) : (s.setByte a b).medc = s.medc := rfl
@[simp] theorem State.setByte_codec (a : Nat) (b : Byte) : (s.setByte a b).codec = s.codec := rfl
@[simp] theorem State.setByte_dma (a : Nat) (b : Byte) : (s.setByte a b).dma = s.dma := rfl
@[simp] theorem State.setByte_dmaTurn (a : Nat) (b : Byte) : (s.setByte a b).dmaTurn = s.dmaTurn := rfl
@[simp] theorem State.setByte_mgd (a : Nat) (b : Byte) : (s.setByte a b).mgd = s.mgd := rfl
@[simp] theorem State.setByte_aon (a : Nat) (b : Byte) : (s.setByte a b).aon = s.aon := rfl
@[simp] theorem State.setByte_pmu (a : Nat) (b : Byte) : (s.setByte a b).pmu = s.pmu := rfl
@[simp] theorem State.setByte_hif (a : Nat) (b : Byte) : (s.setByte a b).hif = s.hif := rfl
@[simp] theorem State.setByte_ply (a : Nat) (b : Byte) : (s.setByte a b).ply = s.ply := rfl
@[simp] theorem State.setByte_cores (a : Nat) (b : Byte) : (s.setByte a b).cores = s.cores := rfl
@[simp] theorem State.setByte_atu (a : Nat) (b : Byte) : (s.setByte a b).atu = s.atu := rfl
@[simp] theorem State.setByte_hts (a : Nat) (b : Byte) : (s.setByte a b).hts = s.hts := rfl
@[simp] theorem State.setByte_l2 (a : Nat) (b : Byte) : (s.setByte a b).l2 = s.l2 := rfl
@[simp] theorem State.setByte_lr (a : Nat) (b : Byte) : (s.setByte a b).lr = s.lr := rfl

/-! `setRgn` touches `fab` alone. -/
@[simp] theorem State.setRgn_pending (r : Nat) (g : RegionSt) : (s.setRgn r g).pending = s.pending := rfl
@[simp] theorem State.setRgn_regs (r : Nat) (g : RegionSt) : (s.setRgn r g).regs = s.regs := rfl
@[simp] theorem State.setRgn_mem (r : Nat) (g : RegionSt) : (s.setRgn r g).mem = s.mem := rfl
@[simp] theorem State.setRgn_ans (r : Nat) (g : RegionSt) : (s.setRgn r g).ans = s.ans := rfl
@[simp] theorem State.setRgn_fresh (r : Nat) (g : RegionSt) : (s.setRgn r g).fresh = s.fresh := rfl
@[simp] theorem State.setRgn_hold (r : Nat) (g : RegionSt) : (s.setRgn r g).hold = s.hold := rfl
@[simp] theorem State.setRgn_lve (r : Nat) (g : RegionSt) : (s.setRgn r g).lve = s.lve := rfl
@[simp] theorem State.setRgn_fuses (r : Nat) (g : RegionSt) : (s.setRgn r g).fuses = s.fuses := rfl
@[simp] theorem State.setRgn_sec (r : Nat) (g : RegionSt) : (s.setRgn r g).sec = s.sec := rfl
@[simp] theorem State.setRgn_pio (r : Nat) (g : RegionSt) : (s.setRgn r g).pio = s.pio := rfl
@[simp] theorem State.setRgn_ocn (r : Nat) (g : RegionSt) : (s.setRgn r g).ocn = s.ocn := rfl
@[simp] theorem State.setRgn_cal (r : Nat) (g : RegionSt) : (s.setRgn r g).cal = s.cal := rfl
@[simp] theorem State.setRgn_sq (r : Nat) (g : RegionSt) : (s.setRgn r g).sq = s.sq := rfl
@[simp] theorem State.setRgn_rsvr (r : Nat) (g : RegionSt) : (s.setRgn r g).rsvr = s.rsvr := rfl
@[simp] theorem State.setRgn_drc (r : Nat) (g : RegionSt) : (s.setRgn r g).drc = s.drc := rfl
@[simp] theorem State.setRgn_fcc (r : Nat) (g : RegionSt) : (s.setRgn r g).fcc = s.fcc := rfl
@[simp] theorem State.setRgn_integ (r : Nat) (g : RegionSt) : (s.setRgn r g).integ = s.integ := rfl
@[simp] theorem State.setRgn_med (r : Nat) (g : RegionSt) : (s.setRgn r g).med = s.med := rfl
@[simp] theorem State.setRgn_medc (r : Nat) (g : RegionSt) : (s.setRgn r g).medc = s.medc := rfl
@[simp] theorem State.setRgn_codec (r : Nat) (g : RegionSt) : (s.setRgn r g).codec = s.codec := rfl
@[simp] theorem State.setRgn_dma (r : Nat) (g : RegionSt) : (s.setRgn r g).dma = s.dma := rfl
@[simp] theorem State.setRgn_dmaTurn (r : Nat) (g : RegionSt) : (s.setRgn r g).dmaTurn = s.dmaTurn := rfl
@[simp] theorem State.setRgn_mgd (r : Nat) (g : RegionSt) : (s.setRgn r g).mgd = s.mgd := rfl
@[simp] theorem State.setRgn_aon (r : Nat) (g : RegionSt) : (s.setRgn r g).aon = s.aon := rfl
@[simp] theorem State.setRgn_pmu (r : Nat) (g : RegionSt) : (s.setRgn r g).pmu = s.pmu := rfl
@[simp] theorem State.setRgn_hif (r : Nat) (g : RegionSt) : (s.setRgn r g).hif = s.hif := rfl
@[simp] theorem State.setRgn_ply (r : Nat) (g : RegionSt) : (s.setRgn r g).ply = s.ply := rfl
@[simp] theorem State.setRgn_cores (r : Nat) (g : RegionSt) : (s.setRgn r g).cores = s.cores := rfl
@[simp] theorem State.setRgn_atu (r : Nat) (g : RegionSt) : (s.setRgn r g).atu = s.atu := rfl
@[simp] theorem State.setRgn_hts (r : Nat) (g : RegionSt) : (s.setRgn r g).hts = s.hts := rfl
@[simp] theorem State.setRgn_l2 (r : Nat) (g : RegionSt) : (s.setRgn r g).l2 = s.l2 := rfl
@[simp] theorem State.setRgn_lr (r : Nat) (g : RegionSt) : (s.setRgn r g).lr = s.lr := rfl

/-! `modRgn` touches `fab` alone. -/
@[simp] theorem State.modRgn_pending (r : Nat) (f : RegionSt → RegionSt) : (s.modRgn r f).pending = s.pending := rfl
@[simp] theorem State.modRgn_regs (r : Nat) (f : RegionSt → RegionSt) : (s.modRgn r f).regs = s.regs := rfl
@[simp] theorem State.modRgn_mem (r : Nat) (f : RegionSt → RegionSt) : (s.modRgn r f).mem = s.mem := rfl
@[simp] theorem State.modRgn_ans (r : Nat) (f : RegionSt → RegionSt) : (s.modRgn r f).ans = s.ans := rfl
@[simp] theorem State.modRgn_fresh (r : Nat) (f : RegionSt → RegionSt) : (s.modRgn r f).fresh = s.fresh := rfl
@[simp] theorem State.modRgn_hold (r : Nat) (f : RegionSt → RegionSt) : (s.modRgn r f).hold = s.hold := rfl
@[simp] theorem State.modRgn_lve (r : Nat) (f : RegionSt → RegionSt) : (s.modRgn r f).lve = s.lve := rfl
@[simp] theorem State.modRgn_fuses (r : Nat) (f : RegionSt → RegionSt) : (s.modRgn r f).fuses = s.fuses := rfl
@[simp] theorem State.modRgn_sec (r : Nat) (f : RegionSt → RegionSt) : (s.modRgn r f).sec = s.sec := rfl
@[simp] theorem State.modRgn_pio (r : Nat) (f : RegionSt → RegionSt) : (s.modRgn r f).pio = s.pio := rfl
@[simp] theorem State.modRgn_ocn (r : Nat) (f : RegionSt → RegionSt) : (s.modRgn r f).ocn = s.ocn := rfl
@[simp] theorem State.modRgn_cal (r : Nat) (f : RegionSt → RegionSt) : (s.modRgn r f).cal = s.cal := rfl
@[simp] theorem State.modRgn_sq (r : Nat) (f : RegionSt → RegionSt) : (s.modRgn r f).sq = s.sq := rfl
@[simp] theorem State.modRgn_rsvr (r : Nat) (f : RegionSt → RegionSt) : (s.modRgn r f).rsvr = s.rsvr := rfl
@[simp] theorem State.modRgn_drc (r : Nat) (f : RegionSt → RegionSt) : (s.modRgn r f).drc = s.drc := rfl
@[simp] theorem State.modRgn_fcc (r : Nat) (f : RegionSt → RegionSt) : (s.modRgn r f).fcc = s.fcc := rfl
@[simp] theorem State.modRgn_integ (r : Nat) (f : RegionSt → RegionSt) : (s.modRgn r f).integ = s.integ := rfl
@[simp] theorem State.modRgn_med (r : Nat) (f : RegionSt → RegionSt) : (s.modRgn r f).med = s.med := rfl
@[simp] theorem State.modRgn_medc (r : Nat) (f : RegionSt → RegionSt) : (s.modRgn r f).medc = s.medc := rfl
@[simp] theorem State.modRgn_codec (r : Nat) (f : RegionSt → RegionSt) : (s.modRgn r f).codec = s.codec := rfl
@[simp] theorem State.modRgn_dma (r : Nat) (f : RegionSt → RegionSt) : (s.modRgn r f).dma = s.dma := rfl
@[simp] theorem State.modRgn_dmaTurn (r : Nat) (f : RegionSt → RegionSt) : (s.modRgn r f).dmaTurn = s.dmaTurn := rfl
@[simp] theorem State.modRgn_mgd (r : Nat) (f : RegionSt → RegionSt) : (s.modRgn r f).mgd = s.mgd := rfl
@[simp] theorem State.modRgn_aon (r : Nat) (f : RegionSt → RegionSt) : (s.modRgn r f).aon = s.aon := rfl
@[simp] theorem State.modRgn_pmu (r : Nat) (f : RegionSt → RegionSt) : (s.modRgn r f).pmu = s.pmu := rfl
@[simp] theorem State.modRgn_hif (r : Nat) (f : RegionSt → RegionSt) : (s.modRgn r f).hif = s.hif := rfl
@[simp] theorem State.modRgn_ply (r : Nat) (f : RegionSt → RegionSt) : (s.modRgn r f).ply = s.ply := rfl
@[simp] theorem State.modRgn_cores (r : Nat) (f : RegionSt → RegionSt) : (s.modRgn r f).cores = s.cores := rfl
@[simp] theorem State.modRgn_atu (r : Nat) (f : RegionSt → RegionSt) : (s.modRgn r f).atu = s.atu := rfl
@[simp] theorem State.modRgn_hts (r : Nat) (f : RegionSt → RegionSt) : (s.modRgn r f).hts = s.hts := rfl
@[simp] theorem State.modRgn_l2 (r : Nat) (f : RegionSt → RegionSt) : (s.modRgn r f).l2 = s.l2 := rfl
@[simp] theorem State.modRgn_lr (r : Nat) (f : RegionSt → RegionSt) : (s.modRgn r f).lr = s.lr := rfl

/-! `setTile` touches `fab` alone. -/
@[simp] theorem State.setTile_pending (t : Nat) (T : Tile) : (s.setTile t T).pending = s.pending := rfl
@[simp] theorem State.setTile_regs (t : Nat) (T : Tile) : (s.setTile t T).regs = s.regs := rfl
@[simp] theorem State.setTile_mem (t : Nat) (T : Tile) : (s.setTile t T).mem = s.mem := rfl
@[simp] theorem State.setTile_ans (t : Nat) (T : Tile) : (s.setTile t T).ans = s.ans := rfl
@[simp] theorem State.setTile_fresh (t : Nat) (T : Tile) : (s.setTile t T).fresh = s.fresh := rfl
@[simp] theorem State.setTile_hold (t : Nat) (T : Tile) : (s.setTile t T).hold = s.hold := rfl
@[simp] theorem State.setTile_lve (t : Nat) (T : Tile) : (s.setTile t T).lve = s.lve := rfl
@[simp] theorem State.setTile_fuses (t : Nat) (T : Tile) : (s.setTile t T).fuses = s.fuses := rfl
@[simp] theorem State.setTile_sec (t : Nat) (T : Tile) : (s.setTile t T).sec = s.sec := rfl
@[simp] theorem State.setTile_pio (t : Nat) (T : Tile) : (s.setTile t T).pio = s.pio := rfl
@[simp] theorem State.setTile_ocn (t : Nat) (T : Tile) : (s.setTile t T).ocn = s.ocn := rfl
@[simp] theorem State.setTile_cal (t : Nat) (T : Tile) : (s.setTile t T).cal = s.cal := rfl
@[simp] theorem State.setTile_sq (t : Nat) (T : Tile) : (s.setTile t T).sq = s.sq := rfl
@[simp] theorem State.setTile_rsvr (t : Nat) (T : Tile) : (s.setTile t T).rsvr = s.rsvr := rfl
@[simp] theorem State.setTile_drc (t : Nat) (T : Tile) : (s.setTile t T).drc = s.drc := rfl
@[simp] theorem State.setTile_fcc (t : Nat) (T : Tile) : (s.setTile t T).fcc = s.fcc := rfl
@[simp] theorem State.setTile_integ (t : Nat) (T : Tile) : (s.setTile t T).integ = s.integ := rfl
@[simp] theorem State.setTile_med (t : Nat) (T : Tile) : (s.setTile t T).med = s.med := rfl
@[simp] theorem State.setTile_medc (t : Nat) (T : Tile) : (s.setTile t T).medc = s.medc := rfl
@[simp] theorem State.setTile_codec (t : Nat) (T : Tile) : (s.setTile t T).codec = s.codec := rfl
@[simp] theorem State.setTile_dma (t : Nat) (T : Tile) : (s.setTile t T).dma = s.dma := rfl
@[simp] theorem State.setTile_dmaTurn (t : Nat) (T : Tile) : (s.setTile t T).dmaTurn = s.dmaTurn := rfl
@[simp] theorem State.setTile_mgd (t : Nat) (T : Tile) : (s.setTile t T).mgd = s.mgd := rfl
@[simp] theorem State.setTile_aon (t : Nat) (T : Tile) : (s.setTile t T).aon = s.aon := rfl
@[simp] theorem State.setTile_pmu (t : Nat) (T : Tile) : (s.setTile t T).pmu = s.pmu := rfl
@[simp] theorem State.setTile_hif (t : Nat) (T : Tile) : (s.setTile t T).hif = s.hif := rfl
@[simp] theorem State.setTile_ply (t : Nat) (T : Tile) : (s.setTile t T).ply = s.ply := rfl
@[simp] theorem State.setTile_cores (t : Nat) (T : Tile) : (s.setTile t T).cores = s.cores := rfl
@[simp] theorem State.setTile_atu (t : Nat) (T : Tile) : (s.setTile t T).atu = s.atu := rfl
@[simp] theorem State.setTile_hts (t : Nat) (T : Tile) : (s.setTile t T).hts = s.hts := rfl
@[simp] theorem State.setTile_l2 (t : Nat) (T : Tile) : (s.setTile t T).l2 = s.l2 := rfl
@[simp] theorem State.setTile_lr (t : Nat) (T : Tile) : (s.setTile t T).lr = s.lr := rfl

/-! `modTile` touches `fab` alone. -/
@[simp] theorem State.modTile_pending (t : Nat) (f : Tile → Tile) : (s.modTile t f).pending = s.pending := rfl
@[simp] theorem State.modTile_regs (t : Nat) (f : Tile → Tile) : (s.modTile t f).regs = s.regs := rfl
@[simp] theorem State.modTile_mem (t : Nat) (f : Tile → Tile) : (s.modTile t f).mem = s.mem := rfl
@[simp] theorem State.modTile_ans (t : Nat) (f : Tile → Tile) : (s.modTile t f).ans = s.ans := rfl
@[simp] theorem State.modTile_fresh (t : Nat) (f : Tile → Tile) : (s.modTile t f).fresh = s.fresh := rfl
@[simp] theorem State.modTile_hold (t : Nat) (f : Tile → Tile) : (s.modTile t f).hold = s.hold := rfl
@[simp] theorem State.modTile_lve (t : Nat) (f : Tile → Tile) : (s.modTile t f).lve = s.lve := rfl
@[simp] theorem State.modTile_fuses (t : Nat) (f : Tile → Tile) : (s.modTile t f).fuses = s.fuses := rfl
@[simp] theorem State.modTile_sec (t : Nat) (f : Tile → Tile) : (s.modTile t f).sec = s.sec := rfl
@[simp] theorem State.modTile_pio (t : Nat) (f : Tile → Tile) : (s.modTile t f).pio = s.pio := rfl
@[simp] theorem State.modTile_ocn (t : Nat) (f : Tile → Tile) : (s.modTile t f).ocn = s.ocn := rfl
@[simp] theorem State.modTile_cal (t : Nat) (f : Tile → Tile) : (s.modTile t f).cal = s.cal := rfl
@[simp] theorem State.modTile_sq (t : Nat) (f : Tile → Tile) : (s.modTile t f).sq = s.sq := rfl
@[simp] theorem State.modTile_rsvr (t : Nat) (f : Tile → Tile) : (s.modTile t f).rsvr = s.rsvr := rfl
@[simp] theorem State.modTile_drc (t : Nat) (f : Tile → Tile) : (s.modTile t f).drc = s.drc := rfl
@[simp] theorem State.modTile_fcc (t : Nat) (f : Tile → Tile) : (s.modTile t f).fcc = s.fcc := rfl
@[simp] theorem State.modTile_integ (t : Nat) (f : Tile → Tile) : (s.modTile t f).integ = s.integ := rfl
@[simp] theorem State.modTile_med (t : Nat) (f : Tile → Tile) : (s.modTile t f).med = s.med := rfl
@[simp] theorem State.modTile_medc (t : Nat) (f : Tile → Tile) : (s.modTile t f).medc = s.medc := rfl
@[simp] theorem State.modTile_codec (t : Nat) (f : Tile → Tile) : (s.modTile t f).codec = s.codec := rfl
@[simp] theorem State.modTile_dma (t : Nat) (f : Tile → Tile) : (s.modTile t f).dma = s.dma := rfl
@[simp] theorem State.modTile_dmaTurn (t : Nat) (f : Tile → Tile) : (s.modTile t f).dmaTurn = s.dmaTurn := rfl
@[simp] theorem State.modTile_mgd (t : Nat) (f : Tile → Tile) : (s.modTile t f).mgd = s.mgd := rfl
@[simp] theorem State.modTile_aon (t : Nat) (f : Tile → Tile) : (s.modTile t f).aon = s.aon := rfl
@[simp] theorem State.modTile_pmu (t : Nat) (f : Tile → Tile) : (s.modTile t f).pmu = s.pmu := rfl
@[simp] theorem State.modTile_hif (t : Nat) (f : Tile → Tile) : (s.modTile t f).hif = s.hif := rfl
@[simp] theorem State.modTile_ply (t : Nat) (f : Tile → Tile) : (s.modTile t f).ply = s.ply := rfl
@[simp] theorem State.modTile_cores (t : Nat) (f : Tile → Tile) : (s.modTile t f).cores = s.cores := rfl
@[simp] theorem State.modTile_atu (t : Nat) (f : Tile → Tile) : (s.modTile t f).atu = s.atu := rfl
@[simp] theorem State.modTile_hts (t : Nat) (f : Tile → Tile) : (s.modTile t f).hts = s.hts := rfl
@[simp] theorem State.modTile_l2 (t : Nat) (f : Tile → Tile) : (s.modTile t f).l2 = s.l2 := rfl
@[simp] theorem State.modTile_lr (t : Nat) (f : Tile → Tile) : (s.modTile t f).lr = s.lr := rfl

/-! `setQueue` touches `sq` alone. -/
@[simp] theorem State.setQueue_pending (q : Nat) (x : QueueSt) : (s.setQueue q x).pending = s.pending := rfl
@[simp] theorem State.setQueue_regs (q : Nat) (x : QueueSt) : (s.setQueue q x).regs = s.regs := rfl
@[simp] theorem State.setQueue_mem (q : Nat) (x : QueueSt) : (s.setQueue q x).mem = s.mem := rfl
@[simp] theorem State.setQueue_ans (q : Nat) (x : QueueSt) : (s.setQueue q x).ans = s.ans := rfl
@[simp] theorem State.setQueue_fresh (q : Nat) (x : QueueSt) : (s.setQueue q x).fresh = s.fresh := rfl
@[simp] theorem State.setQueue_hold (q : Nat) (x : QueueSt) : (s.setQueue q x).hold = s.hold := rfl
@[simp] theorem State.setQueue_fab (q : Nat) (x : QueueSt) : (s.setQueue q x).fab = s.fab := rfl
@[simp] theorem State.setQueue_lve (q : Nat) (x : QueueSt) : (s.setQueue q x).lve = s.lve := rfl
@[simp] theorem State.setQueue_fuses (q : Nat) (x : QueueSt) : (s.setQueue q x).fuses = s.fuses := rfl
@[simp] theorem State.setQueue_sec (q : Nat) (x : QueueSt) : (s.setQueue q x).sec = s.sec := rfl
@[simp] theorem State.setQueue_pio (q : Nat) (x : QueueSt) : (s.setQueue q x).pio = s.pio := rfl
@[simp] theorem State.setQueue_ocn (q : Nat) (x : QueueSt) : (s.setQueue q x).ocn = s.ocn := rfl
@[simp] theorem State.setQueue_cal (q : Nat) (x : QueueSt) : (s.setQueue q x).cal = s.cal := rfl
@[simp] theorem State.setQueue_rsvr (q : Nat) (x : QueueSt) : (s.setQueue q x).rsvr = s.rsvr := rfl
@[simp] theorem State.setQueue_drc (q : Nat) (x : QueueSt) : (s.setQueue q x).drc = s.drc := rfl
@[simp] theorem State.setQueue_fcc (q : Nat) (x : QueueSt) : (s.setQueue q x).fcc = s.fcc := rfl
@[simp] theorem State.setQueue_integ (q : Nat) (x : QueueSt) : (s.setQueue q x).integ = s.integ := rfl
@[simp] theorem State.setQueue_med (q : Nat) (x : QueueSt) : (s.setQueue q x).med = s.med := rfl
@[simp] theorem State.setQueue_medc (q : Nat) (x : QueueSt) : (s.setQueue q x).medc = s.medc := rfl
@[simp] theorem State.setQueue_codec (q : Nat) (x : QueueSt) : (s.setQueue q x).codec = s.codec := rfl
@[simp] theorem State.setQueue_dma (q : Nat) (x : QueueSt) : (s.setQueue q x).dma = s.dma := rfl
@[simp] theorem State.setQueue_dmaTurn (q : Nat) (x : QueueSt) : (s.setQueue q x).dmaTurn = s.dmaTurn := rfl
@[simp] theorem State.setQueue_mgd (q : Nat) (x : QueueSt) : (s.setQueue q x).mgd = s.mgd := rfl
@[simp] theorem State.setQueue_aon (q : Nat) (x : QueueSt) : (s.setQueue q x).aon = s.aon := rfl
@[simp] theorem State.setQueue_pmu (q : Nat) (x : QueueSt) : (s.setQueue q x).pmu = s.pmu := rfl
@[simp] theorem State.setQueue_hif (q : Nat) (x : QueueSt) : (s.setQueue q x).hif = s.hif := rfl
@[simp] theorem State.setQueue_ply (q : Nat) (x : QueueSt) : (s.setQueue q x).ply = s.ply := rfl
@[simp] theorem State.setQueue_cores (q : Nat) (x : QueueSt) : (s.setQueue q x).cores = s.cores := rfl
@[simp] theorem State.setQueue_atu (q : Nat) (x : QueueSt) : (s.setQueue q x).atu = s.atu := rfl
@[simp] theorem State.setQueue_hts (q : Nat) (x : QueueSt) : (s.setQueue q x).hts = s.hts := rfl
@[simp] theorem State.setQueue_l2 (q : Nat) (x : QueueSt) : (s.setQueue q x).l2 = s.l2 := rfl
@[simp] theorem State.setQueue_lr (q : Nat) (x : QueueSt) : (s.setQueue q x).lr = s.lr := rfl

/-! `setTxns` touches `ocn` alone. -/
@[simp] theorem State.setTxns_pending (l : List Txn) : (s.setTxns l).pending = s.pending := rfl
@[simp] theorem State.setTxns_regs (l : List Txn) : (s.setTxns l).regs = s.regs := rfl
@[simp] theorem State.setTxns_mem (l : List Txn) : (s.setTxns l).mem = s.mem := rfl
@[simp] theorem State.setTxns_ans (l : List Txn) : (s.setTxns l).ans = s.ans := rfl
@[simp] theorem State.setTxns_fresh (l : List Txn) : (s.setTxns l).fresh = s.fresh := rfl
@[simp] theorem State.setTxns_hold (l : List Txn) : (s.setTxns l).hold = s.hold := rfl
@[simp] theorem State.setTxns_fab (l : List Txn) : (s.setTxns l).fab = s.fab := rfl
@[simp] theorem State.setTxns_lve (l : List Txn) : (s.setTxns l).lve = s.lve := rfl
@[simp] theorem State.setTxns_fuses (l : List Txn) : (s.setTxns l).fuses = s.fuses := rfl
@[simp] theorem State.setTxns_sec (l : List Txn) : (s.setTxns l).sec = s.sec := rfl
@[simp] theorem State.setTxns_pio (l : List Txn) : (s.setTxns l).pio = s.pio := rfl
@[simp] theorem State.setTxns_cal (l : List Txn) : (s.setTxns l).cal = s.cal := rfl
@[simp] theorem State.setTxns_sq (l : List Txn) : (s.setTxns l).sq = s.sq := rfl
@[simp] theorem State.setTxns_rsvr (l : List Txn) : (s.setTxns l).rsvr = s.rsvr := rfl
@[simp] theorem State.setTxns_drc (l : List Txn) : (s.setTxns l).drc = s.drc := rfl
@[simp] theorem State.setTxns_fcc (l : List Txn) : (s.setTxns l).fcc = s.fcc := rfl
@[simp] theorem State.setTxns_integ (l : List Txn) : (s.setTxns l).integ = s.integ := rfl
@[simp] theorem State.setTxns_med (l : List Txn) : (s.setTxns l).med = s.med := rfl
@[simp] theorem State.setTxns_medc (l : List Txn) : (s.setTxns l).medc = s.medc := rfl
@[simp] theorem State.setTxns_codec (l : List Txn) : (s.setTxns l).codec = s.codec := rfl
@[simp] theorem State.setTxns_dma (l : List Txn) : (s.setTxns l).dma = s.dma := rfl
@[simp] theorem State.setTxns_dmaTurn (l : List Txn) : (s.setTxns l).dmaTurn = s.dmaTurn := rfl
@[simp] theorem State.setTxns_mgd (l : List Txn) : (s.setTxns l).mgd = s.mgd := rfl
@[simp] theorem State.setTxns_aon (l : List Txn) : (s.setTxns l).aon = s.aon := rfl
@[simp] theorem State.setTxns_pmu (l : List Txn) : (s.setTxns l).pmu = s.pmu := rfl
@[simp] theorem State.setTxns_hif (l : List Txn) : (s.setTxns l).hif = s.hif := rfl
@[simp] theorem State.setTxns_ply (l : List Txn) : (s.setTxns l).ply = s.ply := rfl
@[simp] theorem State.setTxns_cores (l : List Txn) : (s.setTxns l).cores = s.cores := rfl
@[simp] theorem State.setTxns_atu (l : List Txn) : (s.setTxns l).atu = s.atu := rfl
@[simp] theorem State.setTxns_hts (l : List Txn) : (s.setTxns l).hts = s.hts := rfl
@[simp] theorem State.setTxns_l2 (l : List Txn) : (s.setTxns l).l2 = s.l2 := rfl
@[simp] theorem State.setTxns_lr (l : List Txn) : (s.setTxns l).lr = s.lr := rfl

/-! `modTxn` touches `ocn` alone. -/
@[simp] theorem State.modTxn_pending (k : TxnKey) (f : Txn → Txn) : (s.modTxn k f).pending = s.pending := rfl
@[simp] theorem State.modTxn_regs (k : TxnKey) (f : Txn → Txn) : (s.modTxn k f).regs = s.regs := rfl
@[simp] theorem State.modTxn_mem (k : TxnKey) (f : Txn → Txn) : (s.modTxn k f).mem = s.mem := rfl
@[simp] theorem State.modTxn_ans (k : TxnKey) (f : Txn → Txn) : (s.modTxn k f).ans = s.ans := rfl
@[simp] theorem State.modTxn_fresh (k : TxnKey) (f : Txn → Txn) : (s.modTxn k f).fresh = s.fresh := rfl
@[simp] theorem State.modTxn_hold (k : TxnKey) (f : Txn → Txn) : (s.modTxn k f).hold = s.hold := rfl
@[simp] theorem State.modTxn_fab (k : TxnKey) (f : Txn → Txn) : (s.modTxn k f).fab = s.fab := rfl
@[simp] theorem State.modTxn_lve (k : TxnKey) (f : Txn → Txn) : (s.modTxn k f).lve = s.lve := rfl
@[simp] theorem State.modTxn_fuses (k : TxnKey) (f : Txn → Txn) : (s.modTxn k f).fuses = s.fuses := rfl
@[simp] theorem State.modTxn_sec (k : TxnKey) (f : Txn → Txn) : (s.modTxn k f).sec = s.sec := rfl
@[simp] theorem State.modTxn_pio (k : TxnKey) (f : Txn → Txn) : (s.modTxn k f).pio = s.pio := rfl
@[simp] theorem State.modTxn_cal (k : TxnKey) (f : Txn → Txn) : (s.modTxn k f).cal = s.cal := rfl
@[simp] theorem State.modTxn_sq (k : TxnKey) (f : Txn → Txn) : (s.modTxn k f).sq = s.sq := rfl
@[simp] theorem State.modTxn_rsvr (k : TxnKey) (f : Txn → Txn) : (s.modTxn k f).rsvr = s.rsvr := rfl
@[simp] theorem State.modTxn_drc (k : TxnKey) (f : Txn → Txn) : (s.modTxn k f).drc = s.drc := rfl
@[simp] theorem State.modTxn_fcc (k : TxnKey) (f : Txn → Txn) : (s.modTxn k f).fcc = s.fcc := rfl
@[simp] theorem State.modTxn_integ (k : TxnKey) (f : Txn → Txn) : (s.modTxn k f).integ = s.integ := rfl
@[simp] theorem State.modTxn_med (k : TxnKey) (f : Txn → Txn) : (s.modTxn k f).med = s.med := rfl
@[simp] theorem State.modTxn_medc (k : TxnKey) (f : Txn → Txn) : (s.modTxn k f).medc = s.medc := rfl
@[simp] theorem State.modTxn_codec (k : TxnKey) (f : Txn → Txn) : (s.modTxn k f).codec = s.codec := rfl
@[simp] theorem State.modTxn_dma (k : TxnKey) (f : Txn → Txn) : (s.modTxn k f).dma = s.dma := rfl
@[simp] theorem State.modTxn_dmaTurn (k : TxnKey) (f : Txn → Txn) : (s.modTxn k f).dmaTurn = s.dmaTurn := rfl
@[simp] theorem State.modTxn_mgd (k : TxnKey) (f : Txn → Txn) : (s.modTxn k f).mgd = s.mgd := rfl
@[simp] theorem State.modTxn_aon (k : TxnKey) (f : Txn → Txn) : (s.modTxn k f).aon = s.aon := rfl
@[simp] theorem State.modTxn_pmu (k : TxnKey) (f : Txn → Txn) : (s.modTxn k f).pmu = s.pmu := rfl
@[simp] theorem State.modTxn_hif (k : TxnKey) (f : Txn → Txn) : (s.modTxn k f).hif = s.hif := rfl
@[simp] theorem State.modTxn_ply (k : TxnKey) (f : Txn → Txn) : (s.modTxn k f).ply = s.ply := rfl
@[simp] theorem State.modTxn_cores (k : TxnKey) (f : Txn → Txn) : (s.modTxn k f).cores = s.cores := rfl
@[simp] theorem State.modTxn_atu (k : TxnKey) (f : Txn → Txn) : (s.modTxn k f).atu = s.atu := rfl
@[simp] theorem State.modTxn_hts (k : TxnKey) (f : Txn → Txn) : (s.modTxn k f).hts = s.hts := rfl
@[simp] theorem State.modTxn_l2 (k : TxnKey) (f : Txn → Txn) : (s.modTxn k f).l2 = s.l2 := rfl
@[simp] theorem State.modTxn_lr (k : TxnKey) (f : Txn → Txn) : (s.modTxn k f).lr = s.lr := rfl

/-! `dropTxn` touches `ocn` alone. -/
@[simp] theorem State.dropTxn_pending (k : TxnKey) : (s.dropTxn k).pending = s.pending := rfl
@[simp] theorem State.dropTxn_regs (k : TxnKey) : (s.dropTxn k).regs = s.regs := rfl
@[simp] theorem State.dropTxn_mem (k : TxnKey) : (s.dropTxn k).mem = s.mem := rfl
@[simp] theorem State.dropTxn_ans (k : TxnKey) : (s.dropTxn k).ans = s.ans := rfl
@[simp] theorem State.dropTxn_fresh (k : TxnKey) : (s.dropTxn k).fresh = s.fresh := rfl
@[simp] theorem State.dropTxn_hold (k : TxnKey) : (s.dropTxn k).hold = s.hold := rfl
@[simp] theorem State.dropTxn_fab (k : TxnKey) : (s.dropTxn k).fab = s.fab := rfl
@[simp] theorem State.dropTxn_lve (k : TxnKey) : (s.dropTxn k).lve = s.lve := rfl
@[simp] theorem State.dropTxn_fuses (k : TxnKey) : (s.dropTxn k).fuses = s.fuses := rfl
@[simp] theorem State.dropTxn_sec (k : TxnKey) : (s.dropTxn k).sec = s.sec := rfl
@[simp] theorem State.dropTxn_pio (k : TxnKey) : (s.dropTxn k).pio = s.pio := rfl
@[simp] theorem State.dropTxn_cal (k : TxnKey) : (s.dropTxn k).cal = s.cal := rfl
@[simp] theorem State.dropTxn_sq (k : TxnKey) : (s.dropTxn k).sq = s.sq := rfl
@[simp] theorem State.dropTxn_rsvr (k : TxnKey) : (s.dropTxn k).rsvr = s.rsvr := rfl
@[simp] theorem State.dropTxn_drc (k : TxnKey) : (s.dropTxn k).drc = s.drc := rfl
@[simp] theorem State.dropTxn_fcc (k : TxnKey) : (s.dropTxn k).fcc = s.fcc := rfl
@[simp] theorem State.dropTxn_integ (k : TxnKey) : (s.dropTxn k).integ = s.integ := rfl
@[simp] theorem State.dropTxn_med (k : TxnKey) : (s.dropTxn k).med = s.med := rfl
@[simp] theorem State.dropTxn_medc (k : TxnKey) : (s.dropTxn k).medc = s.medc := rfl
@[simp] theorem State.dropTxn_codec (k : TxnKey) : (s.dropTxn k).codec = s.codec := rfl
@[simp] theorem State.dropTxn_dma (k : TxnKey) : (s.dropTxn k).dma = s.dma := rfl
@[simp] theorem State.dropTxn_dmaTurn (k : TxnKey) : (s.dropTxn k).dmaTurn = s.dmaTurn := rfl
@[simp] theorem State.dropTxn_mgd (k : TxnKey) : (s.dropTxn k).mgd = s.mgd := rfl
@[simp] theorem State.dropTxn_aon (k : TxnKey) : (s.dropTxn k).aon = s.aon := rfl
@[simp] theorem State.dropTxn_pmu (k : TxnKey) : (s.dropTxn k).pmu = s.pmu := rfl
@[simp] theorem State.dropTxn_hif (k : TxnKey) : (s.dropTxn k).hif = s.hif := rfl
@[simp] theorem State.dropTxn_ply (k : TxnKey) : (s.dropTxn k).ply = s.ply := rfl
@[simp] theorem State.dropTxn_cores (k : TxnKey) : (s.dropTxn k).cores = s.cores := rfl
@[simp] theorem State.dropTxn_atu (k : TxnKey) : (s.dropTxn k).atu = s.atu := rfl
@[simp] theorem State.dropTxn_hts (k : TxnKey) : (s.dropTxn k).hts = s.hts := rfl
@[simp] theorem State.dropTxn_l2 (k : TxnKey) : (s.dropTxn k).l2 = s.l2 := rfl
@[simp] theorem State.dropTxn_lr (k : TxnKey) : (s.dropTxn k).lr = s.lr := rfl

/-! `modNi` touches `ocn` alone. -/
@[simp] theorem State.modNi_pending (n : Nat) (f : NiSt → NiSt) : (s.modNi n f).pending = s.pending := rfl
@[simp] theorem State.modNi_regs (n : Nat) (f : NiSt → NiSt) : (s.modNi n f).regs = s.regs := rfl
@[simp] theorem State.modNi_mem (n : Nat) (f : NiSt → NiSt) : (s.modNi n f).mem = s.mem := rfl
@[simp] theorem State.modNi_ans (n : Nat) (f : NiSt → NiSt) : (s.modNi n f).ans = s.ans := rfl
@[simp] theorem State.modNi_fresh (n : Nat) (f : NiSt → NiSt) : (s.modNi n f).fresh = s.fresh := rfl
@[simp] theorem State.modNi_hold (n : Nat) (f : NiSt → NiSt) : (s.modNi n f).hold = s.hold := rfl
@[simp] theorem State.modNi_fab (n : Nat) (f : NiSt → NiSt) : (s.modNi n f).fab = s.fab := rfl
@[simp] theorem State.modNi_lve (n : Nat) (f : NiSt → NiSt) : (s.modNi n f).lve = s.lve := rfl
@[simp] theorem State.modNi_fuses (n : Nat) (f : NiSt → NiSt) : (s.modNi n f).fuses = s.fuses := rfl
@[simp] theorem State.modNi_sec (n : Nat) (f : NiSt → NiSt) : (s.modNi n f).sec = s.sec := rfl
@[simp] theorem State.modNi_pio (n : Nat) (f : NiSt → NiSt) : (s.modNi n f).pio = s.pio := rfl
@[simp] theorem State.modNi_cal (n : Nat) (f : NiSt → NiSt) : (s.modNi n f).cal = s.cal := rfl
@[simp] theorem State.modNi_sq (n : Nat) (f : NiSt → NiSt) : (s.modNi n f).sq = s.sq := rfl
@[simp] theorem State.modNi_rsvr (n : Nat) (f : NiSt → NiSt) : (s.modNi n f).rsvr = s.rsvr := rfl
@[simp] theorem State.modNi_drc (n : Nat) (f : NiSt → NiSt) : (s.modNi n f).drc = s.drc := rfl
@[simp] theorem State.modNi_fcc (n : Nat) (f : NiSt → NiSt) : (s.modNi n f).fcc = s.fcc := rfl
@[simp] theorem State.modNi_integ (n : Nat) (f : NiSt → NiSt) : (s.modNi n f).integ = s.integ := rfl
@[simp] theorem State.modNi_med (n : Nat) (f : NiSt → NiSt) : (s.modNi n f).med = s.med := rfl
@[simp] theorem State.modNi_medc (n : Nat) (f : NiSt → NiSt) : (s.modNi n f).medc = s.medc := rfl
@[simp] theorem State.modNi_codec (n : Nat) (f : NiSt → NiSt) : (s.modNi n f).codec = s.codec := rfl
@[simp] theorem State.modNi_dma (n : Nat) (f : NiSt → NiSt) : (s.modNi n f).dma = s.dma := rfl
@[simp] theorem State.modNi_dmaTurn (n : Nat) (f : NiSt → NiSt) : (s.modNi n f).dmaTurn = s.dmaTurn := rfl
@[simp] theorem State.modNi_mgd (n : Nat) (f : NiSt → NiSt) : (s.modNi n f).mgd = s.mgd := rfl
@[simp] theorem State.modNi_aon (n : Nat) (f : NiSt → NiSt) : (s.modNi n f).aon = s.aon := rfl
@[simp] theorem State.modNi_pmu (n : Nat) (f : NiSt → NiSt) : (s.modNi n f).pmu = s.pmu := rfl
@[simp] theorem State.modNi_hif (n : Nat) (f : NiSt → NiSt) : (s.modNi n f).hif = s.hif := rfl
@[simp] theorem State.modNi_ply (n : Nat) (f : NiSt → NiSt) : (s.modNi n f).ply = s.ply := rfl
@[simp] theorem State.modNi_cores (n : Nat) (f : NiSt → NiSt) : (s.modNi n f).cores = s.cores := rfl
@[simp] theorem State.modNi_atu (n : Nat) (f : NiSt → NiSt) : (s.modNi n f).atu = s.atu := rfl
@[simp] theorem State.modNi_hts (n : Nat) (f : NiSt → NiSt) : (s.modNi n f).hts = s.hts := rfl
@[simp] theorem State.modNi_l2 (n : Nat) (f : NiSt → NiSt) : (s.modNi n f).l2 = s.l2 := rfl
@[simp] theorem State.modNi_lr (n : Nat) (f : NiSt → NiSt) : (s.modNi n f).lr = s.lr := rfl

/-! `modRouter` touches `ocn` alone. -/
@[simp] theorem State.modRouter_pending (r : Nat) (f : RouterSt → RouterSt) : (s.modRouter r f).pending = s.pending := rfl
@[simp] theorem State.modRouter_regs (r : Nat) (f : RouterSt → RouterSt) : (s.modRouter r f).regs = s.regs := rfl
@[simp] theorem State.modRouter_mem (r : Nat) (f : RouterSt → RouterSt) : (s.modRouter r f).mem = s.mem := rfl
@[simp] theorem State.modRouter_ans (r : Nat) (f : RouterSt → RouterSt) : (s.modRouter r f).ans = s.ans := rfl
@[simp] theorem State.modRouter_fresh (r : Nat) (f : RouterSt → RouterSt) : (s.modRouter r f).fresh = s.fresh := rfl
@[simp] theorem State.modRouter_hold (r : Nat) (f : RouterSt → RouterSt) : (s.modRouter r f).hold = s.hold := rfl
@[simp] theorem State.modRouter_fab (r : Nat) (f : RouterSt → RouterSt) : (s.modRouter r f).fab = s.fab := rfl
@[simp] theorem State.modRouter_lve (r : Nat) (f : RouterSt → RouterSt) : (s.modRouter r f).lve = s.lve := rfl
@[simp] theorem State.modRouter_fuses (r : Nat) (f : RouterSt → RouterSt) : (s.modRouter r f).fuses = s.fuses := rfl
@[simp] theorem State.modRouter_sec (r : Nat) (f : RouterSt → RouterSt) : (s.modRouter r f).sec = s.sec := rfl
@[simp] theorem State.modRouter_pio (r : Nat) (f : RouterSt → RouterSt) : (s.modRouter r f).pio = s.pio := rfl
@[simp] theorem State.modRouter_cal (r : Nat) (f : RouterSt → RouterSt) : (s.modRouter r f).cal = s.cal := rfl
@[simp] theorem State.modRouter_sq (r : Nat) (f : RouterSt → RouterSt) : (s.modRouter r f).sq = s.sq := rfl
@[simp] theorem State.modRouter_rsvr (r : Nat) (f : RouterSt → RouterSt) : (s.modRouter r f).rsvr = s.rsvr := rfl
@[simp] theorem State.modRouter_drc (r : Nat) (f : RouterSt → RouterSt) : (s.modRouter r f).drc = s.drc := rfl
@[simp] theorem State.modRouter_fcc (r : Nat) (f : RouterSt → RouterSt) : (s.modRouter r f).fcc = s.fcc := rfl
@[simp] theorem State.modRouter_integ (r : Nat) (f : RouterSt → RouterSt) : (s.modRouter r f).integ = s.integ := rfl
@[simp] theorem State.modRouter_med (r : Nat) (f : RouterSt → RouterSt) : (s.modRouter r f).med = s.med := rfl
@[simp] theorem State.modRouter_medc (r : Nat) (f : RouterSt → RouterSt) : (s.modRouter r f).medc = s.medc := rfl
@[simp] theorem State.modRouter_codec (r : Nat) (f : RouterSt → RouterSt) : (s.modRouter r f).codec = s.codec := rfl
@[simp] theorem State.modRouter_dma (r : Nat) (f : RouterSt → RouterSt) : (s.modRouter r f).dma = s.dma := rfl
@[simp] theorem State.modRouter_dmaTurn (r : Nat) (f : RouterSt → RouterSt) : (s.modRouter r f).dmaTurn = s.dmaTurn := rfl
@[simp] theorem State.modRouter_mgd (r : Nat) (f : RouterSt → RouterSt) : (s.modRouter r f).mgd = s.mgd := rfl
@[simp] theorem State.modRouter_aon (r : Nat) (f : RouterSt → RouterSt) : (s.modRouter r f).aon = s.aon := rfl
@[simp] theorem State.modRouter_pmu (r : Nat) (f : RouterSt → RouterSt) : (s.modRouter r f).pmu = s.pmu := rfl
@[simp] theorem State.modRouter_hif (r : Nat) (f : RouterSt → RouterSt) : (s.modRouter r f).hif = s.hif := rfl
@[simp] theorem State.modRouter_ply (r : Nat) (f : RouterSt → RouterSt) : (s.modRouter r f).ply = s.ply := rfl
@[simp] theorem State.modRouter_cores (r : Nat) (f : RouterSt → RouterSt) : (s.modRouter r f).cores = s.cores := rfl
@[simp] theorem State.modRouter_atu (r : Nat) (f : RouterSt → RouterSt) : (s.modRouter r f).atu = s.atu := rfl
@[simp] theorem State.modRouter_hts (r : Nat) (f : RouterSt → RouterSt) : (s.modRouter r f).hts = s.hts := rfl
@[simp] theorem State.modRouter_l2 (r : Nat) (f : RouterSt → RouterSt) : (s.modRouter r f).l2 = s.l2 := rfl
@[simp] theorem State.modRouter_lr (r : Nat) (f : RouterSt → RouterSt) : (s.modRouter r f).lr = s.lr := rfl

/-! `modDma` touches `dma` alone. -/
@[simp] theorem State.modDma_pending (n : Nat) (f : DmaSt → DmaSt) : (s.modDma n f).pending = s.pending := rfl
@[simp] theorem State.modDma_regs (n : Nat) (f : DmaSt → DmaSt) : (s.modDma n f).regs = s.regs := rfl
@[simp] theorem State.modDma_mem (n : Nat) (f : DmaSt → DmaSt) : (s.modDma n f).mem = s.mem := rfl
@[simp] theorem State.modDma_ans (n : Nat) (f : DmaSt → DmaSt) : (s.modDma n f).ans = s.ans := rfl
@[simp] theorem State.modDma_fresh (n : Nat) (f : DmaSt → DmaSt) : (s.modDma n f).fresh = s.fresh := rfl
@[simp] theorem State.modDma_hold (n : Nat) (f : DmaSt → DmaSt) : (s.modDma n f).hold = s.hold := rfl
@[simp] theorem State.modDma_fab (n : Nat) (f : DmaSt → DmaSt) : (s.modDma n f).fab = s.fab := rfl
@[simp] theorem State.modDma_lve (n : Nat) (f : DmaSt → DmaSt) : (s.modDma n f).lve = s.lve := rfl
@[simp] theorem State.modDma_fuses (n : Nat) (f : DmaSt → DmaSt) : (s.modDma n f).fuses = s.fuses := rfl
@[simp] theorem State.modDma_sec (n : Nat) (f : DmaSt → DmaSt) : (s.modDma n f).sec = s.sec := rfl
@[simp] theorem State.modDma_pio (n : Nat) (f : DmaSt → DmaSt) : (s.modDma n f).pio = s.pio := rfl
@[simp] theorem State.modDma_ocn (n : Nat) (f : DmaSt → DmaSt) : (s.modDma n f).ocn = s.ocn := rfl
@[simp] theorem State.modDma_cal (n : Nat) (f : DmaSt → DmaSt) : (s.modDma n f).cal = s.cal := rfl
@[simp] theorem State.modDma_sq (n : Nat) (f : DmaSt → DmaSt) : (s.modDma n f).sq = s.sq := rfl
@[simp] theorem State.modDma_rsvr (n : Nat) (f : DmaSt → DmaSt) : (s.modDma n f).rsvr = s.rsvr := rfl
@[simp] theorem State.modDma_drc (n : Nat) (f : DmaSt → DmaSt) : (s.modDma n f).drc = s.drc := rfl
@[simp] theorem State.modDma_fcc (n : Nat) (f : DmaSt → DmaSt) : (s.modDma n f).fcc = s.fcc := rfl
@[simp] theorem State.modDma_integ (n : Nat) (f : DmaSt → DmaSt) : (s.modDma n f).integ = s.integ := rfl
@[simp] theorem State.modDma_med (n : Nat) (f : DmaSt → DmaSt) : (s.modDma n f).med = s.med := rfl
@[simp] theorem State.modDma_medc (n : Nat) (f : DmaSt → DmaSt) : (s.modDma n f).medc = s.medc := rfl
@[simp] theorem State.modDma_codec (n : Nat) (f : DmaSt → DmaSt) : (s.modDma n f).codec = s.codec := rfl
@[simp] theorem State.modDma_dmaTurn (n : Nat) (f : DmaSt → DmaSt) : (s.modDma n f).dmaTurn = s.dmaTurn := rfl
@[simp] theorem State.modDma_mgd (n : Nat) (f : DmaSt → DmaSt) : (s.modDma n f).mgd = s.mgd := rfl
@[simp] theorem State.modDma_aon (n : Nat) (f : DmaSt → DmaSt) : (s.modDma n f).aon = s.aon := rfl
@[simp] theorem State.modDma_pmu (n : Nat) (f : DmaSt → DmaSt) : (s.modDma n f).pmu = s.pmu := rfl
@[simp] theorem State.modDma_hif (n : Nat) (f : DmaSt → DmaSt) : (s.modDma n f).hif = s.hif := rfl
@[simp] theorem State.modDma_ply (n : Nat) (f : DmaSt → DmaSt) : (s.modDma n f).ply = s.ply := rfl
@[simp] theorem State.modDma_cores (n : Nat) (f : DmaSt → DmaSt) : (s.modDma n f).cores = s.cores := rfl
@[simp] theorem State.modDma_atu (n : Nat) (f : DmaSt → DmaSt) : (s.modDma n f).atu = s.atu := rfl
@[simp] theorem State.modDma_hts (n : Nat) (f : DmaSt → DmaSt) : (s.modDma n f).hts = s.hts := rfl
@[simp] theorem State.modDma_l2 (n : Nat) (f : DmaSt → DmaSt) : (s.modDma n f).l2 = s.l2 := rfl
@[simp] theorem State.modDma_lr (n : Nat) (f : DmaSt → DmaSt) : (s.modDma n f).lr = s.lr := rfl

/-! `dmaCount` touches `dma` alone. -/
@[simp] theorem State.dmaCount_pending (n c k : Nat) : (s.dmaCount n c k).pending = s.pending := rfl
@[simp] theorem State.dmaCount_regs (n c k : Nat) : (s.dmaCount n c k).regs = s.regs := rfl
@[simp] theorem State.dmaCount_mem (n c k : Nat) : (s.dmaCount n c k).mem = s.mem := rfl
@[simp] theorem State.dmaCount_ans (n c k : Nat) : (s.dmaCount n c k).ans = s.ans := rfl
@[simp] theorem State.dmaCount_fresh (n c k : Nat) : (s.dmaCount n c k).fresh = s.fresh := rfl
@[simp] theorem State.dmaCount_hold (n c k : Nat) : (s.dmaCount n c k).hold = s.hold := rfl
@[simp] theorem State.dmaCount_fab (n c k : Nat) : (s.dmaCount n c k).fab = s.fab := rfl
@[simp] theorem State.dmaCount_lve (n c k : Nat) : (s.dmaCount n c k).lve = s.lve := rfl
@[simp] theorem State.dmaCount_fuses (n c k : Nat) : (s.dmaCount n c k).fuses = s.fuses := rfl
@[simp] theorem State.dmaCount_sec (n c k : Nat) : (s.dmaCount n c k).sec = s.sec := rfl
@[simp] theorem State.dmaCount_pio (n c k : Nat) : (s.dmaCount n c k).pio = s.pio := rfl
@[simp] theorem State.dmaCount_ocn (n c k : Nat) : (s.dmaCount n c k).ocn = s.ocn := rfl
@[simp] theorem State.dmaCount_cal (n c k : Nat) : (s.dmaCount n c k).cal = s.cal := rfl
@[simp] theorem State.dmaCount_sq (n c k : Nat) : (s.dmaCount n c k).sq = s.sq := rfl
@[simp] theorem State.dmaCount_rsvr (n c k : Nat) : (s.dmaCount n c k).rsvr = s.rsvr := rfl
@[simp] theorem State.dmaCount_drc (n c k : Nat) : (s.dmaCount n c k).drc = s.drc := rfl
@[simp] theorem State.dmaCount_fcc (n c k : Nat) : (s.dmaCount n c k).fcc = s.fcc := rfl
@[simp] theorem State.dmaCount_integ (n c k : Nat) : (s.dmaCount n c k).integ = s.integ := rfl
@[simp] theorem State.dmaCount_med (n c k : Nat) : (s.dmaCount n c k).med = s.med := rfl
@[simp] theorem State.dmaCount_medc (n c k : Nat) : (s.dmaCount n c k).medc = s.medc := rfl
@[simp] theorem State.dmaCount_codec (n c k : Nat) : (s.dmaCount n c k).codec = s.codec := rfl
@[simp] theorem State.dmaCount_dmaTurn (n c k : Nat) : (s.dmaCount n c k).dmaTurn = s.dmaTurn := rfl
@[simp] theorem State.dmaCount_mgd (n c k : Nat) : (s.dmaCount n c k).mgd = s.mgd := rfl
@[simp] theorem State.dmaCount_aon (n c k : Nat) : (s.dmaCount n c k).aon = s.aon := rfl
@[simp] theorem State.dmaCount_pmu (n c k : Nat) : (s.dmaCount n c k).pmu = s.pmu := rfl
@[simp] theorem State.dmaCount_hif (n c k : Nat) : (s.dmaCount n c k).hif = s.hif := rfl
@[simp] theorem State.dmaCount_ply (n c k : Nat) : (s.dmaCount n c k).ply = s.ply := rfl
@[simp] theorem State.dmaCount_cores (n c k : Nat) : (s.dmaCount n c k).cores = s.cores := rfl
@[simp] theorem State.dmaCount_atu (n c k : Nat) : (s.dmaCount n c k).atu = s.atu := rfl
@[simp] theorem State.dmaCount_hts (n c k : Nat) : (s.dmaCount n c k).hts = s.hts := rfl
@[simp] theorem State.dmaCount_l2 (n c k : Nat) : (s.dmaCount n c k).l2 = s.l2 := rfl
@[simp] theorem State.dmaCount_lr (n c k : Nat) : (s.dmaCount n c k).lr = s.lr := rfl

/-! `modCore` touches `cores` alone. -/
@[simp] theorem State.modCore_pending (c : Nat) (f : CoreSt → CoreSt) : (s.modCore c f).pending = s.pending := rfl
@[simp] theorem State.modCore_regs (c : Nat) (f : CoreSt → CoreSt) : (s.modCore c f).regs = s.regs := rfl
@[simp] theorem State.modCore_mem (c : Nat) (f : CoreSt → CoreSt) : (s.modCore c f).mem = s.mem := rfl
@[simp] theorem State.modCore_ans (c : Nat) (f : CoreSt → CoreSt) : (s.modCore c f).ans = s.ans := rfl
@[simp] theorem State.modCore_fresh (c : Nat) (f : CoreSt → CoreSt) : (s.modCore c f).fresh = s.fresh := rfl
@[simp] theorem State.modCore_hold (c : Nat) (f : CoreSt → CoreSt) : (s.modCore c f).hold = s.hold := rfl
@[simp] theorem State.modCore_fab (c : Nat) (f : CoreSt → CoreSt) : (s.modCore c f).fab = s.fab := rfl
@[simp] theorem State.modCore_lve (c : Nat) (f : CoreSt → CoreSt) : (s.modCore c f).lve = s.lve := rfl
@[simp] theorem State.modCore_fuses (c : Nat) (f : CoreSt → CoreSt) : (s.modCore c f).fuses = s.fuses := rfl
@[simp] theorem State.modCore_sec (c : Nat) (f : CoreSt → CoreSt) : (s.modCore c f).sec = s.sec := rfl
@[simp] theorem State.modCore_pio (c : Nat) (f : CoreSt → CoreSt) : (s.modCore c f).pio = s.pio := rfl
@[simp] theorem State.modCore_ocn (c : Nat) (f : CoreSt → CoreSt) : (s.modCore c f).ocn = s.ocn := rfl
@[simp] theorem State.modCore_cal (c : Nat) (f : CoreSt → CoreSt) : (s.modCore c f).cal = s.cal := rfl
@[simp] theorem State.modCore_sq (c : Nat) (f : CoreSt → CoreSt) : (s.modCore c f).sq = s.sq := rfl
@[simp] theorem State.modCore_rsvr (c : Nat) (f : CoreSt → CoreSt) : (s.modCore c f).rsvr = s.rsvr := rfl
@[simp] theorem State.modCore_drc (c : Nat) (f : CoreSt → CoreSt) : (s.modCore c f).drc = s.drc := rfl
@[simp] theorem State.modCore_fcc (c : Nat) (f : CoreSt → CoreSt) : (s.modCore c f).fcc = s.fcc := rfl
@[simp] theorem State.modCore_integ (c : Nat) (f : CoreSt → CoreSt) : (s.modCore c f).integ = s.integ := rfl
@[simp] theorem State.modCore_med (c : Nat) (f : CoreSt → CoreSt) : (s.modCore c f).med = s.med := rfl
@[simp] theorem State.modCore_medc (c : Nat) (f : CoreSt → CoreSt) : (s.modCore c f).medc = s.medc := rfl
@[simp] theorem State.modCore_codec (c : Nat) (f : CoreSt → CoreSt) : (s.modCore c f).codec = s.codec := rfl
@[simp] theorem State.modCore_dma (c : Nat) (f : CoreSt → CoreSt) : (s.modCore c f).dma = s.dma := rfl
@[simp] theorem State.modCore_dmaTurn (c : Nat) (f : CoreSt → CoreSt) : (s.modCore c f).dmaTurn = s.dmaTurn := rfl
@[simp] theorem State.modCore_mgd (c : Nat) (f : CoreSt → CoreSt) : (s.modCore c f).mgd = s.mgd := rfl
@[simp] theorem State.modCore_aon (c : Nat) (f : CoreSt → CoreSt) : (s.modCore c f).aon = s.aon := rfl
@[simp] theorem State.modCore_pmu (c : Nat) (f : CoreSt → CoreSt) : (s.modCore c f).pmu = s.pmu := rfl
@[simp] theorem State.modCore_hif (c : Nat) (f : CoreSt → CoreSt) : (s.modCore c f).hif = s.hif := rfl
@[simp] theorem State.modCore_ply (c : Nat) (f : CoreSt → CoreSt) : (s.modCore c f).ply = s.ply := rfl
@[simp] theorem State.modCore_atu (c : Nat) (f : CoreSt → CoreSt) : (s.modCore c f).atu = s.atu := rfl
@[simp] theorem State.modCore_hts (c : Nat) (f : CoreSt → CoreSt) : (s.modCore c f).hts = s.hts := rfl
@[simp] theorem State.modCore_l2 (c : Nat) (f : CoreSt → CoreSt) : (s.modCore c f).l2 = s.l2 := rfl
@[simp] theorem State.modCore_lr (c : Nat) (f : CoreSt → CoreSt) : (s.modCore c f).lr = s.lr := rfl

/-! `modBank` touches `cores` alone. -/
@[simp] theorem State.modBank_pending (c b : Nat) (f : Bank → Bank) : (s.modBank c b f).pending = s.pending := rfl
@[simp] theorem State.modBank_regs (c b : Nat) (f : Bank → Bank) : (s.modBank c b f).regs = s.regs := rfl
@[simp] theorem State.modBank_mem (c b : Nat) (f : Bank → Bank) : (s.modBank c b f).mem = s.mem := rfl
@[simp] theorem State.modBank_ans (c b : Nat) (f : Bank → Bank) : (s.modBank c b f).ans = s.ans := rfl
@[simp] theorem State.modBank_fresh (c b : Nat) (f : Bank → Bank) : (s.modBank c b f).fresh = s.fresh := rfl
@[simp] theorem State.modBank_hold (c b : Nat) (f : Bank → Bank) : (s.modBank c b f).hold = s.hold := rfl
@[simp] theorem State.modBank_fab (c b : Nat) (f : Bank → Bank) : (s.modBank c b f).fab = s.fab := rfl
@[simp] theorem State.modBank_lve (c b : Nat) (f : Bank → Bank) : (s.modBank c b f).lve = s.lve := rfl
@[simp] theorem State.modBank_fuses (c b : Nat) (f : Bank → Bank) : (s.modBank c b f).fuses = s.fuses := rfl
@[simp] theorem State.modBank_sec (c b : Nat) (f : Bank → Bank) : (s.modBank c b f).sec = s.sec := rfl
@[simp] theorem State.modBank_pio (c b : Nat) (f : Bank → Bank) : (s.modBank c b f).pio = s.pio := rfl
@[simp] theorem State.modBank_ocn (c b : Nat) (f : Bank → Bank) : (s.modBank c b f).ocn = s.ocn := rfl
@[simp] theorem State.modBank_cal (c b : Nat) (f : Bank → Bank) : (s.modBank c b f).cal = s.cal := rfl
@[simp] theorem State.modBank_sq (c b : Nat) (f : Bank → Bank) : (s.modBank c b f).sq = s.sq := rfl
@[simp] theorem State.modBank_rsvr (c b : Nat) (f : Bank → Bank) : (s.modBank c b f).rsvr = s.rsvr := rfl
@[simp] theorem State.modBank_drc (c b : Nat) (f : Bank → Bank) : (s.modBank c b f).drc = s.drc := rfl
@[simp] theorem State.modBank_fcc (c b : Nat) (f : Bank → Bank) : (s.modBank c b f).fcc = s.fcc := rfl
@[simp] theorem State.modBank_integ (c b : Nat) (f : Bank → Bank) : (s.modBank c b f).integ = s.integ := rfl
@[simp] theorem State.modBank_med (c b : Nat) (f : Bank → Bank) : (s.modBank c b f).med = s.med := rfl
@[simp] theorem State.modBank_medc (c b : Nat) (f : Bank → Bank) : (s.modBank c b f).medc = s.medc := rfl
@[simp] theorem State.modBank_codec (c b : Nat) (f : Bank → Bank) : (s.modBank c b f).codec = s.codec := rfl
@[simp] theorem State.modBank_dma (c b : Nat) (f : Bank → Bank) : (s.modBank c b f).dma = s.dma := rfl
@[simp] theorem State.modBank_dmaTurn (c b : Nat) (f : Bank → Bank) : (s.modBank c b f).dmaTurn = s.dmaTurn := rfl
@[simp] theorem State.modBank_mgd (c b : Nat) (f : Bank → Bank) : (s.modBank c b f).mgd = s.mgd := rfl
@[simp] theorem State.modBank_aon (c b : Nat) (f : Bank → Bank) : (s.modBank c b f).aon = s.aon := rfl
@[simp] theorem State.modBank_pmu (c b : Nat) (f : Bank → Bank) : (s.modBank c b f).pmu = s.pmu := rfl
@[simp] theorem State.modBank_hif (c b : Nat) (f : Bank → Bank) : (s.modBank c b f).hif = s.hif := rfl
@[simp] theorem State.modBank_ply (c b : Nat) (f : Bank → Bank) : (s.modBank c b f).ply = s.ply := rfl
@[simp] theorem State.modBank_atu (c b : Nat) (f : Bank → Bank) : (s.modBank c b f).atu = s.atu := rfl
@[simp] theorem State.modBank_hts (c b : Nat) (f : Bank → Bank) : (s.modBank c b f).hts = s.hts := rfl
@[simp] theorem State.modBank_l2 (c b : Nat) (f : Bank → Bank) : (s.modBank c b f).l2 = s.l2 := rfl
@[simp] theorem State.modBank_lr (c b : Nat) (f : Bank → Bank) : (s.modBank c b f).lr = s.lr := rfl

/-! `setCsr` touches `cores` alone. -/
@[simp] theorem State.setCsr_pending (c n : Nat) (v : DWord) : (s.setCsr c n v).pending = s.pending := rfl
@[simp] theorem State.setCsr_regs (c n : Nat) (v : DWord) : (s.setCsr c n v).regs = s.regs := rfl
@[simp] theorem State.setCsr_mem (c n : Nat) (v : DWord) : (s.setCsr c n v).mem = s.mem := rfl
@[simp] theorem State.setCsr_ans (c n : Nat) (v : DWord) : (s.setCsr c n v).ans = s.ans := rfl
@[simp] theorem State.setCsr_fresh (c n : Nat) (v : DWord) : (s.setCsr c n v).fresh = s.fresh := rfl
@[simp] theorem State.setCsr_hold (c n : Nat) (v : DWord) : (s.setCsr c n v).hold = s.hold := rfl
@[simp] theorem State.setCsr_fab (c n : Nat) (v : DWord) : (s.setCsr c n v).fab = s.fab := rfl
@[simp] theorem State.setCsr_lve (c n : Nat) (v : DWord) : (s.setCsr c n v).lve = s.lve := rfl
@[simp] theorem State.setCsr_fuses (c n : Nat) (v : DWord) : (s.setCsr c n v).fuses = s.fuses := rfl
@[simp] theorem State.setCsr_sec (c n : Nat) (v : DWord) : (s.setCsr c n v).sec = s.sec := rfl
@[simp] theorem State.setCsr_pio (c n : Nat) (v : DWord) : (s.setCsr c n v).pio = s.pio := rfl
@[simp] theorem State.setCsr_ocn (c n : Nat) (v : DWord) : (s.setCsr c n v).ocn = s.ocn := rfl
@[simp] theorem State.setCsr_cal (c n : Nat) (v : DWord) : (s.setCsr c n v).cal = s.cal := rfl
@[simp] theorem State.setCsr_sq (c n : Nat) (v : DWord) : (s.setCsr c n v).sq = s.sq := rfl
@[simp] theorem State.setCsr_rsvr (c n : Nat) (v : DWord) : (s.setCsr c n v).rsvr = s.rsvr := rfl
@[simp] theorem State.setCsr_drc (c n : Nat) (v : DWord) : (s.setCsr c n v).drc = s.drc := rfl
@[simp] theorem State.setCsr_fcc (c n : Nat) (v : DWord) : (s.setCsr c n v).fcc = s.fcc := rfl
@[simp] theorem State.setCsr_integ (c n : Nat) (v : DWord) : (s.setCsr c n v).integ = s.integ := rfl
@[simp] theorem State.setCsr_med (c n : Nat) (v : DWord) : (s.setCsr c n v).med = s.med := rfl
@[simp] theorem State.setCsr_medc (c n : Nat) (v : DWord) : (s.setCsr c n v).medc = s.medc := rfl
@[simp] theorem State.setCsr_codec (c n : Nat) (v : DWord) : (s.setCsr c n v).codec = s.codec := rfl
@[simp] theorem State.setCsr_dma (c n : Nat) (v : DWord) : (s.setCsr c n v).dma = s.dma := rfl
@[simp] theorem State.setCsr_dmaTurn (c n : Nat) (v : DWord) : (s.setCsr c n v).dmaTurn = s.dmaTurn := rfl
@[simp] theorem State.setCsr_mgd (c n : Nat) (v : DWord) : (s.setCsr c n v).mgd = s.mgd := rfl
@[simp] theorem State.setCsr_aon (c n : Nat) (v : DWord) : (s.setCsr c n v).aon = s.aon := rfl
@[simp] theorem State.setCsr_pmu (c n : Nat) (v : DWord) : (s.setCsr c n v).pmu = s.pmu := rfl
@[simp] theorem State.setCsr_hif (c n : Nat) (v : DWord) : (s.setCsr c n v).hif = s.hif := rfl
@[simp] theorem State.setCsr_ply (c n : Nat) (v : DWord) : (s.setCsr c n v).ply = s.ply := rfl
@[simp] theorem State.setCsr_atu (c n : Nat) (v : DWord) : (s.setCsr c n v).atu = s.atu := rfl
@[simp] theorem State.setCsr_hts (c n : Nat) (v : DWord) : (s.setCsr c n v).hts = s.hts := rfl
@[simp] theorem State.setCsr_l2 (c n : Nat) (v : DWord) : (s.setCsr c n v).l2 = s.l2 := rfl
@[simp] theorem State.setCsr_lr (c n : Nat) (v : DWord) : (s.setCsr c n v).lr = s.lr := rfl

/-! `coreCount` touches `cores` alone. -/
@[simp] theorem State.coreCount_pending (c k : Nat) : (s.coreCount c k).pending = s.pending := rfl
@[simp] theorem State.coreCount_regs (c k : Nat) : (s.coreCount c k).regs = s.regs := rfl
@[simp] theorem State.coreCount_mem (c k : Nat) : (s.coreCount c k).mem = s.mem := rfl
@[simp] theorem State.coreCount_ans (c k : Nat) : (s.coreCount c k).ans = s.ans := rfl
@[simp] theorem State.coreCount_fresh (c k : Nat) : (s.coreCount c k).fresh = s.fresh := rfl
@[simp] theorem State.coreCount_hold (c k : Nat) : (s.coreCount c k).hold = s.hold := rfl
@[simp] theorem State.coreCount_fab (c k : Nat) : (s.coreCount c k).fab = s.fab := rfl
@[simp] theorem State.coreCount_lve (c k : Nat) : (s.coreCount c k).lve = s.lve := rfl
@[simp] theorem State.coreCount_fuses (c k : Nat) : (s.coreCount c k).fuses = s.fuses := rfl
@[simp] theorem State.coreCount_sec (c k : Nat) : (s.coreCount c k).sec = s.sec := rfl
@[simp] theorem State.coreCount_pio (c k : Nat) : (s.coreCount c k).pio = s.pio := rfl
@[simp] theorem State.coreCount_ocn (c k : Nat) : (s.coreCount c k).ocn = s.ocn := rfl
@[simp] theorem State.coreCount_cal (c k : Nat) : (s.coreCount c k).cal = s.cal := rfl
@[simp] theorem State.coreCount_sq (c k : Nat) : (s.coreCount c k).sq = s.sq := rfl
@[simp] theorem State.coreCount_rsvr (c k : Nat) : (s.coreCount c k).rsvr = s.rsvr := rfl
@[simp] theorem State.coreCount_drc (c k : Nat) : (s.coreCount c k).drc = s.drc := rfl
@[simp] theorem State.coreCount_fcc (c k : Nat) : (s.coreCount c k).fcc = s.fcc := rfl
@[simp] theorem State.coreCount_integ (c k : Nat) : (s.coreCount c k).integ = s.integ := rfl
@[simp] theorem State.coreCount_med (c k : Nat) : (s.coreCount c k).med = s.med := rfl
@[simp] theorem State.coreCount_medc (c k : Nat) : (s.coreCount c k).medc = s.medc := rfl
@[simp] theorem State.coreCount_codec (c k : Nat) : (s.coreCount c k).codec = s.codec := rfl
@[simp] theorem State.coreCount_dma (c k : Nat) : (s.coreCount c k).dma = s.dma := rfl
@[simp] theorem State.coreCount_dmaTurn (c k : Nat) : (s.coreCount c k).dmaTurn = s.dmaTurn := rfl
@[simp] theorem State.coreCount_mgd (c k : Nat) : (s.coreCount c k).mgd = s.mgd := rfl
@[simp] theorem State.coreCount_aon (c k : Nat) : (s.coreCount c k).aon = s.aon := rfl
@[simp] theorem State.coreCount_pmu (c k : Nat) : (s.coreCount c k).pmu = s.pmu := rfl
@[simp] theorem State.coreCount_hif (c k : Nat) : (s.coreCount c k).hif = s.hif := rfl
@[simp] theorem State.coreCount_ply (c k : Nat) : (s.coreCount c k).ply = s.ply := rfl
@[simp] theorem State.coreCount_atu (c k : Nat) : (s.coreCount c k).atu = s.atu := rfl
@[simp] theorem State.coreCount_hts (c k : Nat) : (s.coreCount c k).hts = s.hts := rfl
@[simp] theorem State.coreCount_l2 (c k : Nat) : (s.coreCount c k).l2 = s.l2 := rfl
@[simp] theorem State.coreCount_lr (c k : Nat) : (s.coreCount c k).lr = s.lr := rfl

/-! `modThr` touches `hts` alone. -/
@[simp] theorem State.modThr_pending (n : Nat) (f : Thr → Thr) : (s.modThr n f).pending = s.pending := rfl
@[simp] theorem State.modThr_regs (n : Nat) (f : Thr → Thr) : (s.modThr n f).regs = s.regs := rfl
@[simp] theorem State.modThr_mem (n : Nat) (f : Thr → Thr) : (s.modThr n f).mem = s.mem := rfl
@[simp] theorem State.modThr_ans (n : Nat) (f : Thr → Thr) : (s.modThr n f).ans = s.ans := rfl
@[simp] theorem State.modThr_fresh (n : Nat) (f : Thr → Thr) : (s.modThr n f).fresh = s.fresh := rfl
@[simp] theorem State.modThr_hold (n : Nat) (f : Thr → Thr) : (s.modThr n f).hold = s.hold := rfl
@[simp] theorem State.modThr_fab (n : Nat) (f : Thr → Thr) : (s.modThr n f).fab = s.fab := rfl
@[simp] theorem State.modThr_lve (n : Nat) (f : Thr → Thr) : (s.modThr n f).lve = s.lve := rfl
@[simp] theorem State.modThr_fuses (n : Nat) (f : Thr → Thr) : (s.modThr n f).fuses = s.fuses := rfl
@[simp] theorem State.modThr_sec (n : Nat) (f : Thr → Thr) : (s.modThr n f).sec = s.sec := rfl
@[simp] theorem State.modThr_pio (n : Nat) (f : Thr → Thr) : (s.modThr n f).pio = s.pio := rfl
@[simp] theorem State.modThr_ocn (n : Nat) (f : Thr → Thr) : (s.modThr n f).ocn = s.ocn := rfl
@[simp] theorem State.modThr_cal (n : Nat) (f : Thr → Thr) : (s.modThr n f).cal = s.cal := rfl
@[simp] theorem State.modThr_sq (n : Nat) (f : Thr → Thr) : (s.modThr n f).sq = s.sq := rfl
@[simp] theorem State.modThr_rsvr (n : Nat) (f : Thr → Thr) : (s.modThr n f).rsvr = s.rsvr := rfl
@[simp] theorem State.modThr_drc (n : Nat) (f : Thr → Thr) : (s.modThr n f).drc = s.drc := rfl
@[simp] theorem State.modThr_fcc (n : Nat) (f : Thr → Thr) : (s.modThr n f).fcc = s.fcc := rfl
@[simp] theorem State.modThr_integ (n : Nat) (f : Thr → Thr) : (s.modThr n f).integ = s.integ := rfl
@[simp] theorem State.modThr_med (n : Nat) (f : Thr → Thr) : (s.modThr n f).med = s.med := rfl
@[simp] theorem State.modThr_medc (n : Nat) (f : Thr → Thr) : (s.modThr n f).medc = s.medc := rfl
@[simp] theorem State.modThr_codec (n : Nat) (f : Thr → Thr) : (s.modThr n f).codec = s.codec := rfl
@[simp] theorem State.modThr_dma (n : Nat) (f : Thr → Thr) : (s.modThr n f).dma = s.dma := rfl
@[simp] theorem State.modThr_dmaTurn (n : Nat) (f : Thr → Thr) : (s.modThr n f).dmaTurn = s.dmaTurn := rfl
@[simp] theorem State.modThr_mgd (n : Nat) (f : Thr → Thr) : (s.modThr n f).mgd = s.mgd := rfl
@[simp] theorem State.modThr_aon (n : Nat) (f : Thr → Thr) : (s.modThr n f).aon = s.aon := rfl
@[simp] theorem State.modThr_pmu (n : Nat) (f : Thr → Thr) : (s.modThr n f).pmu = s.pmu := rfl
@[simp] theorem State.modThr_hif (n : Nat) (f : Thr → Thr) : (s.modThr n f).hif = s.hif := rfl
@[simp] theorem State.modThr_ply (n : Nat) (f : Thr → Thr) : (s.modThr n f).ply = s.ply := rfl
@[simp] theorem State.modThr_cores (n : Nat) (f : Thr → Thr) : (s.modThr n f).cores = s.cores := rfl
@[simp] theorem State.modThr_atu (n : Nat) (f : Thr → Thr) : (s.modThr n f).atu = s.atu := rfl
@[simp] theorem State.modThr_l2 (n : Nat) (f : Thr → Thr) : (s.modThr n f).l2 = s.l2 := rfl
@[simp] theorem State.modThr_lr (n : Nat) (f : Thr → Thr) : (s.modThr n f).lr = s.lr := rfl

/-! `modMed` touches `med` alone. -/
@[simp] theorem State.modMed_pending (m : Nat) (f : MedSt → MedSt) : (s.modMed m f).pending = s.pending := rfl
@[simp] theorem State.modMed_regs (m : Nat) (f : MedSt → MedSt) : (s.modMed m f).regs = s.regs := rfl
@[simp] theorem State.modMed_mem (m : Nat) (f : MedSt → MedSt) : (s.modMed m f).mem = s.mem := rfl
@[simp] theorem State.modMed_ans (m : Nat) (f : MedSt → MedSt) : (s.modMed m f).ans = s.ans := rfl
@[simp] theorem State.modMed_fresh (m : Nat) (f : MedSt → MedSt) : (s.modMed m f).fresh = s.fresh := rfl
@[simp] theorem State.modMed_hold (m : Nat) (f : MedSt → MedSt) : (s.modMed m f).hold = s.hold := rfl
@[simp] theorem State.modMed_fab (m : Nat) (f : MedSt → MedSt) : (s.modMed m f).fab = s.fab := rfl
@[simp] theorem State.modMed_lve (m : Nat) (f : MedSt → MedSt) : (s.modMed m f).lve = s.lve := rfl
@[simp] theorem State.modMed_fuses (m : Nat) (f : MedSt → MedSt) : (s.modMed m f).fuses = s.fuses := rfl
@[simp] theorem State.modMed_sec (m : Nat) (f : MedSt → MedSt) : (s.modMed m f).sec = s.sec := rfl
@[simp] theorem State.modMed_pio (m : Nat) (f : MedSt → MedSt) : (s.modMed m f).pio = s.pio := rfl
@[simp] theorem State.modMed_ocn (m : Nat) (f : MedSt → MedSt) : (s.modMed m f).ocn = s.ocn := rfl
@[simp] theorem State.modMed_cal (m : Nat) (f : MedSt → MedSt) : (s.modMed m f).cal = s.cal := rfl
@[simp] theorem State.modMed_sq (m : Nat) (f : MedSt → MedSt) : (s.modMed m f).sq = s.sq := rfl
@[simp] theorem State.modMed_rsvr (m : Nat) (f : MedSt → MedSt) : (s.modMed m f).rsvr = s.rsvr := rfl
@[simp] theorem State.modMed_drc (m : Nat) (f : MedSt → MedSt) : (s.modMed m f).drc = s.drc := rfl
@[simp] theorem State.modMed_fcc (m : Nat) (f : MedSt → MedSt) : (s.modMed m f).fcc = s.fcc := rfl
@[simp] theorem State.modMed_integ (m : Nat) (f : MedSt → MedSt) : (s.modMed m f).integ = s.integ := rfl
@[simp] theorem State.modMed_medc (m : Nat) (f : MedSt → MedSt) : (s.modMed m f).medc = s.medc := rfl
@[simp] theorem State.modMed_codec (m : Nat) (f : MedSt → MedSt) : (s.modMed m f).codec = s.codec := rfl
@[simp] theorem State.modMed_dma (m : Nat) (f : MedSt → MedSt) : (s.modMed m f).dma = s.dma := rfl
@[simp] theorem State.modMed_dmaTurn (m : Nat) (f : MedSt → MedSt) : (s.modMed m f).dmaTurn = s.dmaTurn := rfl
@[simp] theorem State.modMed_mgd (m : Nat) (f : MedSt → MedSt) : (s.modMed m f).mgd = s.mgd := rfl
@[simp] theorem State.modMed_aon (m : Nat) (f : MedSt → MedSt) : (s.modMed m f).aon = s.aon := rfl
@[simp] theorem State.modMed_pmu (m : Nat) (f : MedSt → MedSt) : (s.modMed m f).pmu = s.pmu := rfl
@[simp] theorem State.modMed_hif (m : Nat) (f : MedSt → MedSt) : (s.modMed m f).hif = s.hif := rfl
@[simp] theorem State.modMed_ply (m : Nat) (f : MedSt → MedSt) : (s.modMed m f).ply = s.ply := rfl
@[simp] theorem State.modMed_cores (m : Nat) (f : MedSt → MedSt) : (s.modMed m f).cores = s.cores := rfl
@[simp] theorem State.modMed_atu (m : Nat) (f : MedSt → MedSt) : (s.modMed m f).atu = s.atu := rfl
@[simp] theorem State.modMed_hts (m : Nat) (f : MedSt → MedSt) : (s.modMed m f).hts = s.hts := rfl
@[simp] theorem State.modMed_l2 (m : Nat) (f : MedSt → MedSt) : (s.modMed m f).l2 = s.l2 := rfl
@[simp] theorem State.modMed_lr (m : Nat) (f : MedSt → MedSt) : (s.modMed m f).lr = s.lr := rfl

/-! `modFcc` touches `fcc` alone. -/
@[simp] theorem State.modFcc_pending (f : Fcc → Fcc) : (s.modFcc f).pending = s.pending := rfl
@[simp] theorem State.modFcc_regs (f : Fcc → Fcc) : (s.modFcc f).regs = s.regs := rfl
@[simp] theorem State.modFcc_mem (f : Fcc → Fcc) : (s.modFcc f).mem = s.mem := rfl
@[simp] theorem State.modFcc_ans (f : Fcc → Fcc) : (s.modFcc f).ans = s.ans := rfl
@[simp] theorem State.modFcc_fresh (f : Fcc → Fcc) : (s.modFcc f).fresh = s.fresh := rfl
@[simp] theorem State.modFcc_hold (f : Fcc → Fcc) : (s.modFcc f).hold = s.hold := rfl
@[simp] theorem State.modFcc_fab (f : Fcc → Fcc) : (s.modFcc f).fab = s.fab := rfl
@[simp] theorem State.modFcc_lve (f : Fcc → Fcc) : (s.modFcc f).lve = s.lve := rfl
@[simp] theorem State.modFcc_fuses (f : Fcc → Fcc) : (s.modFcc f).fuses = s.fuses := rfl
@[simp] theorem State.modFcc_sec (f : Fcc → Fcc) : (s.modFcc f).sec = s.sec := rfl
@[simp] theorem State.modFcc_pio (f : Fcc → Fcc) : (s.modFcc f).pio = s.pio := rfl
@[simp] theorem State.modFcc_ocn (f : Fcc → Fcc) : (s.modFcc f).ocn = s.ocn := rfl
@[simp] theorem State.modFcc_cal (f : Fcc → Fcc) : (s.modFcc f).cal = s.cal := rfl
@[simp] theorem State.modFcc_sq (f : Fcc → Fcc) : (s.modFcc f).sq = s.sq := rfl
@[simp] theorem State.modFcc_rsvr (f : Fcc → Fcc) : (s.modFcc f).rsvr = s.rsvr := rfl
@[simp] theorem State.modFcc_drc (f : Fcc → Fcc) : (s.modFcc f).drc = s.drc := rfl
@[simp] theorem State.modFcc_integ (f : Fcc → Fcc) : (s.modFcc f).integ = s.integ := rfl
@[simp] theorem State.modFcc_med (f : Fcc → Fcc) : (s.modFcc f).med = s.med := rfl
@[simp] theorem State.modFcc_medc (f : Fcc → Fcc) : (s.modFcc f).medc = s.medc := rfl
@[simp] theorem State.modFcc_codec (f : Fcc → Fcc) : (s.modFcc f).codec = s.codec := rfl
@[simp] theorem State.modFcc_dma (f : Fcc → Fcc) : (s.modFcc f).dma = s.dma := rfl
@[simp] theorem State.modFcc_dmaTurn (f : Fcc → Fcc) : (s.modFcc f).dmaTurn = s.dmaTurn := rfl
@[simp] theorem State.modFcc_mgd (f : Fcc → Fcc) : (s.modFcc f).mgd = s.mgd := rfl
@[simp] theorem State.modFcc_aon (f : Fcc → Fcc) : (s.modFcc f).aon = s.aon := rfl
@[simp] theorem State.modFcc_pmu (f : Fcc → Fcc) : (s.modFcc f).pmu = s.pmu := rfl
@[simp] theorem State.modFcc_hif (f : Fcc → Fcc) : (s.modFcc f).hif = s.hif := rfl
@[simp] theorem State.modFcc_ply (f : Fcc → Fcc) : (s.modFcc f).ply = s.ply := rfl
@[simp] theorem State.modFcc_cores (f : Fcc → Fcc) : (s.modFcc f).cores = s.cores := rfl
@[simp] theorem State.modFcc_atu (f : Fcc → Fcc) : (s.modFcc f).atu = s.atu := rfl
@[simp] theorem State.modFcc_hts (f : Fcc → Fcc) : (s.modFcc f).hts = s.hts := rfl
@[simp] theorem State.modFcc_l2 (f : Fcc → Fcc) : (s.modFcc f).l2 = s.l2 := rfl
@[simp] theorem State.modFcc_lr (f : Fcc → Fcc) : (s.modFcc f).lr = s.lr := rfl

/-! `modInteg` touches `integ` alone. -/
@[simp] theorem State.modInteg_pending (f : Integ → Integ) : (s.modInteg f).pending = s.pending := rfl
@[simp] theorem State.modInteg_regs (f : Integ → Integ) : (s.modInteg f).regs = s.regs := rfl
@[simp] theorem State.modInteg_mem (f : Integ → Integ) : (s.modInteg f).mem = s.mem := rfl
@[simp] theorem State.modInteg_ans (f : Integ → Integ) : (s.modInteg f).ans = s.ans := rfl
@[simp] theorem State.modInteg_fresh (f : Integ → Integ) : (s.modInteg f).fresh = s.fresh := rfl
@[simp] theorem State.modInteg_hold (f : Integ → Integ) : (s.modInteg f).hold = s.hold := rfl
@[simp] theorem State.modInteg_fab (f : Integ → Integ) : (s.modInteg f).fab = s.fab := rfl
@[simp] theorem State.modInteg_lve (f : Integ → Integ) : (s.modInteg f).lve = s.lve := rfl
@[simp] theorem State.modInteg_fuses (f : Integ → Integ) : (s.modInteg f).fuses = s.fuses := rfl
@[simp] theorem State.modInteg_sec (f : Integ → Integ) : (s.modInteg f).sec = s.sec := rfl
@[simp] theorem State.modInteg_pio (f : Integ → Integ) : (s.modInteg f).pio = s.pio := rfl
@[simp] theorem State.modInteg_ocn (f : Integ → Integ) : (s.modInteg f).ocn = s.ocn := rfl
@[simp] theorem State.modInteg_cal (f : Integ → Integ) : (s.modInteg f).cal = s.cal := rfl
@[simp] theorem State.modInteg_sq (f : Integ → Integ) : (s.modInteg f).sq = s.sq := rfl
@[simp] theorem State.modInteg_rsvr (f : Integ → Integ) : (s.modInteg f).rsvr = s.rsvr := rfl
@[simp] theorem State.modInteg_drc (f : Integ → Integ) : (s.modInteg f).drc = s.drc := rfl
@[simp] theorem State.modInteg_fcc (f : Integ → Integ) : (s.modInteg f).fcc = s.fcc := rfl
@[simp] theorem State.modInteg_med (f : Integ → Integ) : (s.modInteg f).med = s.med := rfl
@[simp] theorem State.modInteg_medc (f : Integ → Integ) : (s.modInteg f).medc = s.medc := rfl
@[simp] theorem State.modInteg_codec (f : Integ → Integ) : (s.modInteg f).codec = s.codec := rfl
@[simp] theorem State.modInteg_dma (f : Integ → Integ) : (s.modInteg f).dma = s.dma := rfl
@[simp] theorem State.modInteg_dmaTurn (f : Integ → Integ) : (s.modInteg f).dmaTurn = s.dmaTurn := rfl
@[simp] theorem State.modInteg_mgd (f : Integ → Integ) : (s.modInteg f).mgd = s.mgd := rfl
@[simp] theorem State.modInteg_aon (f : Integ → Integ) : (s.modInteg f).aon = s.aon := rfl
@[simp] theorem State.modInteg_pmu (f : Integ → Integ) : (s.modInteg f).pmu = s.pmu := rfl
@[simp] theorem State.modInteg_hif (f : Integ → Integ) : (s.modInteg f).hif = s.hif := rfl
@[simp] theorem State.modInteg_ply (f : Integ → Integ) : (s.modInteg f).ply = s.ply := rfl
@[simp] theorem State.modInteg_cores (f : Integ → Integ) : (s.modInteg f).cores = s.cores := rfl
@[simp] theorem State.modInteg_atu (f : Integ → Integ) : (s.modInteg f).atu = s.atu := rfl
@[simp] theorem State.modInteg_hts (f : Integ → Integ) : (s.modInteg f).hts = s.hts := rfl
@[simp] theorem State.modInteg_l2 (f : Integ → Integ) : (s.modInteg f).l2 = s.l2 := rfl
@[simp] theorem State.modInteg_lr (f : Integ → Integ) : (s.modInteg f).lr = s.lr := rfl

/-! `modHif` touches `hif` alone. -/
@[simp] theorem State.modHif_pending (f : Hif → Hif) : (s.modHif f).pending = s.pending := rfl
@[simp] theorem State.modHif_regs (f : Hif → Hif) : (s.modHif f).regs = s.regs := rfl
@[simp] theorem State.modHif_mem (f : Hif → Hif) : (s.modHif f).mem = s.mem := rfl
@[simp] theorem State.modHif_ans (f : Hif → Hif) : (s.modHif f).ans = s.ans := rfl
@[simp] theorem State.modHif_fresh (f : Hif → Hif) : (s.modHif f).fresh = s.fresh := rfl
@[simp] theorem State.modHif_hold (f : Hif → Hif) : (s.modHif f).hold = s.hold := rfl
@[simp] theorem State.modHif_fab (f : Hif → Hif) : (s.modHif f).fab = s.fab := rfl
@[simp] theorem State.modHif_lve (f : Hif → Hif) : (s.modHif f).lve = s.lve := rfl
@[simp] theorem State.modHif_fuses (f : Hif → Hif) : (s.modHif f).fuses = s.fuses := rfl
@[simp] theorem State.modHif_sec (f : Hif → Hif) : (s.modHif f).sec = s.sec := rfl
@[simp] theorem State.modHif_pio (f : Hif → Hif) : (s.modHif f).pio = s.pio := rfl
@[simp] theorem State.modHif_ocn (f : Hif → Hif) : (s.modHif f).ocn = s.ocn := rfl
@[simp] theorem State.modHif_cal (f : Hif → Hif) : (s.modHif f).cal = s.cal := rfl
@[simp] theorem State.modHif_sq (f : Hif → Hif) : (s.modHif f).sq = s.sq := rfl
@[simp] theorem State.modHif_rsvr (f : Hif → Hif) : (s.modHif f).rsvr = s.rsvr := rfl
@[simp] theorem State.modHif_drc (f : Hif → Hif) : (s.modHif f).drc = s.drc := rfl
@[simp] theorem State.modHif_fcc (f : Hif → Hif) : (s.modHif f).fcc = s.fcc := rfl
@[simp] theorem State.modHif_integ (f : Hif → Hif) : (s.modHif f).integ = s.integ := rfl
@[simp] theorem State.modHif_med (f : Hif → Hif) : (s.modHif f).med = s.med := rfl
@[simp] theorem State.modHif_medc (f : Hif → Hif) : (s.modHif f).medc = s.medc := rfl
@[simp] theorem State.modHif_codec (f : Hif → Hif) : (s.modHif f).codec = s.codec := rfl
@[simp] theorem State.modHif_dma (f : Hif → Hif) : (s.modHif f).dma = s.dma := rfl
@[simp] theorem State.modHif_dmaTurn (f : Hif → Hif) : (s.modHif f).dmaTurn = s.dmaTurn := rfl
@[simp] theorem State.modHif_mgd (f : Hif → Hif) : (s.modHif f).mgd = s.mgd := rfl
@[simp] theorem State.modHif_aon (f : Hif → Hif) : (s.modHif f).aon = s.aon := rfl
@[simp] theorem State.modHif_pmu (f : Hif → Hif) : (s.modHif f).pmu = s.pmu := rfl
@[simp] theorem State.modHif_ply (f : Hif → Hif) : (s.modHif f).ply = s.ply := rfl
@[simp] theorem State.modHif_cores (f : Hif → Hif) : (s.modHif f).cores = s.cores := rfl
@[simp] theorem State.modHif_atu (f : Hif → Hif) : (s.modHif f).atu = s.atu := rfl
@[simp] theorem State.modHif_hts (f : Hif → Hif) : (s.modHif f).hts = s.hts := rfl
@[simp] theorem State.modHif_l2 (f : Hif → Hif) : (s.modHif f).l2 = s.l2 := rfl
@[simp] theorem State.modHif_lr (f : Hif → Hif) : (s.modHif f).lr = s.lr := rfl

/-! `modDrc` touches `drc` alone. -/
@[simp] theorem State.modDrc_pending (f : Drc → Drc) : (s.modDrc f).pending = s.pending := rfl
@[simp] theorem State.modDrc_regs (f : Drc → Drc) : (s.modDrc f).regs = s.regs := rfl
@[simp] theorem State.modDrc_mem (f : Drc → Drc) : (s.modDrc f).mem = s.mem := rfl
@[simp] theorem State.modDrc_ans (f : Drc → Drc) : (s.modDrc f).ans = s.ans := rfl
@[simp] theorem State.modDrc_fresh (f : Drc → Drc) : (s.modDrc f).fresh = s.fresh := rfl
@[simp] theorem State.modDrc_hold (f : Drc → Drc) : (s.modDrc f).hold = s.hold := rfl
@[simp] theorem State.modDrc_fab (f : Drc → Drc) : (s.modDrc f).fab = s.fab := rfl
@[simp] theorem State.modDrc_lve (f : Drc → Drc) : (s.modDrc f).lve = s.lve := rfl
@[simp] theorem State.modDrc_fuses (f : Drc → Drc) : (s.modDrc f).fuses = s.fuses := rfl
@[simp] theorem State.modDrc_sec (f : Drc → Drc) : (s.modDrc f).sec = s.sec := rfl
@[simp] theorem State.modDrc_pio (f : Drc → Drc) : (s.modDrc f).pio = s.pio := rfl
@[simp] theorem State.modDrc_ocn (f : Drc → Drc) : (s.modDrc f).ocn = s.ocn := rfl
@[simp] theorem State.modDrc_cal (f : Drc → Drc) : (s.modDrc f).cal = s.cal := rfl
@[simp] theorem State.modDrc_sq (f : Drc → Drc) : (s.modDrc f).sq = s.sq := rfl
@[simp] theorem State.modDrc_rsvr (f : Drc → Drc) : (s.modDrc f).rsvr = s.rsvr := rfl
@[simp] theorem State.modDrc_fcc (f : Drc → Drc) : (s.modDrc f).fcc = s.fcc := rfl
@[simp] theorem State.modDrc_integ (f : Drc → Drc) : (s.modDrc f).integ = s.integ := rfl
@[simp] theorem State.modDrc_med (f : Drc → Drc) : (s.modDrc f).med = s.med := rfl
@[simp] theorem State.modDrc_medc (f : Drc → Drc) : (s.modDrc f).medc = s.medc := rfl
@[simp] theorem State.modDrc_codec (f : Drc → Drc) : (s.modDrc f).codec = s.codec := rfl
@[simp] theorem State.modDrc_dma (f : Drc → Drc) : (s.modDrc f).dma = s.dma := rfl
@[simp] theorem State.modDrc_dmaTurn (f : Drc → Drc) : (s.modDrc f).dmaTurn = s.dmaTurn := rfl
@[simp] theorem State.modDrc_mgd (f : Drc → Drc) : (s.modDrc f).mgd = s.mgd := rfl
@[simp] theorem State.modDrc_aon (f : Drc → Drc) : (s.modDrc f).aon = s.aon := rfl
@[simp] theorem State.modDrc_pmu (f : Drc → Drc) : (s.modDrc f).pmu = s.pmu := rfl
@[simp] theorem State.modDrc_hif (f : Drc → Drc) : (s.modDrc f).hif = s.hif := rfl
@[simp] theorem State.modDrc_ply (f : Drc → Drc) : (s.modDrc f).ply = s.ply := rfl
@[simp] theorem State.modDrc_cores (f : Drc → Drc) : (s.modDrc f).cores = s.cores := rfl
@[simp] theorem State.modDrc_atu (f : Drc → Drc) : (s.modDrc f).atu = s.atu := rfl
@[simp] theorem State.modDrc_hts (f : Drc → Drc) : (s.modDrc f).hts = s.hts := rfl
@[simp] theorem State.modDrc_l2 (f : Drc → Drc) : (s.modDrc f).l2 = s.l2 := rfl
@[simp] theorem State.modDrc_lr (f : Drc → Drc) : (s.modDrc f).lr = s.lr := rfl

/-! `modPly` touches `ply` alone. -/
@[simp] theorem State.modPly_pending (f : Ply → Ply) : (s.modPly f).pending = s.pending := rfl
@[simp] theorem State.modPly_regs (f : Ply → Ply) : (s.modPly f).regs = s.regs := rfl
@[simp] theorem State.modPly_mem (f : Ply → Ply) : (s.modPly f).mem = s.mem := rfl
@[simp] theorem State.modPly_ans (f : Ply → Ply) : (s.modPly f).ans = s.ans := rfl
@[simp] theorem State.modPly_fresh (f : Ply → Ply) : (s.modPly f).fresh = s.fresh := rfl
@[simp] theorem State.modPly_hold (f : Ply → Ply) : (s.modPly f).hold = s.hold := rfl
@[simp] theorem State.modPly_fab (f : Ply → Ply) : (s.modPly f).fab = s.fab := rfl
@[simp] theorem State.modPly_lve (f : Ply → Ply) : (s.modPly f).lve = s.lve := rfl
@[simp] theorem State.modPly_fuses (f : Ply → Ply) : (s.modPly f).fuses = s.fuses := rfl
@[simp] theorem State.modPly_sec (f : Ply → Ply) : (s.modPly f).sec = s.sec := rfl
@[simp] theorem State.modPly_pio (f : Ply → Ply) : (s.modPly f).pio = s.pio := rfl
@[simp] theorem State.modPly_ocn (f : Ply → Ply) : (s.modPly f).ocn = s.ocn := rfl
@[simp] theorem State.modPly_cal (f : Ply → Ply) : (s.modPly f).cal = s.cal := rfl
@[simp] theorem State.modPly_sq (f : Ply → Ply) : (s.modPly f).sq = s.sq := rfl
@[simp] theorem State.modPly_rsvr (f : Ply → Ply) : (s.modPly f).rsvr = s.rsvr := rfl
@[simp] theorem State.modPly_drc (f : Ply → Ply) : (s.modPly f).drc = s.drc := rfl
@[simp] theorem State.modPly_fcc (f : Ply → Ply) : (s.modPly f).fcc = s.fcc := rfl
@[simp] theorem State.modPly_integ (f : Ply → Ply) : (s.modPly f).integ = s.integ := rfl
@[simp] theorem State.modPly_med (f : Ply → Ply) : (s.modPly f).med = s.med := rfl
@[simp] theorem State.modPly_medc (f : Ply → Ply) : (s.modPly f).medc = s.medc := rfl
@[simp] theorem State.modPly_codec (f : Ply → Ply) : (s.modPly f).codec = s.codec := rfl
@[simp] theorem State.modPly_dma (f : Ply → Ply) : (s.modPly f).dma = s.dma := rfl
@[simp] theorem State.modPly_dmaTurn (f : Ply → Ply) : (s.modPly f).dmaTurn = s.dmaTurn := rfl
@[simp] theorem State.modPly_mgd (f : Ply → Ply) : (s.modPly f).mgd = s.mgd := rfl
@[simp] theorem State.modPly_aon (f : Ply → Ply) : (s.modPly f).aon = s.aon := rfl
@[simp] theorem State.modPly_pmu (f : Ply → Ply) : (s.modPly f).pmu = s.pmu := rfl
@[simp] theorem State.modPly_hif (f : Ply → Ply) : (s.modPly f).hif = s.hif := rfl
@[simp] theorem State.modPly_cores (f : Ply → Ply) : (s.modPly f).cores = s.cores := rfl
@[simp] theorem State.modPly_atu (f : Ply → Ply) : (s.modPly f).atu = s.atu := rfl
@[simp] theorem State.modPly_hts (f : Ply → Ply) : (s.modPly f).hts = s.hts := rfl
@[simp] theorem State.modPly_l2 (f : Ply → Ply) : (s.modPly f).l2 = s.l2 := rfl
@[simp] theorem State.modPly_lr (f : Ply → Ply) : (s.modPly f).lr = s.lr := rfl

/-! `modTap` touches `pio` alone. -/
@[simp] theorem State.modTap_pending (f : Tap → Tap) : (s.modTap f).pending = s.pending := rfl
@[simp] theorem State.modTap_regs (f : Tap → Tap) : (s.modTap f).regs = s.regs := rfl
@[simp] theorem State.modTap_mem (f : Tap → Tap) : (s.modTap f).mem = s.mem := rfl
@[simp] theorem State.modTap_ans (f : Tap → Tap) : (s.modTap f).ans = s.ans := rfl
@[simp] theorem State.modTap_fresh (f : Tap → Tap) : (s.modTap f).fresh = s.fresh := rfl
@[simp] theorem State.modTap_hold (f : Tap → Tap) : (s.modTap f).hold = s.hold := rfl
@[simp] theorem State.modTap_fab (f : Tap → Tap) : (s.modTap f).fab = s.fab := rfl
@[simp] theorem State.modTap_lve (f : Tap → Tap) : (s.modTap f).lve = s.lve := rfl
@[simp] theorem State.modTap_fuses (f : Tap → Tap) : (s.modTap f).fuses = s.fuses := rfl
@[simp] theorem State.modTap_sec (f : Tap → Tap) : (s.modTap f).sec = s.sec := rfl
@[simp] theorem State.modTap_ocn (f : Tap → Tap) : (s.modTap f).ocn = s.ocn := rfl
@[simp] theorem State.modTap_cal (f : Tap → Tap) : (s.modTap f).cal = s.cal := rfl
@[simp] theorem State.modTap_sq (f : Tap → Tap) : (s.modTap f).sq = s.sq := rfl
@[simp] theorem State.modTap_rsvr (f : Tap → Tap) : (s.modTap f).rsvr = s.rsvr := rfl
@[simp] theorem State.modTap_drc (f : Tap → Tap) : (s.modTap f).drc = s.drc := rfl
@[simp] theorem State.modTap_fcc (f : Tap → Tap) : (s.modTap f).fcc = s.fcc := rfl
@[simp] theorem State.modTap_integ (f : Tap → Tap) : (s.modTap f).integ = s.integ := rfl
@[simp] theorem State.modTap_med (f : Tap → Tap) : (s.modTap f).med = s.med := rfl
@[simp] theorem State.modTap_medc (f : Tap → Tap) : (s.modTap f).medc = s.medc := rfl
@[simp] theorem State.modTap_codec (f : Tap → Tap) : (s.modTap f).codec = s.codec := rfl
@[simp] theorem State.modTap_dma (f : Tap → Tap) : (s.modTap f).dma = s.dma := rfl
@[simp] theorem State.modTap_dmaTurn (f : Tap → Tap) : (s.modTap f).dmaTurn = s.dmaTurn := rfl
@[simp] theorem State.modTap_mgd (f : Tap → Tap) : (s.modTap f).mgd = s.mgd := rfl
@[simp] theorem State.modTap_aon (f : Tap → Tap) : (s.modTap f).aon = s.aon := rfl
@[simp] theorem State.modTap_pmu (f : Tap → Tap) : (s.modTap f).pmu = s.pmu := rfl
@[simp] theorem State.modTap_hif (f : Tap → Tap) : (s.modTap f).hif = s.hif := rfl
@[simp] theorem State.modTap_ply (f : Tap → Tap) : (s.modTap f).ply = s.ply := rfl
@[simp] theorem State.modTap_cores (f : Tap → Tap) : (s.modTap f).cores = s.cores := rfl
@[simp] theorem State.modTap_atu (f : Tap → Tap) : (s.modTap f).atu = s.atu := rfl
@[simp] theorem State.modTap_hts (f : Tap → Tap) : (s.modTap f).hts = s.hts := rfl
@[simp] theorem State.modTap_l2 (f : Tap → Tap) : (s.modTap f).l2 = s.l2 := rfl
@[simp] theorem State.modTap_lr (f : Tap → Tap) : (s.modTap f).lr = s.lr := rfl

/-! `modPmu` touches `pmu` alone. -/
@[simp] theorem State.modPmu_pending (f : Pmu → Pmu) : (s.modPmu f).pending = s.pending := rfl
@[simp] theorem State.modPmu_regs (f : Pmu → Pmu) : (s.modPmu f).regs = s.regs := rfl
@[simp] theorem State.modPmu_mem (f : Pmu → Pmu) : (s.modPmu f).mem = s.mem := rfl
@[simp] theorem State.modPmu_ans (f : Pmu → Pmu) : (s.modPmu f).ans = s.ans := rfl
@[simp] theorem State.modPmu_fresh (f : Pmu → Pmu) : (s.modPmu f).fresh = s.fresh := rfl
@[simp] theorem State.modPmu_hold (f : Pmu → Pmu) : (s.modPmu f).hold = s.hold := rfl
@[simp] theorem State.modPmu_fab (f : Pmu → Pmu) : (s.modPmu f).fab = s.fab := rfl
@[simp] theorem State.modPmu_lve (f : Pmu → Pmu) : (s.modPmu f).lve = s.lve := rfl
@[simp] theorem State.modPmu_fuses (f : Pmu → Pmu) : (s.modPmu f).fuses = s.fuses := rfl
@[simp] theorem State.modPmu_sec (f : Pmu → Pmu) : (s.modPmu f).sec = s.sec := rfl
@[simp] theorem State.modPmu_pio (f : Pmu → Pmu) : (s.modPmu f).pio = s.pio := rfl
@[simp] theorem State.modPmu_ocn (f : Pmu → Pmu) : (s.modPmu f).ocn = s.ocn := rfl
@[simp] theorem State.modPmu_cal (f : Pmu → Pmu) : (s.modPmu f).cal = s.cal := rfl
@[simp] theorem State.modPmu_sq (f : Pmu → Pmu) : (s.modPmu f).sq = s.sq := rfl
@[simp] theorem State.modPmu_rsvr (f : Pmu → Pmu) : (s.modPmu f).rsvr = s.rsvr := rfl
@[simp] theorem State.modPmu_drc (f : Pmu → Pmu) : (s.modPmu f).drc = s.drc := rfl
@[simp] theorem State.modPmu_fcc (f : Pmu → Pmu) : (s.modPmu f).fcc = s.fcc := rfl
@[simp] theorem State.modPmu_integ (f : Pmu → Pmu) : (s.modPmu f).integ = s.integ := rfl
@[simp] theorem State.modPmu_med (f : Pmu → Pmu) : (s.modPmu f).med = s.med := rfl
@[simp] theorem State.modPmu_medc (f : Pmu → Pmu) : (s.modPmu f).medc = s.medc := rfl
@[simp] theorem State.modPmu_codec (f : Pmu → Pmu) : (s.modPmu f).codec = s.codec := rfl
@[simp] theorem State.modPmu_dma (f : Pmu → Pmu) : (s.modPmu f).dma = s.dma := rfl
@[simp] theorem State.modPmu_dmaTurn (f : Pmu → Pmu) : (s.modPmu f).dmaTurn = s.dmaTurn := rfl
@[simp] theorem State.modPmu_mgd (f : Pmu → Pmu) : (s.modPmu f).mgd = s.mgd := rfl
@[simp] theorem State.modPmu_aon (f : Pmu → Pmu) : (s.modPmu f).aon = s.aon := rfl
@[simp] theorem State.modPmu_hif (f : Pmu → Pmu) : (s.modPmu f).hif = s.hif := rfl
@[simp] theorem State.modPmu_ply (f : Pmu → Pmu) : (s.modPmu f).ply = s.ply := rfl
@[simp] theorem State.modPmu_cores (f : Pmu → Pmu) : (s.modPmu f).cores = s.cores := rfl
@[simp] theorem State.modPmu_atu (f : Pmu → Pmu) : (s.modPmu f).atu = s.atu := rfl
@[simp] theorem State.modPmu_hts (f : Pmu → Pmu) : (s.modPmu f).hts = s.hts := rfl
@[simp] theorem State.modPmu_l2 (f : Pmu → Pmu) : (s.modPmu f).l2 = s.l2 := rfl
@[simp] theorem State.modPmu_lr (f : Pmu → Pmu) : (s.modPmu f).lr = s.lr := rfl

/-! `modAon` touches `aon` alone. -/
@[simp] theorem State.modAon_pending (f : Aon → Aon) : (s.modAon f).pending = s.pending := rfl
@[simp] theorem State.modAon_regs (f : Aon → Aon) : (s.modAon f).regs = s.regs := rfl
@[simp] theorem State.modAon_mem (f : Aon → Aon) : (s.modAon f).mem = s.mem := rfl
@[simp] theorem State.modAon_ans (f : Aon → Aon) : (s.modAon f).ans = s.ans := rfl
@[simp] theorem State.modAon_fresh (f : Aon → Aon) : (s.modAon f).fresh = s.fresh := rfl
@[simp] theorem State.modAon_hold (f : Aon → Aon) : (s.modAon f).hold = s.hold := rfl
@[simp] theorem State.modAon_fab (f : Aon → Aon) : (s.modAon f).fab = s.fab := rfl
@[simp] theorem State.modAon_lve (f : Aon → Aon) : (s.modAon f).lve = s.lve := rfl
@[simp] theorem State.modAon_fuses (f : Aon → Aon) : (s.modAon f).fuses = s.fuses := rfl
@[simp] theorem State.modAon_sec (f : Aon → Aon) : (s.modAon f).sec = s.sec := rfl
@[simp] theorem State.modAon_pio (f : Aon → Aon) : (s.modAon f).pio = s.pio := rfl
@[simp] theorem State.modAon_ocn (f : Aon → Aon) : (s.modAon f).ocn = s.ocn := rfl
@[simp] theorem State.modAon_cal (f : Aon → Aon) : (s.modAon f).cal = s.cal := rfl
@[simp] theorem State.modAon_sq (f : Aon → Aon) : (s.modAon f).sq = s.sq := rfl
@[simp] theorem State.modAon_rsvr (f : Aon → Aon) : (s.modAon f).rsvr = s.rsvr := rfl
@[simp] theorem State.modAon_drc (f : Aon → Aon) : (s.modAon f).drc = s.drc := rfl
@[simp] theorem State.modAon_fcc (f : Aon → Aon) : (s.modAon f).fcc = s.fcc := rfl
@[simp] theorem State.modAon_integ (f : Aon → Aon) : (s.modAon f).integ = s.integ := rfl
@[simp] theorem State.modAon_med (f : Aon → Aon) : (s.modAon f).med = s.med := rfl
@[simp] theorem State.modAon_medc (f : Aon → Aon) : (s.modAon f).medc = s.medc := rfl
@[simp] theorem State.modAon_codec (f : Aon → Aon) : (s.modAon f).codec = s.codec := rfl
@[simp] theorem State.modAon_dma (f : Aon → Aon) : (s.modAon f).dma = s.dma := rfl
@[simp] theorem State.modAon_dmaTurn (f : Aon → Aon) : (s.modAon f).dmaTurn = s.dmaTurn := rfl
@[simp] theorem State.modAon_mgd (f : Aon → Aon) : (s.modAon f).mgd = s.mgd := rfl
@[simp] theorem State.modAon_pmu (f : Aon → Aon) : (s.modAon f).pmu = s.pmu := rfl
@[simp] theorem State.modAon_hif (f : Aon → Aon) : (s.modAon f).hif = s.hif := rfl
@[simp] theorem State.modAon_ply (f : Aon → Aon) : (s.modAon f).ply = s.ply := rfl
@[simp] theorem State.modAon_cores (f : Aon → Aon) : (s.modAon f).cores = s.cores := rfl
@[simp] theorem State.modAon_atu (f : Aon → Aon) : (s.modAon f).atu = s.atu := rfl
@[simp] theorem State.modAon_hts (f : Aon → Aon) : (s.modAon f).hts = s.hts := rfl
@[simp] theorem State.modAon_l2 (f : Aon → Aon) : (s.modAon f).l2 = s.l2 := rfl
@[simp] theorem State.modAon_lr (f : Aon → Aon) : (s.modAon f).lr = s.lr := rfl

/-! `modSec` touches `sec` alone. -/
@[simp] theorem State.modSec_pending (f : Sec → Sec) : (s.modSec f).pending = s.pending := rfl
@[simp] theorem State.modSec_regs (f : Sec → Sec) : (s.modSec f).regs = s.regs := rfl
@[simp] theorem State.modSec_mem (f : Sec → Sec) : (s.modSec f).mem = s.mem := rfl
@[simp] theorem State.modSec_ans (f : Sec → Sec) : (s.modSec f).ans = s.ans := rfl
@[simp] theorem State.modSec_fresh (f : Sec → Sec) : (s.modSec f).fresh = s.fresh := rfl
@[simp] theorem State.modSec_hold (f : Sec → Sec) : (s.modSec f).hold = s.hold := rfl
@[simp] theorem State.modSec_fab (f : Sec → Sec) : (s.modSec f).fab = s.fab := rfl
@[simp] theorem State.modSec_lve (f : Sec → Sec) : (s.modSec f).lve = s.lve := rfl
@[simp] theorem State.modSec_fuses (f : Sec → Sec) : (s.modSec f).fuses = s.fuses := rfl
@[simp] theorem State.modSec_pio (f : Sec → Sec) : (s.modSec f).pio = s.pio := rfl
@[simp] theorem State.modSec_ocn (f : Sec → Sec) : (s.modSec f).ocn = s.ocn := rfl
@[simp] theorem State.modSec_cal (f : Sec → Sec) : (s.modSec f).cal = s.cal := rfl
@[simp] theorem State.modSec_sq (f : Sec → Sec) : (s.modSec f).sq = s.sq := rfl
@[simp] theorem State.modSec_rsvr (f : Sec → Sec) : (s.modSec f).rsvr = s.rsvr := rfl
@[simp] theorem State.modSec_drc (f : Sec → Sec) : (s.modSec f).drc = s.drc := rfl
@[simp] theorem State.modSec_fcc (f : Sec → Sec) : (s.modSec f).fcc = s.fcc := rfl
@[simp] theorem State.modSec_integ (f : Sec → Sec) : (s.modSec f).integ = s.integ := rfl
@[simp] theorem State.modSec_med (f : Sec → Sec) : (s.modSec f).med = s.med := rfl
@[simp] theorem State.modSec_medc (f : Sec → Sec) : (s.modSec f).medc = s.medc := rfl
@[simp] theorem State.modSec_codec (f : Sec → Sec) : (s.modSec f).codec = s.codec := rfl
@[simp] theorem State.modSec_dma (f : Sec → Sec) : (s.modSec f).dma = s.dma := rfl
@[simp] theorem State.modSec_dmaTurn (f : Sec → Sec) : (s.modSec f).dmaTurn = s.dmaTurn := rfl
@[simp] theorem State.modSec_mgd (f : Sec → Sec) : (s.modSec f).mgd = s.mgd := rfl
@[simp] theorem State.modSec_aon (f : Sec → Sec) : (s.modSec f).aon = s.aon := rfl
@[simp] theorem State.modSec_pmu (f : Sec → Sec) : (s.modSec f).pmu = s.pmu := rfl
@[simp] theorem State.modSec_hif (f : Sec → Sec) : (s.modSec f).hif = s.hif := rfl
@[simp] theorem State.modSec_ply (f : Sec → Sec) : (s.modSec f).ply = s.ply := rfl
@[simp] theorem State.modSec_cores (f : Sec → Sec) : (s.modSec f).cores = s.cores := rfl
@[simp] theorem State.modSec_atu (f : Sec → Sec) : (s.modSec f).atu = s.atu := rfl
@[simp] theorem State.modSec_hts (f : Sec → Sec) : (s.modSec f).hts = s.hts := rfl
@[simp] theorem State.modSec_l2 (f : Sec → Sec) : (s.modSec f).l2 = s.l2 := rfl
@[simp] theorem State.modSec_lr (f : Sec → Sec) : (s.modSec f).lr = s.lr := rfl

/-! `modLve` touches `lve` alone. -/
@[simp] theorem State.modLve_pending (f : Lve → Lve) : (s.modLve f).pending = s.pending := rfl
@[simp] theorem State.modLve_regs (f : Lve → Lve) : (s.modLve f).regs = s.regs := rfl
@[simp] theorem State.modLve_mem (f : Lve → Lve) : (s.modLve f).mem = s.mem := rfl
@[simp] theorem State.modLve_ans (f : Lve → Lve) : (s.modLve f).ans = s.ans := rfl
@[simp] theorem State.modLve_fresh (f : Lve → Lve) : (s.modLve f).fresh = s.fresh := rfl
@[simp] theorem State.modLve_hold (f : Lve → Lve) : (s.modLve f).hold = s.hold := rfl
@[simp] theorem State.modLve_fab (f : Lve → Lve) : (s.modLve f).fab = s.fab := rfl
@[simp] theorem State.modLve_fuses (f : Lve → Lve) : (s.modLve f).fuses = s.fuses := rfl
@[simp] theorem State.modLve_sec (f : Lve → Lve) : (s.modLve f).sec = s.sec := rfl
@[simp] theorem State.modLve_pio (f : Lve → Lve) : (s.modLve f).pio = s.pio := rfl
@[simp] theorem State.modLve_ocn (f : Lve → Lve) : (s.modLve f).ocn = s.ocn := rfl
@[simp] theorem State.modLve_cal (f : Lve → Lve) : (s.modLve f).cal = s.cal := rfl
@[simp] theorem State.modLve_sq (f : Lve → Lve) : (s.modLve f).sq = s.sq := rfl
@[simp] theorem State.modLve_rsvr (f : Lve → Lve) : (s.modLve f).rsvr = s.rsvr := rfl
@[simp] theorem State.modLve_drc (f : Lve → Lve) : (s.modLve f).drc = s.drc := rfl
@[simp] theorem State.modLve_fcc (f : Lve → Lve) : (s.modLve f).fcc = s.fcc := rfl
@[simp] theorem State.modLve_integ (f : Lve → Lve) : (s.modLve f).integ = s.integ := rfl
@[simp] theorem State.modLve_med (f : Lve → Lve) : (s.modLve f).med = s.med := rfl
@[simp] theorem State.modLve_medc (f : Lve → Lve) : (s.modLve f).medc = s.medc := rfl
@[simp] theorem State.modLve_codec (f : Lve → Lve) : (s.modLve f).codec = s.codec := rfl
@[simp] theorem State.modLve_dma (f : Lve → Lve) : (s.modLve f).dma = s.dma := rfl
@[simp] theorem State.modLve_dmaTurn (f : Lve → Lve) : (s.modLve f).dmaTurn = s.dmaTurn := rfl
@[simp] theorem State.modLve_mgd (f : Lve → Lve) : (s.modLve f).mgd = s.mgd := rfl
@[simp] theorem State.modLve_aon (f : Lve → Lve) : (s.modLve f).aon = s.aon := rfl
@[simp] theorem State.modLve_pmu (f : Lve → Lve) : (s.modLve f).pmu = s.pmu := rfl
@[simp] theorem State.modLve_hif (f : Lve → Lve) : (s.modLve f).hif = s.hif := rfl
@[simp] theorem State.modLve_ply (f : Lve → Lve) : (s.modLve f).ply = s.ply := rfl
@[simp] theorem State.modLve_cores (f : Lve → Lve) : (s.modLve f).cores = s.cores := rfl
@[simp] theorem State.modLve_atu (f : Lve → Lve) : (s.modLve f).atu = s.atu := rfl
@[simp] theorem State.modLve_hts (f : Lve → Lve) : (s.modLve f).hts = s.hts := rfl
@[simp] theorem State.modLve_l2 (f : Lve → Lve) : (s.modLve f).l2 = s.l2 := rfl
@[simp] theorem State.modLve_lr (f : Lve → Lve) : (s.modLve f).lr = s.lr := rfl

/-! `modCod` touches `codec` alone. -/
@[simp] theorem State.modCod_pending (r : Nat) (f : Codec → Codec) : (s.modCod r f).pending = s.pending := rfl
@[simp] theorem State.modCod_regs (r : Nat) (f : Codec → Codec) : (s.modCod r f).regs = s.regs := rfl
@[simp] theorem State.modCod_mem (r : Nat) (f : Codec → Codec) : (s.modCod r f).mem = s.mem := rfl
@[simp] theorem State.modCod_ans (r : Nat) (f : Codec → Codec) : (s.modCod r f).ans = s.ans := rfl
@[simp] theorem State.modCod_fresh (r : Nat) (f : Codec → Codec) : (s.modCod r f).fresh = s.fresh := rfl
@[simp] theorem State.modCod_hold (r : Nat) (f : Codec → Codec) : (s.modCod r f).hold = s.hold := rfl
@[simp] theorem State.modCod_fab (r : Nat) (f : Codec → Codec) : (s.modCod r f).fab = s.fab := rfl
@[simp] theorem State.modCod_lve (r : Nat) (f : Codec → Codec) : (s.modCod r f).lve = s.lve := rfl
@[simp] theorem State.modCod_fuses (r : Nat) (f : Codec → Codec) : (s.modCod r f).fuses = s.fuses := rfl
@[simp] theorem State.modCod_sec (r : Nat) (f : Codec → Codec) : (s.modCod r f).sec = s.sec := rfl
@[simp] theorem State.modCod_pio (r : Nat) (f : Codec → Codec) : (s.modCod r f).pio = s.pio := rfl
@[simp] theorem State.modCod_ocn (r : Nat) (f : Codec → Codec) : (s.modCod r f).ocn = s.ocn := rfl
@[simp] theorem State.modCod_cal (r : Nat) (f : Codec → Codec) : (s.modCod r f).cal = s.cal := rfl
@[simp] theorem State.modCod_sq (r : Nat) (f : Codec → Codec) : (s.modCod r f).sq = s.sq := rfl
@[simp] theorem State.modCod_rsvr (r : Nat) (f : Codec → Codec) : (s.modCod r f).rsvr = s.rsvr := rfl
@[simp] theorem State.modCod_drc (r : Nat) (f : Codec → Codec) : (s.modCod r f).drc = s.drc := rfl
@[simp] theorem State.modCod_fcc (r : Nat) (f : Codec → Codec) : (s.modCod r f).fcc = s.fcc := rfl
@[simp] theorem State.modCod_integ (r : Nat) (f : Codec → Codec) : (s.modCod r f).integ = s.integ := rfl
@[simp] theorem State.modCod_med (r : Nat) (f : Codec → Codec) : (s.modCod r f).med = s.med := rfl
@[simp] theorem State.modCod_medc (r : Nat) (f : Codec → Codec) : (s.modCod r f).medc = s.medc := rfl
@[simp] theorem State.modCod_dma (r : Nat) (f : Codec → Codec) : (s.modCod r f).dma = s.dma := rfl
@[simp] theorem State.modCod_dmaTurn (r : Nat) (f : Codec → Codec) : (s.modCod r f).dmaTurn = s.dmaTurn := rfl
@[simp] theorem State.modCod_mgd (r : Nat) (f : Codec → Codec) : (s.modCod r f).mgd = s.mgd := rfl
@[simp] theorem State.modCod_aon (r : Nat) (f : Codec → Codec) : (s.modCod r f).aon = s.aon := rfl
@[simp] theorem State.modCod_pmu (r : Nat) (f : Codec → Codec) : (s.modCod r f).pmu = s.pmu := rfl
@[simp] theorem State.modCod_hif (r : Nat) (f : Codec → Codec) : (s.modCod r f).hif = s.hif := rfl
@[simp] theorem State.modCod_ply (r : Nat) (f : Codec → Codec) : (s.modCod r f).ply = s.ply := rfl
@[simp] theorem State.modCod_cores (r : Nat) (f : Codec → Codec) : (s.modCod r f).cores = s.cores := rfl
@[simp] theorem State.modCod_atu (r : Nat) (f : Codec → Codec) : (s.modCod r f).atu = s.atu := rfl
@[simp] theorem State.modCod_hts (r : Nat) (f : Codec → Codec) : (s.modCod r f).hts = s.hts := rfl
@[simp] theorem State.modCod_l2 (r : Nat) (f : Codec → Codec) : (s.modCod r f).l2 = s.l2 := rfl
@[simp] theorem State.modCod_lr (r : Nat) (f : Codec → Codec) : (s.modCod r f).lr = s.lr := rfl

/-! `raise` touches `regs` and `hts` alone. -/
@[simp] theorem State.raise_pending (pg i : Nat) : (s.raise pg i).pending = s.pending := by
  unfold State.raise; dsimp only; split <;> rfl
@[simp] theorem State.raise_mem (pg i : Nat) : (s.raise pg i).mem = s.mem := by
  unfold State.raise; dsimp only; split <;> rfl
@[simp] theorem State.raise_ans (pg i : Nat) : (s.raise pg i).ans = s.ans := by
  unfold State.raise; dsimp only; split <;> rfl
@[simp] theorem State.raise_fresh (pg i : Nat) : (s.raise pg i).fresh = s.fresh := by
  unfold State.raise; dsimp only; split <;> rfl
@[simp] theorem State.raise_hold (pg i : Nat) : (s.raise pg i).hold = s.hold := by
  unfold State.raise; dsimp only; split <;> rfl
@[simp] theorem State.raise_fab (pg i : Nat) : (s.raise pg i).fab = s.fab := by
  unfold State.raise; dsimp only; split <;> rfl
@[simp] theorem State.raise_lve (pg i : Nat) : (s.raise pg i).lve = s.lve := by
  unfold State.raise; dsimp only; split <;> rfl
@[simp] theorem State.raise_fuses (pg i : Nat) : (s.raise pg i).fuses = s.fuses := by
  unfold State.raise; dsimp only; split <;> rfl
@[simp] theorem State.raise_sec (pg i : Nat) : (s.raise pg i).sec = s.sec := by
  unfold State.raise; dsimp only; split <;> rfl
@[simp] theorem State.raise_pio (pg i : Nat) : (s.raise pg i).pio = s.pio := by
  unfold State.raise; dsimp only; split <;> rfl
@[simp] theorem State.raise_ocn (pg i : Nat) : (s.raise pg i).ocn = s.ocn := by
  unfold State.raise; dsimp only; split <;> rfl
@[simp] theorem State.raise_cal (pg i : Nat) : (s.raise pg i).cal = s.cal := by
  unfold State.raise; dsimp only; split <;> rfl
@[simp] theorem State.raise_sq (pg i : Nat) : (s.raise pg i).sq = s.sq := by
  unfold State.raise; dsimp only; split <;> rfl
@[simp] theorem State.raise_rsvr (pg i : Nat) : (s.raise pg i).rsvr = s.rsvr := by
  unfold State.raise; dsimp only; split <;> rfl
@[simp] theorem State.raise_drc (pg i : Nat) : (s.raise pg i).drc = s.drc := by
  unfold State.raise; dsimp only; split <;> rfl
@[simp] theorem State.raise_fcc (pg i : Nat) : (s.raise pg i).fcc = s.fcc := by
  unfold State.raise; dsimp only; split <;> rfl
@[simp] theorem State.raise_integ (pg i : Nat) : (s.raise pg i).integ = s.integ := by
  unfold State.raise; dsimp only; split <;> rfl
@[simp] theorem State.raise_med (pg i : Nat) : (s.raise pg i).med = s.med := by
  unfold State.raise; dsimp only; split <;> rfl
@[simp] theorem State.raise_medc (pg i : Nat) : (s.raise pg i).medc = s.medc := by
  unfold State.raise; dsimp only; split <;> rfl
@[simp] theorem State.raise_codec (pg i : Nat) : (s.raise pg i).codec = s.codec := by
  unfold State.raise; dsimp only; split <;> rfl
@[simp] theorem State.raise_dma (pg i : Nat) : (s.raise pg i).dma = s.dma := by
  unfold State.raise; dsimp only; split <;> rfl
@[simp] theorem State.raise_dmaTurn (pg i : Nat) : (s.raise pg i).dmaTurn = s.dmaTurn := by
  unfold State.raise; dsimp only; split <;> rfl
@[simp] theorem State.raise_mgd (pg i : Nat) : (s.raise pg i).mgd = s.mgd := by
  unfold State.raise; dsimp only; split <;> rfl
@[simp] theorem State.raise_aon (pg i : Nat) : (s.raise pg i).aon = s.aon := by
  unfold State.raise; dsimp only; split <;> rfl
@[simp] theorem State.raise_pmu (pg i : Nat) : (s.raise pg i).pmu = s.pmu := by
  unfold State.raise; dsimp only; split <;> rfl
@[simp] theorem State.raise_hif (pg i : Nat) : (s.raise pg i).hif = s.hif := by
  unfold State.raise; dsimp only; split <;> rfl
@[simp] theorem State.raise_ply (pg i : Nat) : (s.raise pg i).ply = s.ply := by
  unfold State.raise; dsimp only; split <;> rfl
@[simp] theorem State.raise_cores (pg i : Nat) : (s.raise pg i).cores = s.cores := by
  unfold State.raise; dsimp only; split <;> rfl
@[simp] theorem State.raise_atu (pg i : Nat) : (s.raise pg i).atu = s.atu := by
  unfold State.raise; dsimp only; split <;> rfl
@[simp] theorem State.raise_l2 (pg i : Nat) : (s.raise pg i).l2 = s.l2 := by
  unfold State.raise; dsimp only; split <;> rfl
@[simp] theorem State.raise_lr (pg i : Nat) : (s.raise pg i).lr = s.lr := by
  unfold State.raise; dsimp only; split <;> rfl

/-! `violate` touches `regs` and `hts` alone. -/
@[simp] theorem State.violate_pending (pg flag : Nat) (ini : Ini) (off : Nat) (wr : Bool) : (s.violate pg flag ini off wr).pending = s.pending := by
  unfold State.violate; simp
@[simp] theorem State.violate_mem (pg flag : Nat) (ini : Ini) (off : Nat) (wr : Bool) : (s.violate pg flag ini off wr).mem = s.mem := by
  unfold State.violate; simp
@[simp] theorem State.violate_ans (pg flag : Nat) (ini : Ini) (off : Nat) (wr : Bool) : (s.violate pg flag ini off wr).ans = s.ans := by
  unfold State.violate; simp
@[simp] theorem State.violate_fresh (pg flag : Nat) (ini : Ini) (off : Nat) (wr : Bool) : (s.violate pg flag ini off wr).fresh = s.fresh := by
  unfold State.violate; simp
@[simp] theorem State.violate_hold (pg flag : Nat) (ini : Ini) (off : Nat) (wr : Bool) : (s.violate pg flag ini off wr).hold = s.hold := by
  unfold State.violate; simp
@[simp] theorem State.violate_fab (pg flag : Nat) (ini : Ini) (off : Nat) (wr : Bool) : (s.violate pg flag ini off wr).fab = s.fab := by
  unfold State.violate; simp
@[simp] theorem State.violate_lve (pg flag : Nat) (ini : Ini) (off : Nat) (wr : Bool) : (s.violate pg flag ini off wr).lve = s.lve := by
  unfold State.violate; simp
@[simp] theorem State.violate_fuses (pg flag : Nat) (ini : Ini) (off : Nat) (wr : Bool) : (s.violate pg flag ini off wr).fuses = s.fuses := by
  unfold State.violate; simp
@[simp] theorem State.violate_sec (pg flag : Nat) (ini : Ini) (off : Nat) (wr : Bool) : (s.violate pg flag ini off wr).sec = s.sec := by
  unfold State.violate; simp
@[simp] theorem State.violate_pio (pg flag : Nat) (ini : Ini) (off : Nat) (wr : Bool) : (s.violate pg flag ini off wr).pio = s.pio := by
  unfold State.violate; simp
@[simp] theorem State.violate_ocn (pg flag : Nat) (ini : Ini) (off : Nat) (wr : Bool) : (s.violate pg flag ini off wr).ocn = s.ocn := by
  unfold State.violate; simp
@[simp] theorem State.violate_cal (pg flag : Nat) (ini : Ini) (off : Nat) (wr : Bool) : (s.violate pg flag ini off wr).cal = s.cal := by
  unfold State.violate; simp
@[simp] theorem State.violate_sq (pg flag : Nat) (ini : Ini) (off : Nat) (wr : Bool) : (s.violate pg flag ini off wr).sq = s.sq := by
  unfold State.violate; simp
@[simp] theorem State.violate_rsvr (pg flag : Nat) (ini : Ini) (off : Nat) (wr : Bool) : (s.violate pg flag ini off wr).rsvr = s.rsvr := by
  unfold State.violate; simp
@[simp] theorem State.violate_drc (pg flag : Nat) (ini : Ini) (off : Nat) (wr : Bool) : (s.violate pg flag ini off wr).drc = s.drc := by
  unfold State.violate; simp
@[simp] theorem State.violate_fcc (pg flag : Nat) (ini : Ini) (off : Nat) (wr : Bool) : (s.violate pg flag ini off wr).fcc = s.fcc := by
  unfold State.violate; simp
@[simp] theorem State.violate_integ (pg flag : Nat) (ini : Ini) (off : Nat) (wr : Bool) : (s.violate pg flag ini off wr).integ = s.integ := by
  unfold State.violate; simp
@[simp] theorem State.violate_med (pg flag : Nat) (ini : Ini) (off : Nat) (wr : Bool) : (s.violate pg flag ini off wr).med = s.med := by
  unfold State.violate; simp
@[simp] theorem State.violate_medc (pg flag : Nat) (ini : Ini) (off : Nat) (wr : Bool) : (s.violate pg flag ini off wr).medc = s.medc := by
  unfold State.violate; simp
@[simp] theorem State.violate_codec (pg flag : Nat) (ini : Ini) (off : Nat) (wr : Bool) : (s.violate pg flag ini off wr).codec = s.codec := by
  unfold State.violate; simp
@[simp] theorem State.violate_dma (pg flag : Nat) (ini : Ini) (off : Nat) (wr : Bool) : (s.violate pg flag ini off wr).dma = s.dma := by
  unfold State.violate; simp
@[simp] theorem State.violate_dmaTurn (pg flag : Nat) (ini : Ini) (off : Nat) (wr : Bool) : (s.violate pg flag ini off wr).dmaTurn = s.dmaTurn := by
  unfold State.violate; simp
@[simp] theorem State.violate_mgd (pg flag : Nat) (ini : Ini) (off : Nat) (wr : Bool) : (s.violate pg flag ini off wr).mgd = s.mgd := by
  unfold State.violate; simp
@[simp] theorem State.violate_aon (pg flag : Nat) (ini : Ini) (off : Nat) (wr : Bool) : (s.violate pg flag ini off wr).aon = s.aon := by
  unfold State.violate; simp
@[simp] theorem State.violate_pmu (pg flag : Nat) (ini : Ini) (off : Nat) (wr : Bool) : (s.violate pg flag ini off wr).pmu = s.pmu := by
  unfold State.violate; simp
@[simp] theorem State.violate_hif (pg flag : Nat) (ini : Ini) (off : Nat) (wr : Bool) : (s.violate pg flag ini off wr).hif = s.hif := by
  unfold State.violate; simp
@[simp] theorem State.violate_ply (pg flag : Nat) (ini : Ini) (off : Nat) (wr : Bool) : (s.violate pg flag ini off wr).ply = s.ply := by
  unfold State.violate; simp
@[simp] theorem State.violate_cores (pg flag : Nat) (ini : Ini) (off : Nat) (wr : Bool) : (s.violate pg flag ini off wr).cores = s.cores := by
  unfold State.violate; simp
@[simp] theorem State.violate_atu (pg flag : Nat) (ini : Ini) (off : Nat) (wr : Bool) : (s.violate pg flag ini off wr).atu = s.atu := by
  unfold State.violate; simp
@[simp] theorem State.violate_l2 (pg flag : Nat) (ini : Ini) (off : Nat) (wr : Bool) : (s.violate pg flag ini off wr).l2 = s.l2 := by
  unfold State.violate; simp
@[simp] theorem State.violate_lr (pg flag : Nat) (ini : Ini) (off : Nat) (wr : Bool) : (s.violate pg flag ini off wr).lr = s.lr := by
  unfold State.violate; simp

end Sys2Proof.Machine
end

