-- ==== Sys2Proof/Laws/Table.lean ====
section
/-!
SUPPORT. The laws of sparse tables: what is read after a write, and that every operation keeps the canonical form.
-/
namespace Sys2Proof.Machine

variable {α : Type}

/-! ### Read after write -/

theorem tget_tput_self (d : α) (t : Tbl α) (k : Nat) (v : α) : tget d (tput t k v) k = v := by
  induction t with
  | nil => simp [tput, tget]
  | cons e t ih =>
    obtain ⟨j, a⟩ := e
    by_cases h : j = k
    · simp [tput, tget, h]
    · by_cases h2 : k < j
      · simp [tput, tget, h, h2]
      · simp [tput, tget, h, h2, ih]

theorem tget_tput_ne (d : α) (t : Tbl α) {k j : Nat} (v : α) (h : j ≠ k) : tget d (tput t k v) j = tget d t j := by
  induction t with
  | nil => simp [tput, tget, Ne.symm h]
  | cons e t ih =>
    obtain ⟨i, a⟩ := e
    by_cases h1 : i = k
    · simp [tput, tget, h1, Ne.symm h]
    · by_cases h2 : k < i
      · simp [tput, tget, h1, h2, Ne.symm h]
      · simp [tput, tget, h1, h2, ih]

theorem tget_tdel_self (d : α) (t : Tbl α) (k : Nat) : tget d (tdel t k) k = d := by
  induction t with
  | nil => rfl
  | cons e t ih =>
    obtain ⟨i, a⟩ := e
    by_cases h : i = k
    · simpa [tdel, h] using ih
    · simpa [tdel, h, tget] using ih

theorem tget_tdel_ne (d : α) (t : Tbl α) {k j : Nat} (h : j ≠ k) : tget d (tdel t k) j = tget d t j := by
  induction t with
  | nil => rfl
  | cons e t ih =>
    obtain ⟨i, a⟩ := e
    by_cases h1 : i = k
    · subst h1
      simpa [tdel, tget, Ne.symm h] using ih
    · by_cases h2 : i = j
      · simp [tdel, tget, h1, h2, h]
      · simpa [tdel, tget, h1, h2] using ih

/-- A read of the key written gives the value written. -/
@[simp] theorem tget_tset_self [DecidableEq α] (d : α) (t : Tbl α) (k : Nat) (v : α) : tget d (tset d t k v) k = v := by
  by_cases h : v = d
  · simp [tset, h, tget_tdel_self]
  · simp [tset, h, tget_tput_self]

/-- A write leaves every other key alone. -/
theorem tget_tset_ne [DecidableEq α] (d : α) (t : Tbl α) {k j : Nat} (v : α) (h : j ≠ k) :
    tget d (tset d t k v) j = tget d t j := by
  by_cases h1 : v = d
  · simp [tset, h1, tget_tdel_ne d t h]
  · simp [tset, h1, tget_tput_ne d t v h]

/-- The same where the default of the key read differs from that of the key written. -/
theorem tget_any_ne [DecidableEq α] (d e : α) (t : Tbl α) {k j : Nat} (v : α) (h : j ≠ k) :
    tget d (tset e t k v) j = tget d t j := by
  by_cases h1 : v = e
  · simp [tset, h1, tget_tdel_ne d t h]
  · simp [tset, h1, tget_tput_ne d t v h]

/-- Reading after a write, in one equation. -/
theorem tget_tset [DecidableEq α] (d : α) (t : Tbl α) (k j : Nat) (v : α) :
    tget d (tset d t k v) j = if j = k then v else tget d t j := by
  by_cases h : j = k
  · simp [h]
  · simp [h, tget_tset_ne d t v h]

@[simp] theorem tget_nil (d : α) (k : Nat) : tget d ([] : Tbl α) k = d := rfl

/-- What a table keeps reads as before; the rest returns to the default. -/
theorem tget_tkeep (d : α) (t : Tbl α) (p : Nat → Bool) (k : Nat) : tget d (tkeep p t) k = if p k then tget d t k else d := by
  induction t with
  | nil => simp [tkeep, tget]
  | cons e t ih =>
    obtain ⟨i, a⟩ := e
    by_cases hp : p i
    · by_cases h : i = k
      · subst h; simp [tkeep, hp, tget]
      · simpa [tkeep, hp, tget, h] using ih
    · by_cases h : i = k
      · subst h; simpa [tkeep, hp, tget] using ih
      · simpa [tkeep, hp, tget, h] using ih

/-! ### The canonical form -/

/-- Every key of a table is above `k`. -/
def above (k : Nat) (t : Tbl α) : Prop := ∀ e ∈ t, k < e.1

/-- The canonical form, entry by entry: each key below those that follow, no value equal to its default. -/
theorem twf_cons [DecidableEq α] (d : Nat → α) (k : Nat) (v : α) (t : Tbl α) :
    twf d ((k, v) :: t) = true ↔ v ≠ d k ∧ above k t ∧ twf d t = true := by
  induction t generalizing k v with
  | nil => simp [twf, above]
  | cons e t ih =>
    obtain ⟨j, w⟩ := e
    have h2 := ih j w
    constructor
    · intro h
      simp only [twf, Bool.and_eq_true, decide_eq_true_eq] at h
      obtain ⟨⟨h1, h3⟩, h4⟩ := h
      refine ⟨h1, ?_, h4⟩
      obtain ⟨_, h6, _⟩ := h2.mp h4
      intro e he
      rcases List.mem_cons.mp he with rfl | he
      · exact h3
      · exact lt_trans h3 (h6 e he)
    · rintro ⟨h1, h3, h4⟩
      simp only [twf, Bool.and_eq_true, decide_eq_true_eq]
      exact ⟨⟨h1, h3 (j, w) (by simp)⟩, h4⟩

theorem twf_filter [DecidableEq α] (d : Nat → α) (p : Nat × α → Bool) (t : Tbl α) (h : twf d t = true) : twf d (t.filter p) = true := by
  induction t with
  | nil => rfl
  | cons e t ih =>
    obtain ⟨k, v⟩ := e
    obtain ⟨h1, h2, h3⟩ := (twf_cons d k v t).mp h
    by_cases hp : p (k, v)
    · rw [List.filter_cons_of_pos hp]
      exact (twf_cons d k v _).mpr ⟨h1, fun e he => h2 e (List.mem_of_mem_filter he), ih h3⟩
    · rw [List.filter_cons_of_neg hp]
      exact ih h3

theorem mem_tput (t : Tbl α) (k : Nat) (v : α) (e : Nat × α) (h : e ∈ tput t k v) : e = (k, v) ∨ e ∈ t := by
  induction t with
  | nil => simpa [tput] using h
  | cons x t ih =>
    obtain ⟨j, a⟩ := x
    by_cases h1 : j = k
    · simp only [tput, h1, if_true, List.mem_cons] at h ⊢
      tauto
    · by_cases h2 : k < j
      · simp only [tput, h1, h2, if_true, if_false, List.mem_cons] at h ⊢
        tauto
      · simp only [tput, h1, h2, if_false, List.mem_cons] at h ⊢
        rcases h with h | h
        · tauto
        · rcases ih h with h | h <;> tauto

theorem twf_tput [DecidableEq α] (d : Nat → α) (t : Tbl α) (k : Nat) (v : α) (hv : v ≠ d k) (h : twf d t = true) :
    twf d (tput t k v) = true := by
  induction t with
  | nil => simpa [tput, twf] using hv
  | cons x t ih =>
    obtain ⟨j, a⟩ := x
    obtain ⟨h1, h2, h3⟩ := (twf_cons d j a t).mp h
    by_cases e1 : j = k
    · subst e1
      simp only [tput, if_true]
      exact (twf_cons d j v t).mpr ⟨hv, h2, h3⟩
    · by_cases e2 : k < j
      · simp only [tput, e1, e2, if_true, if_false]
        refine (twf_cons d k v _).mpr ⟨hv, ?_, h⟩
        intro e he
        rcases List.mem_cons.mp he with rfl | he
        · exact e2
        · exact lt_trans e2 (h2 e he)
      · simp only [tput, e1, e2, if_false]
        refine (twf_cons d j a _).mpr ⟨h1, ?_, ih h3⟩
        intro e he
        rcases mem_tput t k v e he with rfl | he
        · simp only; omega
        · exact h2 e he

/-- A write keeps the canonical form. -/
theorem twf_tset [DecidableEq α] (d : α) (t : Tbl α) (k : Nat) (v : α) (h : twf (fun _ => d) t = true) :
    twf (fun _ => d) (tset d t k v) = true := by
  by_cases hv : v = d
  · simpa [tset, hv, tdel] using twf_filter _ _ t h
  · simpa [tset, hv] using twf_tput _ t k v hv h

/-- So does clearing a range of keys. -/
theorem twf_tkeep [DecidableEq α] (d : Nat → α) (p : Nat → Bool) (t : Tbl α) (h : twf d t = true) : twf d (tkeep p t) = true :=
  twf_filter d _ t h

end Sys2Proof.Machine
end

