-- ==== Sys2Proof/Laws/Ops.lean ====
section
/-!
SUPPORT. What the shared operations do: the gate of a command, register words and their writes, events, and memory, with
the canonical form that every memory operation keeps.
-/
namespace Sys2Proof.Machine

/-! ### The gate -/

/-- With room for its events and the rails up a command takes place. -/
theorem State.gate_fits {s t : State} (h : Fits s t) : s.gate t = t := by
  simp [State.gate, h.1, h.2.1, h.2.2]

/-- With the rails down a block's command changes nothing. -/
theorem State.gate_unpowered {s : State} (t : State) (h : s.powered = false) : s.gate t = s := by
  simp [State.gate, h]

/-- A command that has to wait for an access changes the exchanges of the host-line filter alone, and their count. -/
theorem State.await_eq (s : State) (h : Hold) :
    s.await h = { s with regs := (s.await h).regs, drc := (s.await h).drc, hif := (s.await h).hif } := by
  unfold State.await State.biSend
  (repeat' split) <;> rfl

/-- A command's outcome is its effect, with nothing left to wait for, the state as it was, or that with the wait of an access begun. -/
theorem State.gate_cases (s t : State) : (s.gate t = t ∧ t.hold = none) ∨ s.gate t = s ∨ ∃ h, s.gate t = s.await h := by
  unfold State.gate
  split
  · split
    · split <;> simp_all
    · exact Or.inr (Or.inr ⟨_, rfl⟩)
  · exact Or.inr (Or.inl rfl)

theorem State.gate_portsOk {s : State} (t : State) (h : s.portsOk = true) : (s.gate t).portsOk = true := by
  unfold State.gate
  split
  · split
    · split <;> assumption
    · rw [State.await_eq]; exact h
  · exact h

theorem State.gateAon_portsOk {s : State} (t : State) (h : s.portsOk = true) : (s.gateAon t).portsOk = true := by
  unfold State.gateAon; split
  · assumption
  · exact h

theorem State.gateAon_fits (s : State) {t : State} (h : t.portsOk = true) : s.gateAon t = t := by
  simp [State.gateAon, h]

/-- How a command is shown to complete: its meaning is the gate of an operation, and the operation leads to `t`. -/
theorem Takes.of_op {c : Instr} {s t u : State} (h : exec c s = .next (s.gate u)) (e : u = t) : Takes c s t := by
  intro hf
  rw [h, e, State.gate_fits hf]

theorem TakesAon.of_op {c : Instr} {s t u : State} (h : exec c s = .next (s.gateAon u)) (e : u = t) : TakesAon c s t := by
  intro hf
  rw [h, e, State.gateAon_fits s hf]

/-! ### Register words -/

/-- A register word reads as it was written, every other as before. -/
theorem State.reg_setReg (s : State) (off o : Nat) (v : Word) : (s.setReg off v).reg o = if o = off then v else s.reg o := by
  unfold State.reg State.setReg
  by_cases h : o = off
  · subst h; simp
  · simp only [h, if_false]
    exact tget_any_ne _ _ _ _ h

@[simp] theorem State.reg_setReg_self (s : State) (off : Nat) (v : Word) : (s.setReg off v).reg off = v := by
  simp [State.reg_setReg]

theorem State.reg_modReg (s : State) (off o : Nat) (f : Word → Word) :
    (s.modReg off f).reg o = if o = off then f (s.reg off) else s.reg o := by
  simp [State.modReg, State.reg_setReg]

@[simp] theorem State.reg_toPort (s : State) (k : Nat) (o : Occ) (off : Nat) : (s.toPort k o).reg off = s.reg off := rfl
@[simp] theorem State.reg_answer (s : State) (st : Status) (d : DWord) (off : Nat) : (s.answer st d).reg off = s.reg off := rfl
@[simp] theorem State.reg_setQueue (s : State) (q : Nat) (x : QueueSt) (off : Nat) : (s.setQueue q x).reg off = s.reg off := rfl
@[simp] theorem State.reg_modRgn (s : State) (r : Nat) (f : RegionSt → RegionSt) (off : Nat) : (s.modRgn r f).reg off = s.reg off := rfl

/-- An event sets its EVT_RAW bit and leaves every other register as it was. -/
theorem State.reg_raise (s : State) (pg i o : Nat) :
    (s.raise pg i).reg o = if o = pg + hEvtRaw then setBit (s.reg o) i else s.reg o := by
  unfold State.raise
  dsimp only
  split
  · rw [State.reg_toPort, State.reg_modReg]; split <;> simp_all
  · rw [State.reg_modReg]; split <;> simp_all

/-- A write that OWNER, the SP code and LOCK let through runs its action. -/
theorem State.regGuard_passes {s : State} {ini : Ini} {off : Nat} (act : State → State) (h : s.passesWhole ini off = true) :
    s.regGuard ini off act = (act s).answer .ok 0 := by
  unfold State.passesWhole at h
  unfold State.regGuard
  cases hd : regDefAt off with
  | none => simp [hd] at h
  | some d =>
    simp only [hd, Bool.and_eq_true, Bool.or_eq_true, beq_iff_eq, Bool.not_eq_true'] at h
    obtain ⟨⟨h1, h2⟩, h3⟩ := h
    have e2 : ¬(d.sp ≠ 0 && ini != levee) = true := by simp; tauto
    have e3 : ¬(d.rwl ≠ 0 && s.locked off) = true := by
      simp only [ne_eq, Bool.and_eq_true, decide_eq_true_eq, not_and, Bool.not_eq_true]
      intro hn; rcases h3 with h3 | h3
      · exact absurd h3 hn
      · exact h3
    simp only [h1, Bool.not_true, Bool.false_eq_true, if_false, e2, e3]

/-- A write that OWNER lets through stores its fields and runs its action. -/
theorem State.regWrite_owner {s : State} {ini : Ini} {off : Nat} (val : Word) (act : Word → State → State)
    (h : s.mayWrite ini off = true) :
    s.regWrite ini off val act = (act (s.actBits ini off val) (s.fieldWrite ini off val)).answer .ok 0 := by
  simp [State.regWrite, h]

/-- A write that OWNER refuses is recorded and changes nothing else. -/
theorem State.regWrite_refused {s : State} {ini : Ini} {off : Nat} (val : Word) (act : Word → State → State)
    (h : s.mayWrite ini off = false) :
    s.regWrite ini off val act = (s.violate (off / 0x1000 * 0x1000) 1 ini off true).answer .ok 0 := by
  simp [State.regWrite, h]

/-! ### Replacing one record of a table -/

theorem State.rgn_setRgn (s : State) (r k : Nat) (g : RegionSt) : (s.setRgn r g).rgn k = if k = r then g else s.rgn k := by
  simp [State.rgn, State.setRgn, tget_tset]
@[simp] theorem State.rgn_setRgn_self (s : State) (r : Nat) (g : RegionSt) : (s.setRgn r g).rgn r = g := by
  simp [State.rgn_setRgn]
@[simp] theorem State.rgn_modRgn_self (s : State) (r : Nat) (f : RegionSt → RegionSt) : (s.modRgn r f).rgn r = f (s.rgn r) := by
  simp [State.modRgn]
theorem State.tile_setTile (s : State) (t k : Nat) (T : Tile) : (s.setTile t T).tile k = if k = t then T else s.tile k := by
  simp [State.tile, State.setTile, tget_tset]
@[simp] theorem State.tile_setTile_self (s : State) (t : Nat) (T : Tile) : (s.setTile t T).tile t = T := by
  simp [State.tile_setTile]
@[simp] theorem State.tile_modTile_self (s : State) (t : Nat) (f : Tile → Tile) : (s.modTile t f).tile t = f (s.tile t) := by
  simp [State.modTile]
@[simp] theorem State.rgn_setTile (s : State) (t r : Nat) (T : Tile) : (s.setTile t T).rgn r = s.rgn r := rfl
@[simp] theorem State.tile_setRgn (s : State) (t r : Nat) (g : RegionSt) : (s.setRgn r g).tile t = s.tile t := rfl
@[simp] theorem State.tile_modRgn (s : State) (t r : Nat) (f : RegionSt → RegionSt) : (s.modRgn r f).tile t = s.tile t := rfl
@[simp] theorem State.rgn_raise (s : State) (pg i r : Nat) : (s.raise pg i).rgn r = s.rgn r := by simp [State.rgn]
theorem State.queue_setQueue (s : State) (q k : Nat) (x : QueueSt) : (s.setQueue q x).queue k = if k = q then x else s.queue k := by
  simp [State.queue, State.setQueue, tget_tset]
@[simp] theorem State.queue_setQueue_self (s : State) (q : Nat) (x : QueueSt) : (s.setQueue q x).queue q = x := by
  simp [State.queue_setQueue]

/-- Loading tiles leaves the regions and the loader alone. -/
theorem foldl_setTile_rgn (f : State → Nat → Tile) (l : List Nat) (s : State) (r : Nat) :
    (l.foldl (fun u t => u.setTile t (f u t)) s).rgn r = s.rgn r := by
  induction l generalizing s with
  | nil => rfl
  | cons t l ih => rw [List.foldl_cons, ih, State.rgn_setTile]

theorem foldl_setTile_fcc (f : State → Nat → Tile) (l : List Nat) (s : State) :
    (l.foldl (fun u t => u.setTile t (f u t)) s).fcc = s.fcc := by
  induction l generalizing s with
  | nil => rfl
  | cons t l ih => rw [List.foldl_cons, ih, State.setTile_fcc]

/-- With no load in APPLY there is nothing for the loader to go on with. -/
theorem State.loadGoesOn_idle {s : State} (h : s.fcc.lstate ≠ 3) : s.loadGoesOn = s := by
  simp [State.loadGoesOn, h]

/-- Nothing formed, nothing sent. -/
theorem codFlush_nil {s : State} {r : Nat} (n : Nat) (h : (s.cod r).outs = []) : State.codFlush r n s = s := by
  cases n with
  | zero => rfl
  | succ n => rw [State.codFlush]; simp [h]

/-- A personality whose output has been taken goes on. -/
theorem codRun_free {s : State} {r : Nat} (f : State → State) (h0 : regionMoves (s.rgn r) = true) (h1 : (s.rgn r).st = .run)
    (h2 : (s.cod r).outs = []) : codRun r f s = State.codFlush r 64 (f s) := by
  unfold codRun
  rw [if_pos (by simp [h0, h1])]
  simp only [codFlush_nil 64 h2, h2, List.isEmpty_nil, if_true]

/-- A personality whose output has been taken runs on its packet, unless the packet's context is under shadow load. -/
theorem codTake_free {s : State} {r tag : Nat} (f : State → State) (h0 : regionMoves (s.rgn r) = true) (h1 : (s.rgn r).st = .run)
    (h2 : (s.cod r).outs = []) (h3 : s.tagLoading r tag = false) : codTake r tag f s = State.codFlush r 64 (f s) := by
  rw [codTake, h3, if_neg Bool.false_ne_true, codRun_free f h0 h1 h2]

@[simp] theorem State.modNi_txns (s : State) (n : Nat) (f : NiSt → NiSt) : (s.modNi n f).ocn.txns = s.ocn.txns := rfl
@[simp] theorem State.zeroBanks_ocn (s : State) (lo : Nat) : (s.zeroBanks lo).ocn = s.ocn := rfl

/-! ### Memory -/

/-- A byte reads as it was written, every other as before. -/
theorem State.byteAt_setByte (s : State) (a k : Nat) (b : Byte) : (s.setByte a b).byteAt k = if k = a then b else s.byteAt k := by
  simp [State.byteAt, State.setByte, tget_tset]

/-- A run of byte writes reads as before outside the bytes written. -/
theorem byteAt_foldl {α : Type} (f : State → α → State) (l : List α) (k : Nat) (h : ∀ u, ∀ x ∈ l, (f u x).byteAt k = u.byteAt k)
    (s : State) : (l.foldl f s).byteAt k = s.byteAt k := by
  induction l generalizing s with
  | nil => rfl
  | cons x t ih =>
    rw [List.foldl_cons, ih (fun u y hy => h u y (by simp [hy])), h s x (by simp)]

theorem State.byteAt_setBytes (s : State) (a k : Nat) (l : List Byte) (h : k < a ∨ a + l.length ≤ k) :
    (s.setBytes a l).byteAt k = s.byteAt k := by
  unfold State.setBytes
  apply byteAt_foldl
  intro u x hx
  have := List.snd_lt_of_mem_zipIdx hx
  rw [State.byteAt_setByte, if_neg (by omega)]

/-- Writes in a row keep the canonical form when each one does. -/
theorem mem_wf_foldl {α : Type} (f : State → α → State) (h : ∀ u x, Memory.wf u.mem → Memory.wf (f u x).mem) (l : List α) (s : State)
    (hs : Memory.wf s.mem) : Memory.wf (l.foldl f s).mem := by
  induction l generalizing s with
  | nil => exact hs
  | cons x t ih => exact ih (f s x) (h s x hs)

theorem State.wf_setByte (s : State) (a : Nat) (b : Byte) (h : Memory.wf s.mem) : Memory.wf (s.setByte a b).mem :=
  twf_tset 0 s.mem a b h

/-- Storing bytes changes memory alone. -/
theorem State.setBytes_eq (s : State) (a : Nat) (l : List Byte) : s.setBytes a l = { s with mem := (s.setBytes a l).mem } := by
  unfold State.setBytes
  generalize l.zipIdx = z
  induction z generalizing s with
  | nil => rfl
  | cons p z ih => rw [List.foldl_cons, ih]; rfl

theorem State.setBytes_reg (s : State) (a : Nat) (l : List Byte) (o : Nat) : (s.setBytes a l).reg o = s.reg o := by
  rw [State.setBytes_eq]; rfl

theorem State.wf_setBytes (s : State) (a : Nat) (l : List Byte) (h : Memory.wf s.mem) : Memory.wf (s.setBytes a l).mem :=
  mem_wf_foldl _ (fun u x hu => u.wf_setByte (a + x.2) x.1 hu) _ _ h

theorem State.wf_setMemNat (s : State) (a n v : Nat) (h : Memory.wf s.mem) : Memory.wf (s.setMemNat a n v).mem :=
  s.wf_setBytes a _ h

theorem State.wf_writeLine (s : State) (line : Nat) (d : Line) (mask : BitVec 64) (view : Nat) (h : Memory.wf s.mem) :
    Memory.wf (s.writeLine line d mask view).mem := by
  unfold State.writeLine State.touchLine
  refine mem_wf_foldl _ (fun u x hu => ?_) _ _ h
  split
  · exact u.wf_setByte _ _ hu
  · exact hu

theorem State.wf_zeroBanks (s : State) (lo : Nat) (h : Memory.wf s.mem) : Memory.wf (s.zeroBanks lo).mem :=
  twf_tkeep _ (fun a => !(decide (bankAddr lo ≤ a) && decide (a < bankAddr 256))) s.mem h

theorem State.wf_zeroHv (s : State) (h : Memory.wf s.mem) : Memory.wf s.zeroHv.mem :=
  twf_tkeep _ (fun a => !(decide (dramBase ≤ a) && s.inHv (a - dramBase))) s.mem h

theorem State.wf_writeSection (s : State) (r base size : Nat) (h : Memory.wf s.mem) : Memory.wf (s.writeSection r base size).mem := by
  unfold State.writeSection
  refine mem_wf_foldl _ (fun u x hu => ?_) _ _ ?_
  · exact u.wf_setMemNat _ _ _ hu
  · exact twf_tkeep _ (fun a => !(decide (base ≤ a) && decide (a < base + size))) s.mem h

/-! ### What reads a byte sees after the range operations -/

theorem State.byteAt_of_mem {t u : State} (h : t.mem = u.mem) (k : Nat) : t.byteAt k = u.byteAt k := by unfold State.byteAt; rw [h]

/-- A line write stores the bytes that its mask enables, as the view says, and no other (R276). -/
theorem State.byteAt_writeLine (s : State) (line : Nat) (d : Line) (m : BitVec 64) (view k : Nat) :
    (s.writeLine line d m view).byteAt k = if k / 64 = line ∧ bit m (k % 64) = true then
      (let new := BitVec.ofNat 8 (fld d (8 * (k % 64)) 8)
       if view = 1 then s.byteAt k ||| new else if view = 2 then s.byteAt k &&& ~~~new else new) else s.byteAt k := by
  unfold State.writeLine
  rw [State.byteAt_of_mem (u := List.foldl _ s (List.range 64)) (by unfold State.touchLine; rfl)]
  have key : ∀ n, n ≤ 64 → ((List.range n).foldl (fun u i =>
      if bit m i then
        let old := u.byteAt (64 * line + i)
        let new := BitVec.ofNat 8 (fld d (8 * i) 8)
        u.setByte (64 * line + i) (if view = 1 then old ||| new else if view = 2 then old &&& ~~~new else new)
      else u) s).byteAt k = if k / 64 = line ∧ k % 64 < n ∧ bit m (k % 64) = true then
        (let new := BitVec.ofNat 8 (fld d (8 * (k % 64)) 8)
         if view = 1 then s.byteAt k ||| new else if view = 2 then s.byteAt k &&& ~~~new else new) else s.byteAt k := by
    intro n
    induction n with
    | zero => intro _; rw [if_neg (by omega)]; rfl
    | succ n ih =>
      intro hn
      rw [List.range_succ, List.foldl_append, List.foldl_cons, List.foldl_nil]
      have ih := ih (by omega)
      by_cases hk : k = 64 * line + n
      · have h1 : k / 64 = line := by omega
        have h2 : k % 64 = n := by omega
        rw [if_neg (by omega)] at ih
        by_cases hb : bit m n = true
        · simp only [hb, if_true]
          rw [State.byteAt_setByte, if_pos hk, ← hk, ih, h2]
          simp [h1, hb]
        · rw [if_neg hb, ih, if_neg (by rw [h2]; exact fun h => hb h.2.2)]
      · have hc : (k / 64 = line ∧ k % 64 < n + 1 ∧ bit m (k % 64) = true) ↔ (k / 64 = line ∧ k % 64 < n ∧ bit m (k % 64) = true) := by
          constructor
          · intro h; exact ⟨h.1, by omega, h.2.2⟩
          · intro h; exact ⟨h.1, by omega, h.2.2⟩
        have : ∀ u : State, (if bit m n = true then
            let old := u.byteAt (64 * line + n)
            let new := BitVec.ofNat 8 (fld d (8 * n) 8)
            u.setByte (64 * line + n) (if view = 1 then old ||| new else if view = 2 then old &&& ~~~new else new)
          else u).byteAt k = u.byteAt k := by
          intro u; split
          · dsimp only; rw [State.byteAt_setByte, if_neg hk]
          · rfl
        rw [this, ih]; simp only [hc]
  rw [key 64 (by omega)]
  have hm : k % 64 < 64 := Nat.mod_lt _ (by decide)
  simp only [hm, true_and]

theorem State.byteAt_zeroBanks (s : State) (lo k : Nat) :
    (s.zeroBanks lo).byteAt k = if bankAddr lo ≤ k ∧ k < bankAddr 256 then 0 else s.byteAt k := by
  unfold State.byteAt State.zeroBanks; dsimp only; rw [tget_tkeep]
  by_cases h : bankAddr lo ≤ k ∧ k < bankAddr 256
  · simp [h.1, h.2]
  · rw [if_neg h]
    have : (decide (bankAddr lo ≤ k) && decide (k < bankAddr 256)) = false := by simpa using h
    rw [this]; rfl

theorem State.byteAt_zeroHv (s : State) (k : Nat) :
    s.zeroHv.byteAt k = if dramBase ≤ k ∧ s.inHv (k - dramBase) = true then 0 else s.byteAt k := by
  unfold State.byteAt State.zeroHv; dsimp only; rw [tget_tkeep]
  by_cases h : dramBase ≤ k ∧ s.inHv (k - dramBase) = true
  · simp [h.1, h.2]
  · rw [if_neg h]
    have : (decide (dramBase ≤ k) && s.inHv (k - dramBase)) = false := by simpa using h
    rw [this]; rfl

/-! ### Commands that leave memory alone -/

theorem State.mem_blockAnswer (s : State) (k : TxnKey) (f : Txn → Txn) : (s.blockAnswer k f).mem = s.mem := by
  unfold State.blockAnswer; repeat' split
  all_goals rfl

theorem State.mem_flitServed (s : State) (x : Txn) (st : Status) (d : Option Line) (w : Option Ini) : (s.flitServed x st d w).mem = s.mem := by
  unfold State.flitServed; dsimp only; split
  · exact State.mem_blockAnswer _ _ _
  · rfl

theorem State.mem_rsvViolate (s : State) (c : Nat) (ini : Ini) (b w : Nat) (wr : Bool) : (s.rsvViolate c ini b w wr).mem = s.mem := by
  unfold State.rsvViolate; dsimp only; split <;> simp

theorem State.mem_rsvCollide (s : State) (x y : Ini) (b w : Nat) : (s.rsvCollide x y b w).mem = s.mem := by
  unfold State.rsvCollide; dsimp only; split <;> simp

theorem State.mem_checkLine (s : State) (ini : Ini) (a : Nat) : (s.checkLine ini a).1.mem = s.mem := by
  unfold State.checkLine State.logUe State.setMark
  dsimp only
  (repeat' split) <;> simp

theorem State.wf_bankWord (s : State) (q : WordReq) (h : Memory.wf s.mem) : Memory.wf (s.bankWord q).1.mem := by
  unfold State.bankWord
  dsimp only
  repeat' split
  · exact h
  · rw [State.mem_rsvViolate]; exact h
  · exact s.wf_writeLine _ _ _ _ h
  · exact h

theorem State.mem_bankLosers (s : State) (q : WordReq) (l : List Txn) : (s.bankLosers q l).mem = s.mem := by
  unfold State.bankLosers
  induction l generalizing s with
  | nil => rfl
  | cons x t ih =>
    rw [List.foldl_cons, ih]
    repeat' split
    · rw [State.mem_flitServed, State.mem_rsvCollide]
    · rfl
    · rfl

theorem State.wf_bankPerform (s : State) (x : Txn) (l : List Txn) (h : Memory.wf s.mem) : Memory.wf (s.bankPerform x l).mem := by
  unfold State.bankPerform
  split
  · exact h
  · rename_i q _
    rw [State.mem_bankLosers, State.mem_flitServed]
    exact s.wf_bankWord q h

/-- A unit's access to a word of the reservoir keeps the canonical form. -/
theorem State.wf_bankServe (q : WordReq) (n : Nat) (s : State) (h : Memory.wf s.mem) : Memory.wf (State.bankServe q n s).1.mem := by
  induction n generalizing s with
  | zero => exact s.wf_bankWord q h
  | succ n ih =>
    unfold State.bankServe
    dsimp only
    split
    · split
      · rw [State.mem_rsvCollide]; exact s.wf_bankPerform _ _ h
      · exact ih _ (s.wf_bankPerform _ _ h)
    · dsimp only; rw [State.mem_bankLosers]; exact s.wf_bankWord q h

/-- An access to a line of the DRAM keeps the canonical form. -/
theorem State.wf_dramLine (s : State) (ini : Ini) (a : Nat) (wr : Bool) (d : Line) (m : BitVec 64) (h : Memory.wf s.mem) :
    Memory.wf (s.dramLine ini a wr d m).1.mem := by
  have hc := s.mem_checkLine ini a
  unfold State.dramLine
  dsimp only
  split
  · exact h
  split
  · exact h
  split
  · split <;> (rename_i e; rw [e] at hc; dsimp only at hc ⊢; rw [hc]; exact h)
  · split
    · rename_i u e
      have : u.mem = s.mem := by
        split at e
        · cases e; rfl
        · rw [e] at hc; exact hc
      exact State.wf_writeLine _ _ _ _ _ (this ▸ h)
    · rename_i u e
      have : u.mem = s.mem := by
        split at e
        · cases e
        · rw [e] at hc; exact hc
      exact this ▸ h

theorem State.wf_dramFlit (s : State) (x : Txn) (h : Memory.wf s.mem) : Memory.wf (s.dramFlit x).mem := by
  unfold State.dramFlit
  dsimp only
  rw [State.mem_flitServed]
  exact s.wf_dramLine _ _ _ _ _ h

theorem State.wf_drcDrain (n : Nat) (s : State) (h : Memory.wf s.mem) : Memory.wf (State.drcDrain n s).mem := by
  induction n generalizing s with
  | zero => exact h
  | succ n ih =>
    unfold State.drcDrain
    split
    · exact ih _ (s.wf_dramFlit _ h)
    · exact h

/-- Passing the network leaves memory alone. -/
theorem State.mem_reach (s : State) (ini : Ini) (first : Bool) (a : Nat) (wr : Bool) : (s.reach ini first a wr).1.mem = s.mem := by
  unfold State.reach State.awaitNi State.countFlit State.countAt
  dsimp only
  (repeat' split) <;> rfl

theorem State.mem_biUnit (s : State) (ini : Ini) (line : Nat) : (s.biUnit ini line).1.mem = s.mem := by
  unfold State.biUnit
  dsimp only
  split <;> rfl

theorem State.mem_windowMiss (s : State) (ini : Ini) (off : Nat) (wr : Bool) : (s.windowMiss ini off wr).1.mem = s.mem := by
  unfold State.windowMiss State.holeCapture
  dsimp only
  (repeat' split) <;> simp only [State.raise_mem, State.violate_mem] <;> rfl

/-- A guarded register write that keeps the canonical form when the action does. -/
theorem State.wf_regGuard (s : State) (ini : Ini) (off : Nat) (f : State → State) (h : Memory.wf s.mem)
    (hf : ∀ u : State, Memory.wf u.mem → Memory.wf (f u).mem) : Memory.wf (s.regGuard ini off f).mem := by
  have hs : (s.refuseSp ini off).mem = s.mem := by
    unfold State.refuseSp State.logSp
    repeat' split
    all_goals simp
  unfold State.regGuard
  repeat' split
  all_goals first
    | exact h
    | exact hf s h
    | (simp only [State.answer_mem, State.violate_mem, State.raise_mem, hs]; exact h)

/-- A unit's read of a line keeps the canonical form: older writes may be served first. -/
theorem State.wf_lineRead (s : State) (ini : Ini) (first : Bool) (a : Nat) (h : Memory.wf s.mem) :
    Memory.wf (s.lineRead ini first a).1.mem := by
  have hr := s.mem_reach ini first a false
  unfold State.lineRead
  generalize s.reach ini first a false = p at hr ⊢
  obtain ⟨s1, st⟩ := p
  have h1 : Memory.wf s1.mem := by rw [hr]; exact h
  cases st
  all_goals try exact h1
  dsimp only
  split
  · exact h1
  · exact State.wf_bankServe _ _ _ h1
  · have h2 := State.wf_drcDrain s1.flitsLeft s1 h1
    split
    · exact h2
    · exact State.wf_dramLine _ _ _ _ _ _ h2
  · rw [State.mem_windowMiss]; exact h1
  · split <;> exact h1
  · split <;> exact h1
  · exact h1

/-- A unit's write to a line keeps the canonical form. -/
theorem State.wf_lineWrite (s : State) (ini : Ini) (first : Bool) (a : Nat) (d : Line) (m : BitVec 64) (h : Memory.wf s.mem) :
    Memory.wf (s.lineWrite ini first a d m).1.mem := by
  have hr := s.mem_reach ini first a true
  unfold State.lineWrite
  generalize s.reach ini first a true = p at hr ⊢
  obtain ⟨s1, st⟩ := p
  have h1 : Memory.wf s1.mem := by rw [hr]; exact h
  cases st
  all_goals try exact h1
  dsimp only
  split
  · exact h1
  · exact State.wf_bankServe _ _ _ h1
  · have h2 := State.wf_drcDrain s1.flitsLeft s1 h1
    split
    · exact h2
    · have hb := State.mem_biUnit (State.drcDrain s1.flitsLeft s1) ini (a / 64)
      generalize State.biUnit (State.drcDrain s1.flitsLeft s1) ini (a / 64) = p at hb ⊢
      obtain ⟨u, b⟩ := p
      have h3 : Memory.wf u.mem := by rw [hb]; exact h2
      rcases b with _ | _ | _
      · exact h3
      · exact h3
      · exact State.wf_dramLine _ _ _ _ _ _ h3
  · rw [State.mem_windowMiss]; exact h1
  · exact h1
  · exact h1
  · exact h1

/-- Reads and writes of a span keep the canonical form. -/
theorem State.wf_memRead (s : State) (ini : Ini) (a n : Nat) (h : Memory.wf s.mem) : Memory.wf (s.memRead ini a n).1.mem := by
  unfold State.memRead
  suffices H : ∀ (l : List (Nat × Nat)) (acc : State × Status × List Byte), Memory.wf acc.1.mem → Memory.wf (l.foldl
      (fun (acc : State × Status × List Byte) p => match acc.1.lineRead ini (p.1 == a) p.1 with
        | (u, st, d) => (u, firstBad acc.2.1 st, acc.2.2 ++ sliceBytes (bytesOf 64 d.toNat) (p.1 % 64) p.2)) acc).1.mem from H _ _ h
  intro l
  induction l with
  | nil => exact fun _ h => h
  | cons p l ih => exact fun acc h => ih _ (acc.1.wf_lineRead _ _ _ h)

theorem State.wf_memWrite (s : State) (ini : Ini) (a : Nat) (l : List Byte) (h : Memory.wf s.mem) : Memory.wf (s.memWrite ini a l).1.mem := by
  unfold State.memWrite
  suffices H : ∀ (q : List (Nat × Nat)) (acc : State × Status), Memory.wf acc.1.mem → Memory.wf (q.foldl
      (fun (acc : State × Status) p => match acc.1.lineWrite ini (p.1 == a) p.1
          (BitVec.ofNat 512 (ofBytes (sliceBytes l (p.1 - a) p.2) * 2 ^ (8 * (p.1 % 64)))) (BitVec.ofNat 64 ((2 ^ p.2 - 1) * 2 ^ (p.1 % 64))) with
        | (u, st) => (u, firstBad acc.2 st)) acc).1.mem from H _ _ h
  intro q
  induction q with
  | nil => exact fun _ h => h
  | cons p q ih => exact fun acc h => ih _ (acc.1.wf_lineWrite _ _ _ _ _ h)

/-- With no device request ready, the DRAM controller serves none before a host request (R291). -/
theorem State.drcDrain_none {s : State} (h : s.drcNext = none) : State.drcDrain s.flitsLeft s = s := by
  unfold State.flitsLeft State.drcDrain; rw [h]

/-- The memory of the machine after reset is in canonical form. -/
@[simp] theorem State.reset_mem : State.reset.mem = [] := rfl

theorem Memory.wf_reset : Memory.wf State.reset.mem := rfl

/-- An access that is answered OK is shown to the host as it is (R33). -/
@[simp] theorem State.hostSees_ok (s : State) (v : DWord) (ini : Ini) : (s.answer .ok v).hostSees ini = s.answer .ok v := by
  unfold State.hostSees; rw [if_neg]; rintro ⟨-, h | h⟩ <;> cases h

/-- Between s and u only the counts of the network interfaces and the number of the next free value have changed (R267). -/
def State.onlyCounts (s u : State) : Prop :=
  u = { s with ocn := u.ocn, fresh := u.fresh } ∧ ∀ i, (u.ni i).flip = (s.ni i).flip

theorem State.onlyCounts_refl (s : State) : s.onlyCounts s := ⟨rfl, fun _ => rfl⟩

theorem State.onlyCounts_trans {s u v : State} (h : s.onlyCounts u) (g : u.onlyCounts v) : s.onlyCounts v :=
  ⟨by rw [g.1, h.1], fun i => (g.2 i).trans (h.2 i)⟩

theorem State.onlyCounts_countFlit (s : State) (ini : Ini) (a : Nat) (wr b r : Bool) : s.onlyCounts (s.countFlit ini a wr b r) := by
  unfold State.countFlit
  split
  · exact s.onlyCounts_refl
  · rename_i i _
    have h : ∀ f : NiSt → NiSt, (∀ n, (f n).flip = n.flip) → s.onlyCounts (s.modNi i f) := by
      intro f hf
      refine ⟨rfl, fun k => ?_⟩
      show (tget {} (tset {} s.ocn.nis i (f (s.ni i))) k).flip = _
      by_cases e : k = i
      · subst e; rw [tget_tset_self]; exact hf _
      · rw [tget_tset_ne _ _ _ e]; rfl
    have h2 : ∀ u : State, s.onlyCounts u → s.onlyCounts { u with fresh := u.fresh + 1 } := fun u hu =>
      State.onlyCounts_trans hu ⟨rfl, fun _ => rfl⟩
    unfold State.countAt
    cases b
    · exact h (fun n => { n with stats := if r then n.stats else addStat n.stats 0 64 }) (fun n => rfl)
    · exact h2 _ (h _ (fun n => rfl))

/-- A read of an address that no region of the map holds is answered DECERR and changes nothing but the counts (R11, R249). -/
theorem State.lineRead_unmapped (s : State) (ini : Ini) (f : Bool) (a : Nat) (h : s.target a = .unmapped) (hf : ∀ i, (s.ni i).flip = false) :
    s.onlyCounts (s.lineRead ini f a).1 := by
  have h0 : s.awaitNi ini a false = s := by
    unfold State.awaitNi; rw [if_neg]; cases unitNi ini a false <;> simp [hf]
  have hn : s.addrNi a = none := by unfold State.addrNi; rw [h]
  have h1 : s.netStatus ini a false = .decErr := by unfold State.netStatus; rw [hn]
  unfold State.lineRead State.reach; dsimp only; rw [h0, h1]
  exact s.onlyCounts_countFlit ini a false _ _

/-- A read of addresses that no region of the map holds changes nothing but the counts. -/
theorem State.memRead_unmapped (s : State) (ini : Ini) (a n : Nat) (hf : ∀ i, (s.ni i).flip = false)
    (h : ∀ p ∈ linePieces a n, s.target p.1 = .unmapped) : s.onlyCounts (s.memRead ini a n).1 := by
  unfold State.memRead
  generalize linePieces a n = l at h ⊢
  have key : ∀ (l : List (Nat × Nat)) (acc : State × Status × List Byte), s.onlyCounts acc.1 → (∀ p ∈ l, s.target p.1 = .unmapped) →
      s.onlyCounts (l.foldl (fun (acc : State × Status × List Byte) p =>
        match acc.1.lineRead ini (p.1 == a) p.1 with
        | (u, st, d) => (u, firstBad acc.2.1 st, acc.2.2 ++ sliceBytes (bytesOf 64 d.toNat) (p.1 % 64) p.2)) acc).1 := by
    intro l
    induction l with
    | nil => intro acc ha _; exact ha
    | cons p l ih =>
      intro acc ha hl
      rw [List.foldl_cons]
      refine ih _ ?_ (fun q hq => hl q (List.mem_cons_of_mem _ hq))
      have ht : acc.1.target p.1 = .unmapped := by
        rw [show acc.1.target p.1 = s.target p.1 by rw [ha.1]; rfl]; exact hl p (List.mem_cons_self)
      have := acc.1.lineRead_unmapped ini (p.1 == a) p.1 ht (fun i => (ha.2 i).trans (hf i))
      revert this
      cases acc.1.lineRead ini (p.1 == a) p.1 with
      | mk u q => intro this; exact State.onlyCounts_trans ha this
  exact key l (s, .ok, []) s.onlyCounts_refl h

/-- What goes on while no command waits leaves no port with more than eight occurrences (R357). -/
theorem State.idle_portsOk (s : State) (h : s.portsOk = true) : s.idle.portsOk = true := by
  unfold State.idle
  generalize [State.queueTick, State.dmaTick, State.shadowTick, State.padEdge] = l
  induction l generalizing s with
  | nil => exact h
  | cons f l ih => exact ih _ (State.gate_portsOk _ h)

/-- Without main power nothing goes on (R374). -/
theorem State.idle_unpowered (s : State) (h : s.powered = false) : s.idle = s := by
  unfold State.idle
  generalize [State.queueTick, State.dmaTick, State.shadowTick, State.padEdge] = l
  induction l with
  | nil => rfl
  | cons f l ih => rw [List.foldl_cons, State.gate_unpowered _ h]; exact ih

end Sys2Proof.Machine
end

