-- ==== Sys2Proof/Laws/Access.lean ====
section
/-!
SUPPORT. What an access of one of the part's units can touch, said once: memory and its reservations, the network, the DRAM controller,
registers and event ports, and whether the command has to wait; with no request of another unit waiting, a read leaves memory alone.
-/
namespace Sys2Proof.Machine

/-- Between s and u only what a unit's access can touch has changed. -/
def State.onlyAccess (s u : State) : Prop :=
  u = { s with mem := u.mem, l2 := u.l2, lr := u.lr, regs := u.regs, hts := { s.hts with ports := u.hts.ports }, ocn := u.ocn,
               drc := u.drc, hold := u.hold, fresh := u.fresh }

theorem State.onlyAccess_refl (s : State) : s.onlyAccess s := rfl

theorem State.onlyAccess.trans {s u v : State} (h : s.onlyAccess u) (g : u.onlyAccess v) : s.onlyAccess v := by
  unfold State.onlyAccess at *; rw [g, h]

theorem State.onlyAccess_setReg (s : State) (o : Nat) (w : Word) : s.onlyAccess (s.setReg o w) := rfl
theorem State.onlyAccess_setReg64 (s : State) (o v : Nat) : s.onlyAccess (s.setReg64 o v) := rfl
theorem State.onlyAccess_countUp (s : State) (o a n k : Nat) : s.onlyAccess (s.countUp o a n k) := rfl
theorem State.onlyAccess_modDrc (s : State) (f : Drc → Drc) : s.onlyAccess (s.modDrc f) := rfl
theorem State.onlyAccess_setTxns (s : State) (l : List Txn) : s.onlyAccess (s.setTxns l) := rfl
theorem State.onlyAccess_modTxn (s : State) (k : TxnKey) (f : Txn → Txn) : s.onlyAccess (s.modTxn k f) := rfl

theorem State.onlyAccess_raise (s : State) (p i : Nat) : s.onlyAccess (s.raise p i) := by
  unfold State.raise; dsimp only; split <;> rfl

theorem State.onlyAccess_violate (s : State) (p f : Nat) (ini : Ini) (o : Nat) (w : Bool) : s.onlyAccess (s.violate p f ini o w) :=
  (s.onlyAccess_setReg _ _).trans (State.onlyAccess_raise _ _ _)

theorem State.onlyAccess_holeCapture (s : State) (ini : Ini) (o : Nat) (w : Bool) : s.onlyAccess (s.holeCapture ini o w) := by
  unfold State.holeCapture; dsimp only
  refine State.onlyAccess.trans ?_ (State.onlyAccess_raise _ _ _)
  split <;> rfl

theorem State.onlyAccess_rsvViolate (s : State) (c : Nat) (ini : Ini) (b w : Nat) (wr : Bool) : s.onlyAccess (s.rsvViolate c ini b w wr) := by
  unfold State.rsvViolate; dsimp only
  refine State.onlyAccess.trans ?_ (State.onlyAccess_raise _ _ _)
  split <;> rfl

theorem State.onlyAccess_rsvCollide (s : State) (x y : Ini) (b w : Nat) : s.onlyAccess (s.rsvCollide x y b w) := by
  unfold State.rsvCollide; dsimp only
  refine State.onlyAccess.trans ?_ (State.onlyAccess_raise _ _ _)
  split <;> rfl

theorem State.onlyAccess_blockAnswer (s : State) (k : TxnKey) (f : Txn → Txn) : s.onlyAccess (s.blockAnswer k f) := by
  unfold State.blockAnswer; repeat' split
  all_goals rfl

theorem State.onlyAccess_flitServed (s : State) (x : Txn) (st : Status) (d : Option Line) (w : Option Ini) :
    s.onlyAccess (s.flitServed x st d w) := by
  unfold State.flitServed; dsimp only; split
  · exact State.onlyAccess_blockAnswer _ _ _
  · rfl

theorem State.onlyAccess_setByte (s : State) (a : Nat) (b : Byte) : s.onlyAccess (s.setByte a b) := rfl

theorem onlyAccess_foldl {α : Type} (f : State → α → State) (h : ∀ (u : State) (x : α), u.onlyAccess (f u x)) (l : List α) (s : State) :
    s.onlyAccess (l.foldl f s) := by
  induction l generalizing s with
  | nil => rfl
  | cons x t ih => exact (h s x).trans (ih _)

theorem State.onlyAccess_writeLine (s : State) (line : Nat) (d : Line) (m : BitVec 64) (v : Nat) : s.onlyAccess (s.writeLine line d m v) := by
  unfold State.writeLine
  refine State.onlyAccess.trans (onlyAccess_foldl _ (fun u i => ?_) _ s) rfl
  split <;> rfl

theorem State.onlyAccess_bankWord (s : State) (q : WordReq) : s.onlyAccess (s.bankWord q).1 := by
  unfold State.bankWord; dsimp only; repeat' split
  · rfl
  · exact State.onlyAccess_rsvViolate _ _ _ _ _ _
  · exact State.onlyAccess_writeLine _ _ _ _ _
  · rfl

theorem State.onlyAccess_bankLosers (s : State) (q : WordReq) (l : List Txn) : s.onlyAccess (s.bankLosers q l) := by
  unfold State.bankLosers
  refine onlyAccess_foldl _ (fun u x => ?_) _ s
  repeat' split
  · exact (State.onlyAccess_rsvCollide _ _ _ _ _).trans (State.onlyAccess_flitServed _ _ _ _ _)
  · rfl
  · rfl

theorem State.onlyAccess_bankPerform (s : State) (x : Txn) (l : List Txn) : s.onlyAccess (s.bankPerform x l) := by
  unfold State.bankPerform
  split
  · rfl
  · exact ((s.onlyAccess_bankWord _).trans (State.onlyAccess_flitServed _ _ _ _ _)).trans (State.onlyAccess_bankLosers _ _ _)

theorem State.onlyAccess_bankServe (q : WordReq) (n : Nat) (s : State) : s.onlyAccess (State.bankServe q n s).1 := by
  induction n generalizing s with
  | zero => exact s.onlyAccess_bankWord q
  | succ n ih =>
    unfold State.bankServe
    dsimp only
    split
    · split
      · exact (s.onlyAccess_bankPerform _ _).trans (State.onlyAccess_rsvCollide _ _ _ _ _)
      · exact (s.onlyAccess_bankPerform _ _).trans (ih _)
    · exact (s.onlyAccess_bankWord q).trans (State.onlyAccess_bankLosers _ _ _)

theorem State.onlyAccess_checkLine (s : State) (ini : Ini) (a : Nat) : s.onlyAccess (s.checkLine ini a).1 := by
  have hl : ∀ b, s.onlyAccess (s.logUe b ini a) := by
    intro b; unfold State.logUe; dsimp only
    refine State.onlyAccess.trans ?_ (State.onlyAccess_raise _ _ _)
    split <;> rfl
  unfold State.checkLine
  split
  · rfl
  · rfl
  · exact hl _
  · exact hl _

theorem State.onlyAccess_dramLine (s : State) (ini : Ini) (a : Nat) (wr : Bool) (d : Line) (m : BitVec 64) :
    s.onlyAccess (s.dramLine ini a wr d m).1 := by
  have hc := s.onlyAccess_checkLine ini a
  unfold State.dramLine
  dsimp only
  split
  · rfl
  split
  · rfl
  split
  · revert hc; rcases s.checkLine ini a with ⟨u, _ | _⟩ <;> exact id
  · have hm : s.onlyAccess (if m = BitVec.allOnes 64 then (s, true) else s.checkLine ini a).1 := by
      split
      · rfl
      · exact hc
    revert hm
    rcases (if m = BitVec.allOnes 64 then (s, true) else s.checkLine ini a) with ⟨u, _ | _⟩
    · exact id
    · intro hm; exact hm.trans ((State.onlyAccess_writeLine _ _ _ _ _).trans rfl)

theorem State.onlyAccess_dramFlit (s : State) (x : Txn) : s.onlyAccess (s.dramFlit x) :=
  (s.onlyAccess_dramLine _ _ _ _ _).trans (State.onlyAccess_flitServed _ _ _ _ _)

theorem State.onlyAccess_drcDrain (n : Nat) (s : State) : s.onlyAccess (State.drcDrain n s) := by
  induction n generalizing s with
  | zero => rfl
  | succ n ih =>
    unfold State.drcDrain; split
    · exact (s.onlyAccess_dramFlit _).trans (ih _)
    · rfl

theorem State.onlyAccess_reach (s : State) (ini : Ini) (f : Bool) (a : Nat) (wr : Bool) : s.onlyAccess (s.reach ini f a wr).1 := by
  unfold State.reach
  dsimp only
  refine State.onlyAccess.trans (u := s.awaitNi ini a wr) (by unfold State.awaitNi; split <;> rfl) ?_
  unfold State.countFlit; split
  · rfl
  · unfold State.countAt State.modNi; dsimp only; split <;> rfl

theorem State.onlyAccess_windowMiss (s : State) (ini : Ini) (o : Nat) (wr : Bool) : s.onlyAccess (s.windowMiss ini o wr).1 := by
  unfold State.windowMiss
  repeat' split
  · exact State.onlyAccess_violate _ _ _ _ _ _
  · rfl
  · rfl
  · exact State.onlyAccess_holeCapture _ _ _ _
  · exact State.onlyAccess_violate _ _ _ _ _ _

theorem State.onlyAccess_biUnit (s : State) (ini : Ini) (line : Nat) : s.onlyAccess (s.biUnit ini line).1 := by
  unfold State.biUnit; dsimp only; split <;> rfl

/-- A unit's read of a line touches what an access can touch, and nothing else. -/
theorem State.onlyAccess_lineRead (s : State) (ini : Ini) (f : Bool) (a : Nat) : s.onlyAccess (s.lineRead ini f a).1 := by
  have hr := s.onlyAccess_reach ini f a false
  unfold State.lineRead
  generalize s.reach ini f a false = R at hr
  obtain ⟨s1, st⟩ := R
  cases st <;> try exact hr
  dsimp only at hr ⊢
  refine hr.trans ?_
  split
  · rfl
  · exact State.onlyAccess_bankServe _ _ _
  · have hd := State.onlyAccess_drcDrain s1.flitsLeft s1
    split
    · exact hd.trans rfl
    · exact hd.trans (State.onlyAccess_dramLine _ _ _ _ _ _)
  · exact State.onlyAccess_windowMiss _ _ _ _
  · split <;> rfl
  · split <;> rfl
  · rfl

/-- A unit's write to a line touches what an access can touch, and nothing else. -/
theorem State.onlyAccess_lineWrite (s : State) (ini : Ini) (f : Bool) (a : Nat) (d : Line) (m : BitVec 64) :
    s.onlyAccess (s.lineWrite ini f a d m).1 := by
  have hr := s.onlyAccess_reach ini f a true
  unfold State.lineWrite
  generalize s.reach ini f a true = R at hr
  obtain ⟨s1, st⟩ := R
  cases st <;> try exact hr
  dsimp only at hr ⊢
  refine hr.trans ?_
  split
  · rfl
  · exact State.onlyAccess_bankServe _ _ _
  · have hd := State.onlyAccess_drcDrain s1.flitsLeft s1
    split
    · exact hd.trans rfl
    · refine hd.trans ?_
      have hb := (State.drcDrain s1.flitsLeft s1).onlyAccess_biUnit ini (a / 64)
      revert hb
      rcases (State.drcDrain s1.flitsLeft s1).biUnit ini (a / 64) with ⟨u, _ | _ | _⟩
      · intro hb; exact hb.trans rfl
      · exact id
      · intro hb; exact hb.trans (State.onlyAccess_dramLine _ _ _ _ _ _)
  · exact State.onlyAccess_windowMiss _ _ _ _
  · rfl
  · rfl
  · rfl

theorem State.onlyAccess_memRead (s : State) (ini : Ini) (a n : Nat) : s.onlyAccess (s.memRead ini a n).1 := by
  unfold State.memRead
  generalize linePieces a n = l
  have key : ∀ (l : List (Nat × Nat)) (acc : State × Status × List Byte), s.onlyAccess acc.1 →
      s.onlyAccess (l.foldl (fun (acc : State × Status × List Byte) p =>
        match acc.1.lineRead ini (p.1 == a) p.1 with
        | (u, st, d) => (u, firstBad acc.2.1 st, acc.2.2 ++ sliceBytes (bytesOf 64 d.toNat) (p.1 % 64) p.2)) acc).1 := by
    intro l
    induction l with
    | nil => intro acc h; exact h
    | cons p l ih => intro acc h; exact ih _ (h.trans (acc.1.onlyAccess_lineRead _ _ _))
  exact key l _ s.onlyAccess_refl

theorem State.onlyAccess_memWrite (s : State) (ini : Ini) (a : Nat) (b : List Byte) : s.onlyAccess (s.memWrite ini a b).1 := by
  unfold State.memWrite
  generalize linePieces a b.length = l
  have key : ∀ (l : List (Nat × Nat)) (acc : State × Status), s.onlyAccess acc.1 →
      s.onlyAccess (l.foldl (fun (acc : State × Status) p =>
        match acc.1.lineWrite ini (p.1 == a) p.1 (BitVec.ofNat 512 (ofBytes (sliceBytes b (p.1 - a) p.2) * 2 ^ (8 * (p.1 % 64))))
            (BitVec.ofNat 64 ((2 ^ p.2 - 1) * 2 ^ (p.1 % 64))) with
        | (u, st) => (u, firstBad acc.2 st)) acc).1 := by
    intro l
    induction l with
    | nil => intro acc h; exact h
    | cons p l ih => intro acc h; exact ih _ (h.trans (acc.1.onlyAccess_lineWrite _ _ _ _ _))
  exact key l _ s.onlyAccess_refl

/-- Memory and the transactions at the blocks are as they were. -/
def State.sameMemory (s u : State) : Prop := u.mem = s.mem ∧ u.ocn.txns = s.ocn.txns

theorem State.sameMemory.trans {s u v : State} (h : s.sameMemory u) (g : u.sameMemory v) : s.sameMemory v := ⟨g.1.trans h.1, g.2.trans h.2⟩

theorem State.sameMemory_raise (s : State) (p i : Nat) : s.sameMemory (s.raise p i) := by
  unfold State.raise; dsimp only; split <;> exact ⟨rfl, rfl⟩

theorem State.sameMemory_violate (s : State) (p f : Nat) (ini : Ini) (o : Nat) (w : Bool) : s.sameMemory (s.violate p f ini o w) := by
  have h : ∀ v, s.sameMemory ((s.setReg (p + hErr) v).raise p 31) := fun v =>
    State.sameMemory.trans (u := s.setReg (p + hErr) v) ⟨rfl, rfl⟩ (State.sameMemory_raise _ _ _)
  exact h _

theorem State.sameMemory_windowMiss (s : State) (ini : Ini) (o : Nat) (wr : Bool) : s.sameMemory (s.windowMiss ini o wr).1 := by
  unfold State.windowMiss
  repeat' split
  · exact State.sameMemory_violate _ _ _ _ _ _
  · exact ⟨rfl, rfl⟩
  · exact ⟨rfl, rfl⟩
  · unfold State.holeCapture; dsimp only
    refine State.sameMemory.trans ?_ (State.sameMemory_raise _ _ _)
    split <;> exact ⟨rfl, rfl⟩
  · exact State.sameMemory_violate _ _ _ _ _ _

theorem State.sameMemory_checkLine (s : State) (ini : Ini) (a : Nat) : s.sameMemory (s.checkLine ini a).1 := by
  have hl : ∀ b, s.sameMemory (s.logUe b ini a) := by
    intro b; unfold State.logUe; dsimp only
    refine State.sameMemory.trans ?_ (State.sameMemory_raise _ _ _)
    split <;> exact ⟨rfl, rfl⟩
  unfold State.checkLine
  split
  · exact ⟨rfl, rfl⟩
  · exact ⟨rfl, rfl⟩
  · exact hl _
  · exact hl _

theorem State.sameMemory_reach (s : State) (ini : Ini) (f : Bool) (a : Nat) (wr : Bool) : s.sameMemory (s.reach ini f a wr).1 := by
  unfold State.reach
  dsimp only
  refine State.sameMemory.trans (u := s.awaitNi ini a wr) (by unfold State.awaitNi; split <;> exact ⟨rfl, rfl⟩) ?_
  unfold State.countFlit; split
  · exact ⟨rfl, rfl⟩
  · unfold State.countAt State.modNi; dsimp only; split <;> exact ⟨rfl, rfl⟩

/-- With no request waiting at a bank, a unit's access to a word is performed by itself. -/
theorem State.bankServe_alone (q : WordReq) {s : State} (h : s.ocn.txns = []) : State.bankServe q s.flitsLeft s = s.bankWord q := by
  have hp : ∀ b, s.presented b = [] := by
    intro b; unfold State.presented; rw [h]; rfl
  unfold State.flitsLeft State.bankServe
  dsimp only
  rw [hp]
  generalize s.bankWord q = z
  rcases z with ⟨u, st, x⟩
  simp [State.bankLosers, pickReq]

theorem State.drcNext_alone {s : State} (h : s.ocn.txns = []) : s.drcNext = none := by
  unfold State.drcNext State.drcQueue; rw [h]; rfl

theorem State.lineHeld_alone {s : State} (h : s.ocn.txns = []) (line : Nat) : s.lineHeld s.drcQueue line = false := by
  unfold State.lineHeld State.drcQueue; rw [h]; rfl

/-- With no request waiting, a unit's read leaves memory alone. -/
theorem State.sameMemory_lineRead (s : State) (ini : Ini) (f : Bool) (a : Nat) (h : s.ocn.txns = []) : s.sameMemory (s.lineRead ini f a).1 := by
  have hr := s.sameMemory_reach ini f a false
  unfold State.lineRead
  generalize s.reach ini f a false = R at hr
  obtain ⟨s1, st⟩ := R
  cases st <;> try exact hr
  dsimp only at hr ⊢
  have h1 : s1.ocn.txns = [] := hr.2.trans h
  refine hr.trans ?_
  split
  · exact ⟨rfl, rfl⟩
  · rw [State.bankServe_alone _ h1]
    unfold State.bankWord unitReq; dsimp only
    split
    · exact ⟨rfl, rfl⟩
    · split
      · unfold State.rsvViolate; dsimp only
        refine State.sameMemory.trans ?_ (State.sameMemory_raise _ _ _)
        split <;> exact ⟨rfl, rfl⟩
      · exact ⟨rfl, rfl⟩
  · rw [State.drcDrain_none (State.drcNext_alone h1), State.lineHeld_alone h1]
    simp only [Bool.false_eq_true, if_false]
    have hc := s1.sameMemory_checkLine ini (a / 64 * 64)
    unfold State.dramLine; dsimp only
    split
    · exact ⟨rfl, rfl⟩
    · split
      · exact ⟨rfl, rfl⟩
      · simp only [Bool.not_false, if_true]
        revert hc
        rcases s1.checkLine ini (a / 64 * 64) with ⟨u, _ | _⟩ <;> exact id
  · exact State.sameMemory_windowMiss _ _ _ _
  · split <;> exact ⟨rfl, rfl⟩
  · split <;> exact ⟨rfl, rfl⟩
  · exact ⟨rfl, rfl⟩

theorem State.sameMemory_memRead (s : State) (ini : Ini) (a n : Nat) (h : s.ocn.txns = []) : s.sameMemory (s.memRead ini a n).1 := by
  unfold State.memRead
  generalize linePieces a n = l
  have key : ∀ (l : List (Nat × Nat)) (acc : State × Status × List Byte), s.sameMemory acc.1 →
      s.sameMemory (l.foldl (fun (acc : State × Status × List Byte) p =>
        match acc.1.lineRead ini (p.1 == a) p.1 with
        | (u, st, d) => (u, firstBad acc.2.1 st, acc.2.2 ++ sliceBytes (bytesOf 64 d.toNat) (p.1 % 64) p.2)) acc).1 := by
    intro l
    induction l with
    | nil => intro acc h; exact h
    | cons p l ih => intro acc g; exact ih _ (g.trans (acc.1.sameMemory_lineRead _ _ _ (g.2.trans h)))
  exact key l _ ⟨rfl, rfl⟩

end Sys2Proof.Machine
end

