-- ==== Sys2Proof/Laws/Bits.lean ====
section
/-!
SUPPORT. Bits and fields of bit vectors: what a set bit, a cleared bit and a replaced field read as.
-/
namespace Sys2Proof.Machine

variable {m : Nat}

theorem bit_setBit (w : BitVec m) (i k : Nat) : bit (setBit w i) k = (bit w k || (decide (k < m) && decide (i = k))) := by
  simp only [bit, setBit, BitVec.getLsbD_or, BitVec.getLsbD_ofNat, Nat.testBit_two_pow]

theorem bit_clrBit (w : BitVec m) (i k : Nat) : bit (clrBit w i) k = (bit w k && !decide (i = k)) := by
  simp only [bit, clrBit, BitVec.getLsbD_and, BitVec.getLsbD_not, BitVec.getLsbD_ofNat, Nat.testBit_two_pow]
  by_cases h : k < m
  · simp [h]
  · simp [h, BitVec.getLsbD_of_ge w k (by omega)]

theorem bit_putBit (w : BitVec m) (i k : Nat) (b : Bool) (h : i < m) : bit (putBit w i b) k = if k = i then b else bit w k := by
  unfold putBit
  split
  · rename_i hb; rw [bit_setBit]; by_cases e : k = i
    · simp [e, h, hb]
    · simp [e, Ne.symm e]
  · rename_i hb; rw [bit_clrBit]; by_cases e : k = i
    · simp [e]; simpa using hb
    · simp [e, Ne.symm e]

/-- The bits of a field. -/
theorem testBit_fld (w : BitVec m) (lo n j : Nat) : (fld w lo n).testBit j = (decide (j < n) && w.getLsbD (j + lo)) := by
  rw [fld, Nat.testBit_mod_two_pow, Nat.testBit_div_two_pow]; rfl

theorem fld_lt (w : BitVec m) (lo n : Nat) : fld w lo n < 2 ^ n := Nat.mod_lt _ (by positivity)

theorem testBit_mask (lo n j : Nat) : Nat.testBit ((2 ^ n - 1) * 2 ^ lo) j = (decide (lo ≤ j) && decide (j - lo < n)) := by
  rw [Nat.testBit_mul_two_pow]; simp

/-- A bit of a word whose field was replaced. -/
theorem getLsbD_setFld (w : BitVec m) (lo n v j : Nat) (h : j < m) :
    (setFld w lo n v).getLsbD j = if lo ≤ j ∧ j < lo + n then (v % 2 ^ n).testBit (j - lo) else w.getLsbD j := by
  unfold setFld maskOf
  rw [BitVec.getLsbD_or, BitVec.getLsbD_and, BitVec.getLsbD_not, BitVec.getLsbD_ofNat, BitVec.getLsbD_ofNat, testBit_mask,
    Nat.testBit_mul_two_pow]
  by_cases h1 : lo ≤ j
  · by_cases h2 : j < lo + n
    · have h3 : j - lo < n := by omega
      simp [h, h1, h2, h3]
    · have h3 : ¬ j - lo < n := by omega
      simp [h, h1, h2, h3, Nat.testBit_mod_two_pow]
  · simp [h, h1]

theorem fld_setFld_self (w : BitVec m) (lo n v : Nat) (h : lo + n ≤ m) : fld (setFld w lo n v) lo n = v % 2 ^ n := by
  apply Nat.eq_of_testBit_eq
  intro j
  rw [testBit_fld]
  by_cases hj : j < n
  · rw [getLsbD_setFld _ _ _ _ _ (by omega), if_pos (by omega)]; simp [hj]
  · simp [hj, Nat.testBit_mod_two_pow]

theorem fld_setFld_ne (w : BitVec m) (lo n v l k : Nat) (h : l + k ≤ m) (hd : lo + n ≤ l ∨ l + k ≤ lo) : fld (setFld w lo n v) l k = fld w l k := by
  apply Nat.eq_of_testBit_eq
  intro j
  rw [testBit_fld, testBit_fld]
  by_cases hj : j < k
  · rw [getLsbD_setFld _ _ _ _ _ (by omega), if_neg (by omega)]
  · simp [hj]

theorem bit_setFld_ne (w : BitVec m) (lo n v i : Nat) (h : i < m) (hd : i < lo ∨ lo + n ≤ i) : bit (setFld w lo n v) i = bit w i := by
  unfold bit; rw [getLsbD_setFld _ _ _ _ _ h, if_neg (by omega)]

end Sys2Proof.Machine
end

