-- ==== Sys2Proof/Laws/Cores.lean ====
section
/-!
SUPPORT. The rider cores: a bank's registers, frame state and slots under the updates that instructions make.
-/
namespace Sys2Proof.Machine

theorem State.core_modCore (s : State) (c k : Nat) (f : CoreSt → CoreSt) : (s.modCore c f).core k = if k = c then f (s.core c) else s.core k := by
  unfold State.core State.modCore; exact tget_tset _ _ _ _ _

theorem State.bank_modBank (s : State) (c b k j : Nat) (f : Bank → Bank) :
    (s.modBank c b f).bank k j = if k = c ∧ j = b then f (s.bank c b) else s.bank k j := by
  unfold State.bank State.modBank
  rw [State.core_modCore]
  by_cases h : k = c
  · subst h
    rw [if_pos rfl]
    show tget {} (tset {} (s.core k).banks b (f ((s.core k).bank b))) j = _
    rw [tget_tset]
    by_cases h' : j = b <;> simp [h', CoreSt.bank]
  · rw [if_neg h, if_neg (fun g => h g.1)]

@[simp] theorem State.bank_modBank_self (s : State) (c b : Nat) (f : Bank → Bank) : (s.modBank c b f).bank c b = f (s.bank c b) := by
  rw [State.bank_modBank, if_pos ⟨rfl, rfl⟩]

@[simp] theorem State.bank_setCsr (s : State) (c n k j : Nat) (v : DWord) : (s.setCsr c n v).bank k j = s.bank k j := by
  unfold State.setCsr State.bank; rw [State.core_modCore]; split
  · rename_i h; rw [h]; rfl
  · rfl

@[simp] theorem State.bank_coreCount (s : State) (c n k j : Nat) : (s.coreCount c n).bank k j = s.bank k j := by
  unfold State.coreCount State.bank; rw [State.core_modCore]; split
  · rename_i h; rw [h]; rfl
  · rfl

@[simp] theorem State.bank_retire (s : State) (c k j : Nat) : (s.retire c).bank k j = s.bank k j := by
  unfold State.retire; split
  · rfl
  · exact State.bank_setCsr _ _ _ _ _ _

@[simp] theorem State.mem_retire (s : State) (c : Nat) : (s.retire c).mem = s.mem := by unfold State.retire; split <;> rfl
@[simp] theorem State.hts_retire (s : State) (c : Nat) : (s.retire c).hts = s.hts := by unfold State.retire; split <;> rfl
@[simp] theorem State.powered_retire (s : State) (c : Nat) : (s.retire c).powered = s.powered := by unfold State.retire; split <;> rfl

/-- A change that leaves the banks' states and threads, the mode and the threads leaves the choice of the executing bank. -/
theorem State.execBank_of (s t : State) (c : Nat) (hh : t.halted = s.halted) (ht : t.hts = s.hts) (hp : t.pio = s.pio)
    (hs : ∀ b, (t.bank c b).st = (s.bank c b).st ∧ (t.bank c b).thr = (s.bank c b).thr) : t.execBank c = s.execBank c := by
  have ha : (t.core c).active = (s.core c).active := by
    unfold CoreSt.active
    have : (fun b => (((t.core c).bank b).st == .active)) = (fun b => (((s.core c).bank b).st == .active)) := by
      funext b; exact congrArg (· == BankState.active) (hs b).1
    rw [this]
  unfold State.execBank State.runBank
  rw [hh, hp, ha]
  split
  · rfl
  · split
    · rfl
    · cases hc : (s.core c).active with
      | none => rfl
      | some b =>
        have hb : t.thr (t.bank c b).thr = s.thr (s.bank c b).thr := by unfold State.thr; rw [(hs b).2, ht]
        simp only [hb]

/-! ### One bank -/

@[simp] theorem Bank.low_setSlot (x : Bank) (i : Nat) (v : DWord) : (x.setSlot i v).low = tset 0 x.low i v := rfl
@[simp] theorem Bank.up_setSlot (x : Bank) (i : Nat) (v : DWord) : (x.setSlot i v).up = x.up := rfl
@[simp] theorem Bank.st_setSlot (x : Bank) (i : Nat) (v : DWord) : (x.setSlot i v).st = x.st := rfl
@[simp] theorem Bank.thr_setSlot (x : Bank) (i : Nat) (v : DWord) : (x.setSlot i v).thr = x.thr := rfl
@[simp] theorem Bank.mst_setSlot (x : Bank) (i : Nat) (v : DWord) : (x.setSlot i v).mst = x.mst := rfl
@[simp] theorem Bank.priv_setSlot (x : Bank) (i : Nat) (v : DWord) : (x.setSlot i v).priv = x.priv := rfl

theorem Bank.slot_setSlot (x : Bank) (i j : Nat) (v : DWord) (hi : i ≠ slotPriv) : (x.setSlot i v).slot j = if j = i then v else x.slot j := by
  unfold Bank.slot
  by_cases h : j = slotPriv
  · subst h; rw [if_pos rfl, if_pos rfl, if_neg (fun g => hi g.symm)]; rfl
  · rw [if_neg h, if_neg h]; exact tget_tset _ _ _ _ _

theorem Bank.pc_setSlot (x : Bank) (i : Nat) (v : DWord) : (x.setSlot i v).pc = if slotPc = i then v else x.pc := tget_tset _ _ _ _ _
@[simp] theorem Bank.pc_setPc (x : Bank) (v : DWord) : (x.setPc v).pc = v := by unfold Bank.setPc; rw [Bank.pc_setSlot, if_pos rfl]

@[simp] theorem Bank.kf_setSlot_kf (x : Bank) (v : DWord) : (x.setSlot slotKf v).kf = v := by
  unfold Bank.kf; rw [Bank.slot_setSlot _ _ _ _ (by decide), if_pos rfl]
theorem Bank.kf_setSlot_ne (x : Bank) (i : Nat) (v : DWord) (h : i ≠ slotKf) : (x.setSlot i v).kf = x.kf := by
  show tget 0 (tset 0 x.low i v) slotKf = tget 0 x.low slotKf
  exact tget_tset_ne _ _ _ (fun g => h g.symm)
@[simp] theorem Bank.kf_setPc (x : Bank) (v : DWord) : (x.setPc v).kf = x.kf := Bank.kf_setSlot_ne _ _ _ (by decide)
@[simp] theorem Bank.kf_kfSet (x : Bank) (lo n v : Nat) : (x.kfSet lo n v).kf = setFld x.kf lo n v := Bank.kf_setSlot_kf _ _
@[simp] theorem Bank.pc_kfSet (x : Bank) (lo n v : Nat) : (x.kfSet lo n v).pc = x.pc := by
  unfold Bank.kfSet; rw [Bank.pc_setSlot, if_neg (by decide)]
@[simp] theorem Bank.up_kfSet (x : Bank) (lo n v : Nat) : (x.kfSet lo n v).up = x.up := rfl

/-- Globals and pass registers do not see the frame state, the pc or the saved registers. -/
theorem Bank.x_low_setSlot (x : Bank) (i r : Nat) (v : DWord) (hr : r < 16) (hi : 15 ≤ i) : (x.setSlot i v).x r = x.x r := by
  unfold Bank.x
  split
  · rfl
  · exact tget_tset_ne _ _ _ (by omega)

/-- What a register reads after a write. -/
theorem Bank.x_setX (x : Bank) (r j : Nat) (v : DWord) (hr : r < 32) (hj : j < 32) : (x.setX r v).x j = if j = r ∧ j ≠ 0 then v else x.x j := by
  by_cases h0 : r = 0
  · subst h0; rw [if_neg (by omega)]; rfl
  · by_cases hl : r < 16
    · have e : x.setX r v = x.setSlot (r - 1) v := by unfold Bank.setX; rw [if_neg h0, if_pos hl]
      rw [e]
      have hk : (x.setSlot (r - 1) v).kf = x.kf := Bank.kf_setSlot_ne _ _ _ (by unfold slotKf; omega)
      have hf : (x.setSlot (r - 1) v).frame = x.frame := by unfold Bank.frame Bank.inTrap Bank.tf Bank.tdep Bank.cur; rw [hk]
      unfold Bank.x
      rw [hf]
      by_cases hj0 : j = 0
      · rw [if_pos hj0, if_pos hj0, if_neg (by omega)]
      · rw [if_neg hj0, if_neg hj0]
        by_cases hj16 : j < 16
        · rw [if_pos hj16, if_pos hj16]
          show tget 0 (tset 0 x.low (r - 1) v) (j - 1) = _
          rw [tget_tset]
          by_cases hjr : j = r
          · rw [if_pos (by omega), if_pos ⟨hjr, hj0⟩]
          · rw [if_neg (by omega), if_neg (by omega)]
        · rw [if_neg hj16, if_neg hj16, if_neg (by omega)]; rfl
    · have e : x.setX r v = { x with up := tset 0 x.up (x.frame + (r - 16)) v } := by unfold Bank.setX; rw [if_neg h0, if_neg hl]
      rw [e]
      have hf : ({ x with up := tset 0 x.up (x.frame + (r - 16)) v } : Bank).frame = x.frame := rfl
      unfold Bank.x
      rw [hf]
      by_cases hj0 : j = 0
      · rw [if_pos hj0, if_pos hj0, if_neg (by omega)]
      · rw [if_neg hj0, if_neg hj0]
        by_cases hj16 : j < 16
        · rw [if_pos hj16, if_pos hj16, if_neg (by omega)]
        · rw [if_neg hj16, if_neg hj16]
          show tget 0 (tset 0 x.up (x.frame + (r - 16)) v) (x.frame + (j - 16)) = _
          rw [tget_tset]
          by_cases hjr : j = r
          · rw [if_pos (by omega), if_pos ⟨hjr, hj0⟩]
          · rw [if_neg (by omega), if_neg (by omega)]

/-- The pc is no numbered register. -/
theorem Bank.x_setPc (x : Bank) (r : Nat) (v : DWord) : (x.setPc v).x r = x.x r := by
  have hf : (x.setPc v).frame = x.frame := by unfold Bank.frame Bank.inTrap Bank.tf Bank.tdep Bank.cur; rw [Bank.kf_setPc]
  by_cases h : r < 16
  · exact Bank.x_low_setSlot _ _ _ _ h (by decide)
  · unfold Bank.x; rw [hf]; simp [h, Bank.setPc]

@[simp] theorem Bank.pc_setX (x : Bank) (r : Nat) (v : DWord) (h : r < 32) : (x.setX r v).pc = x.pc := by
  unfold Bank.setX; split
  · rfl
  · split
    · rw [Bank.pc_setSlot, if_neg (by unfold slotPc; omega)]
    · rfl

/-! ### Stalls (R335, R337) -/

/-- An instruction is performed or the core stands as it was. -/
theorem State.issue_cases (s : State) (c b : Nat) (op : Option XkOp) (u : State) : s.issue c b op u = u ∨ s.issue c b op u = s := by
  unfold State.issue; split
  · exact .inl rfl
  · exact .inr rfl

/-- Nothing stalls while no Xkctx instruction waits in the bank and the register engine owes it no frame. -/
theorem State.issue_of_idle (s : State) (c b : Nat) (op : Option XkOp) (u : State) (hc : (s.bank c b).cont = none)
    (hd : s.frameDue c b = []) : s.issue c b op u = u := by
  simp [State.issue, State.issues, hc, hd]

/-- Noting a wake edge touches the AON block's wake bits alone. -/
theorem State.noteWake_only (s : State) (k : Nat) : s.noteWake k = { s with aon := { s.aon with wake := (s.noteWake k).aon.wake } } := by
  unfold State.noteWake; split <;> rfl

end Sys2Proof.Machine
end

