-- ==== Sys2Proof/Laws/Fabric.lean ====
section
/-!
SUPPORT. The tiles: what a transfer of a word, and the consumption of an input, leave alone.
-/
namespace Sys2Proof.Machine

theorem Tile.sameCore_refl (T : Tile) : T.sameCore T := ⟨rfl, rfl, rfl, rfl, rfl, rfl, rfl, rfl, rfl⟩

theorem Tile.sameCore_trans {T U V : Tile} (h : T.sameCore U) (g : U.sameCore V) : T.sameCore V := by
  unfold Tile.sameCore at *
  simp_all

/-- A change of one tile that keeps its core keeps the core of every tile. -/
theorem State.core_modTile (s : State) (t k : Nat) (f : Tile → Tile) (h : ∀ T : Tile, T.sameCore (f T)) :
    (s.tile k).sameCore ((s.modTile t f).tile k) := by
  unfold State.modTile
  rw [State.tile_setTile]
  split
  · rename_i e; rw [e]; exact h _
  · exact Tile.sameCore_refl _

theorem State.onlyTiles_refl (s : State) : s.onlyTiles s := ⟨rfl, rfl, rfl, fun _ _ => rfl⟩

theorem State.onlyTiles_trans {s u v : State} (h : s.onlyTiles u) (g : u.onlyTiles v) : s.onlyTiles v :=
  ⟨by rw [g.1, h.1], g.2.1.trans h.2.1, g.2.2.1.trans h.2.2.1, fun o ho => (g.2.2.2 o ho).trans (h.2.2.2 o ho)⟩

theorem State.onlyTiles_setReg (s : State) {r off : Nat} (w : Word) (h : lineReg r off) : s.onlyTiles (s.setReg off w) :=
  ⟨rfl, rfl, rfl, fun o ho => by
    rw [State.reg_setReg, if_neg (show ¬ o = off from fun e => ho ⟨r, e.symm ▸ h⟩)]⟩

theorem State.onlyTiles_toPort (s : State) (k : Nat) (o : Occ) : s.onlyTiles (s.toPort k o) := ⟨rfl, rfl, rfl, fun _ _ => rfl⟩

/-- Loading the line-fault registers of a region changes no other register. -/
theorem State.onlyTiles_loadLine (s : State) (r c p : Nat) (drv : List Nat) (ovf : Bool) : s.onlyTiles (s.loadLine r c p drv ovf) :=
  State.onlyTiles_trans (State.onlyTiles_trans (State.onlyTiles_trans
    (State.onlyTiles_setReg (r := r) _ _ (.inl rfl)) (State.onlyTiles_setReg (r := r) _ _ (.inr (.inl rfl))))
    (State.onlyTiles_setReg (r := r) _ _ (.inr (.inr (.inl rfl))))) (State.onlyTiles_setReg (r := r) _ _ (.inr (.inr (.inr (.inl rfl)))))

theorem State.onlyTiles_raiseLine (s : State) (r i : Nat) : s.onlyTiles (s.raise (frgPage r) i) := by
  have h : s.onlyTiles (s.modReg (frgPage r + hEvtRaw) (fun w => setBit w i)) :=
    State.onlyTiles_setReg (r := r) _ _ (.inr (.inr (.inr (.inr rfl))))
  unfold State.raise; dsimp only; split
  · exact State.onlyTiles_trans h (State.onlyTiles_toPort _ _ _)
  · exact h

theorem State.onlyTiles_captureLine (s : State) (r c p : Nat) (drv : List Nat) : s.onlyTiles (s.captureLine r c p drv) := by
  unfold State.captureLine; dsimp only
  refine State.onlyTiles_trans ?_ (State.onlyTiles_raiseLine _ r 8)
  split
  · exact s.onlyTiles_loadLine r c p drv _
  · split
    · exact s.onlyTiles_loadLine r c p drv _
    · exact State.onlyTiles_setReg (r := r) _ _ (.inl rfl)

theorem State.onlyTiles_driveOn (s : State) (r c p i : Nat) (w : Word) : s.onlyTiles (s.driveOn r c p i w) := by
  have h1 : ∀ l : ChLine, s.onlyTiles ((s.modRgn r (fun g => { g with lines := tput g.lines (lineKey c p) l })).foutLoad r c p l.word) :=
    fun l => ⟨rfl, rfl, rfl, fun _ _ => rfl⟩
  unfold State.driveOn; dsimp only
  split
  · exact h1 _
  · split
    · exact State.onlyTiles_trans (h1 _) (State.onlyTiles_trans (State.onlyTiles_captureLine _ r c p _) ⟨rfl, rfl, rfl, fun _ _ => rfl⟩)
    · split
      · unfold State.joinLine; dsimp only; split
        · exact State.onlyTiles_trans (h1 _) (State.onlyTiles_loadLine _ r c p _ _)
        · exact h1 _
      · exact h1 _

theorem State.raise_tiles (s : State) (pg i : Nat) : (s.raise pg i).fab.tiles = s.fab.tiles := by
  unfold State.raise; dsimp only; split <;> rfl

theorem State.driveOn_tiles (s : State) (r c p i : Nat) (w : Word) : (s.driveOn r c p i w).fab.tiles = s.fab.tiles := by
  have hc : ∀ (u : State) l, (u.captureLine r c p l).fab.tiles = u.fab.tiles := by
    intro u l; unfold State.captureLine; dsimp only; rw [State.raise_tiles]; split
    · rfl
    · split <;> rfl
  unfold State.driveOn; dsimp only
  split
  · rfl
  · split
    · exact hc _ _
    · split
      · unfold State.joinLine; dsimp only; split <;> rfl
      · rfl

/-- A drive of a channel line touches the line, the FOUT latches that read it, the probes and the region's line-fault registers; no
tile (R86 to R89, R168). -/
theorem State.tile_driveOn (s : State) (r c p i : Nat) (w : Word) (k : Nat) : (s.driveOn r c p i w).tile k = s.tile k :=
  congrArg (fun f : Tbl Tile => tget ({} : Tile) f k) (State.driveOn_tiles s r c p i w)

theorem State.core_deliver (s : State) (w : Word) (p : Point) (k : Nat) : (s.tile k).sameCore ((s.deliver w p).tile k) := by
  cases p with
  | chan t n => exact State.core_modTile _ _ _ _ (fun T => Tile.sameCore_refl _)
  | freg t n => exact State.core_modTile _ _ _ _ (fun T => Tile.sameCore_refl _)
  | xing t n => exact Tile.sameCore_refl _
  | lane r n i => exact Tile.sameCore_refl _
  | slot t c i => show (s.tile k).sameCore ((s.driveOn _ _ _ _ _).tile k); rw [State.tile_driveOn]; exact Tile.sameCore_refl _

/-- A transfer of a word moves it and nothing else: no register, accumulator, flag or tile-memory word changes. -/
theorem State.core_transfer (s : State) (t src k : Nat) : (s.tile k).sameCore ((s.transfer t src).tile k) := by
  unfold State.transfer
  split
  · exact Tile.sameCore_refl _
  · rename_i w hw
    split
    · have h0 : (s.tile k).sameCore ((s.takeSource t src).tile k) := by
        unfold State.takeSource
        refine State.core_modTile _ _ _ _ (fun T => ?_)
        split
        · exact Tile.sameCore_refl _
        · split <;> exact Tile.sameCore_refl _
      generalize s.takeSource t src = u at h0
      generalize s.sinks t src = l
      induction l generalizing u with
      | nil => exact h0
      | cons p l ih => exact ih _ (Tile.sameCore_trans h0 (State.core_deliver u w p k))
    · exact Tile.sameCore_refl _

theorem State.onlyTiles_modTile (s : State) (t : Nat) (f : Tile → Tile) : s.onlyTiles (s.modTile t f) := ⟨rfl, rfl, rfl, fun _ _ => rfl⟩

theorem State.onlyTiles_deliver (s : State) (w : Word) (p : Point) : s.onlyTiles (s.deliver w p) := by
  cases p with
  | slot t c i => exact State.onlyTiles_driveOn _ _ _ _ _ _
  | _ => exact ⟨rfl, rfl, rfl, fun _ _ => rfl⟩

theorem State.onlyTiles_transfer (s : State) (t src : Nat) : s.onlyTiles (s.transfer t src) := by
  unfold State.transfer
  split
  · exact State.onlyTiles_refl _
  · rename_i w hw
    split
    · have h0 : s.onlyTiles (s.takeSource t src) := State.onlyTiles_modTile _ _ _
      generalize s.takeSource t src = u at h0
      generalize s.sinks t src = l
      induction l generalizing u with
      | nil => exact h0
      | cons p l ih => exact ih _ (State.onlyTiles_trans h0 (State.onlyTiles_deliver u w p))
    · exact State.onlyTiles_refl _

theorem State.core_loadOut (s : State) (t src : Nat) (w : Word) (k : Nat) : (s.tile k).sameCore ((s.loadOut t src w).tile k) := by
  refine Tile.sameCore_trans (State.core_transfer s t src k) (State.core_modTile _ _ _ _ (fun T => ?_))
  split <;> exact Tile.sameCore_refl _

theorem State.onlyTiles_loadOut (s : State) (t src : Nat) (w : Word) : s.onlyTiles (s.loadOut t src w) :=
  State.onlyTiles_trans (State.onlyTiles_transfer s t src) (State.onlyTiles_modTile _ _ _)

theorem State.tile_modTile_ne (s : State) {t k : Nat} (f : Tile → Tile) (h : k ≠ t) : (s.modTile t f).tile k = s.tile k := by
  unfold State.modTile; rw [State.tile_setTile, if_neg h]

theorem State.core_loadOuts (s : State) (t : Nat) (a b : Bool) (w : Word) (k : Nat) : (s.tile k).sameCore ((s.loadOuts t a b w).tile k) := by
  unfold State.loadOuts
  have h : (s.tile k).sameCore ((if a then s.loadOut t 1 w else s).tile k) := by
    split
    · exact State.core_loadOut _ _ _ _ _
    · exact Tile.sameCore_refl _
  dsimp only
  split
  · exact Tile.sameCore_trans h (State.core_loadOut _ _ _ _ _)
  · exact h

theorem State.onlyTiles_loadOuts (s : State) (t : Nat) (a b : Bool) (w : Word) : s.onlyTiles (s.loadOuts t a b w) := by
  unfold State.loadOuts
  have h : s.onlyTiles (if a then s.loadOut t 1 w else s) := by
    split
    · exact State.onlyTiles_loadOut _ _ _ _
    · exact State.onlyTiles_refl _
  dsimp only
  split
  · exact State.onlyTiles_trans h (State.onlyTiles_loadOut _ _ _ _)
  · exact h

theorem State.core_consumePort (s : State) (t f hs p sel k : Nat) : (s.tile k).sameCore ((s.consumePort t f hs p sel).tile k) := by
  unfold State.consumePort
  refine State.core_modTile _ _ _ _ (fun T => ?_)
  unfold Tile.consume; split <;> exact Tile.sameCore_refl _

/-- Before a fire writes its result it has changed only the ports, the fired bit, the interlock and the head of its own FIFO. -/
theorem State.fireStart_spec (s : State) (t : Nat) (b : Bool) :
    s.onlyTiles (s.fireStart t b) ∧ (∀ k, k ≠ t → (s.tile k).sameCore ((s.fireStart t b).tile k)) ∧
    ∃ T, (s.tile t).sameCore T ∧ T.stage2 = (s.tile t).stage2 ∧ T.oa = (s.tile t).oa ∧ T.ob = (s.tile t).ob ∧ (s.fireStart t b).tile t = T.startFire (s.act t) b := by
  unfold State.fireStart
  refine ⟨State.onlyTiles_trans (State.onlyTiles_trans (State.onlyTiles_modTile _ _ _) (State.onlyTiles_modTile _ _ _)) (State.onlyTiles_modTile _ _ _), ?_, ?_⟩
  · intro k hk
    dsimp only
    rw [State.tile_modTile_ne _ _ hk]
    exact Tile.sameCore_trans (State.core_consumePort _ _ _ _ _ _ _) (State.core_consumePort _ _ _ _ _ _ _)
  · dsimp only
    refine ⟨_, Tile.sameCore_trans (State.core_consumePort _ _ _ _ _ _ _) (State.core_consumePort _ _ _ _ _ _ _), ?_, ?_, ?_, State.tile_modTile_self _ _ _⟩ <;>
      (unfold State.consumePort; rw [State.tile_modTile_self, State.tile_modTile_self]; unfold Tile.consume; split <;> split <;> rfl)

theorem Tile.startFire_keeps (T : Tile) (f : Nat) (b : Bool) :
    (T.startFire f b).pr = T.pr ∧ (T.startFire f b).sh = T.sh ∧ (T.startFire f b).acc = T.acc ∧ (T.startFire f b).flags = T.flags ∧
    (T.startFire f b).mem = T.mem ∧ (T.startFire f b).ptr = T.ptr ∧ (T.startFire f b).tail = T.tail ∧ (T.startFire f b).stage2 = T.stage2 ∧
    (T.startFire f b).oa = T.oa ∧ (T.startFire f b).ob = T.ob := by
  unfold Tile.startFire; dsimp only; split <;> exact ⟨rfl, rfl, rfl, rfl, rfl, rfl, rfl, rfl, rfl, rfl⟩

theorem Tile.writeReg_eq (T : Tile) (c d : Nat) (w : Word) :
    T.writeReg c d w = { T with pr := if d < 8 then tset 0 T.pr (8 * c + d) w else T.pr,
                                sh := if 8 ≤ d ∧ d < 16 then tset 0 T.sh (d - 8) w else T.sh } := by
  unfold Tile.writeReg
  by_cases h : d < 8
  · have : ¬ 8 ≤ d := by omega
    simp [h, this]
  · by_cases h' : d < 16
    · have : 8 ≤ d := by omega
      simp [h, h', this]
    · simp [h, h']

theorem Tile.writeMem_eq (T : Tile) (m b l a : Nat) (w : Word) :
    ∃ p tl n, T.writeMem m b l a w = { T with mem := if m = 2 ∨ 4 ≤ m then T.mem else tset 0 T.mem (T.memTarget m b a) w, ptr := p, tail := tl, count := n } := by
  unfold Tile.writeMem Tile.memTarget
  rcases m with _ | _ | _ | _ | m
  · exact ⟨T.ptr, T.tail, T.count, rfl⟩
  · exact ⟨_, T.tail, T.count, rfl⟩
  · exact ⟨T.ptr, T.tail, T.count, rfl⟩
  · exact ⟨T.ptr, _, _, rfl⟩
  · exact ⟨T.ptr, T.tail, T.count, by simp⟩

theorem Tile.writeResult_pr (T : Tile) (c f a : Nat) (o : FuOut) (g : Bool) :
   (T.writeResult c f a o g).pr = if o.idle = false ∧ fDreg f < 8 then tset 0 T.pr (8*c+fDreg f) o.res else T.pr := by
  unfold Tile.writeResult
  have hw : ∀ (T:Tile) m b l a w, (T.writeMem m b l a w).pr = T.pr := by
    intro T m b l a w; obtain ⟨p,t,n,h⟩ := T.writeMem_eq m b l a w; rw [h]
  dsimp only
  by_cases h : o.idle = true <;> cases hf : fFw f <;> cases g <;> simp [hw, h, hf, Tile.writeReg_eq]
theorem Tile.writeResult_sh (T : Tile) (c f a : Nat) (o : FuOut) (g : Bool) :
   (T.writeResult c f a o g).sh = if o.idle = false ∧ 8 ≤ fDreg f ∧ fDreg f < 16 then tset 0 T.sh (fDreg f - 8) o.res else T.sh := by
  unfold Tile.writeResult
  have hw : ∀ (T:Tile) m b l a w, (T.writeMem m b l a w).sh = T.sh := by
    intro T m b l a w; obtain ⟨p,t,n,h⟩ := T.writeMem_eq m b l a w; rw [h]
  dsimp only
  by_cases h : o.idle = true <;> cases hf : fFw f <;> cases g <;> simp [hw, h, hf, Tile.writeReg_eq]
theorem Tile.writeResult_acc (T : Tile) (c f a : Nat) (o : FuOut) (g : Bool) :
   (T.writeResult c f a o g).acc = T.acc := by
  unfold Tile.writeResult
  have hw : ∀ (T:Tile) m b l a w, (T.writeMem m b l a w).acc = T.acc := by
    intro T m b l a w; obtain ⟨p,t,n,h⟩ := T.writeMem_eq m b l a w; rw [h]
  dsimp only
  by_cases h : o.idle = true <;> cases hf : fFw f <;> cases g <;> simp [hw, h, hf, Tile.writeReg_eq]
theorem Tile.writeResult_flags (T : Tile) (c f a : Nat) (o : FuOut) (g : Bool) :
   (T.writeResult c f a o g).flags = if fFw f then tset 0 T.flags c (newFlags (tget 0 T.flags c) o) else T.flags := by
  unfold Tile.writeResult
  have hw : ∀ (T:Tile) m b l a w, (T.writeMem m b l a w).flags = T.flags := by
    intro T m b l a w; obtain ⟨p,t,n,h⟩ := T.writeMem_eq m b l a w; rw [h]
  dsimp only
  by_cases h : o.idle = true <;> cases hf : fFw f <;> cases g <;> simp [hw, h, hf, Tile.writeReg_eq]
theorem Tile.writeResult_mem (T : Tile) (c f a : Nat) (o : FuOut) (g : Bool) :
   (T.writeResult c f a o g).mem = if g = false ∨ fMode f = 2 ∨ 4 ≤ fMode f then T.mem else tset 0 T.mem (T.memTarget (fMode f) (fBase f) a) o.res := by
  unfold Tile.writeResult
  have hw : ∀ (T:Tile) m b l a w, (T.writeMem m b l a w).mem = if m = 2 ∨ 4 ≤ m then T.mem else tset 0 T.mem (T.memTarget m b a) w := by
    intro T m b l a w; obtain ⟨p,t,n,h⟩ := T.writeMem_eq m b l a w; rw [h]
  dsimp only
  by_cases h : o.idle = true <;> cases hf : fFw f <;> cases g <;> simp [hw, h, hf, Tile.writeReg_eq, Tile.memTarget]

theorem State.oa_deliver (s : State) (w : Word) (p : Point) (k : Nat) :
    ((s.deliver w p).tile k).oa = (s.tile k).oa ∧ ((s.deliver w p).tile k).ob = (s.tile k).ob := by
  have h : ∀ (t : Nat) (f : Tile → Tile), (∀ T, (f T).oa = T.oa ∧ (f T).ob = T.ob) →
      ((s.modTile t f).tile k).oa = (s.tile k).oa ∧ ((s.modTile t f).tile k).ob = (s.tile k).ob := by
    intro t f hf
    unfold State.modTile; rw [State.tile_setTile]; split
    · rename_i e; rw [e]; exact hf _
    · exact ⟨rfl, rfl⟩
  cases p with
  | chan t n => exact h _ _ (fun T => ⟨rfl, rfl⟩)
  | freg t n => exact h _ _ (fun T => ⟨rfl, rfl⟩)
  | xing t n => exact ⟨rfl, rfl⟩
  | lane r n i => exact ⟨rfl, rfl⟩
  | slot t c i =>
    show ((s.driveOn _ _ _ _ _).tile k).oa = _ ∧ _
    constructor <;> (first | rw [State.tile_driveOn] | (show ((s.driveOn _ _ _ _ _).tile k).ob = _; rw [State.tile_driveOn]))

/-- OB's word leaving does not touch OA. -/
theorem State.oa_transfer_ob (s : State) (t : Nat) : ((s.transfer t 2).tile t).oa = (s.tile t).oa := by
  unfold State.transfer
  split
  · rfl
  · rename_i w hw
    split
    · have h0 : ((s.takeSource t 2).tile t).oa = (s.tile t).oa := by
        unfold State.takeSource; rw [State.tile_modTile_self]; rfl
      generalize s.takeSource t 2 = u at h0
      generalize s.sinks t 2 = l
      induction l generalizing u with
      | nil => exact h0
      | cons p l ih => exact ih _ ((State.oa_deliver u w p t).1.trans h0)
    · rfl

/-- What the loads of a result leave in OA and OB. -/
theorem State.loadOuts_oa (s : State) (t : Nat) (b : Bool) (w : Word) : ((s.loadOuts t true b w).tile t).oa.val = some w := by
  have h : ((s.loadOut t 1 w).tile t).oa.val = some w := by
    unfold State.loadOut; rw [State.tile_modTile_self]; rfl
  unfold State.loadOuts
  cases b
  · exact h
  · show (((s.loadOut t 1 w).loadOut t 2 w).tile t).oa.val = some w
    generalize s.loadOut t 1 w = u at h
    unfold State.loadOut; rw [State.tile_modTile_self]; dsimp only
    rw [if_neg (by decide)]; dsimp only; rw [State.oa_transfer_ob]; exact h

theorem State.loadOuts_ob (s : State) (t : Nat) (a : Bool) (w : Word) : ((s.loadOuts t a true w).tile t).ob.val = some w := by
  unfold State.loadOuts
  dsimp only [if_true]
  unfold State.loadOut; rw [if_pos rfl, State.tile_modTile_self]; rfl

/-- Words that move leave the second stages as they are. -/
theorem State.stage2_modTile (s : State) (t k : Nat) (f : Tile → Tile) (h : ∀ T : Tile, (f T).stage2 = T.stage2) :
    ((s.modTile t f).tile k).stage2 = (s.tile k).stage2 := by
  unfold State.modTile; rw [State.tile_setTile]; split
  · rename_i e; rw [e]; exact h _
  · rfl

theorem State.stage2_deliver (s : State) (w : Word) (p : Point) (k : Nat) : ((s.deliver w p).tile k).stage2 = (s.tile k).stage2 := by
  cases p with
  | chan t n => exact State.stage2_modTile _ _ _ _ (fun _ => rfl)
  | freg t n => exact State.stage2_modTile _ _ _ _ (fun _ => rfl)
  | xing t n => rfl
  | lane r n i => rfl
  | slot t c i => show ((s.driveOn _ _ _ _ _).tile k).stage2 = _; rw [State.tile_driveOn]

theorem State.stage2_loadOut (s : State) (t src : Nat) (w : Word) (k : Nat) : ((s.loadOut t src w).tile k).stage2 = (s.tile k).stage2 := by
  have h : ((s.transfer t src).tile k).stage2 = (s.tile k).stage2 := by
    unfold State.transfer
    split
    · rfl
    · rename_i w hw
      split
      · have h0 : ((s.takeSource t src).tile k).stage2 = (s.tile k).stage2 := by
          unfold State.takeSource
          refine State.stage2_modTile _ _ _ _ (fun T => ?_)
          split
          · rfl
          · split <;> rfl
        generalize s.takeSource t src = u at h0
        generalize s.sinks t src = l
        induction l generalizing u with
        | nil => exact h0
        | cons p l ih => exact ih _ ((State.stage2_deliver u w p k).trans h0)
      · rfl
  unfold State.loadOut
  rw [State.stage2_modTile _ _ _ _ (fun T => by split <;> rfl), h]

theorem State.stage2_loadOuts (s : State) (t : Nat) (a b : Bool) (w : Word) : ((s.loadOuts t a b w).tile t).stage2 = (s.tile t).stage2 := by
  unfold State.loadOuts; dsimp only
  split <;> split <;> simp [State.stage2_loadOut]

/-- The tile-memory mode field has two bits. -/
theorem fMode_lt (f : Nat) : fMode f < 4 := by unfold fMode nfld; exact Nat.mod_lt _ (by decide)

@[simp] theorem State.rgn_cellEdge (s : State) (r k : Nat) : (s.cellEdge r).rgn k = s.rgn k := rfl
@[simp] theorem State.fcc_cellEdge (s : State) (r : Nat) : (s.cellEdge r).fcc = s.fcc := rfl
@[simp] theorem State.fcc_markCycle (s : State) (r : Nat) : (s.markCycle r).fcc = s.fcc := rfl
@[simp] theorem State.fcc_modRgn (s : State) (r : Nat) (f : RegionSt → RegionSt) : (s.modRgn r f).fcc = s.fcc := rfl

/-- The mark of a cycle leaves all of a region but the mark. -/
theorem State.rgn_markCycle (s : State) (r : Nat) : ∃ m, (s.markCycle r).rgn r = { s.rgn r with mark := m } :=
  ⟨_, State.rgn_modRgn_self _ _ _⟩

/-- A region that powers off is OFF (R117). -/
theorem State.regionOff_st (s : State) (r : Nat) : ((s.regionOff r).rgn r).st = .off := by
  have h : ∀ (l : List Nat) (f : State → Nat → State) (u : State), (∀ v d, (f v d).fab = v.fab) → (l.foldl f u).fab = u.fab := by
    intro l
    induction l with
    | nil => intros; rfl
    | cons a l ih => intro f u hf; rw [List.foldl_cons, ih f _ hf, hf]
  simp only [State.regionOff]
  generalize hs : State.hgRefuse _ r = v
  show (tget {} (State.fab _).rgn r).st = _
  rw [show ∀ (u : State) o w, (u.setReg o w).fab = u.fab from fun _ _ _ => rfl, h]
  · exact congrArg RegionSt.st (State.rgn_modRgn_self v r _)
  · intro w d; split <;> rfl

end Sys2Proof.Machine
end

