-- ==== Sys2Proof/WellFormed.lean ====
section
/-!
DEFINITION. Which commands are well formed: the conditions that a command's operands meet beside their types. A command that is not
well formed names nothing that can reach the part; its meaning is total all the same.
-/
namespace Sys2Proof

/-- A bus access carries 1 to 64 bytes (a flit, R245). -/
def widthInFlit (len : Nat) : Bool := decide (1 ≤ len) && decide (len ≤ 64)

/-- No entry twice: an upset bit of a slot, an input of a router in one cycle. -/
def distinct {α : Type} [DecidableEq α] : List α → Bool
  | [] => true
  | a :: t => !t.contains a && distinct t

/-- A packet body fits the length field of R171. -/
def inPacket (l : List Byte) : Bool := decide (l.length < 2 ^ 14)

/-- A half has at most 145 slots (R334). -/
def slotsOk (cut : Option Nat) : Bool := cut.all (fun n => decide (n ≤ 145))

/-- The check of a command. -/
def Instr.wf (i : Instr) : Bool :=
  match i with
  | .registerWrite _ _ len _ => widthInFlit len
  | .ownerWrite _ _ _ => true
  | .lockSet _ _ _ => true
  | .evtBaseWrite _ _ _ => true
  | .holeAccess _ _ _ => true
  | .unmappedAccess _ _ _ => true
  | .hostDoorbell _ _ => true
  | .nop _ => true
  | .add _ => true
  | .addc _ => true
  | .sub _ => true
  | .subb _ => true
  | .cmpeq _ => true
  | .cmpne _ => true
  | .cmplt _ => true
  | .cmpltu _ => true
  | .cmple _ => true
  | .cmpleu _ => true
  | .mov _ => true
  | .neg _ => true
  | .abs _ => true
  | .and _ => true
  | .or _ => true
  | .xor _ => true
  | .andn _ => true
  | .not _ => true
  | .shl _ => true
  | .shr _ => true
  | .sar _ => true
  | .rol _ => true
  | .ror _ => true
  | .sel _ => true
  | .selp _ => true
  | .selt _ => true
  | .passeq _ => true
  | .passne _ => true
  | .passlt _ => true
  | .passltu _ => true
  | .passle _ => true
  | .passleu _ => true
  | .mul _ => true
  | .mulu _ => true
  | .mac _ => true
  | .macu _ => true
  | .msu _ => true
  | .accld _ => true
  | .add4 _ => true
  | .add2 _ => true
  | .adds4 _ => true
  | .adds2 _ => true
  | .dot4 _ => true
  | .dot4u _ => true
  | .dot2 _ => true
  | .dot2u _ => true
  | .ddot4 _ => true
  | .ddot4u _ => true
  | .popc _ => true
  | .clz _ => true
  | .ctz _ => true
  | .bext _ => true
  | .bins _ => true
  | .brev _ => true
  | .gfmul _ => true
  | .gfmuls _ => true
  | .gfmad _ => true
  | .gfmads _ => true
  | .crcb _ => true
  | .crch _ => true
  | .crcw _ => true
  | .adds _ => true
  | .subs _ => true
  | .addus _ => true
  | .subus _ => true
  | .min _ => true
  | .max _ => true
  | .minu _ => true
  | .maxu _ => true
  | .minix _ => true
  | .bxor3 _ => true
  | .bmaj3 _ => true
  | .bthr _ => true
  | .bmux _ => true
  | .band3 _ => true
  | .bor3 _ => true
  | .secondStageRetire _ => true
  | .tileContextSwitch _ => true
  | .linkTransfer _ _ => true
  | .furrowRegisterEmit _ _ => true
  | .channelLineDrive _ _ _ => true
  | .sluiceCrossingDeliver _ _ => true
  | .ctxselRequest _ _ _ => true
  | .sequencerSignal _ _ => true
  | .headgateTagRequest _ _ => true
  | .sequencerSwitch _ => true
  | .stallEnd _ => true
  | .caston _ _ _ => true
  | .castonWriteEnable _ => true
  | .castonResetRelease _ => true
  | .bindoff _ _ _ => true
  | .bindoffDrainEnd _ _ => true
  | .bindoffReset _ => true
  | .headgateInboundPresent _ _ => true
  | .headgateOutboundSend _ _ => true
  | .headgateResend _ _ => true
  | .opselWrite _ _ _ => true
  | .operatingPointChange _ => true
  | .operatingPointDone _ => true
  | .regionPowerOn _ => true
  | .regionPowerOff _ => true
  | .regionTempSample codes => codes.length == 24
  | .fccOpen _ _ => true
  | .fccAbort _ _ => true
  | .sessionOpen _ _ => true
  | .sessionClose _ _ => true
  | .aperturePush _ _ len _ => widthInFlit len
  | .streamPartHashed => true
  | .spiOpen => true
  | .spiPush _ _ => true
  | .spiAbort => true
  | .spiStatus => true
  | .spiId => true
  | .streamComplete => true
  | .signatureVerified => true
  | .routingAnalysisDone => true
  | .shadowLoadStart => true
  | .regionSeal => true
  | .bulkClearDone _ => true
  | .scrubSlot ups => distinct ups
  | .regionHold _ => true
  | .holdClear _ _ => true
  | .canarySlot ups => distinct ups
  | .scrubPassTimeout => true
  | .tmrVoteFix _ _ _ _ => true
  | .ucqPop _ _ => true
  | .integClear _ _ => true
  | .captureArm _ _ => true
  | .captureCancel _ _ => true
  | .anchorFreeze => true
  | .regionFreeze _ => true
  | .captureDone => true
  | .probeAuthFall => true
  | .queueWriteFlit _ _ _ _ => true
  | .lengthSlotWrite _ => true
  | .bankSwap _ => true
  | .queueRead _ _ => true
  | .queuePush _ _ => true
  | .queuePushRetry _ => true
  | .sqCtrlWrite _ _ _ => true
  | .sqFlush _ _ _ => true
  | .flushDiscard _ => true
  | .spillDiscard _ => true
  | .sqClear _ _ _ => true
  | .weirWrite _ _ _ => true
  | .descriptorSubmit _ _ _ => true
  | .descriptorStart _ _ => true
  | .medCmd _ _ => true
  | .tornLogAck _ _ => true
  | .medAddr _ _ => true
  | .medWait _ _ => true
  | .medWaitDone _ _ => true
  | .medPoll _ _ => true
  | .pollSample _ _ _ _ => true
  | .pollTimeout _ _ _ => true
  | .medDin _ _ _ => true
  | .medDout _ _ => true
  | .medRlset _ _ => true
  | .medSetf _ _ => true
  | .medLoop _ _ => true
  | .medEndl _ _ => true
  | .medEnd _ _ => true
  | .medAbort _ _ _ => true
  | .ifcfgWrite _ _ _ => true
  | .trainingDone _ codes => decide (codes.length ≤ 8)
  | .medRetrain _ _ _ _ => true
  | .patrolTick _ => true
  | .inhibitAssert _ => true
  | .wpAssert _ _ => true
  | .programLoad _ _ => true
  | .programLoadDone => true
  | .programSwap _ _ => true
  | .keyInstall _ _ => true
  | .keySlotErase _ _ => true
  | .mgdDecode _ _ => true
  | .warmResetDeferral => true
  | .mgdPoll _ _ _ => true
  | .deferralTimeout => true
  | .tornLogFree _ _ => true
  | .hdecCodeword _ _ body => inPacket body
  | .sdecSoftSet _ _ _ _ b0 b1 b2 => inPacket b0 && inPacket b1 && inPacket b2
  | .setmode _ _ _ _ => true
  | .resetseq _ _ _ _ => true
  | .intakeCodeword _ _ body => inPacket body
  | .encCodeword _ _ body => inPacket body
  | .operatorCrcCheck _ _ body => inPacket body
  | .lzdBlock _ _ => true
  | .ersRebuild _ _ _ _ members => members.all inPacket
  | .setpred _ _ _ _ _ _ => true
  | .filtEnd _ _ _ _ _ _ => true
  | .filtClear _ _ _ _ _ _ => true
  | .filtBatchClose _ => true
  | .ocnRead _ => true
  | .ocnWrite _ => true
  | .ocnQread _ => true
  | .ocnQwrite _ => true
  | .ocnQpush _ => true
  | .ocnSignal _ => true
  | .grant _ => true
  | .writeDataArrival _ data cws => decide (data.length ≤ 8) && (cws.isEmpty || cws.length == data.length)
  | .responseArrival _ _ => true
  | .flitForward _ _ _ arrivals => distinct (arrivals.map (fun p => p.1))
  | .targetTimeout _ => true
  | .deadReopen _ _ _ => true
  | .initiatorTimeout _ => true
  | .portClose _ => true
  | .portDown _ => true
  | .portReopen _ => true
  | .routeTableWrite _ _ _ len _ => widthInFlit len
  | .routerClose _ _ _ => true
  | .routerDrained _ => true
  | .epochFlip _ _ _ => true
  | .epochSwitch _ => true
  | .wheelStage _ _ _ => true
  | .wheelCommit _ _ _ => true
  | .wheelTakeEffect _ => true
  | .statsClear _ _ _ => true
  | .bankAccess _ => true
  | .bankHandover _ _ => true
  | .handoverEdge => true
  | .secureWipe _ => true
  | .secureWipeDone => true
  | .reservoirWipeDone => true
  | .dramAccess _ _ => true
  | .dramInitDone => true
  | .hvRangeWrite _ _ _ => true
  | .hvClear _ _ => true
  | .hvClearDone => true
  | .hvDisable _ _ => true
  | .dmaStart _ _ _ => true
  | .dmaResume _ _ _ => true
  | .dmaAbort _ _ _ => true
  | .dmaGo _ _ _ => true
  | .dmaAppend _ _ _ => true
  | .dmaFetch _ _ => true
  | .move _ => true
  | .dmaLoop _ => true
  | .dmaEndl _ => true
  | .dmaWait _ => true
  | .dmaWaitExpire _ => true
  | .dmaSignal _ => true
  | .link _ => true
  | .dmaEnd _ => true
  | .xform _ => true
  | .halt _ => true
  | .dmaDrainDone _ => true
  | .dmaBurstAnswer _ burst _ _ _ _ => decide (burst < 36)
  | .dmaError _ => true
  | .dmaDrowseRetry _ => true
  | .dmaPaceSample _ _ => true
  | .fcall _ _ _ => true
  | .fret _ => true
  | .fspill _ => true
  | .ffill _ => true
  | .trapEntry _ _ _ _ => true
  | .xret _ _ => true
  | .frameFault _ _ => true
  | .ctxsvU _ cut => slotsOk cut
  | .ctxsvL _ cut => slotsOk cut
  | .ctxldU _ cut => slotsOk cut
  | .ctxldL _ cut => slotsOk cut
  | .hevt _ _ => true
  | .hwait _ => true
  | .hexit _ => true
  | .hyield _ => true
  | .hself _ _ => true
  | .rv64Instruction _ _ => true
  | .fpLazySwitch _ => true
  | .dispatchDeliver _ => true
  | .engineSaveDone _ _ => true
  | .engineLoadDone _ _ => true
  | .writebackError _ _ _ => true
  | .atuTranslate _ _ _ _ => true
  | .atuInvalidate _ _ => true
  | .atuInvalDone => true
  | .arm _ _ => true
  | .cancel _ _ => true
  | .park _ _ => true
  | .resume _ _ => true
  | .free _ _ => true
  | .setpri _ _ => true
  | .setaff _ _ => true
  | .eventTake => true
  | .occurrenceStart => true
  | .dec => true
  | .cancelAction => true
  | .signalAction => true
  | .signalAnswer _ _ => true
  | .dispatchDecision _ => true
  | .parkSaveDone _ => true
  | .parklogPop _ _ => true
  | .headWrite _ _ => true
  | .modeRequest _ _ => true
  | .modeTransitionDone _ => true
  | .drowseExit _ => true
  | .twinLost => true
  | .aonPowerUp => true
  | .aonPowerLoss => true
  | .wake _ => true
  | .drainStart _ => true
  | .drainRegionsOff => true
  | .drainJournalPage _ => true
  | .drainInhibit _ _ => true
  | .drainPowerOff => true
  | .holdupAssert => true
  | .aonTick => true
  | .alarmFire => true
  | .timeLoad _ _ => true
  | .comparatorAssert _ _ => true
  | .comparatorDeassert _ _ => true
  | .pllLock _ => true
  | .pllLockLoss _ => true
  | .fpllWrite _ _ _ => true
  | .avsMonitor _ _ _ _ _ _ => true
  | .pmbusCommand _ _ => true
  | .pmbusDone _ _ _ => true
  | .throttleStep => true
  | .coldReset _ _ => true
  | .sysrst => true
  | .coldResetRequest _ _ => true
  | .warmResetRequest _ _ => true
  | .warmResetAssert => true
  | .fabricRegionReset _ _ => true
  | .coreReset _ _ => true
  | .bootRom _ => true
  | .recoveryChunk => true
  | .recoveryEnd => true
  | .lockstepMismatch => true
  | .lockstepColdReset => true
  | .selfWatchdog => true
  | .selfkick _ _ => true
  | .watchdogFirst _ => true
  | .watchdogSecond _ => true
  | .htsWatchdog => true
  | .thermalTrip => true
  | .voltageFault _ _ => true
  | .leveeDrainRequest _ _ => true
  | .alogPop _ _ => true
  | .nonce _ _ => true
  | .enroll _ => true
  | .revoke _ => true
  | .lcreq _ => true
  | .dbgtok _ => true
  | .unwrap _ => true
  | .keyerase _ => true
  | .fwsvn _ => true
  | .sksvn _ => true
  | .lvload _ => true
  | .cert _ => true
  | .tokenExpire => true
  | .tamperEvent => true
  | .tamperClear _ _ => true
  | .getVersion _ => true
  | .getCapabilities _ => true
  | .negotiateAlgorithms _ => true
  | .getDigests _ => true
  | .getCertificate _ => true
  | .challenge _ => true
  | .getMeasurements _ => true
  | .keyExchange _ => true
  | .finish _ => true
  | .heartbeat _ => true
  | .keyUpdate _ => true
  | .endSession _ => true
  | .ideKm _ _ _ => true
  | .tdispMessage _ _ => true
  | .tdiError _ => true
  | .msixSend _ _ => true
  | .outboundAccess _ _ _ _ => true
  | .hostFlush _ _ => true
  | .cxlMemRequest _ _ _ _ => true
  | .hostLineRelease _ => true
  | .backInvalidate _ => true
  | .birspReceive _ => true
  | .biTimeout _ => true
  | .snoopResponse _ => true
  | .peerWrite _ _ data => decide (data.length ≤ 4096)
  | .peerFlush _ _ => true
  | .nvmeDoorbell _ q _ _ => decide (q < 128)
  | .nvmeRegisterWrite _ _ _ => true
  | .hdmCommit _ _ => true
  | .hdmUncommit _ => true
  | .perstAssert => true
  | .linkDown => true
  | .linkUp _ _ => true
  | .flr _ => true
  | .lcommitWrite _ => true
  | .plyTrain _ _ => true
  | .plyTrainRetry _ _ => true
  | .plyFrameReceive _ => true
  | .plyIdle _ => true
  | .plyNak _ => true
  | .plyHello _ => true
  | .plyRec _ => true
  | .plyHandover _ => true
  | .plyHoack _ => true
  | .plyRxseqAdvance => true
  | .plyLinkLost => true
  | .plyTxtailWrite _ _ => true
  | .plyRecordSend => true
  | .plyHandoverCmd _ _ => true
  | .plyResolve _ _ => true
  | .plyRetrain _ _ => true
  | .plyTake _ _ => true
  | .plyPresentRise => true
  | .pinConfigWrite _ _ _ _ => true
  | .pinSwitchDone _ => true
  | .gpioOutputWrite _ _ _ => true
  | .evinEdge _ _ _ => true
  | .bypass => true
  | .idcode => true
  | .samplePreload _ => true
  | .extest => true
  | .clamp => true
  | .highz => true
  | .extestPulse => true
  | .extestTrain => true
  | .dmi _ _ _ => true
  | .calUserWrite _ _ _ => true
  | .calClrall _ _ => true
  | .macrocellUpdate _ => true
  | .xtalFail => true
  | .pgMainRise => true
  | .perstRelease => true
  | .hostCompletion _ _ data => decide (data.length ≤ 4096)
  | .msixMaskChange _ _ _ => true
  | .linkL1Entry _ => true
  | .leveeSramError => true
  | .filtDecodedPacket _ _ body => inPacket body
  | .lzeBlock _ _ => true
  | .ersStripeParity _ members _ => members.all inPacket
  | .ioBankSupplyChange _ _ => true

end Sys2Proof
end

