-- ==== Sys2Proof/Tests/Slice0.lean ====
section
/-!
SUPPORT. The model's own tests: the command check on a command that it refuses, for each of its conditions; results that the spec gives or
that follow from it by hand; and, for every statement that has hypotheses, a state and operands that meet them together
(`witness_<statement>`: one clause of the witness for each clause of the statement).
-/
set_option Elab.async false
open Sys2Proof Sys2Proof.Machine

/-! ### The command check refuses -/

/-- A bus access carries 1 to 64 bytes. -/
theorem test_ill_formed_width : (Instr.registerWrite levee 0x21020 65 1).wf = false := by decide
/-- The upset bits of the frame slots are distinct. -/
theorem test_ill_formed_upsets : (Instr.scrubSlot [(0, 3), (0, 3)]).wf = false := by decide
/-- One sensor code for each of the 24 regions. -/
theorem test_ill_formed_codes : (Instr.regionTempSample []).wf = false := by decide
/-- A half of a context has at most 145 slots. -/
theorem test_ill_formed_slots : (Instr.ctxsvU 0 (some 146)).wf = false := by decide
/-- A link frame's write carries at most 4,096 bytes. -/
theorem test_ill_formed_burst : (Instr.dmaBurstAnswer 0 36 false .ok false []).wf = false := by decide
/-- A well-formed command. -/
theorem test_well_formed : (Instr.registerWrite levee 0x21020 4 1).wf = true := by decide
/-- The table gives no row bits, so no word spells a command. -/
theorem test_no_word : decodeTableWord 32 0 = none := rfl

/-! ### Codes and arithmetic -/

/-- The published check value of the CRC-16 with polynomial 0x1021 and initial value 0xFFFF over the digits 1 to 9. -/
theorem test_crc16 : crc16 [0x31, 0x32, 0x33, 0x34, 0x35, 0x36, 0x37, 0x38, 0x39] = 0x29B1 := by decide +kernel
/-- The published check value of CRC-32C over the digits 1 to 9. -/
theorem test_crc32c : crc32c [0x31, 0x32, 0x33, 0x34, 0x35, 0x36, 0x37, 0x38, 0x39] = 0xE3069283 := by decide +kernel
/-- The integers from 3 that are no power of two: the first, the second and the 256th (R148). -/
theorem test_codePos : codePos 0 = 3 ∧ codePos 1 = 5 ∧ codePos 255 = 265 := by decide +kernel
/-- x times x^7 in both fields (R51). -/
theorem test_gfMul : gfMul 0x1D 2 0x80 = 0x1D ∧ gfMul 0x1B 2 0x80 = 0x1B := by decide
/-- 7FFF_FFFF + 1 overflows without a carry (R49). -/
theorem test_addCV : (addCV 0x7FFFFFFF 1 0).fv = some true ∧ (addCV 0x7FFFFFFF 1 0).fc = some false := by decide

/-! ### The register window, by the worked examples of the spec -/

/-- DMA channel 7 with core 2's claim, the event base and the completion bit's enable (chapter 2's example). -/
def tDma7 : State := ((State.reset.windowWrite 3 0x107020 4 3).windowWrite 3 0x107018 4 0x400).windowWrite 3 0x107014 4 4
/-- The host's write of CTRL is turned away: ERR reads 0x1008_2002, EVT_RAW.err is set, CTRL stands. -/
theorem test_owner_violation : (registerWriteCmd 0x20 0x107008 4 1 tDma7).reg 0x10701C = 0x10082002 ∧
    bit ((registerWriteCmd 0x20 0x107008 4 1 tDma7).reg 0x107010) 31 = true ∧ ((registerWriteCmd 0x20 0x107008 4 1 tDma7).dmach 7).st = .idle := by decide +kernel
/-- A completion sends event 1026. -/
theorem test_event_sent : (tDma7.raise 0x107000 2).hts.ports = [(0x107, [⟨1026, false⟩])] := by decide +kernel

/-- Region 9 at 1.6 GHz and 0.88 V on PLL A at 3.2 GHz, as chapter 5's example has it. -/
def tNine : State := { State.reset.setReg (pmuPage 1 + pmuFplla) 0x180 with fab := { State.reset.fab with rgn := [(9, { st := .run, op := { vsel := 14, pwr := true, divi := 2 } })] } }
/-- Region 10 at 0.70 V meets code 1, since the difference is 180 mV. -/
theorem test_op_code1 : tNine.opRefusal 10 (opPoint 0x825) = 1 := by decide +kernel
/-- 200 MHz beside 1.6 GHz meets code 2. -/
theorem test_op_code2 : tNine.opRefusal 10 { vsel := 6, pwr := true, divi := 16 } = 2 := by decide +kernel

/-- The lamp of chapter 21: PSRC20 names bit 5 of row line 2 of region 12. -/
theorem test_lamp : (registerWriteCmd 2 0x20090 4 0x212 (registerWriteCmd 2 0x20150 4 0x54C State.reset)).ans.status = .ok ∧
    (registerWriteCmd 2 0x20090 4 0x212 (registerWriteCmd 2 0x20150 4 0x54C State.reset)).regRead 0x20150 = 0x54C := by decide +kernel

/-- Chapter 12's journal bank: the write of RSV_BHAND by core 1 to the unowned bank 200 leaves 0x02 in RSV_BOWN50 after the edge. -/
theorem test_bank_claim : (registerWriteCmd 2 0x300040 4 0x2C8 State.reset).regRead (0x300100 + 200) = 0x02 := by decide +kernel

/-- Chapter 13's example: MOVE word 0 is queue to memory, paced by queue 12, whole packets. -/
theorem test_move_word : (fld (0x1000431101 : DWord) 0 8, fld (0x1000431101 : DWord) 8 2, fld (0x1000431101 : DWord) 12 2, fld (0x1000431101 : DWord) 14 7) = (1, 1, 1, 12) := by decide +kernel

/-! ### States that the witnesses start from -/

/-- Region 0 as given. -/
def wRgn (g : RegionSt) : State := State.reset.setRgn 0 g
/-- Region 0 runs. -/
def wRun : State := wRgn { st := .run }
/-- Region 0 runs, with tile 0 as given. -/
def wTile (T : Tile) : State := wRun.setTile 0 T
/-- The words of a frame payload. -/
def wWords (f : Nat) : Tbl Word := ((List.range 32).map (fun w => (w, BitVec.ofNat 32 (f / 2 ^ (32 * w))))).filter (fun e => e.2 != 0)
/-- Region 0 runs; tile 0 holds payload `f` in context 0. -/
def wFrame (f : Nat) : State := { wRun with fab := { wRun.fab with frames := wWords f } }
/-- The same with a tile. -/
def wFrameTile (f : Nat) (T : Tile) : State := (wFrame f).setTile 0 T
def wStage2 : Stage2 := ⟨0, 7, 7, 1, false, false, false, 0, 0, 1, 0, false, false⟩
def wStage : State := wTile { stage2 := [wStage2] }
def wOa : State := wTile { oa := { val := some 7 } }
def wFurrow : State := wFrameTile (2 ^ 896 * (1 + 8 + 2 ^ 12)) { fregs := [(0, { words := [9], n0 := 1 })] }
/-- Slot 0 of tile 0 drives row line 0 from OA with its gate at 1. -/
def wSlot : State := wFrameTile (2 ^ 960 * (1 + 16 + 256)) { oa := { val := some 5 } }
def wXing : State :=
  let s := State.reset.setRgn 1 { st := .run }
  { s with fab := { s.fab with xbuf := [(8 * 256 + 4, [5])] } }
def wHg (h : Headgate) : State := wRgn { st := .run, hg := [(0, h)] }
def wTag : State := (wHg { inb := [⟨0, true, true, 3⟩], cfg := 5 }).setReg (frgPage 0 + frgSeqcfg) 2
def wIn : State := wHg { inb := [⟨0x5, true, true, 0⟩], cfg := 0x10001 }
def wOut : State := wHg { outb := [3], cfg := 2 }
def wAgain : State := wHg { outb := [3], cfg := 2, again := true }
def wPoint : OpPoint := { pwr := true, vsel := 5, divi := 4 }
def wOp : State := { (wRgn { st := .run, op := wPoint }) with fab := { (wRgn { st := .run, op := wPoint }).fab with opq := [(0, wPoint)] } }
def wOn : State := { State.reset with fab := { State.reset.fab with opq := [(0, wPoint)] } }
/-- The network interfaces of region 0 have gone down. -/
def wDown (s : State) : State := (List.range 4).foldl (fun u k => u.modNi (hgNi 0 k) (fun n => { n with port := .down })) s
def wOpenOff : State := { (wRgn { st := .ready }) with fab := { (wRgn { st := .ready }).fab with opq := [(0, {})] } }
def wPoff : State := wDown wOpenOff
/-- The loader as given. -/
def wFcc (f : Fcc) : State := { State.reset with fcc := f }
/-- The loader as given with its SPI port on. -/
def wSpi (f : Fcc) : State := (wFcc f).setReg (fccPg + fccSpicfg) 1
/-- A header that passes: magic, version, device, region 0, context 0, no body. -/
def wHeader : State :=
  (((((({ wFcc { lstate := 1, nbank := 1, h := 256 } with fuses := { word := 2 } }).setMemNat rsvBase 4 0x4B535A45).setMemNat (rsvBase + 4) 2 1).setMemNat
    (rsvBase + 6) 2 0x100).setMemNat (rsvBase + 8) 2 0x0E08).setMemNat (rsvBase + 0x10) 4 1).setMemNat (rsvBase + 0x14) 1 1
/-- A staged stream whose trailer asks for a signature. -/
def wTrailer (f : Fcc) : State := (wFcc f).setMemNat (rsvBase + 256) 1 1
def wKey : State := wTrailer { lstate := 2 }
/-- A shadow load of region 0 in APPLY, region 0 in RUN. -/
def wShadow : State := ({ wRun with fcc := { lstate := 3, todo := [0] } }).setMemNat (rsvBase + 0x0C) 4 1
def wHand : State := { State.reset with rsvr := { hand := [some (3, 0x31)] } }
/-- The scrubber runs at a slot. -/
def wScr (n : Nat) : State := (State.reset.setReg (scrPg + fccScrctrl) 1).setReg (scrPg + fccScrpos) (BitVec.ofNat 32 n)
/-- A descriptor of LUN 0 that stands at position 100 of page A. -/
def wDesc : MedDesc := { words := [], started := true, pc := 100 }
/-- Every torn-log entry but 63 is in use. -/
def wTorn : Tbl TornEnt := (List.range 63).map (fun k => (k, { state := .void }))
/-- Channel 0 runs descriptor `d`, whose program holds instruction `i` at position 100. -/
def wMed (d : MedDesc) (i : DWord) : State := 
  let s := State.reset.setReg (medPage 0 + medCtrl) 1
  { s with med := [(0, { pool := [d] })], medc := { prog := [(100, i)] }, aon := { State.reset.aon with torn := wTorn } }
/-- Queue 0 as given, its control word as given. -/
def wQ (x : QueueSt) (ctl : Word) : State := (State.reset.setQueue 0 x).setReg (sqPage 0 + sqCtrl) ctl
/-- A transaction between NI 0 and NI 4. -/
def wRsv : Rsv := Rsv.base 0x36 3 0
def wTxn (op : OcnOp) (st : TxnStage) : Txn := { rsv := wRsv, op := op, stage := st, who := .outside }
def wNet (x : Txn) : State := State.reset.setTxns [x]
def wQread : State := (wQ { pkts := [{ words := [(5, true)] }] } 1).setTxns [wTxn .qread .atBlock]
/-- An LZ block of one literal byte. -/
def wLz : List Byte := bytesOf 2 2 ++ bytesOf 2 0 ++ bytesOf 4 (crc32c [5]) ++ [0x00, 5]
def wArrREAD : Rsv := { wRsv with tgt := 7, addr := 0x20000000 }
def wArrWRITE : Rsv := wArrREAD
def wArrQREAD : Rsv := Rsv.base 0x36 3 (queueNi 0)
def wArrQWRITE : Rsv := wArrQREAD
def wArrQPUSH : Rsv := Rsv.base 5 (sqNi 0) (hgNi 0 0)
def wArrSIGNAL : Rsv := Rsv.base 0x36 3 (hgNi 0 0)
def wFlit : State := (State.reset.setReg (ocnPage 0 + ocnClose) 0x100).modRouter 0 (fun x => { x with bufs := [(0, [⟨3, 7, 0⟩])] })
def wBankTxn : Txn := { (wTxn .write .atBlock) with rsv := { wRsv with addr := 0x20000000, bm0 := -1, bm1 := -1 }, data := [5] }
def wBank : State := wNet wBankTxn
def wDramTxn : Txn := { (wTxn .read .atBlock) with rsv := { wRsv with addr := 0x1000000000 } }
def wDram : State := { wNet wDramTxn with drc := { init := true } }
/-- DMA channel 0 as given. -/
def wDma (x : DmaSt) : State := { State.reset with dma := [(0, x)] }
/-- DMA channel 0 in RUN at address 0 with `w` there, the channel otherwise as given. -/
def wDmaWord (w : Nat) (x : DmaSt) : State := wDma { x with st := .run, lines := [(0, bytesOf 64 w)] }
/-- A MOVE of 8 bytes: the value 5 to the start of the reservoir. -/
def wMoveW0 : DWord := 0x800000201
def wMoveW2 : DWord := 0x20000000
def wMove : State := wDma { st := .run, lines := [(0, bytesOf 8 0x800000201 ++ bytesOf 8 5 ++ bytesOf 48 0x20000000)] }
/-- A burst that writes 8 bytes to the start of the reservoir. -/
def wBurst1 : DmaBurst := ⟨0, { w0 := wMoveW0, w1 := 5, w2 := wMoveW2, pos := 8, rd := 8 }, 0, 0, 8, true, true, false, .writing, false, bytesOf 8 5, [(0x20000000, 8)], 0⟩
def wBurst : State := wDma { st := .run, bursts := [wBurst1] }
/-- A burst that queue 5 paces. -/
def wPace : State := wDma { st := .run, bursts := [{ wBurst1 with mv := { wBurst1.mv with w0 := 0x800015201 } }] }
/-- The test port is open to the debug instructions. -/
def wTap : State := { State.reset with fuses := { word := 2 } }
/-- Core 0 executes in bank 0, which is as given. -/
def wCore (x : Bank) : State := { State.reset with cores := [(0, { banks := [(0, { x with st := .active })] })], hts := { thr := [(0, { st := .running })] } }
def wIntr : State := ((wCore { priv := 0 }).setReg (ccxPage 0 + ccxWberr) 1).setCsr 0 csrMie 0x10000
def wSave : State := wCore { priv := 3, nodel := 0x20000000, nodeu := 0x20001000 }
/-- The lower node marks slot 15 alone. -/
def wLoad : State := wSave.setByte (0x20000000 + 9) 0x80
def wSpill : State := wCore { priv := 3, low := [(18, 0x11), (19, 0x20000000)] }
def wFill : State := wCore { priv := 3, low := [(18, 0x109), (19, 0x20000000)] }
/-- Thread 0 as given. -/
def wThr (t : Thr) : State := { State.reset with hts := { thr := [(0, t)] } }
/-- A staged descriptor whose nodes lie in the reservoir. -/
def wArm : State :=
  (((State.reset.setReg (htsPage 1 + htsTdw) 0x1E00).setReg (htsPage 1 + htsTdw + 12) 0x20000000)).setReg (htsPage 1 + htsTdw + 20) 0x20001000
def wPort : State := { State.reset with hts := { ports := [(5, [⟨3, false⟩])] } }
def wOcc : State := { State.reset with hts := { queue := [⟨5, false⟩], heads := [(5, 0x4007)] } }
def wUnrt : State := { State.reset with hts := { queue := [⟨5, false⟩] } }
/-- The next target of the occurrence of event 5 is `w`; thread 0 waits. -/
def wTgt (w : Word) : State := { State.reset with hts := { cur := some ⟨5, 7, 1⟩, pool := [(7, w)], thr := [(0, { st := .waiting, cnt := 1 })] } }
def wSigTxn : Txn := { rsv := Rsv.base 0x32 24 (niAt (regionRouter 0) 0), op := .signal, stage := .answered, who := .hts }
def wSig : State := wNet wSigTxn
/-- A switch to thread 0, held in bank 0 of core 0, is on the link. -/
def wLink : State := { wThr { st := .ready, res := true } with
  cores := [(0, { banks := [(0, { st := .held })] })], hts := { link := [(0, some ⟨0, 0⟩)], thr := [(0, { st := .ready, res := true })] } }
def wJob : EngJob := { bank := 0, thr := 0, load := false }
def wEng : State := { State.reset with cores := [(0, { banks := [(0, { st := .saving, nodel := 0x20000000, nodeu := 0x20001000 })], eng := [wJob] })] }
def wLd : State := { State.reset with
  cores := [(0, { banks := [(0, { st := .loading, nodel := 0x20000000, nodeu := 0x20001000 })], eng := [{ bank := 0, thr := 1, load := true }] })] }
/-- The engine of core 0 loads bank 0 for thread 1, which has run; its upper half is left in the frames `f`. -/
def wLdAt (st : BankState) (f : Option (List Nat)) : State := { State.reset with
  cores := [(0, { banks := [(0, { st := st, nodel := 0x20000000, nodeu := 0x20001000 })], eng := [{ bank := 0, thr := 1, load := true, frames := f }] })]
  hts := { thr := [(1, { started := true })] } }
def wLd2 : State := wLdAt .loading none
def wLd3 : State := wLdAt .loading (some [0])
def wLd4 : State := wLdAt .held (some [1])
/-- Core 0 runs thread 0 in bank 0 with frames 0 and 1 resident, frame 1 current and frame 0 still to be loaded. -/
def wDue : State := { wCore { low := [(18, 17)] } with
  cores := [(0, { (wCore { low := [(18, 17)] }).core 0 with eng := [{ bank := 0, thr := 0, load := true, frames := some [0] }] })] }
/-- Thread 0 is READY in queue 0, core 0 and the scheduler enabled. -/
def wDisp (t : Thr) : State :=
  (({ State.reset with cores := [(0, { banks := [(0, { st := if t.res then .held else .empty })] })]
                       hts := { rq := [(0, [0])], thr := [(0, { t with st := .ready })] } }).setReg (ccxPage 0 + ccxCtrl) 1).setReg (htsPage 0 + htsCtrl) 1
def wPmu (f : Pmu → Pmu) : State := { State.reset with pmu := f State.reset.pmu }
def wMode (m : Mode) : State := wPmu (fun p => { p with mode := m, trans := none, ret := none })
def wTrans (m t : Mode) : State := wPmu (fun p => { p with mode := m, trans := some t })
def wDrain (n : Nat) : State := (wMode .drain).setDrain n
def wDrain0 : State := (wMode .run).setCmp 0 true 0
def wDrainL : State := wPmu (fun p => { p with mode := .run, drainReq := true })
def wJour : State := (wPmu (fun p => { p with mode := .drain, drain := 3, jlen := 1 })).setReg64 (pmuPage 2 + pmuDrntbl) 0xF00000000000
def wJourOk : State :=
  let s := (wPmu (fun p => { p with mode := .drain, drain := 3, jlen := 1 })).setReg64 (pmuPage 2 + pmuDrntbl) 0x20000000
  { s with aon := { s.aon with torn := wTorn } }
def wWarm (d : Bool) : State := wPmu (fun p => { p with mode := .run, warm := some 5, deferred := d })
def wXtal : State := { State.reset with aon := { State.reset.aon with xtal := true, tload := false } }
/-- Comparator 0 is configured with `c`. -/
def wCmp (c : Word) : State := { (State.reset.setReg (aonPage + 0x80) c) with cal := { State.reset.cal with bad := true } }
/-- HOLD with wake mask `m` and the comparator wakes `w`. -/
def wHold (m : Word) (w : Nat) : State := { ((wMode .hold).setReg (aonPage + aonWake) m) with aon := { State.reset.aon with wake := BitVec.ofNat _ w } }
/-- The boot ROM runs in life-cycle state `n`. -/
def wBoot (n : Nat) : State := dispatchDeliver 0 { (wMode .boot) with fuses := { word := n } }
def wBootStrap : State := (wBoot 2).setReg (pmuPage 0 + pmuStrap) 4
def wMbox (c : Word) : State :=
  ((dispatchDeliver 0 (wPmu (fun p => { p with mode := .boot, recov := true }))).setReg (sysPage + hEvtRaw) 1).setReg (sysPage + sysMbox) c
def wTwin : State := (wMode .run).setReg (pmuPage 0 + pmuCfg) 1
def wAonUp : State := (wMode .drowse).setReg (aonPage + aonWake) 0x80
/-- Core 0's watchdog runs. -/
def wWd (w : Nat) : State := { ((wCore {}).setReg (lvePg + lveWdcfg) 1) with lve := { State.reset.lve with wd1 := BitVec.ofNat _ w }, pmu := { State.reset.pmu with mode := .run } }
/-- The host interface as given. -/
def wHif (h : Hif) : State := { State.reset with hif := h }
/-- Outbound window 0 maps 1 GiB for function 0. -/
def wOutb : State := ((wHif { link := .l0 }).setReg (hifPage 1 + hifOwGeom) 0x10000).setReg (hifPage 1 + hifOwLo) 1
/-- One HDM decoder of 256 MiB stands, the host-visible range begins with device DRAM. -/
def wCxl : State := { wHif { link := .l0, hdm := [(0, ⟨true, 1, false⟩)] } with drc := { init := true } }
def wHdm : State := ({ State.reset with drc := { ready := true } }).setReg (page .drc 0 + drcHvsize) 1
/-- Peer window 0 maps the first page to the reservoir for every source. -/
def wPeer : State :=
  ((((wHif { link := .l0 }).setReg (hifPage 2 + hifPwCfg) 3).setReg (hifPage 2 + hifPwSize) 1).setReg64 (hifPage 2 + hifPwTgt) 0x20000000)
def wHeldTxn : Txn := { wDramTxn with op := .write }
def wHeld : State := { wNet wHeldTxn with drc := { init := true, filter := [0x40000000] } }
/-- The exchange `e` is in progress for a write held by the host-line filter. -/
def wBi (e : BiEx) : State := { wHeld with drc := { wHeld.drc with bi := [e] } }
/-- The ply link as given, enabled. -/
def wPly (p : Ply) : State := ({ State.reset with ply := p }).setReg (plyPage + Machine.plyCtrl) 1
def wRole : State := { State.reset with ply := { st := .sync, present := true }, aon := { State.reset.aon with role := 1 } }
/-- A frame with its check. -/
def wFr (k n : Nat) (l : List Byte) : PlyFrame :=
  let f : PlyFrame := ⟨BitVec.ofNat 8 k, 0, BitVec.ofNat 16 n, l, 0, 0⟩
  { f with fcrc := BitVec.ofNat 32 (crc32c (frameBytes f)) }
def wSend : State := (((wPly { st := .sync }).setReg64 (plyPage + plyTxtail) 1).setReg64 (plyPage + plyTxbase) 0x20000000)
def wHello : Hello := ⟨0, 0, 0, 0, 0, 0⟩
def wEvin : State := { ((State.reset.setReg (pioPg 1 + pioEvinCfg) 3).modPin 0 (fun x => { x with pin := BitVec.ofNat 32 fselEvin })) with
  pio := { ((State.reset.setReg (pioPg 1 + pioEvinCfg) 3).modPin 0 (fun x => { x with pin := BitVec.ofNat 32 fselEvin })).pio with volt := [(0, 1)] } }
/-- Region 0 runs; the active frame of tile 0 carries opcode `op`, fires always and reads its immediate alone. -/
def wFire (op : Nat) : State := wFrame (1 + 2 ^ 10 + 2 ^ 32 * op + 2 ^ 40 * (0x14 + 2 ^ 5 * 0x14 + 2 ^ 10 * 0x14))
/-! ### The witnesses that take more than a state -/

/-- `n` zero bytes and the CRC-32C of `m` zero bytes. -/
def wBodyOf (n m : Nat) : List Byte := List.replicate n 0 ++ bytesOf 4 (crc32c (List.replicate m 0))
/-- A packet body of 4,112 bytes whose CRC field holds the CRC-32C of its 4,096 data bytes. -/
def wBody : List Byte := wBodyOf 4108 4096

theorem crc32cFrom_lt (l : List Byte) (c : Nat) (h : c < 2 ^ 32) : crc32cFrom c l < 2 ^ 32 := by
  have hb : ∀ c, c < 2 ^ 32 → crcBit c < 2 ^ 32 := by
    intro c hc; unfold crcBit; split
    · exact Nat.xor_lt_two_pow (by omega) (by norm_num)
    · omega
  have hs : ∀ n c, c < 2 ^ 32 → crcBits n c < 2 ^ 32 := by
    intro n; induction n with
    | zero => intro c hc; exact hc
    | succ n ih => intro c hc; exact ih _ (hb c hc)
  induction l generalizing c with
  | nil => exact h
  | cons b l ih =>
    refine ih _ (hs 8 _ (Nat.xor_lt_two_pow h ?_))
    have := b.isLt; omega

theorem slice_rep (n m : Nat) (t : List Byte) (h : m ≤ n) : sliceBytes (List.replicate n 0 ++ t) 0 m = List.replicate m 0 := by
  unfold sliceBytes
  apply List.ext_getElem (by simp)
  intro i hi _
  simp only [List.length_map, List.length_range] at hi
  simp [List.getElem?_append_left, show i < n by omega]

theorem slice_tail (n : Nat) (t : List Byte) : sliceBytes (List.replicate n 0 ++ t) n t.length = t := by
  unfold sliceBytes
  rw [List.drop_left' (by simp)]
  apply List.ext_getElem (by simp)
  intro i hi h2
  simp [h2]

theorem ofBytes_bytesOf4 (v : Nat) (hv : v < 2 ^ 32) : ofBytes (bytesOf 4 v) = v := by
  simp [ofBytes, bytesOf, List.range, List.range.loop]; omega

theorem wBodyOf_head (n m : Nat) (h : m ≤ n) : sliceBytes (wBodyOf n m) 0 m = List.replicate m 0 := slice_rep n m _ h

theorem wBodyOf_tail (n m : Nat) : ofBytes (sliceBytes (wBodyOf n m) n 4) = crc32c (List.replicate m 0) := by
  have h : sliceBytes (wBodyOf n m) n 4 = bytesOf 4 (crc32c (List.replicate m 0)) := slice_tail n (bytesOf 4 (crc32c (List.replicate m 0)))
  rw [h]
  exact ofBytes_bytesOf4 _ (Nat.xor_lt_two_pow (crc32cFrom_lt _ _ (by norm_num)) (by norm_num))

theorem wBodyOf_agrees (n m : Nat) (h : m ≤ n) : (crc32c (sliceBytes (wBodyOf n m) 0 m) == ofBytes (sliceBytes (wBodyOf n m) n 4)) = true := by
  rw [wBodyOf_head n m h, wBodyOf_tail]; exact beq_self_eq_true _

theorem wBody_agrees : crcAgrees wBody = true := wBodyOf_agrees 4108 4096 (by decide)

/-- A successful read whose state and bytes are named by projections. -/
theorem read_ok (p : State × Status × List Byte) (h : p.2.1 = .ok) : p = (p.1, .ok, p.2.2) := by
  rcases p with ⟨u, st, l⟩; simp only at h; rw [h]

/-- A pair named by its first component and the value of its second. -/
theorem pair_eq {α : Type} (p : State × α) (v : α) (h : p.2 = v) : p = (p.1, v) := by
  subst h; rfl

/-- Empty frames name no override tile, so that a shadow load of contexts other than the selected one finds the region ready. -/
theorem shadowBusy_of_no_frames (s : State) (r : Nat) (h : s.fab.frames = []) (hc : nfld s.hContexts (s.rgn r).sel 1 = 0) :
    s.shadowBusy r = false := by
  have e : ∀ k c, fOvr (s.frame k c) = false := by
    intro k c
    have w : ∀ i, s.frameWord k c i = 0 := by
      intro i
      rw [State.frameWord, h]
      rfl
    simp only [State.frame, w]
    decide
  simp [State.shadowBusy, hc, e]

/-- Region 0 runs, and the NI of queue 0 is closed, so that a personality's output waits. -/
def wShut : State := wRun.modNi (queueNi 0) (fun n => { n with port := .closing })

/-- Output for a queue whose port refuses it waits, and nothing else happens. -/
theorem codFlush_shut (u : State) (h : ∀ p ∈ (u.cod 0).outs, p.2.2 ≠ [] ∧ (u.portRefuses (queueNi p.1)).isNone = false) (n : Nat) :
    (State.codFlush 0 n u).hts = u.hts ∧ (State.codFlush 0 n u).pmu = u.pmu ∧ (State.codFlush 0 n u).hold = u.hold := by
  cases n with
  | zero => exact ⟨rfl, rfl, rfl⟩
  | succ n =>
    unfold State.codFlush
    split
    · exact ⟨rfl, rfl, rfl⟩
    · rename_i q k l rest hq
      obtain ⟨hl, hr⟩ := h (q, k, l) (by rw [hq]; exact List.mem_cons_self ..)
      have hs : ∀ i src, u.sendItems q i src 1024 l = (u, l) := by
        intro i src
        unfold State.sendItems State.queueReachAt
        cases l with
        | nil => exact absurd rfl hl
        | cons b l => simp only [List.isEmpty_cons, Bool.false_eq_true, if_false, hr, Bool.false_and]
      rw [hs]
      dsimp only
      cases l with
      | nil => exact absurd rfl hl
      | cons b l => exact ⟨rfl, rfl, rfl⟩

theorem emit_outs (u : State) (k tag flags : Nat) (body : List Byte) :
    ((u.emit 0 k tag flags body).cod 0).outs = (u.cod 0).outs ++ [(fld ((u.hg 0 k).cfg) 8 7, k, bytesOf 4 (body.length + 2 ^ 14 * tag + 2 ^ 17 * flags) ++ body)] := by
  unfold State.emit State.modCod State.cod
  dsimp only
  rw [tget_tset_self]

/-- `u` differs from `wShut` in what the personality has formed alone, all of it for queue 0. -/
def ShutLike (u : State) : Prop :=
  u.hts = wShut.hts ∧ u.pmu = wShut.pmu ∧ u.hold = wShut.hold ∧ u.fab = wShut.fab ∧ u.ocn = wShut.ocn ∧ u.aon = wShut.aon ∧
    (∀ p ∈ (u.cod 0).outs, p.2.2 ≠ [] ∧ p.1 = 0)

theorem ShutLike.emit {u : State} (h : ShutLike u) (k tag flags : Nat) (body : List Byte) (hk : k < 4) : ShutLike (u.emit 0 k tag flags body) := by
  obtain ⟨a, b, c, d, e, f, g⟩ := h
  refine ⟨a, b, c, d, e, f, fun p hp => ?_⟩
  rw [emit_outs] at hp
  rcases List.mem_append.mp hp with hp | hp
  · exact g p hp
  · rw [List.mem_singleton] at hp; subst hp
    refine ⟨by simp [bytesOf], ?_⟩
    have : (u.hg 0 k).cfg = (wShut.hg 0 k).cfg := by unfold State.hg State.rgn; rw [d]
    show fld ((u.hg 0 k).cfg) 8 7 = 0
    rw [this]; clear hp this; interval_cases k <;> decide +kernel

theorem ShutLike.emitBytes {u : State} (h : ShutLike u) (l : List Byte) : ShutLike (u.emitBytes 0 l) := by
  unfold State.emitBytes
  generalize List.range ((l.length + 16375) / 16376) = r
  induction r generalizing u with
  | nil => exact h
  | cons i r ih => exact ih (h.emit 0 0 0 _ (by decide))

theorem ShutLike.fits {u : State} (h : ShutLike u) (s : State) (hs : s.powered = true) : Fits s (State.codFlush 0 64 u) := by
  obtain ⟨a, b, c, d, e, f, g⟩ := h
  obtain ⟨x, y, z⟩ := codFlush_shut u (fun p hp => ⟨(g p hp).1, by
    rw [(g p hp).2]; unfold State.portRefuses State.ni; rw [e]; split
    · rfl
    · decide +kernel⟩) 64
  refine ⟨hs, ?_, by rw [z, c]; decide +kernel⟩
  unfold State.portsOk; rw [x, a]; decide +kernel

theorem wShut_like : ShutLike wShut := ⟨rfl, rfl, rfl, rfl, rfl, rfl, by decide +kernel⟩

/-- A packet body whose CRC field differs from the CRC-32C of its data by bit 0. -/
def wBadOf (n m : Nat) : List Byte := List.replicate n 0 ++ bytesOf 4 (crc32c (List.replicate m 0) ^^^ 1)
def wBodyBad : List Byte := wBadOf 4108 4096

theorem wBadOf_disagrees (n m : Nat) (h : m ≤ n) : (crc32c (sliceBytes (wBadOf n m) 0 m) == ofBytes (sliceBytes (wBadOf n m) n 4)) = false := by
  have h1 : sliceBytes (wBadOf n m) 0 m = List.replicate m 0 := slice_rep n m _ h
  have h2 : sliceBytes (wBadOf n m) n 4 = bytesOf 4 (crc32c (List.replicate m 0) ^^^ 1) := slice_tail n (bytesOf 4 (crc32c (List.replicate m 0) ^^^ 1))
  rw [h1, h2]
  have hl : crc32c (List.replicate m 0) < 2 ^ 32 := Nat.xor_lt_two_pow (crc32cFrom_lt _ _ (by norm_num)) (by norm_num)
  generalize crc32c (List.replicate m 0) = c at hl
  rw [ofBytes_bytesOf4 _ (Nat.xor_lt_two_pow hl (by norm_num)), beq_eq_false_iff_ne]
  intro hc
  have h3 := congrArg (fun v => c ^^^ v) hc
  simp [← Nat.xor_assoc] at h3

theorem wBodyBad_disagrees : crcAgrees wBodyBad = false := wBadOf_disagrees 4108 4096 (by decide)

/-- Context 0 of the ATU maps its whole space one to one by one leaf of the root table. -/
def wAtu : State :=
  ((((State.reset.setReg (atuPage + atuCtxn) 1).setReg64 (atuPage + atuCtxbase) 0x20000000).setMemNat 0x20000000 8 (9 * 2 ^ 60 + 0x20001)).setMemNat
    0x20001000 8 0xC7)

/-- A record header waits in the transmit ring. -/
def wRecord : State := (wSend.setMemNat 0x20000040 4 0x524A5A45).setMemNat 0x20000048 8 1

/-- Between s and u only the counts of the network interfaces and the number of the next free value have changed. -/
def Quiet (s u : State) : Prop :=
  u = { s with ocn := { s.ocn with nis := u.ocn.nis }, fresh := u.fresh } ∧
    ∀ i, (u.ni i).flip = (s.ni i).flip ∧ (u.ni i).port = (s.ni i).port ∧ (u.ni i).epoch = (s.ni i).epoch

theorem Quiet.trans {s u v : State} (h : Quiet s u) (g : Quiet u v) : Quiet s v :=
  ⟨by rw [g.1, h.1], fun i => ⟨(g.2 i).1.trans (h.2 i).1, (g.2 i).2.1.trans (h.2 i).2.1, (g.2 i).2.2.trans (h.2 i).2.2⟩⟩

theorem quiet_countFlit (s : State) (ini : Ini) (a : Nat) (wr b r : Bool) : Quiet s (s.countFlit ini a wr b r) := by
  unfold State.countFlit
  split
  · exact ⟨rfl, fun _ => ⟨rfl, rfl, rfl⟩⟩
  · rename_i i _
    have h : ∀ f : NiSt → NiSt, (∀ n, (f n).flip = n.flip ∧ (f n).port = n.port ∧ (f n).epoch = n.epoch) → Quiet s (s.modNi i f) := by
      intro f hf
      refine ⟨rfl, fun k => ?_⟩
      show (tget {} (tset {} s.ocn.nis i (f (s.ni i))) k).flip = _ ∧ (tget {} (tset {} s.ocn.nis i (f (s.ni i))) k).port = _ ∧
        (tget {} (tset {} s.ocn.nis i (f (s.ni i))) k).epoch = _
      by_cases e : k = i
      · subst e; rw [tget_tset_self]; exact hf _
      · rw [tget_tset_ne _ _ _ e]; exact ⟨rfl, rfl, rfl⟩
    have h2 : ∀ u : State, Quiet s u → Quiet s { u with fresh := u.fresh + 1 } := fun u hu =>
      hu.trans ⟨rfl, fun _ => ⟨rfl, rfl, rfl⟩⟩
    unfold State.countAt
    cases b
    · exact h (fun n => { n with stats := if r then n.stats else addStat n.stats 0 64 }) (fun n => ⟨rfl, rfl, rfl⟩)
    · exact h2 _ (h _ (fun n => ⟨rfl, rfl, rfl⟩))

/-- A unit reads a reservoir bank at which nobody waits. -/
theorem lineRead_quiet {s u : State} (h : Quiet s u) (ini : Ini) (f : Bool) (a : Nat) (ht : s.ocn.txns = []) (hf : ∀ i, (s.ni i).flip = false)
    (hw : s.rsvr.wipe = false) (hx : ∃ o v, s.target a = .reservoir o v ∧ s.bankDenies ini (o / 64 * 64 / 0x40000) false = 0)
    (hn : s.netStatus ini a false = .ok) : Quiet s (u.lineRead ini f a).1 ∧ (u.lineRead ini f a).2.1 = .ok := by
  obtain ⟨o, v, hx, hd⟩ := hx
  have hn1 : u.netStatus ini a false = .ok := by
    rw [← hn]; unfold State.netStatus
    have e1 : u.addrNi a = s.addrNi a := by rw [h.1]; rfl
    have e2 : ∀ i t, u.routeNow i t = s.routeNow i t := by
      intro i t; unfold State.routeNow; rw [(h.2 i).2.2]; rw [h.1]; rfl
    have e3 : u.regionPageAt a = s.regionPageAt a := by rw [h.1]; rfl
    have e4 : ∀ t, u.portDead t = s.portDead t := by intro t; rw [h.1]; rfl
    have e5 : ∀ t, u.portRefuses t = s.portRefuses t := by
      intro t; unfold State.portRefuses; rw [e4, (h.2 t).2.1]
    rw [e1, e3]; simp only [e2, e4, e5]
  have h0 : u.awaitNi ini a false = u := by
    unfold State.awaitNi; rw [if_neg]; cases unitNi ini a false <;> simp [h.2, hf]
  have hc := quiet_countFlit u ini a false (Status.ok != .decErr && u.begins f a) false
  have hg := h.trans hc
  unfold State.lineRead State.reach
  dsimp only
  rw [h0, hn1]
  dsimp only
  have e : (Status.ok != Status.ok) = false := rfl
  rw [e]
  generalize u.countFlit ini a false (Status.ok != .decErr && u.begins f a) false = w at hg
  have t1 : w.target a = .reservoir o v := by rw [hg.1]; exact hx
  rw [t1]
  dsimp only
  have hp : ∀ b, w.presented b = [] := by
    intro b; unfold State.presented; rw [show w.ocn.txns = [] by rw [hg.1]; exact ht]; rfl
  have hb : w.bankWord (unitReq ini a o v false 0 0) = (w, .ok, w.readLine (rsvLine (o / 64 * 64))) := by
    unfold State.bankWord
    rw [show w.rsvr.wipe = false by rw [hg.1]; exact hw]
    have : w.bankDenies ini (o / 64 * 64 / 0x40000) false = 0 := by rw [hg.1]; exact hd
    simp only [unitReq, WordReq.bank, this]; rfl
  have hs : State.bankServe (unitReq ini a o v false 0 0) w.flitsLeft w = (w, .ok, w.readLine (rsvLine (o / 64 * 64))) := by
    unfold State.flitsLeft State.bankServe
    dsimp only
    rw [hp, hb]; rfl
  rw [hs]
  exact ⟨hg, rfl⟩

theorem memRead_quiet {s u : State} (h : Quiet s u) (ini : Ini) (a n : Nat) (ht : s.ocn.txns = []) (hf : ∀ i, (s.ni i).flip = false) (hw : s.rsvr.wipe = false)
    (hx : ∀ p ∈ linePieces a n, (match s.target p.1 with
      | .reservoir o _ => s.bankDenies ini (o / 64 * 64 / 0x40000) false == 0
      | _ => false) = true ∧ s.netStatus ini p.1 false = .ok) : Quiet s (u.memRead ini a n).1 ∧ (u.memRead ini a n).2.1 = .ok := by
  unfold State.memRead
  generalize linePieces a n = l at hx
  have key : ∀ (l : List (Nat × Nat)) (acc : State × Status × List Byte), Quiet s acc.1 → acc.2.1 = .ok →
      (∀ p ∈ l, (match s.target p.1 with
        | .reservoir o _ => s.bankDenies ini (o / 64 * 64 / 0x40000) false == 0
        | _ => false) = true ∧ s.netStatus ini p.1 false = .ok) →
      let r := l.foldl (fun (acc : State × Status × List Byte) p =>
        match acc.1.lineRead ini (p.1 == a) p.1 with
        | (u, st, d) => (u, firstBad acc.2.1 st, acc.2.2 ++ sliceBytes (bytesOf 64 d.toNat) (p.1 % 64) p.2)) acc
      Quiet s r.1 ∧ r.2.1 = .ok := by
    intro l
    induction l with
    | nil => intro acc h1 h2 _; exact ⟨h1, h2⟩
    | cons p l ih =>
      intro acc h1 h2 hl
      dsimp only
      rw [List.foldl_cons]
      have hp := hl p (List.mem_cons_self ..)
      have := lineRead_quiet h1 ini (p.1 == a) p.1 ht hf hw (by
        cases e : s.target p.1 <;> rw [e] at hp <;> first | exact ⟨_, _, rfl, by simpa using hp.1⟩ | exact absurd hp.1 (by simp)) hp.2
      revert this
      cases acc.1.lineRead ini (p.1 == a) p.1 with
      | mk u q =>
        intro this
        exact ih _ this.1 (by dsimp only; rw [h2]; exact this.2) (fun q hq => hl q (List.mem_cons_of_mem _ hq))
  exact key l (u, .ok, []) h rfl hx

theorem wJour_table : Quiet wJourOk (wJourOk.journalTarget 0).1 :=
  (memRead_quiet ⟨rfl, fun _ => ⟨rfl, rfl, rfl⟩⟩ 0x35 0x20000000 8 rfl (fun _ => rfl) rfl (by decide +kernel)).1

theorem wJour_page : Quiet wJourOk ((wJourOk.journalTarget 0).1.memRead 0x35 0x20000000 16384).1 ∧
    ((wJourOk.journalTarget 0).1.memRead 0x35 0x20000000 16384).2.1 = .ok :=
  memRead_quiet wJour_table 0x35 0x20000000 16384 rfl (fun _ => rfl) rfl (by decide +kernel)

theorem wJour_reads : ∃ v l, Quiet wJourOk v ∧ (wJourOk.journalTarget 0).1.memRead 0x35 0x20000000 16384 = (v, .ok, l) := by
  have h := wJour_page
  generalize (wJourOk.journalTarget 0).1.memRead 0x35 0x20000000 16384 = p at h
  exact ⟨p.1, p.2.2, h.1, read_ok p h.2⟩

/-- A guard page whose staging address no region of the map holds. -/
def wMgdDesc : MedDesc := { wDesc with phase := .mgd, words := [0, 0, 0, 0, 0, 0xF000] }
def wMgd : State := { wMed wMgdDesc 6 with mgd := { queue := [(0, 0)] } }

theorem wMgd_fits : Fits wMgd (({ wMgd with mgd := { wMgd.mgd with queue := [] } }).mgdProgram 0 0 wMgdDesc) := by
  have h := State.memRead_unmapped { wMgd with mgd := { wMgd.mgd with queue := [] } } 0x35 wMgdDesc.guardAddr 16384 (fun i => rfl) (by decide +kernel)
  unfold State.mgdProgram
  dsimp only
  generalize State.memRead _ _ _ _ = r at h
  rw [h.1]
  unfold State.medNext State.medBoundary
  dsimp only
  generalize hX : State.modRun _ _ _ _ = X
  have h1 : X.running 0 0 = some { wMgdDesc with pc := 101, phase := .ready } := by subst hX; rfl
  have h2 : medOpcodes.contains (fld (X.medInstr { wMgdDesc with pc := 101, phase := .ready }) 0 8) = true := by
    rw [show X.medInstr { wMgdDesc with pc := 101, phase := .ready } = 0x080F by subst hX; rfl]; decide
  rw [h1]
  dsimp only
  rw [if_neg (by decide), h2, if_neg (by decide)]
  subst hX
  exact ⟨rfl, rfl, rfl⟩

/-! ### The witnesses -/

theorem witness_FabricTileEventsComplete :
    (∃ (s : State) (t : TileId) (e : Stage2) (rest : List Stage2),
      ((s.tile t.val).stage2 = e :: rest) ∧ (regionMoves (s.rgn (t.val / 256)) = true) ∧ (e.new = false) ∧ (s.stageFree t.val e = true) ∧ (Fits s (((s.modTile t.val (fun T => { T with stage2 := rest })).modTile t.val (fun T => T.retire e)).loadOuts t.val e.doa e.dob e.res))) ∧
    (∃ (s : State) (t : TileId) (c : Nat),
      (regionMoves (s.rgn (t.val / 256)) = true) ∧ (fOvr (s.act t.val) = true) ∧ (s.switchReq t.val = some c) ∧ (s.seqStalls (t.val / 256) = false) ∧ (bit (s.rgn (t.val / 256)).loading c = false) ∧ (s.tileStalls (t.val / 256) = false) ∧ (Fits s (s.ownSwitch t.val c))) ∧
    (∃ (s : State) (r : Region),
      (regionMoves (s.rgn r.val) = true) ∧ (Fits s (s.regionEdge s.edgeBase r.val))) ∧
    (∃ (s : State) (t : TileId) (src : BitVec 4) (w : Word),
      ((s.sinks t.val src.toNat).any isSlot = false) ∧ (s.sourceWord t.val src.toNat = some w) ∧ (regionMoves (s.rgn (t.val / 256)) = true) ∧ ((s.sinks t.val src.toNat).all (s.pointReady false) = true) ∧ (Fits s ((s.sinks t.val src.toNat).foldl (fun u p => u.deliver w p) (s.takeSource t.val src.toNat)))) ∧
    (∃ (s : State) (t : TileId) (tap : Fin 4) (w : Word) (rest : List Word),
      (tapEn (fTap (s.act t.val) tap.val) = true) ∧ (tapDrv (fTap (s.act t.val) tap.val) = true) ∧ (tapFreg (fTap (s.act t.val) tap.val) = true) ∧ ((tget {} (s.tile t.val).fregs tap.val).words = w :: rest) ∧ (regionMoves (s.rgn (t.val / 256)) = true) ∧ (0 < (tget {} (s.tile t.val).fregs tap.val).n0) ∧ ((tget {} (s.tile t.val).fregs tap.val).out = false) ∧ ((s.segPoints t.val (tapDir (fTap (s.act t.val) tap.val)) (tapSpan (fTap (s.act t.val) tap.val)) (tapTrack (fTap (s.act t.val) tap.val))).all (s.pointReady false) = true) ∧ (Fits s ((s.segPoints t.val (tapDir (fTap (s.act t.val) tap.val)) (tapSpan (fTap (s.act t.val) tap.val)) (tapTrack (fTap (s.act t.val) tap.val))).foldl (fun u p => u.deliver w p)
        (s.modTile t.val (fun T => { T with fregs := tset {} T.fregs tap.val { tget {} (s.tile t.val).fregs tap.val with words := rest, out := true } }))))) ∧
    (∃ (s : State) (r : Region) (line : Fin 8) (pos : Fin 16),
      (regionMoves (s.rgn r.val) = true) ∧ (Fits s (s.driveLine r.val line.val pos.val))) ∧
    (∃ (s : State) (t : TileId) (ch : Fin 8) (w : Word) (rest : List Word),
      (s.xing t.val ch.val = w :: rest) ∧ (sluicePasses (s.rgn (t.val / 256)) = true) ∧ (s.pointReady false (.chan t.val ch.val) = true) ∧ (Fits s ((s.takeXing t.val ch.val w rest).deliver w (.chan t.val ch.val)))) :=
  ⟨⟨wStage, 0, wStage2, [], by decide +kernel⟩,
   ⟨wFrame (2 ^ 0 + 2 ^ 1 + 3 * 2 ^ 3 + 1 * 2 ^ 6), 0, 3, by decide +kernel⟩,
   ⟨wRun, 0, by decide +kernel⟩,
   ⟨wOa, 0, 1, 7, by decide +kernel⟩,
   ⟨wFurrow, 0, 0, 9, [], by decide +kernel⟩,
   ⟨wSlot, 0, 0, 0, by decide +kernel⟩,
   ⟨wXing, 256, 4, 5, [], by decide +kernel⟩⟩

theorem witness_RegionCommandsComplete_part1 :
    (∃ (s : State) (ini : Ini) (r : Region) (val : Word),
      (s.mayWrite ini (frgPage r.val + frgCtxsel) = true) ∧ (sequencerOn ((s.fieldWrite ini (frgPage r.val + frgCtxsel) val).rgn r.val) = true) ∧ (Fits s (((s.fieldWrite ini (frgPage r.val + frgCtxsel) val).modRgn r.val (fun g => { g with regReq := some (fld (s.actBits ini (frgPage r.val + frgCtxsel) val) 0 3) })).answer .ok 0))) ∧
    (∃ (s : State) (r : Region) (ctx : BitVec 3),
      (s.signalReady r.val = true) ∧ (s.waitingSignal r.val = none) ∧ (Fits s (s.modRgn r.val (fun g => { g with sigReq := some ctx.toNat })))) ∧
    (∃ (s : State) (r : Region) (k : Fin 4) (c : Nat),
      (s.hgWants r.val k.val = some c) ∧ (bit (s.seqcfg r.val) 1 = true) ∧ (regionMoves (s.rgn r.val) = true) ∧ (c ≠ (s.rgn r.val).sel) ∧ (Fits s (s.modHg r.val k.val (fun h => { h with req := true })))) ∧
    (∃ (s : State) (r : Region) (src : SelSource) (c : Nat),
      (regionMoves (s.rgn r.val) = true) ∧ (s.winner r.val = some (src, c)) ∧ (c ≠ (s.rgn r.val).sel) ∧ (s.pktHold r.val = false) ∧ (s.seqStalls r.val = false) ∧ (s.tileStalls r.val = false) ∧ (Fits s ((s.consumeReq r.val src).enterRegion s.edgeBase r.val c))) ∧
    (∃ (s : State) (r : Region) (c : Nat),
      ((s.rgn r.val).stall = some ⟨c, none⟩) ∧ (((s.shadowUpTo r.val c).rgn r.val).stall = some ⟨c, none⟩) ∧ (bit ((s.shadowUpTo r.val c).rgn r.val).loading c = false) ∧ (((s.shadowUpTo r.val c).rgn r.val).held = false) ∧ (((s.shadowUpTo r.val c).rgn r.val).st ≠ .frozen) ∧ (Fits s (((s.shadowUpTo r.val c).stallOver r.val).enterRegion ((s.shadowUpTo r.val c).stallOver r.val).stoppedBase r.val c))) ∧
    (∃ (s : State) (r : Region) (c l : Nat),
      ((s.rgn r.val).stall = some ⟨c, some l⟩) ∧ (((s.shadowUpTo r.val c).rgn r.val).stall = some ⟨c, some l⟩) ∧ (bit ((s.shadowUpTo r.val c).rgn r.val).loading c = false) ∧ (((s.shadowUpTo r.val c).rgn r.val).held = false) ∧ (((s.shadowUpTo r.val c).rgn r.val).st ≠ .frozen) ∧ (Fits s ((((s.shadowUpTo r.val c).stallOver r.val).ownSwitch (256 * r.val + l) c).regionEdge (((s.shadowUpTo r.val c).stallOver r.val).ownSwitch (256 * r.val + l) c).stoppedBase r.val))) ∧
    (∃ (s : State) (ini : Ini) (r : Region) (val : Word),
      (s.mayWrite ini (frgPage r.val + frgCtrl) = true) ∧ (bit (s.actBits ini (frgPage r.val + frgCtrl) val) 0 = true) ∧ (bit (s.actBits ini (frgPage r.val + frgCtrl) val) 1 = false) ∧ (((s.fieldWrite ini (frgPage r.val + frgCtrl) val).rgn r.val).st = .ready) ∧ ((s.fieldWrite ini (frgPage r.val + frgCtrl) val).castOk r.val = true) ∧ (Fits s (((s.fieldWrite ini (frgPage r.val + frgCtrl) val).modRgn r.val (fun g => { g with st := .caston, stage := 1 })).answer .ok 0))) ∧
    (∃ (s : State) (r : Region),
      ((s.rgn r.val).st = .caston) ∧ ((s.rgn r.val).stage = 1) ∧ (Fits s (s.modRgn r.val (fun g => { g with stage := 2 })))) ∧
    (∃ (s : State) (r : Region),
      ((s.rgn r.val).st = .caston) ∧ ((s.rgn r.val).stage = 2) ∧ ((s.rgn r.val).offReq = false) ∧ (s.fcc.lstate = 0) ∧ (Fits s (castonResetReleaseCmd r.val s))) ∧
    (∃ (s : State) (ini : Ini) (r : Region) (val : Word),
      (s.mayWrite ini (frgPage r.val + frgCtrl) = true) ∧ (bit (s.actBits ini (frgPage r.val + frgCtrl) val) 0 = false) ∧ (bit (s.actBits ini (frgPage r.val + frgCtrl) val) 1 = true) ∧ (((s.fieldWrite ini (frgPage r.val + frgCtrl) val).rgn r.val).st = .run) ∧ (Fits s (((s.fieldWrite ini (frgPage r.val + frgCtrl) val).beginBindoff r.val).answer .ok 0))) ∧
    (∃ (s : State) (r : Region) (timeout : Bool),
      ((s.rgn r.val).st = .bindoff) ∧ ((s.rgn r.val).parked = false) ∧ (timeout = true ∨ s.hgEmpty r.val = true) ∧ (Fits s (s.endDrain r.val))) ∧
    (∃ (s : State) (r : Region),
      ((s.rgn r.val).st = .bindoff) ∧ ((s.rgn r.val).parked = true) ∧ ((s.rgn r.val).offReq = false) ∧ (s.fcc.lstate = 0) ∧ (Fits s (bindoffResetCmd r.val s))) ∧
    (∃ (s : State) (r : Region) (k : Fin 4) (fl : HgFlit) (rest : List HgFlit),
      ((s.hg r.val k.val).inb = fl :: rest) ∧ (regionMoves (s.rgn r.val) = true) ∧ ((s.rgn r.val).parked = false) ∧ ((s.hgWants r.val k.val = none ∨ s.hgWants r.val k.val = some (s.rgn r.val).sel)) ∧ ((s.hg r.val k.val).shown = none) ∧ ((hgInLanes (s.hg r.val k.val).cfg).all (fun i => (s.lanePoints r.val k.val i).all (s.pointReady false)) = true) ∧ (Fits s (s.hgShow r.val k.val fl rest))) :=
  ⟨⟨wRun, levee, 0, 3, by decide +kernel⟩,
   ⟨(wRun.setReg (frgPage 0 + frgSeqcfg) 1), 0, 2, by decide +kernel⟩,
   ⟨wTag, 0, 0, 3, by decide +kernel⟩,
   ⟨(wRgn { st := .run, regReq := some 4 }), 0, .register, 4, by decide +kernel⟩,
   ⟨(wRgn { st := .run, stall := some ⟨5, none⟩ }), 0, 5, by decide +kernel⟩,
   ⟨(wRgn { st := .run, stall := some ⟨5, some 3⟩ }), 0, 5, 3, by decide +kernel⟩,
   ⟨(wRgn { st := .ready }), levee, 0, 1, by decide +kernel⟩,
   ⟨(wRgn { st := .caston, stage := 1 }), 0, by decide +kernel⟩,
   ⟨(wRgn { st := .caston, stage := 2 }), 0, by decide +kernel⟩,
   ⟨wRun, levee, 0, 2, by decide +kernel⟩,
   ⟨(wRgn { st := .bindoff }), 0, false, by decide +kernel⟩,
   ⟨(wRgn { st := .bindoff, parked := true }), 0, by decide +kernel⟩,
   ⟨wIn, 0, 0, ⟨0x5, true, true, 0⟩, [], by decide +kernel⟩⟩

theorem witness_RegionCommandsComplete_part2 :
    (∃ (s : State) (r : Region) (k : Fin 4),
      ((s.rgn r.val).held = false) ∧ ((s.rgn r.val).st ≠ .frozen) ∧ (Fits s ((s.hgForm r.val k.val).hgSend r.val k.val))) ∧
    (∃ (s : State) (r : Region) (k : Fin 4),
      ((s.hg r.val k.val).again = true) ∧ ((s.rgn r.val).held = false) ∧ ((s.rgn r.val).st ≠ .frozen) ∧ (Fits s ((s.modHg r.val k.val (fun h => { h with again := false })).hgSend r.val k.val))) ∧
    (∃ (s : State) (ini : Ini) (r : Region) (val : Word),
      (s.passesWhole ini (frgPage r.val + frgOpsel) = true) ∧ (s.opRefusal r.val (opPoint val) = 0) ∧ (s.fcc.lstate = 0) ∧ (Fits s ((s.opselAct r.val val).answer .ok 0))) ∧
    (∃ (s : State) (r : Region) (p : OpPoint),
      (s.opHead r.val = some p) ∧ (s.fab.opRun = false) ∧ (p.pwr = true) ∧ ((s.rgn r.val).op.pwr = true) ∧ (Fits s ({ s with fab := { s.fab with opRun := true } }))) ∧
    (∃ (s : State) (r : Region) (p : OpPoint),
      (s.opHead r.val = some p) ∧ (s.fab.opRun = true) ∧ (p.pwr = true) ∧ (Fits s ((s.popOp.modRgn r.val (fun g => { g with op := p, budget := s.opBudget p })).raise (frgPage r.val) 3))) ∧
    (∃ (s : State) (r : Region) (p : OpPoint),
      (s.opHead r.val = some p) ∧ (p.pwr = true) ∧ ((s.rgn r.val).st = .off) ∧ (s.fab.opRun = false) ∧ (Fits s (((s.popOp.wipeRegion r.val).modRgn r.val (fun g => { g with st := .empty, op := p, budget := s.opBudget p })).raise (frgPage r.val) 3))) ∧
    (∃ (s : State) (r : Region) (p : OpPoint),
      (s.opHead r.val = some p) ∧ (p.pwr = false) ∧ ((s.rgn r.val).st = .ready) ∧ (s.regionQuiet r.val = true) ∧ (Fits s ((s.regionOff r.val).opEnd r.val))) ∧
    (∃ (s : State) (r : Region) (p : OpPoint),
      (s.opHead r.val = some p) ∧ (p.pwr = false) ∧ ((s.rgn r.val).st = .ready) ∧ (s.regionQuiet r.val = false) ∧ (((s.closePorts r.val).rgn r.val).st = .ready) ∧ (Fits s (s.closePorts r.val))) ∧
    (∃ (s : State) (codes : List (BitVec 12)),
      (Fits s (regionTempSample codes s))) :=
  ⟨⟨wOut, 0, 0, by decide +kernel⟩,
   ⟨wAgain, 0, 0, by decide +kernel⟩,
   ⟨State.reset, levee, 0, 0, by decide +kernel⟩,
   ⟨wOp, 0, { pwr := true, vsel := 5, divi := 4 }, by decide +kernel⟩,
   ⟨{ wOp with fab := { wOp.fab with opRun := true } }, 0, { pwr := true, vsel := 5, divi := 4 }, by decide +kernel⟩,
   ⟨wOn, 0, { pwr := true, vsel := 5, divi := 4 }, by decide +kernel⟩,
   ⟨wPoff, 0, {}, by decide +kernel⟩,
   ⟨wOpenOff, 0, {}, by decide +kernel⟩,
   ⟨wRun, [], by decide +kernel⟩⟩

theorem witness_LoaderCommandsComplete :
    (∃ (s : State) (ini : Ini) (val : Word),
      (s.mayWrite ini (fccPg + fccCtrl) = true) ∧ (bit (s.actBits ini (fccPg + fccCtrl) val) 0 = true) ∧ (bit (s.actBits ini (fccPg + fccCtrl) val) 1 = false) ∧ (bit (s.actBits ini (fccPg + fccCtrl) val) 2 = false) ∧ (bit (s.actBits ini (fccPg + fccCtrl) val) 3 = false) ∧ ((s.fieldWrite ini (fccPg + fccCtrl) val).fcc.lstate = 0) ∧ (Fits s (((s.fieldWrite ini (fccPg + fccCtrl) val).fccOpen false).answer .ok 0))) ∧
    (∃ (s : State) (ini : Ini) (val : Word),
      (s.mayWrite ini (fccPg + fccCtrl) = true) ∧ (bit (s.actBits ini (fccPg + fccCtrl) val) 0 = false) ∧ (bit (s.actBits ini (fccPg + fccCtrl) val) 1 = true) ∧ (bit (s.actBits ini (fccPg + fccCtrl) val) 2 = false) ∧ (bit (s.actBits ini (fccPg + fccCtrl) val) 3 = false) ∧ ((s.fieldWrite ini (fccPg + fccCtrl) val).fcc.lstate = 1) ∧ (Fits s (((s.fieldWrite ini (fccPg + fccCtrl) val).loadEnd 0x23).answer .ok 0))) ∧
    (∃ (s : State) (ini : Ini) (val : Word),
      (s.mayWrite ini (fccPg + fccCtrl) = true) ∧ (bit (s.actBits ini (fccPg + fccCtrl) val) 0 = false) ∧ (bit (s.actBits ini (fccPg + fccCtrl) val) 1 = false) ∧ (bit (s.actBits ini (fccPg + fccCtrl) val) 2 = true) ∧ (bit (s.actBits ini (fccPg + fccCtrl) val) 3 = false) ∧ ((s.fieldWrite ini (fccPg + fccCtrl) val).fcc.lstate = 0) ∧ ((s.fieldWrite ini (fccPg + fccCtrl) val).fcc.sigOk = true) ∧ (Fits s ((s.fieldWrite ini (fccPg + fccCtrl) val).sessionOpen.answer .ok 0))) ∧
    (∃ (s : State) (ini : Ini) (val : Word),
      (s.mayWrite ini (fccPg + fccCtrl) = true) ∧ (bit (s.actBits ini (fccPg + fccCtrl) val) 0 = false) ∧ (bit (s.actBits ini (fccPg + fccCtrl) val) 1 = false) ∧ (bit (s.actBits ini (fccPg + fccCtrl) val) 2 = false) ∧ (bit (s.actBits ini (fccPg + fccCtrl) val) 3 = true) ∧ ((s.fieldWrite ini (fccPg + fccCtrl) val).fcc.sess = true) ∧ (Fits s ((s.fieldWrite ini (fccPg + fccCtrl) val).endSession.answer .ok 0))) ∧
    (∃ (s : State) (ini : Ini) (a : BitVec 20) (len : Nat) (data : BitVec 64),
      (len = 8) ∧ (a.toNat % 8 = 0) ∧ (s.mayWrite ini fccPg = true) ∧ (s.fcc.lstate = 1) ∧ (s.fcc.spi = false) ∧ (Fits s ((s.stage8 (s.fcc.h + (a.toNat + 0x100000 - s.fcc.h % 0x100000) % 0x100000) (bytesOf 8 data.toNat)).answer .ok 0))) ∧
    (∃ (s : State),
      (s.fcc.lstate = 1) ∧ (s.fcc.fixed = false) ∧ (s.fcc.part = 0) ∧ (256 ≤ s.fcc.h) ∧ (s.headerCodes = []) ∧ (s.stagingOpen = true) ∧ (Fits s (s.modFcc (fun f => { f with part := 1, pos := 256 })))) ∧
    (∃ (s : State),
      (s.spiOn = true) ∧ (Fits s (s.fccOpen true))) ∧
    (∃ (s : State) (p : Word) (bytes : List Byte),
      (s.spiOn = true) ∧ (s.fcc.lstate = 1) ∧ (s.fcc.spi = true) ∧ (p.toNat % 8 = 0) ∧ (bytes.length % 8 = 0) ∧ (s.fcc.h ≤ p.toNat) ∧ (p.toNat < s.fcc.h + 0x100000) ∧ (Fits s (s.stageMany p.toNat ((List.range (bytes.length / 8)).map (fun i => (bytes.drop (8 * i)).take 8))))) ∧
    (∃ (s : State),
      (s.spiOn = true) ∧ (s.fcc.lstate = 1) ∧ (Fits s (s.loadEnd 0x23))) ∧
    (∃ (s : State),
      (s.spiOn = true) ∧ (Fits s (s.answer .ok ((s.reg (fccPg + fccLres)).zeroExtend 64 <<< 32 ||| (s.fccStatWord).zeroExtend 64)))) ∧
    (∃ (s : State),
      (s.spiOn = true) ∧ (Fits s (s.answer .ok 0x01000010))) ∧
    (∃ (s : State),
      (s.fcc.lstate = 1) ∧ (s.fcc.fixed = true) ∧ (s.fcc.h = s.totalLen) ∧ (s.tType = 1) ∧ (anyNonzero (s.strmBytes (s.trailerAt + 8 + 3309) 3) = false) ∧ (s.stagingOpen = true) ∧ (Fits s (((s.modFcc (fun f => { f with lstate := 2, auth := none, ana := none })).raise fccPg 0).presentCosts))) ∧
    (∃ (s : State)  (k : List Byte) (v : Bool),
      (s.fcc.lstate = 2) ∧ (s.tType = 1) ∧ (s.fcc.auth = none) ∧ (s.keyRef s.tKeyidx = .key k) ∧ (Config.mldsaVerify k (digestBytes s.streamDigest) skeinStr (s.strmBytes (s.trailerAt + 8) 3309) = v) ∧ (s.stagingOpen = true) ∧ (Fits s ((s.modFcc (fun f => { f with auth := some v })).verifyEnd))) ∧
    (∃ (s : State),
      (s.fcc.lstate = 2) ∧ (s.fcc.ana = none) ∧ (s.analyseTargets s.targets = none) ∧ (s.stagingOpen = true) ∧ (Fits s ((s.modFcc (fun f => { f with ana := some none })).verifyEnd))) ∧
    (∃ (s : State)  (r : Nat) (rest : List Nat),
      (s.fcc.todo = r :: rest) ∧ (s.fcc.lstate = 3) ∧ (s.hShadow = true) ∧ (s.fcc.cur = none) ∧ ((s.rgn r).st = .run) ∧ (s.shadowBusy r = false) ∧ (Fits s ((s.modRgn r (fun g => { g with loading := BitVec.ofNat 8 s.hContexts })).modFcc (fun f => { f with cur := some r })))) ∧
    (∃ (s : State)  (r : Nat),
      (s.fcc.cur = some r) ∧ (Fits s (regionSeal s))) ∧
    (∃ (s : State) (r : Region),
      (s.fcc.bulk.contains r.val = true) ∧ (Fits s (((s.wipeRegion r.val).modFcc (fun f => { f with bulk := f.bulk.filter (fun x => x != r.val) })).loadGoesOn))) ∧
    (∃ (s : State)  (b c : Nat) (rest : List (Option (Nat × Nat))),
      (s.rsvr.hand = some (b, c) :: rest) ∧ (s.staging b = false) ∧ (Fits s ((({ s with rsvr := { s.rsvr with hand := rest, own := tset 0 s.rsvr.own b c } }).raise (page .rsv 0) 0).answer .ok 0))) :=
  ⟨⟨State.reset, levee, 1, by decide +kernel⟩,
   ⟨wFcc { lstate := 1 }, levee, 2, by decide +kernel⟩,
   ⟨wFcc { sigOk := true }, levee, 4, by decide +kernel⟩,
   ⟨wFcc { sess := true }, levee, 8, by decide +kernel⟩,
   ⟨wFcc { lstate := 1, nbank := 1 }, levee, 8, 8, 5, by decide +kernel⟩,
   ⟨wHeader, by decide +kernel⟩,
   ⟨wSpi {}, by decide +kernel⟩,
   ⟨wSpi { lstate := 1, spi := true, nbank := 1 }, 8, [1, 2, 3, 4, 5, 6, 7, 8], by decide +kernel⟩,
   ⟨wSpi { lstate := 1 }, by decide +kernel⟩,
   ⟨wSpi {}, by decide +kernel⟩,
   ⟨wSpi {}, by decide +kernel⟩,
   ⟨wTrailer { lstate := 1, fixed := true, h := 264 }, by decide +kernel⟩,
   ⟨wKey, Config.provKey, _, by decide +kernel, by decide +kernel, by decide +kernel, rfl, rfl, by decide +kernel⟩,
   ⟨wFcc { lstate := 2 }, by decide +kernel⟩,
   ⟨wShadow, 0, [], by decide +kernel, by decide +kernel, by decide +kernel, by decide +kernel, by decide +kernel, shadowBusy_of_no_frames _ _ rfl (by decide +kernel), by decide +kernel⟩,
   ⟨wFcc { lstate := 3, cur := some 0, todo := [0, 1] }, 0, by decide +kernel⟩,
   ⟨wFcc { bulk := [3] }, 3, by decide +kernel⟩,
   ⟨wHand, 3, 0x31, [], by decide +kernel⟩⟩

theorem witness_IntegrityCommandsComplete :
    (∃ (s : State) (ups : List (Fin 49152 × Fin 1080)),
      ((ups.foldl State.upset s).scrubOn = true) ∧ ((ups.foldl State.upset s).slot < 49152) ∧ ((ups.foldl State.upset s).slot ≠ 0) ∧ ((ups.foldl State.upset s).slotSkipped (ups.foldl State.upset s).slot = true) ∧ (Fits s (((ups.foldl State.upset s).modInteg (fun i => { i with skips := i.skips + 1 })).setReg (scrPg + fccScrpos) (BitVec.ofNat 32 ((ups.foldl State.upset s).slot + 1))))) ∧
    (∃ (s : State) (ups : List (Fin 49152 × Fin 1080)),
      ((ups.foldl State.upset s).scrubOn = true) ∧ ((ups.foldl State.upset s).slot < 49152) ∧ ((ups.foldl State.upset s).slot ≠ 0) ∧ ((ups.foldl State.upset s).slotSkipped (ups.foldl State.upset s).slot = false) ∧ (Fits s ((((ups.foldl State.upset s).pulse 4 0 0).scrubAct (ups.foldl State.upset s).slot (readFrame ((ups.foldl State.upset s).cells (ups.foldl State.upset s).slot).1 ((ups.foldl State.upset s).cells (ups.foldl State.upset s).slot).2)).setReg (scrPg + fccScrpos) (BitVec.ofNat 32 ((ups.foldl State.upset s).slot + 1))))) ∧
    (∃ (s : State) (ups : List (Fin 49152 × Fin 1080)),
      ((ups.foldl State.upset s).scrubOn = true) ∧ ((ups.foldl State.upset s).slot = 0) ∧ ((ups.foldl State.upset s).writeCanary.slot = 0) ∧ ((ups.foldl State.upset s).slotSkipped 0 = false) ∧ (Fits s ((((ups.foldl State.upset s).writeCanary.pulse 4 0 0).scrubAct 0 (readFrame ((ups.foldl State.upset s).cells 0).1 ((ups.foldl State.upset s).cells 0).2)).setReg (scrPg + fccScrpos) 1))) ∧
    (∃ (s : State) (r : Region),
      ((s.rgn r.val).heldLatch = true) ∧ ((s.rgn r.val).st = .run) ∧ ((s.rgn r.val).held = false) ∧ (Fits s ((s.stopRegion r.val).modRgn r.val (fun g => { g with held := true, cyc := g.cyc + 1 })))) ∧
    (∃ (s : State) (ini : Ini) (val : Word),
      (s.mayWrite ini (scrPg + fccScrhold) = true) ∧ (Fits s (((List.range 24).foldl (fun w r => if bit (s.actBits ini (scrPg + fccScrhold) val) r then w.modRgn r (fun g => { g with held := false, heldLatch := false }) else w)
        ((s.fieldWrite ini (scrPg + fccScrhold) val).setReg (scrPg + fccScrhold) 0)).answer .ok 0))) ∧
    (∃ (s : State) (ups : List (Fin 1080)),
      (s.scrubOn = true) ∧ (s.slot = 49152) ∧ (Fits s (canarySlot ups s))) ∧
    (∃ (s : State),
      (Fits s (s.selfFault 4))) ∧
    (∃ (s : State) (reg : Fin 3) (f0 f1 f2 : Word),
      (votedOut (s.votedCopies reg.val f0 f1 f2) = []) ∧ (Fits s ((s.setReg (votedReg reg.val).1 (vote3 (s.votedCopies reg.val f0 f1 f2))).modInteg (fun x => { x with tmr := tset 0 x.tmr reg.val 0 })))) ∧
    (∃ (s : State) (reg : Fin 3) (f0 f1 f2 : Word) (i : Nat),
      (votedOut (s.votedCopies reg.val f0 f1 f2) = [i]) ∧ (tget 0 s.integ.tmr reg.val ≠ i + 1) ∧ (Fits s ((s.voteSeen reg.val (vote3 (s.votedCopies reg.val f0 f1 f2))).modInteg (fun x => { x with tmr := tset 0 x.tmr reg.val (i + 1) })))) ∧
    (∃ (s : State) (reg : Fin 3) (f0 f1 f2 : Word) (i : Nat) (rest : List Nat),
      (votedOut (s.votedCopies reg.val f0 f1 f2) = i :: rest) ∧ ((rest ≠ [] ∨ tget 0 s.integ.tmr reg.val = i + 1)) ∧ (Fits s (((s.voteSeen reg.val (regReset (votedReg reg.val).1)).modInteg (fun x => { x with tmr := tset 0 x.tmr reg.val 0 })).selfFault 5))) ∧
    (∃ (s : State) (ini : Ini) (val : Word),
      (s.mayWrite ini (scrPg + fccUcqctl) = true) ∧ (bit (s.actBits ini (scrPg + fccUcqctl) val) 0 = true) ∧ (Fits s (((s.fieldWrite ini (scrPg + fccUcqctl) val).modInteg (fun x => { x with ucq := x.ucq.tail })).answer .ok 0))) ∧
    (∃ (s : State) (ini : Ini) (val : Word),
      (s.mayWrite ini (scrPg + fccInteg) = true) ∧ (ini = levee) ∧ (bit val 0 = false) ∧ (bit (s.reg (scrPg + fccInteg)) 1 = true) ∧ (fld val 2 3 = 0) ∧ (Fits s (((s.modReg (scrPg + fccInteg) (fun w => clrBit w 0)).answer .ok 0).inhibitEnd s))) ∧
    (∃ (s : State) (ini : Ini) (val : Word),
      (s.mayWrite ini (capPg + fccCapctrl) = true) ∧ (bit (s.actBits ini (capPg + fccCapctrl) val) 0 = true) ∧ (bit (s.actBits ini (capPg + fccCapctrl) val) 1 = false) ∧ ((s.fieldWrite ini (capPg + fccCapctrl) val).capState = 0) ∧ (Fits s (((s.fieldWrite ini (capPg + fccCapctrl) val).capCtrl (s.actBits ini (capPg + fccCapctrl) val)).answer .ok 0))) ∧
    (∃ (s : State) (ini : Ini) (val : Word),
      (s.mayWrite ini (capPg + fccCapctrl) = true) ∧ (bit (s.actBits ini (capPg + fccCapctrl) val) 0 = false) ∧ (bit (s.actBits ini (capPg + fccCapctrl) val) 1 = true) ∧ ((s.fieldWrite ini (capPg + fccCapctrl) val).capState = 1) ∧ (Fits s (((s.fieldWrite ini (capPg + fccCapctrl) val).captureEnd 6).answer .ok 0))) ∧
    (∃ (s : State),
      (s.capState = 1) ∧ ((s.rgn s.integ.capAnchor).st = .run) ∧ (s.integ.capMatch = none) ∧ (Fits s (((s.freeze s.integ.capAnchor).setReg64 (capPg + fccCapat) (s.rgn s.integ.capAnchor).cyc.toNat).capProgress))) ∧
    (∃ (s : State) (r : Region),
      (s.capState = 2) ∧ (bit s.integ.capRgn r.val = true) ∧ ((s.rgn r.val).st = .run) ∧ (Fits s ((s.freeze r.val).capProgress))) ∧
    (∃ (s : State),
      (s.capState = 3) ∧ (s.captureOpen = true) ∧ (Fits s ((s.writeSections (rgnList s.integ.capRgn).length).captureEnd 0))) ∧
    (∃ (s : State),
      (s.probeAuth = false) ∧ (Fits s ((List.range 16).foldl (fun u k => u.modReg (page .trc 1 + trcPrb + 4 * k) (fun w => clrBit w 0)) s))) :=
  ⟨⟨wScr 5, [], by decide +kernel⟩,
   ⟨((wScr 5).setRgn 0 { st := .run }), [(5, 3), (9, 4)], by decide +kernel⟩,
   ⟨((wScr 0).setRgn 0 { st := .run }), [], by decide +kernel⟩,
   ⟨wRgn { st := .run, heldLatch := true }, 0, by decide +kernel⟩,
   ⟨wRgn { st := .run, held := true }, levee, 1, by decide +kernel⟩,
   ⟨wScr 49152, [0], by decide +kernel⟩,
   ⟨State.reset, by decide +kernel⟩,
   ⟨State.reset, 0, 0, 0, 0, by decide +kernel⟩,
   ⟨State.reset, 0, 1, 0, 0, 0, by decide +kernel⟩,
   ⟨State.reset.modInteg (fun x => { x with tmr := [(0, 1)] }), 0, 1, 0, 0, 0, [], by decide +kernel⟩,
   ⟨State.reset, levee, 1, by decide +kernel⟩,
   ⟨State.reset.setReg (scrPg + fccInteg) 3, levee, 0, by decide +kernel⟩,
   ⟨State.reset, levee, 1, by decide +kernel⟩,
   ⟨State.reset.setReg (capPg + fccCapstat) 1, levee, 2, by decide +kernel⟩,
   ⟨wRun.setReg (capPg + fccCapstat) 1, by decide +kernel⟩,
   ⟨(wRun.setReg (capPg + fccCapstat) 2).modInteg (fun x => { x with capRgn := 1 }), 0, by decide +kernel⟩,
   ⟨State.reset.setReg (capPg + fccCapstat) 3, by decide +kernel⟩,
   ⟨State.reset, by decide +kernel⟩⟩

theorem wit_mgd : (∃ (s : State) (m : MedCh) (l : Lun) (d : MedDesc) (rest : List (Nat × Nat)),
      (s.running m.val l.val = some d) ∧ (s.mgd.queue = (m.val, l.val) :: rest) ∧ (d.phase = .mgd) ∧ (fld (s.medInstr d) 0 8 ≠ 0x05) ∧ (s.mgd.stop = false) ∧ (s.medEn m.val = true) ∧ (Fits s (({ s with mgd := { s.mgd with queue := rest } }).mgdProgram m.val l.val d))) :=
  ⟨wMgd, 0, 0, wMgdDesc, [], by decide +kernel, by decide +kernel, by decide +kernel, by decide +kernel, by decide +kernel, by decide +kernel, wMgd_fits⟩

theorem witness_MediaProgramStepsComplete_part1 :
    (∃ (s : State) (m : MedCh) (l : Lun) (d : MedDesc) (u : State),
      ((s.medch m.val).pool.find? (fun d => d.lun == l.val) = some d) ∧ (d.started = false) ∧ (s.retrainDue m.val d.ce = false) ∧ (d.abort = false) ∧ ((s.medch m.val).training = false) ∧ (s.mgd.stop = false) ∧ (s.mediaClock m.val = true) ∧ ((s.modDesc m.val (fun e => e.lun == l.val) (fun e => { e with started := true, pg := s.medc.active, pc := e.prog, key := if d.enc = true then tget none s.medc.keys d.keyslot else none })).startStatus m.val d = (none, u)) ∧ (Fits s (u.medBoundary m.val l.val))) ∧
    (∃ (s : State) (m : MedCh) (l : Lun) (d : MedDesc),
      (s.atInstr m.val l.val 0x01 [.ready, .entry] = some d) ∧ (bit (s.medInstr d) 16 = false) ∧ (Fits s ((s.drive m.val l.val [.cmd (BitVec.ofNat 8 (fld (s.medInstr d) 8 8))]).medNext m.val l.val))) ∧
    (∃ (s : State) (m : MedCh) (l : Lun) (d : MedDesc) (e : Nat),
      (s.atInstr m.val l.val 0x01 [.ready, .entry] = some d) ∧ (bit (s.medInstr d) 16 = true) ∧ (d.class = 1 ∨ d.class = 2) ∧ (s.tornFree = some e) ∧ (d.abort = false) ∧ (Fits s (((s.drive m.val l.val []).tornIssue e m.val d).modRun m.val l.val (fun x => { x with phase := .ack, entry := some e })))) ∧
    (∃ (s : State) (m : MedCh) (l : Lun) (d : MedDesc) (e : Nat),
      (s.running m.val l.val = some d) ∧ (d.entry = some e) ∧ (d.phase = .ack) ∧ (s.mgd.stop = false) ∧ (d.abort = false) ∧ (s.inhibit m.val = false) ∧ (s.medEn m.val = true) ∧ (Fits s ((((s.drive m.val l.val [.cmd (BitVec.ofNat 8 (fld (s.medInstr d) 8 8))]).modRun m.val l.val (fun x => { x with driven := true })).modLun m.val l.val (fun x => { x with busy := true })).medNext m.val l.val))) ∧
    (∃ (s : State) (m : MedCh) (l : Lun) (d : MedDesc),
      (s.atInstr m.val l.val 0x02 [.ready] = some d) ∧ (fld (s.medInstr d) 19 3 = 0) ∧ (Fits s ((s.drive m.val l.val [.addr ((bytesOf 2 0 ++ bytesOf 4 (s.planeRow m.val d)).take (fld (s.medInstr d) 16 3))]).medNext m.val l.val))) ∧
    (∃ (s : State) (m : MedCh) (l : Lun) (d : MedDesc),
      (s.atInstr m.val l.val 0x03 [.ready] = some d) ∧ (Fits s (((s.drive m.val l.val []).modRun m.val l.val (fun x => { x with phase := .wait })).yieldBus m.val (bit (s.medInstr d) 16)))) ∧
    (∃ (s : State) (m : MedCh) (l : Lun) (d : MedDesc),
      (s.running m.val l.val = some d) ∧ (d.phase = .wait) ∧ (s.mgd.stop = false) ∧ (Fits s (s.medNext m.val l.val))) ∧
    (∃ (s : State) (m : MedCh) (l : Lun) (d : MedDesc),
      (s.atInstr m.val l.val 0x04 [.ready] = some d) ∧ (Fits s ((((s.drive m.val l.val [.cmd (BitVec.ofNat 8 (fld (s.medInstr d) 8 8))]).modRun m.val l.val (fun x => { x with phase := .poll })).modLun m.val l.val (fun x => { x with busy := true })).yieldBus m.val (bit (s.medInstr d) 48)))) ∧
    (∃ (s : State) (m : MedCh) (l : Lun) (status : Byte) (us : BitVec 16) (d : MedDesc),
      (s.running m.val l.val = some d) ∧ (d.phase = .poll) ∧ (s.mgd.stop = false) ∧ (Nat.land status.toNat (fld (s.medInstr d) 16 8) ≠ fld (s.medInstr d) 16 8) ∧ (Fits s (s.modLun m.val l.val (fun x => { x with status := status })))) ∧
    (∃ (s : State) (m : MedCh) (l : Lun) (status : Byte) (us : BitVec 16) (d : MedDesc),
      (s.running m.val l.val = some d) ∧ (d.phase = .poll) ∧ (s.mgd.stop = false) ∧ (Nat.land status.toNat (fld (s.medInstr d) 16 8) = fld (s.medInstr d) 16 8) ∧ (Nat.land status.toNat (fld (s.medInstr d) 24 8) = 0) ∧ (d.abort = false) ∧ (d.entry = none) ∧ ((d.class ≠ 2 ∨ d.driven = false)) ∧ (Fits s (((s.modRun m.val l.val (fun x => { x with entry := none, driven := false, us := us.toNat, st := status })).modLun m.val l.val (fun x =>
        { x with busy := false, status := status, ops := x.ops + 1, last := us.toNat, longest := max x.longest us.toNat })).medNext m.val l.val))) ∧
    (∃ (s : State) (m : MedCh) (l : Lun) (status : Byte) (us : BitVec 16) (d : MedDesc),
      (s.running m.val l.val = some d) ∧ (d.phase = .poll) ∧ (s.mgd.stop = false) ∧ (Nat.land status.toNat (fld (s.medInstr d) 16 8) = fld (s.medInstr d) 16 8) ∧ (Nat.land status.toNat (fld (s.medInstr d) 24 8) = 0) ∧ (d.abort = false) ∧ (d.entry = none) ∧ (d.class = 2) ∧ (d.driven = true) ∧ (Fits s ((((s.modRun m.val l.val (fun x => { x with entry := none, driven := false, us := us.toNat, st := status })).modLun m.val l.val (fun x =>
        { x with busy := false, status := status, ops := x.ops + 1, last := us.toNat, longest := max x.longest us.toNat })).eraseTier m.val d).medNext m.val l.val))) ∧
    (∃ (s : State) (m : MedCh) (l : Lun) (us : BitVec 16) (d : MedDesc),
      (s.running m.val l.val = some d) ∧ (d.phase = .poll) ∧ (s.mgd.stop = false) ∧ (d.entry = none) ∧ (Fits s ((s.modRun m.val l.val (fun x => { x with entry := none, driven := false, us := us.toNat, st := (s.lunSt m.val l.val).status })).medFinish m.val l.val 2))) ∧
    (∃ (s : State) (m : MedCh) (l : Lun) (page : List Byte) (d : MedDesc),
      (s.atInstr m.val l.val 0x05 [.ready, .din] = some d) ∧ (d.phase = .ready) ∧ (d.guard = true) ∧ (Fits s (((s.drive m.val l.val []).modRun m.val l.val (fun x => { x with phase := .mgd, page := sliceBytes page 0 18944 })).queueMgd m.val l.val))) :=
  ⟨⟨wMed { wDesc with started := false, words := [3 * 2 ^ 11 + 100] } 1, 0, 0, { wDesc with started := false, words := [3 * 2 ^ 11 + 100] }, _, by decide +kernel, by decide +kernel, by decide +kernel, by decide +kernel, by decide +kernel, by decide +kernel, by decide +kernel, rfl, by decide +kernel⟩,
   ⟨wMed { wDesc with phase := .ready } 1, 0, 0, { wDesc with phase := .ready }, by decide +kernel⟩,
   ⟨wMed { wDesc with words := [2 ^ 11 + 100] } 0x10001, 0, 0, { wDesc with words := [2 ^ 11 + 100] }, 63, by decide +kernel⟩,
   ⟨wMed { wDesc with phase := .ack, entry := some 0 } 0x10001, 0, 0, { wDesc with phase := .ack, entry := some 0 }, 0, by decide +kernel⟩,
   ⟨wMed { wDesc with phase := .ready } 0x50002, 0, 0, { wDesc with phase := .ready }, by decide +kernel⟩,
   ⟨wMed { wDesc with phase := .ready } 3, 0, 0, { wDesc with phase := .ready }, by decide +kernel⟩,
   ⟨wMed { wDesc with phase := .wait } 3, 0, 0, { wDesc with phase := .wait }, by decide +kernel⟩,
   ⟨wMed { wDesc with phase := .ready } 0x1407804, 0, 0, { wDesc with phase := .ready }, by decide +kernel⟩,
   ⟨wMed { wDesc with phase := .poll } 0x1407804, 0, 0, 0, 5, { wDesc with phase := .poll }, by decide +kernel⟩,
   ⟨wMed { wDesc with phase := .poll } 0x1407804, 0, 0, 0x40, 5, { wDesc with phase := .poll }, by decide +kernel⟩,
   ⟨wMed { wDesc with phase := .poll, driven := true, words := [2 * 2 ^ 11 + 100] } 0x1407804, 0, 0, 0x40, 5, { wDesc with phase := .poll, driven := true, words := [2 * 2 ^ 11 + 100] }, by decide +kernel⟩,
   ⟨wMed { wDesc with phase := .poll } 0x1407804, 0, 0, 5, { wDesc with phase := .poll }, by decide +kernel⟩,
   ⟨wMed { wDesc with words := [2 ^ 23] } 5, 0, 0, [], { wDesc with words := [2 ^ 23] }, by decide +kernel⟩⟩

theorem witness_MediaProgramStepsComplete_part2 :
    (∃ (s : State) (m : MedCh) (l : Lun) (page : List Byte) (d : MedDesc),
      (s.atInstr m.val l.val 0x05 [.ready, .din] = some d) ∧ (d.phase = .ready) ∧ (d.guard = false) ∧ (Fits s (medDin m.val l.val page s))) ∧
    (∃ (s : State) (m : MedCh) (l : Lun) (d : MedDesc),
      (s.atInstr m.val l.val 0x06 [.ready, .dout] = some d) ∧ (d.guard = true) ∧ (Fits s (((s.drive m.val l.val []).modRun m.val l.val (fun x => { x with phase := .mgd })).queueMgd m.val l.val))) ∧
    (∃ (s : State) (m : MedCh) (l : Lun) (d : MedDesc) (u : State) (part : List Byte),
      (s.atInstr m.val l.val 0x06 [.ready, .dout] = some d) ∧ (d.guard = false) ∧ (sqEn (s.sqCtl d.queue) = true) ∧ (sqPush (s.sqCtl d.queue) = false) ∧ (State.doutTake d.queue 1024 (s.drive m.val l.val []) d.pkts d.part = (u, [], part)) ∧ (Fits s (u.modRun m.val l.val (fun x => { x with phase := .dout, pkts := [], part := part })))) ∧
    (∃ (s : State) (m : MedCh) (l : Lun) (d : MedDesc),
      (s.atInstr m.val l.val 0x07 [.ready] = some d) ∧ ((s.lunSt m.val l.val).applied = some (s.readOffsets m.val d)) ∧ (Fits s (((s.drive m.val l.val []).modLun m.val l.val (fun x => { x with applied := some (s.readOffsets m.val d) })).medNext m.val l.val))) ∧
    (∃ (s : State) (m : MedCh) (l : Lun) (d : MedDesc),
      (s.atInstr m.val l.val 0x08 [.ready] = some d) ∧ (Fits s ((s.drive m.val l.val [.feat (BitVec.ofNat 8 (fld (s.medInstr d) 8 8)) (bytesOf 4 (fld (s.medInstr d) 16 32))]).medNext m.val l.val))) ∧
    (∃ (s : State) (m : MedCh) (l : Lun) (d : MedDesc),
      (s.atInstr m.val l.val 0x09 [.ready] = some d) ∧ (Fits s (((s.drive m.val l.val []).modRun m.val l.val (fun x => { x with plane := 0, loop := some (d.pc + 1) })).medNext m.val l.val))) ∧
    (∃ (s : State) (m : MedCh) (l : Lun) (d : MedDesc) (start : Nat),
      (s.atInstr m.val l.val 0x0A [.ready] = some d) ∧ (d.loop = some start) ∧ (d.plane + 1 < d.planes) ∧ (Fits s (((s.drive m.val l.val []).modRun m.val l.val (fun x => { x with plane := d.plane + 1, pc := start })).medBoundary m.val l.val))) ∧
    (∃ (s : State) (m : MedCh) (l : Lun) (d : MedDesc) (start : Nat),
      (s.atInstr m.val l.val 0x0A [.ready] = some d) ∧ (d.loop = some start) ∧ (d.planes ≤ d.plane + 1) ∧ (Fits s (((s.drive m.val l.val []).modRun m.val l.val (fun x => { x with plane := 0, loop := none })).medNext m.val l.val))) ∧
    (∃ (s : State) (m : MedCh) (l : Lun) (d : MedDesc),
      (s.atInstr m.val l.val 0x0F [.ready] = some d) ∧ (Fits s (s.medFinish m.val l.val (fld (s.medInstr d) 8 8)))) ∧
    (∃ (s : State) (m : MedCh) (l : Lun) (d : MedDesc) (rest : List (Nat × Nat)),
      (s.running m.val l.val = some d) ∧ (s.mgd.queue = (m.val, l.val) :: rest) ∧ (d.phase = .mgd) ∧ (fld (s.medInstr d) 0 8 ≠ 0x05) ∧ (s.mgd.stop = false) ∧ (s.medEn m.val = true) ∧ (Fits s (({ s with mgd := { s.mgd with queue := rest } }).mgdProgram m.val l.val d))) :=
  ⟨⟨wMed wDesc 5, 0, 0, [], wDesc, by decide +kernel⟩,
   ⟨wMed { wDesc with words := [2 ^ 23] } 6, 0, 0, { wDesc with words := [2 ^ 23] }, by decide +kernel⟩,
   ⟨(wMed wDesc 6).setReg (sqPage 0 + sqCtrl) 1, 0, 0, wDesc, _, _, by decide +kernel, by decide +kernel, by decide +kernel, by decide +kernel, rfl, by decide +kernel⟩,
   ⟨(wMed wDesc 7).modLun 0 0 (fun x => { x with applied := some 0 }), 0, 0, wDesc, by decide +kernel⟩,
   ⟨wMed { wDesc with phase := .ready } 0x5508, 0, 0, { wDesc with phase := .ready }, by decide +kernel⟩,
   ⟨wMed { wDesc with phase := .ready } 9, 0, 0, { wDesc with phase := .ready }, by decide +kernel⟩,
   ⟨wMed { wDesc with words := [2 ^ 20], loop := some 100 } 0x0A, 0, 0, { wDesc with words := [2 ^ 20], loop := some 100 }, 100, by decide +kernel⟩,
   ⟨wMed { wDesc with loop := some 100 } 0x0A, 0, 0, { wDesc with loop := some 100 }, 100, by decide +kernel⟩,
   ⟨wMed { wDesc with phase := .ready } 0x0F, 0, 0, { wDesc with phase := .ready }, by decide +kernel⟩,
   wit_mgd⟩

theorem witness_MediaCommandsComplete :
    (∃ (s : State) (ini : Ini) (m : MedCh) (val : Word),
      (s.mayWrite ini (medPage m.val + medCmdgo) = true) ∧ (bit (s.actBits ini (medPage m.val + medCmdgo) val) 0 = true) ∧ (((s.fieldWrite ini (medPage m.val + medCmdgo) val).medch m.val).pool.length < 64) ∧ (bit ((s.fieldWrite ini (medPage m.val + medCmdgo) val).reg (medPage m.val + medCtrl)) 0 = true) ∧ (Fits s (((s.fieldWrite ini (medPage m.val + medCmdgo) val).submit m.val { words := (List.range 8).map (fun i => (s.fieldWrite ini (medPage m.val + medCmdgo) val).reg (medPage m.val + medCmd + 4 * i)) }).answer .ok 0))) ∧
    (∃ (s : State) (ini : Ini) (m : MedCh) (val : Word),
      (s.mayWrite ini (medPage m.val + medCtrl) = true) ∧ (bit (s.actBits ini (medPage m.val + medCtrl) val) 1 = true) ∧ (Fits s (((s.fieldWrite ini (medPage m.val + medCtrl) val).medCtrl m.val (s.actBits ini (medPage m.val + medCtrl) val)).answer .ok 0))) ∧
    (∃ (s : State) (ini : Ini) (m : MedCh) (val : Word),
      (s.passesWhole ini (medPage m.val + medIfcfg) = true) ∧ (((s.medch m.val).pool.any (fun d => d.started) || !(medRates (fld val 0 2)).contains (fld val 4 12)) = false) ∧ (Fits s (((s.setReg (medPage m.val + medIfcfg) (val &&& 0xFFF3)).pllSettle.modMed m.val (fun x => { x with training := true })).answer .ok 0))) ∧
    (∃ (s : State) (m : MedCh) (codes : List Word),
      ((s.medch m.val).training = true) ∧ (s.mediaClock m.val = true) ∧ (codes = []) ∧ (Fits s (((s.trainDrive m.val []).modMed m.val (fun x => { x with training := false })).raise (medPage m.val) 3))) ∧
    (∃ (s : State) (m : MedCh) (codes : List Word) (c : Word),
      ((s.medch m.val).training = true) ∧ (s.mediaClock m.val = true) ∧ (codes = [c]) ∧ (bit c 31 = false) ∧ (Fits s ((((s.trainDrive m.val [0]).trained m.val 0 c).modMed m.val (fun x => { x with training := false })).raise (medPage m.val) 3))) ∧
    (∃ (s : State) (m : MedCh) (ce : Fin 8) (cause : RetrainCause) (code : Word),
      ((cause = .request ∧ bit (s.medch m.val).retrain ce.val = true) ∨ (cause = .temperature ∧ s.tempDue m.val ce.val = true)) ∧ ((s.medch m.val).training = false) ∧ ((s.medch m.val).pool.any (fun d => d.started && d.ce == ce.val) = false) ∧ (s.mgd.stop = false) ∧ (s.mediaClock m.val = true) ∧ (Fits s ((s.trained m.val ce.val code).modMed m.val (fun x => { x with cyc := retrainCycles ce.val })))) ∧
    (∃ (s : State) (m : MedCh) (u : State) (e : List Byte),
      (bit (s.reg (medPage m.val + medPatctl)) 0 = true) ∧ (0 < fld (s.reg (medPage m.val + medPatctl)) 16 16) ∧ ((s.medch m.val).pool.any (fun d => d.patrol && !d.started) = false) ∧ ((s.medch m.val).pool.length < 64) ∧ (s.memRead (medIni m.val) ((s.reg64 (medPage m.val + medPatbase) + 16 * fld (s.reg (medPage m.val + medPatpos)) 0 16) % 2 ^ 48) 16 = (u, .ok, e)) ∧ (Fits s (patrolTick m.val s))) ∧
    (∃ (s : State) (m : MedCh),
      (s.inhibit m.val = true) ∧ (Fits s (s.modReg (page .lve 0 + lveWinh) (fun w => setBit w m.val)))) ∧
    (∃ (s : State) (m : MedCh),
      (s.inhibit m.val = false) ∧ (Fits s ((s.modReg (page .lve 0 + lveWinh) (fun w => setBit w m.val)).modMed m.val (fun x => { x with wpLow := false })))) ∧
    (∃ (s : State) (m : MedCh) (late : Bool),
      (s.inhibit m.val = true) ∧ (late = true ∨ (s.medch m.val).committed = false) ∧ (Fits s (s.modMed m.val (fun x => { x with wpLow := true })))) ∧
    (∃ (s : State) (ini : Ini) (val : Word),
      (s.mayWrite ini (medcPg + medPlctl) = true) ∧ (bit (s.actBits ini (medcPg + medPlctl) val) 31 = true) ∧ (s.pstatWord = 0) ∧ (s.medc.load = none) ∧ (Fits s ((({ (s.fieldWrite ini (medcPg + medPlctl) val) with medc := { (s.fieldWrite ini (medcPg + medPlctl) val).medc with load := some (!(s.fieldWrite ini (medcPg + medPlctl) val).medc.active, fld (s.actBits ini (medcPg + medPlctl) val) 0 10, fld (s.actBits ini (medcPg + medPlctl) val) 10 10 + 1, (s.fieldWrite ini (medcPg + medPlctl) val).reg64 (medcPg + medPlsrc)) } }).modReg (medcPg + medPlstat) (fun w => setBit w 0)).answer .ok 0))) ∧
    (∃ (s : State)  (pg : Bool) (first n src : Nat),
      (s.medc.load = some (pg, first, n, src)) ∧ (n = 0) ∧ (Fits s (({ s with medc := { s.medc with load := none } }).modReg (medcPg + medPlstat) (fun w => clrBit w 0)))) ∧
    (∃ (s : State)  (pg : Bool) (first n src : Nat) (u : State) (st : Status) (l : List Byte),
      (s.medc.load = some (pg, first, n, src)) ∧ (s.memRead 0x35 (src / 8 * 8) (8 * n) = (u, st, l)) ∧ (st ≠ .drowse) ∧ (Fits s (programLoadDone s))) ∧
    (∃ (s : State) (ini : Ini) (val : Word),
      (s.mayWrite ini (medcPg + medPctrl) = true) ∧ (bit (s.actBits ini (medcPg + medPctrl) val) 1 = true) ∧ (Fits s (({ (s.fieldWrite ini (medcPg + medPctrl) val) with medc := { (s.fieldWrite ini (medcPg + medPctrl) val).medc with active := !(s.fieldWrite ini (medcPg + medPctrl) val).medc.active } }).answer .ok 0))) ∧
    (∃ (s : State) (ini : Ini) (val : Word),
      (ini = 0x34) ∧ (Fits s (keyInstall ini val s))) ∧
    (∃ (s : State) (ini : Ini) (val : Word),
      (ini = 0x34) ∧ (bit val 8 = true) ∧ (Fits s (keySlotErase ini val s))) ∧
    (∃ (s : State) (e : Fin 64) (status : Byte) (us : BitVec 16),
      (s.mgd.defer = true) ∧ ((s.tornEnt e.val).open = true) ∧ (bit status 6 = true) ∧ (Fits s (((s.modReg (page .mgd 0 + mgdDefer) (fun w => setFld w 0 16 us.toNat)).modTorn e.val (fun x => { x with state := if bit status 0 then .pollFail else .pollOk, st := status })).deferEnd))) ∧
    (∃ (s : State),
      (s.mgd.defer = true) ∧ (Fits s (((s.tornOpen.foldl (fun u e => u.modTorn e (fun x => { x with state := .timeout })) s).modReg (page .mgd 0 + mgdDefer) (fun w => setBit (setFld w 0 16 32000) 23)).deferEnd))) ∧
    (∃ (s : State) (ini : Ini) (val : Word),
      (s.mayWrite ini (page .aon 0 + aonTlctrl) = true) ∧ (bit (s.actBits ini (page .aon 0 + aonTlctrl) val) 0 = true) ∧ (((s.fieldWrite ini (page .aon 0 + aonTlctrl) val).tornEnt (fld ((s.fieldWrite ini (page .aon 0 + aonTlctrl) val).reg (page .aon 0 + aonTlsel)) 0 6)).live = false) ∧ (Fits s (((s.fieldWrite ini (page .aon 0 + aonTlctrl) val).modTorn (fld ((s.fieldWrite ini (page .aon 0 + aonTlctrl) val).reg (page .aon 0 + aonTlsel)) 0 6) (fun x => { x with state := .free })).answer .ok 0))) :=
  ⟨⟨State.reset.setReg (medPage 0 + medCtrl) 1, levee, 0, 1, by decide +kernel⟩,
   ⟨State.reset, levee, 0, 2, by decide +kernel⟩,
   ⟨State.reset, levee, 0, 0xA0, by decide +kernel⟩,
   ⟨State.reset.modMed 0 (fun x => { x with training := true }), 0, [], by decide +kernel⟩,
   ⟨State.reset.modMed 0 (fun x => { x with training := true }), 0, [0], 0, by decide +kernel⟩,
   ⟨State.reset.modMed 0 (fun x => { x with retrain := 1 }), 0, 0, .request, 0, by decide +kernel⟩,
   ⟨(State.reset.setReg (medPage 0 + medPatctl) 0x20001).setReg64 (medPage 0 + medPatbase) 0x20000000, 0, _, _, by decide +kernel, by decide +kernel, by decide +kernel, by decide +kernel, rfl, by decide +kernel⟩,
   ⟨State.reset.setReg (page .lve 0 + lveWinh) 1, 0, by decide +kernel⟩,
   ⟨State.reset, 0, by decide +kernel⟩,
   ⟨State.reset.setReg (page .lve 0 + lveWinh) 1, 0, true, by decide +kernel⟩,
   ⟨State.reset, levee, 0x80000000, by decide +kernel⟩,
   ⟨{ State.reset with medc := { load := some (true, 100, 0, 0) } }, true, 100, 0, 0, by decide +kernel⟩,
   ⟨{ State.reset with medc := { load := some (true, 100, 1, 0) } }, true, 100, 1, 0, _, _, _, rfl, rfl, by decide +kernel, by decide +kernel⟩,
   ⟨State.reset, levee, 2, by decide +kernel⟩,
   ⟨State.reset, 0x34, 5, by decide +kernel⟩,
   ⟨State.reset, 0x34, 0x105, by decide +kernel⟩,
   ⟨{ State.reset with mgd := { defer := true }, aon := { torn := [(3, { state := .issued, live := true })] } }, 3, 0x40, 7, by decide +kernel⟩,
   ⟨{ State.reset with mgd := { defer := true } }, by decide +kernel⟩,
   ⟨State.reset, levee, 1, by decide +kernel⟩⟩

theorem witness_QueueCommandsComplete :
    (∃ (s : State) (q : Queue) (src : Ini) (cw : BitVec 16) (data : BitVec 512),
      (s.ocn.txns.find? (fun x => x.op == .qwrite && x.stage == .data && x.rsv.queue.val == q.val && x.rsv.src == src) = none) ∧ (s.queueTakes q.val src = true) ∧ (cwItems cw ≤ itemLimit (s.sqCtl q.val)) ∧ (Fits s ((s.queuePort q.val).queueCycle q.val { (s.queuePort q.val).queue q.val with todo := flitActs (s.sqCtl q.val) src cw data }))) ∧
    (∃ (s : State) (q : Queue) (src : Ini) (cw : BitVec 16) (data : BitVec 512),
      (s.ocn.txns.find? (fun x => x.op == .qwrite && x.stage == .data && x.rsv.queue.val == q.val && x.rsv.src == src) = none) ∧ (sqEn (s.sqCtl q.val) = false) ∧ (Fits s (s.raise (sqPage q.val) 8))) ∧
    (∃ (s : State) (q : Queue) (p : QPkt),
      ((s.queue q.val).closing = [p]) ∧ ((s.queue q.val).todo = []) ∧ (Fits s ((((s.queueStep q.val { s.queue q.val with closing := [], pkts := (s.queue q.val).pkts ++ [p.withLen] }).raise (sqPage q.val) 0).countUp (sqPage q.val + sqLost) 16 16 0).flushEnd q.val))) ∧
    (∃ (s : State) (q : Queue),
      ((s.queue q.val).closing ≠ []) ∧ (Fits s (s.queueCycle q.val (s.queue q.val)))) ∧
    (∃ (s : State) (q : Queue),
      ((s.queue q.val).maySwap = true) ∧ (Fits s (s.queueStep q.val { s.queue q.val with fb := !(s.queue q.val).fb }))) ∧
    (∃ (s : State) (q : Queue) (nm1 : Fin 8),
      (sqEn (s.sqCtl q.val) = true) ∧ (sqPush (s.sqCtl q.val) = false) ∧ (s.pendingRead q.val = none) ∧ (Fits s (s.sendWords q.val (nm1.val + 1)).1)) ∧
    (∃ (s : State) (q : Queue) (nm1 : Fin 8) (x : Txn) (u : State) (l : List (Option (Line × BitVec 16))),
      (sqEn (s.sqCtl q.val) = true) ∧ (sqPush (s.sqCtl q.val) = false) ∧ (s.pendingRead q.val = some x) ∧ (x.rsv.nfm1 = nm1) ∧ (s.sendWords q.val (nm1.val + 1) = (u, l)) ∧ (Fits s (u.modTxn x.key (fun z => { z.done .ok with data := l.map (fun w => (w.getD (0, emptyTsf)).1), tsf := l.map (fun w => (w.getD (0, emptyTsf)).2) })))) ∧
    (∃ (s : State) (q : Queue) (nm1 : Fin 8),
      (sqEn (s.sqCtl q.val) = true) ∧ (sqPush (s.sqCtl q.val) = true) ∧ (nm1.val + 1 ≤ (s.queue q.val).pushable) ∧ ((s.queue q.val).retry = 0) ∧ (Fits s ((s.pushReserve q.val (nm1.val + 1) (s.queue q.val).resv).setQueue q.val { s.queue q.val with resv := (s.queue q.val).resv + (nm1.val + 1) }))) ∧
    (∃ (s : State) (q : Queue),
      (sqEn (s.sqCtl q.val) = true) ∧ (sqPush (s.sqCtl q.val) = true) ∧ (0 < (s.queue q.val).retry) ∧ (Fits s ((s.pushReserve q.val (min 8 (s.queue q.val).retry) (s.queue q.val).resv).setQueue q.val { s.queue q.val with resv := (s.queue q.val).resv + min 8 (s.queue q.val).retry, retry := (s.queue q.val).retry - min 8 (s.queue q.val).retry }))) ∧
    (∃ (s : State) (ini : Ini) (q : Queue) (val : Word),
      (s.passesWhole ini (sqPage q.val + sqCtrl) = true) ∧ (s.locked (sqPage q.val + sqCtrl) = false) ∧ (sqEn (s.reg (sqPage q.val + sqCtrl)) = false) ∧ ((sqPush val = false ∨ sqDreg val ≤ 23)) ∧ (bit val 6 = false) ∧ (bit val 7 = false) ∧ (Fits s (((s.setReg (sqPage q.val + sqCtrl) ((val &&& sqCfgMask) ||| (val &&& 1))).paceAgain q.val).answer .ok 0))) ∧
    (∃ (s : State) (ini : Ini) (q : Queue) (val : Word),
      (s.passesWhole ini (sqPage q.val + sqCtrl) = true) ∧ (s.locked (sqPage q.val + sqCtrl) = false) ∧ (sqEn (s.reg (sqPage q.val + sqCtrl)) = true) ∧ ((s.reg (sqPage q.val + sqCtrl)) &&& sqCfgMask = val &&& sqCfgMask) ∧ (bit val 6 = true) ∧ (bit val 7 = false) ∧ (Fits s (((((s.setReg (sqPage q.val + sqCtrl) (((s.reg (sqPage q.val + sqCtrl)) &&& sqCfgMask) ||| (val &&& 1))).paceAgain q.val).setQueue q.val (((s.setReg (sqPage q.val + sqCtrl) (((s.reg (sqPage q.val + sqCtrl)) &&& sqCfgMask) ||| (val &&& 1))).paceAgain q.val).queue q.val).cutAll).flushEnd q.val).answer .ok 0))) ∧
    (∃ (s : State) (ini : Ini) (q : Queue) (val : Word),
      (s.passesWhole ini (sqPage q.val + sqCtrl) = true) ∧ (s.locked (sqPage q.val + sqCtrl) = false) ∧ (sqEn (s.reg (sqPage q.val + sqCtrl)) = true) ∧ ((s.reg (sqPage q.val + sqCtrl)) &&& sqCfgMask = val &&& sqCfgMask) ∧ (bit val 7 = true) ∧ (Fits s ((((s.setReg (sqPage q.val + sqCtrl) (((s.reg (sqPage q.val + sqCtrl)) &&& sqCfgMask) ||| (val &&& 1))).paceAgain q.val).setQueue q.val ((((s.setReg (sqPage q.val + sqCtrl) (((s.reg (sqPage q.val + sqCtrl)) &&& sqCfgMask) ||| (val &&& 1))).paceAgain q.val).queue q.val).cleared (sqPush ((s.reg (sqPage q.val + sqCtrl)) &&& sqCfgMask)))).answer .ok 0))) ∧
    (∃ (s : State) (q : Queue) (p : QPkt) (rest : List QPkt),
      ((s.queue q.val).pkts = p :: rest) ∧ (p.cut = true) ∧ (p.nread = 0) ∧ (Fits s (((s.queueStep q.val { s.queue q.val with pkts := rest }).countUp (sqPage q.val + sqLost) 16 16 1).flushEnd q.val))) ∧
    (∃ (s : State) (q : Queue) (l : List QPkt),
      (s.flitWaits q.val = true) ∧ (sqSpill (s.sqCtl q.val) = true) ∧ (sqEn (s.sqCtl q.val) = true) ∧ ((s.queue q.val).full = true) ∧ (spillFrom (s.queue q.val).pkts = some l) ∧ (Fits s ((((s.queueStep q.val { s.queue q.val with pkts := l }).countUp (sqPage q.val + sqLost) 0 16 1).raise (sqPage q.val) 6).flushEnd q.val))) ∧
    (∃ (s : State) (ini : Ini) (q : Queue) (val : Word),
      (s.passesWhole ini (sqPage q.val + sqWeir) = true) ∧ (fld val 16 10 < fld val 0 10) ∧ (fld val 0 10 ≤ 512) ∧ (Fits s (((s.setReg (sqPage q.val + sqWeir) (val &&& 0x03FF03FF)).paceAgain q.val).answer .ok 0))) :=
  ⟨⟨wQ {} 1, 0, 5, 0x13, 7, by decide +kernel⟩,
   ⟨State.reset, 0, 5, 0x13, 7, by decide +kernel⟩,
   ⟨wQ { closing := [{}] } 1, 0, {}, by decide +kernel⟩,
   ⟨wQ { closing := [{}, {}] } 1, 0, by decide +kernel⟩,
   ⟨wQ { pkts := [{ words := [(5, false)] }] } 1, 0, by decide +kernel⟩,
   ⟨wQ { pkts := [{ words := [(5, true)] }] } 1, 0, 0, by decide +kernel⟩,
   ⟨wQread, 0, 0, wTxn .qread .atBlock, _, _, by decide +kernel, by decide +kernel, by decide +kernel, rfl, rfl, by decide +kernel⟩,
   ⟨wQ { pkts := [{ words := [(5, true)] }] } 0x11, 0, 0, by decide +kernel⟩,
   ⟨wQ { retry := 3 } 0x11, 0, by decide +kernel⟩,
   ⟨State.reset, levee, 0, 5, by decide +kernel⟩,
   ⟨wQ { pkts := [{}] } 1, levee, 0, 0x41, by decide +kernel⟩,
   ⟨wQ { pkts := [{}] } 1, levee, 0, 0x81, by decide +kernel⟩,
   ⟨wQ { pkts := [{ cut := true }], flushing := true } 1, 0, { cut := true }, [], by decide +kernel⟩,
   ⟨wQ { pkts := [{ words := (5, true) :: List.replicate 256 (5, false) }], todo := [.opn 0 0] } 3, 0, [], by decide +kernel⟩,
   ⟨State.reset, levee, 0, 0x00100020, by decide +kernel⟩⟩

theorem wit_crc : (∃ (s : State) (r : Region) (lw : Word) (body : List Byte),
      (regionMoves (s.rgn r.val) = true) ∧ ((s.rgn r.val).st = .run) ∧ ((s.cod r.val).outs = []) ∧ (s.tagLoading r.val (lwTag lw) = false) ∧ (nfld (lwFlags lw) 2 2 = 0) ∧ (crcAgrees body = true) ∧ (Fits s (State.codFlush r.val 64 (s)))) :=
  ⟨wRun, 0, 0, wBody, by decide +kernel, by decide +kernel, by decide +kernel, by decide +kernel, by decide +kernel, wBody_agrees, by decide +kernel⟩

theorem wit_crc2 : (∃ (s : State) (r : Region) (lw : Word) (body : List Byte),
      (regionMoves (s.rgn r.val) = true) ∧ ((s.rgn r.val).st = .run) ∧ ((s.cod r.val).outs = []) ∧ (s.tagLoading r.val (lwTag lw) = false) ∧ (nfld (lwFlags lw) 2 2 = 0) ∧ (crcAgrees body = false) ∧ (Fits s (State.codFlush r.val 64 (s.emitStatus r.val (operatorRes lw body 1) (2 ^ 17))))) :=
  ⟨wShut, 0, 0, wBodyBad, by decide +kernel, by decide +kernel, by decide +kernel, by decide +kernel, by decide +kernel, wBodyBad_disagrees, (wShut_like.emit 1 _ _ _ (by decide)).fits _ (by decide +kernel)⟩

theorem wit_lze : (∃ (s : State) (r : Region) (block : List Byte) (n : Nat) (u : State),
      (regionMoves (s.rgn r.val) = true) ∧ ((s.rgn r.val).st = .run) ∧ ((s.cod r.val).outs = []) ∧ (s.tagLoading r.val 0 = false) ∧ (1 ≤ block.length) ∧ (block.length ≤ 65536) ∧ (s.lzeClen (lzeTokens block) = (n, u)) ∧ (Fits s (State.codFlush r.val 64 (u.emitBytes r.val (bytesOf 2 n ++ bytesOf 2 (block.length - 1) ++ bytesOf 4 (crc32c block) ++ lzeTokens block))))) :=
  ⟨wShut, 0, [1, 2, 3], (wShut.lzeClen (lzeTokens [1, 2, 3])).1, (wShut.lzeClen (lzeTokens [1, 2, 3])).2, by decide +kernel, by decide +kernel, by decide +kernel, by decide +kernel, by decide, by decide, rfl, by
    refine ShutLike.fits (ShutLike.emitBytes ?_ _) _ (by decide +kernel)
    unfold State.lzeClen; split
    · exact wShut_like
    · exact wShut_like⟩

theorem wit_filt : (∃ (s : State) (r : Region) (lw : Word) (body : List Byte),
      (regionMoves (s.rgn r.val) = true) ∧ ((s.rgn r.val).st = .run) ∧ ((s.cod r.val).outs = []) ∧ (s.tagLoading r.val (lwTag lw) = false) ∧ ((s.cod r.val).closeDue = false) ∧ (nfld (lwFlags lw) 2 2 = 0) ∧ (crcAgrees body = true) ∧ (Fits s (State.codFlush r.val 64 (s.modCod r.val (fun c => { c with count := c.count + 1, rows := c.rows ++ matching c.preds (sliceBytes body 0 4096), final := decide (c.count + 1 = c.ncw) }))))) :=
  ⟨wRun, 0, 0, wBody, by decide +kernel, by decide +kernel, by decide +kernel, by decide +kernel, by decide +kernel, by decide +kernel, wBody_agrees, by
    rw [codFlush_nil]
    · exact ⟨by decide +kernel, by decide +kernel, by decide +kernel⟩
    · unfold State.modCod State.cod; dsimp only; rw [tget_tset_self]; rfl⟩

theorem witness_CodecCommandsComplete :
    (∃ (s : State) (r : Region) (lw : Word) (body : List Byte),
      (regionMoves (s.rgn r.val) = true) ∧ ((s.rgn r.val).st = .run) ∧ ((s.cod r.val).outs = []) ∧ (s.tagLoading r.val (lwTag lw) = false) ∧ (Fits s (State.codFlush r.val 64 (s.hdec r.val lw body)))) ∧
    (∃ (s : State) (r : Region) (lw0 lw1 lw2 : Word) (b0 b1 b2 : List Byte),
      (regionMoves (s.rgn r.val) = true) ∧ ((s.rgn r.val).st = .run) ∧ ((s.cod r.val).outs = []) ∧ (s.tagLoading r.val (lwTag lw0) = false) ∧ (Fits s (State.codFlush r.val 64 (s.sdec r.val lw0 lw1 lw2 b0 b1 b2)))) ∧
    (∃ (s : State) (r : Region) (lw w1 w2 : Word),
      (regionMoves (s.rgn r.val) = true) ∧ ((s.rgn r.val).st = .run) ∧ ((s.cod r.val).outs = []) ∧ (s.tagLoading r.val (lwTag lw) = false) ∧ (Fits s (State.codFlush r.val 64 (s.control r.val lw w1 w2)))) ∧
    (∃ (s : State) (r : Region) (lw w1 w2 : Word),
      (regionMoves (s.rgn r.val) = true) ∧ ((s.rgn r.val).st = .run) ∧ ((s.cod r.val).outs = []) ∧ (s.tagLoading r.val (lwTag lw) = false) ∧ (Fits s (State.codFlush r.val 64 (s.control r.val lw w1 w2)))) ∧
    (∃ (s : State) (r : Region) (lw : Word) (body : List Byte),
      (regionMoves (s.rgn r.val) = true) ∧ ((s.rgn r.val).st = .run) ∧ ((s.cod r.val).outs = []) ∧ (s.tagLoading r.val (lwTag lw) = false) ∧ (lwLen lw = 4112) ∧ (lwTag lw < 4) ∧ (Fits s (State.codFlush r.val 64 (s.emit r.val 0 (lwTag lw) (lwFlags lw) (sliceBytes body 0 4108 ++ bytesOf 4 (crc32c (sliceBytes body 0 4096))))))) ∧
    (∃ (s : State) (r : Region) (lw : Word) (body : List Byte),
      (regionMoves (s.rgn r.val) = true) ∧ ((s.rgn r.val).st = .run) ∧ ((s.cod r.val).outs = []) ∧ (s.tagLoading r.val (lwTag lw) = false) ∧ (lwLen lw = 4112) ∧ (lwTag lw < 4) ∧ ((s.cod r.val).encHeld = []) ∧ ((s.cod r.val).encNext = lwFlags lw % 4) ∧ (Fits s (State.codFlush r.val 64 (((s.modCod r.val (fun c => { c with encHeld := c.encHeld ++ [(lwFlags lw % 4, some (lwTag lw, sliceBytes body 0 4112 ++ ldpcParity (lwTag lw) (sliceBytes body 0 4112)))] })).modCod r.val (fun x => { x with encNext := (lwFlags lw % 4 + 1) % 4, encHeld := x.encHeld.erase (lwFlags lw % 4, some (lwTag lw, sliceBytes body 0 4112 ++ ldpcParity (lwTag lw) (sliceBytes body 0 4112))) })).emit r.val 0 (lwTag lw) (lwFlags lw % 4) (sliceBytes body 0 4112 ++ ldpcParity (lwTag lw) (sliceBytes body 0 4112)))))) ∧
    (∃ (s : State) (r : Region) (lw : Word) (body : List Byte),
      (regionMoves (s.rgn r.val) = true) ∧ ((s.rgn r.val).st = .run) ∧ ((s.cod r.val).outs = []) ∧ (s.tagLoading r.val (lwTag lw) = false) ∧ (lwLen lw = 4112) ∧ (lwTag lw < 4) ∧ ((s.cod r.val).encHeld = []) ∧ ((s.cod r.val).encNext ≠ lwFlags lw % 4) ∧ (Fits s (State.codFlush r.val 64 ((s.modCod r.val (fun c => { c with encHeld := c.encHeld ++ [(lwFlags lw % 4, some (lwTag lw, sliceBytes body 0 4112 ++ ldpcParity (lwTag lw) (sliceBytes body 0 4112)))] })))))) ∧
    (∃ (s : State) (r : Region) (lw : Word) (body : List Byte),
      (regionMoves (s.rgn r.val) = true) ∧ ((s.rgn r.val).st = .run) ∧ ((s.cod r.val).outs = []) ∧ (s.tagLoading r.val (lwTag lw) = false) ∧ (nfld (lwFlags lw) 2 2 = 0) ∧ (crcAgrees body = true) ∧ (Fits s (State.codFlush r.val 64 (s)))) ∧
    (∃ (s : State) (r : Region) (lw : Word) (body : List Byte),
      (regionMoves (s.rgn r.val) = true) ∧ ((s.rgn r.val).st = .run) ∧ ((s.cod r.val).outs = []) ∧ (s.tagLoading r.val (lwTag lw) = false) ∧ (nfld (lwFlags lw) 2 2 = 0) ∧ (crcAgrees body = false) ∧ (Fits s (State.codFlush r.val 64 (s.emitStatus r.val (operatorRes lw body 1) (2 ^ 17))))) ∧
    (∃ (s : State) (r : Region) (lw : Word) (body : List Byte),
      (regionMoves (s.rgn r.val) = true) ∧ ((s.rgn r.val).st = .run) ∧ ((s.cod r.val).outs = []) ∧ (s.tagLoading r.val (lwTag lw) = false) ∧ (nfld (lwFlags lw) 2 2 ≠ 0) ∧ (Fits s (State.codFlush r.val 64 (s.emit r.val 1 (lwTag lw) (lwFlags lw) (sliceBytes body 0 (lwLen lw)))))) ∧
    (∃ (s : State) (r : Region) (block : List Byte) (l : List Byte),
      (regionMoves (s.rgn r.val) = true) ∧ ((s.rgn r.val).st = .run) ∧ ((s.cod r.val).outs = []) ∧ (s.tagLoading r.val 0 = false) ∧ (lzdBytes block = some l) ∧ (Fits s (State.codFlush r.val 64 (s.emitBytes r.val l)))) ∧
    (∃ (s : State) (r : Region) (block : List Byte) (n : Nat) (u : State),
      (regionMoves (s.rgn r.val) = true) ∧ ((s.rgn r.val).st = .run) ∧ ((s.cod r.val).outs = []) ∧ (s.tagLoading r.val 0 = false) ∧ (1 ≤ block.length) ∧ (block.length ≤ 65536) ∧ (s.lzeClen (lzeTokens block) = (n, u)) ∧ (Fits s (State.codFlush r.val 64 (u.emitBytes r.val (bytesOf 2 n ++ bytesOf 2 (block.length - 1) ++ bytesOf 4 (crc32c block) ++ lzeTokens block))))) ∧
    (∃ (s : State) (r : Region) (lw w1 w2 : Word) (members : List (List Byte)),
      (regionMoves (s.rgn r.val) = true) ∧ ((s.rgn r.val).st = .run) ∧ ((s.cod r.val).outs = []) ∧ (s.tagLoading r.val (lwTag lw) = false) ∧ (lwLen lw = 8) ∧ (fld w1 0 8 = 3) ∧ (bit w2 8 = false) ∧ (3 ≤ members.length) ∧ (members.length ≤ 15) ∧ (fld w2 0 4 < members.length - 1) ∧ (Fits s (State.codFlush r.val 64 ((s.emitBytes r.val (((List.range (members.headD []).length).map (column members)).map (fun c => BitVec.ofNat 8 (rebuildOne c (members.length - 1) (fld w2 0 4))))).emitStatus r.val
        ⟨0xFF, lwFlags lw % 4, lwTag lw, 3, false, false, false, 0, 0, 0, fld w1 0 8, 0⟩ 0)))) ∧
    (∃ (s : State) (r : Region) (members : List (List Byte)) (two : Bool),
      (regionMoves (s.rgn r.val) = true) ∧ ((s.rgn r.val).st = .run) ∧ ((s.cod r.val).outs = []) ∧ (s.tagLoading r.val 0 = false) ∧ (two = false) ∧ (2 ≤ members.length) ∧ (members.length ≤ 14) ∧ (members.all (fun m => m.length == (members.headD []).length) = true) ∧ (Fits s (State.codFlush r.val 64 (s.emitBytes r.val ((List.range (members.headD []).length).map (fun o => BitVec.ofNat 8 (stripeP (column members o)))))))) ∧
    (∃ (s : State) (r : Region) (lw w1 w2 w3 w4 : Word),
      (regionMoves (s.rgn r.val) = true) ∧ ((s.rgn r.val).st = .run) ∧ ((s.cod r.val).outs = []) ∧ (s.tagLoading r.val (lwTag lw) = false) ∧ ((s.cod r.val).closeDue = false) ∧ (lwLen lw = 16) ∧ (fld w1 0 8 = 0x10) ∧ ((s.cod r.val).preds.length < 8) ∧ (fld w1 14 2 ≠ 3) ∧ (fld w1 16 3 ≤ 5) ∧ (Fits s (State.codFlush r.val 64 (s.modCod r.val (fun x => { x with preds := x.preds ++ [⟨fld w1 8 6, 2 ^ fld w1 14 2, fld w1 16 3, w2.toNat⟩], ncw := w3.toNat }))))) ∧
    (∃ (s : State) (r : Region) (lw w1 w2 w3 w4 : Word),
      (regionMoves (s.rgn r.val) = true) ∧ ((s.rgn r.val).st = .run) ∧ ((s.cod r.val).outs = []) ∧ (s.tagLoading r.val (lwTag lw) = false) ∧ ((s.cod r.val).closeDue = false) ∧ (lwLen lw = 16) ∧ (fld w1 0 8 = 0x11) ∧ (Fits s (State.codFlush r.val 64 (s.modCod r.val (fun x => { x with final := true }))))) ∧
    (∃ (s : State) (r : Region) (lw w1 w2 w3 w4 : Word),
      (regionMoves (s.rgn r.val) = true) ∧ ((s.rgn r.val).st = .run) ∧ ((s.cod r.val).outs = []) ∧ (s.tagLoading r.val (lwTag lw) = false) ∧ ((s.cod r.val).closeDue = false) ∧ (lwLen lw = 16) ∧ (fld w1 0 8 = 0x12) ∧ (Fits s (State.codFlush r.val 64 (s.modCod r.val (fun x => { x with preds := [], count := 0, batch := 0, total := 0, rows := [], ncw := 0 }))))) ∧
    (∃ (s : State) (r : Region) (lw : Word) (body : List Byte),
      (regionMoves (s.rgn r.val) = true) ∧ ((s.rgn r.val).st = .run) ∧ ((s.cod r.val).outs = []) ∧ (s.tagLoading r.val (lwTag lw) = false) ∧ ((s.cod r.val).closeDue = false) ∧ (nfld (lwFlags lw) 2 2 = 0) ∧ (crcAgrees body = true) ∧ (Fits s (State.codFlush r.val 64 (s.modCod r.val (fun c => { c with count := c.count + 1, rows := c.rows ++ matching c.preds (sliceBytes body 0 4096), final := decide (c.count + 1 = c.ncw) }))))) ∧
    (∃ (s : State) (r : Region),
      (regionMoves (s.rgn r.val) = true) ∧ ((s.rgn r.val).st = .run) ∧ ((s.cod r.val).outs = []) ∧ ((s.cod r.val).closeDue = true) ∧ (Fits s (filtBatchClose r.val s))) :=
  ⟨⟨wRun, 0, 0xE0000, [], by decide +kernel⟩,
   ⟨wRun, 0, 0, 1, 2, [], [], [], by decide +kernel⟩,
   ⟨wRun, 0, 0xE0008, 1, 0x401, by decide +kernel⟩,
   ⟨wRun, 0, 0xE0008, 2, 0, by decide +kernel⟩,
   ⟨wRun, 0, 4112, [], by decide +kernel⟩,
   ⟨wRun, 0, 4112, [], by decide +kernel⟩,
   ⟨wRun, 0, 4112 + 2 ^ 17, [], by decide +kernel⟩,
   wit_crc,
   wit_crc2,
   ⟨wRun, 0, 8 + 2 ^ 19, [], by decide +kernel⟩,
   ⟨wRun, 0, wLz, [5], by decide +kernel, by decide +kernel, by decide +kernel, rfl, by decide +kernel⟩,
   wit_lze,
   ⟨wRun, 0, 8, 3, 0, [[1], [2], [3]], by decide +kernel⟩,
   ⟨wRun, 0, [[1], [2]], false, by decide +kernel⟩,
   ⟨wRun, 0, 16, 0x10, 5, 1, by decide +kernel⟩,
   ⟨wRun, 0, 16, 0x11, 0, 0, by decide +kernel⟩,
   ⟨wRun, 0, 16, 0x12, 0, 0, by decide +kernel⟩,
   wit_filt,
   ⟨{ wRun with codec := [(0, { final := true })] }, 0, by decide +kernel⟩⟩

theorem witness_NetworkArrivalsComplete :
    (∃ (s : State) (x : Rsv) (y : Txn),
      (s.arriving .read x = some y) ∧ (s.servedAt .read y.rsv = true) ∧ (s.refuses .read y.rsv = none) ∧ (Fits s (State.deliverAll y.rsv.ini.val y.rsv.tgt.val (s.ocn.txns.length + 1) (s.setTxns (s.ocn.txns.filter (fun z => z.key != y.key) ++ [{ y with stage := .pending }]))))) ∧
    (∃ (s : State) (x : Rsv) (y : Txn),
      (s.arriving .write x = some y) ∧ (s.servedAt .write y.rsv = true) ∧ (s.refuses .write y.rsv = none) ∧ (Fits s (State.deliverAll y.rsv.ini.val y.rsv.tgt.val (s.ocn.txns.length + 1) (s.setTxns (s.ocn.txns.filter (fun z => z.key != y.key) ++ [{ y with stage := .pending }]))))) ∧
    (∃ (s : State) (x : Rsv) (y : Txn),
      (s.arriving .qread x = some y) ∧ (s.servedAt .qread y.rsv = true) ∧ (s.refuses .qread y.rsv = none) ∧ (Fits s (State.deliverAll y.rsv.ini.val y.rsv.tgt.val (s.ocn.txns.length + 1) (s.setTxns (s.ocn.txns.filter (fun z => z.key != y.key) ++ [{ y with stage := .pending }]))))) ∧
    (∃ (s : State) (x : Rsv) (y : Txn),
      (s.arriving .qwrite x = some y) ∧ (s.servedAt .qwrite y.rsv = true) ∧ (s.refuses .qwrite y.rsv = none) ∧ (Fits s (State.deliverAll y.rsv.ini.val y.rsv.tgt.val (s.ocn.txns.length + 1) (s.setTxns (s.ocn.txns.filter (fun z => z.key != y.key) ++ [{ y with stage := .pending }]))))) ∧
    (∃ (s : State) (x : Rsv) (y : Txn),
      (s.arriving .qpush x = some y) ∧ (s.servedAt .qpush y.rsv = true) ∧ (s.refuses .qpush y.rsv = none) ∧ (Fits s (State.deliverAll y.rsv.ini.val y.rsv.tgt.val (s.ocn.txns.length + 1) (s.setTxns (s.ocn.txns.filter (fun z => z.key != y.key) ++ [{ y with stage := .pending }]))))) ∧
    (∃ (s : State) (x : Rsv) (y : Txn),
      (s.arriving .signal x = some y) ∧ (s.servedAt .signal y.rsv = true) ∧ (s.refuses .signal y.rsv = none) ∧ (Fits s (State.deliverAll y.rsv.ini.val y.rsv.tgt.val (s.ocn.txns.length + 1) (s.setTxns (s.ocn.txns.filter (fun z => z.key != y.key) ++ [{ y with stage := .pending }]))))) ∧
    (∃ (s : State) (k : TxnKey) (data : List (BitVec 512)) (cws : List (BitVec 16)) (x : Txn),
      (s.txn k = some x) ∧ (x.stage = .granted) ∧ (x.who = .outside) ∧ (s.portDead x.rsv.tgt.val = false) ∧ (Fits s (State.deliverAll x.rsv.ini.val x.rsv.tgt.val (s.ocn.txns.length + 1) (s.modTxn k (fun y => { y with
        stage := .data
        data := (List.range (x.rsv.nfm1.val + 1)).map (fun i => data.getD i 0)
        tsf := (List.range (x.rsv.nfm1.val + 1)).map (fun i => cws.getD i 0) }))))) ∧
    (∃ (s : State) (k : TxnKey) (latency : Nat) (x : Txn),
      (s.txn k = some x) ∧ (x.stage = .answered) ∧ (Fits s ((((s.countTxn x latency).txnEnd x x.status x.refused).dropTxn k).unholdAll x.rsv.ini.val))) ∧
    (∃ (s : State) (k : TxnKey) (x : Txn),
      (s.txn k = some x) ∧ (x.grantSeen = false) ∧ (x.stage ≠ .held) ∧ (x.who = .outside) ∧ (Fits s (((s.txnEnd x .dead false).dropTxn k).unholdAll x.rsv.ini.val))) :=
  ⟨⟨wRun, wArrREAD, { rsv := wArrREAD, op := .read, stage := .launched, who := .outside }, by decide +kernel⟩,
   ⟨wRun, wArrWRITE, { rsv := wArrWRITE, op := .write, stage := .launched, who := .outside }, by decide +kernel⟩,
   ⟨wRun, wArrQREAD, { rsv := wArrQREAD, op := .qread, stage := .launched, who := .outside }, by decide +kernel⟩,
   ⟨wRun, wArrQWRITE, { rsv := wArrQWRITE, op := .qwrite, stage := .launched, who := .outside }, by decide +kernel⟩,
   ⟨wRun, wArrQPUSH, { rsv := wArrQPUSH, op := .qpush, stage := .launched, who := .outside }, by decide +kernel⟩,
   ⟨wRun, wArrSIGNAL, { rsv := wArrSIGNAL, op := .signal, stage := .launched, who := .outside }, by decide +kernel⟩,
   ⟨wNet (wTxn .write .granted), (wTxn .write .granted).key, [], [], wTxn .write .granted, by decide +kernel⟩,
   ⟨wNet (wTxn .read .answered), (wTxn .read .answered).key, 9, wTxn .read .answered, by decide +kernel⟩,
   ⟨wNet (wTxn .read .launched), (wTxn .read .launched).key, wTxn .read .launched, by decide +kernel⟩⟩

theorem witness_NetworkCommandsComplete :
    (∃ (s : State) (k : TxnKey) (x : Txn),
      (s.txn k = some x) ∧ (x.stage = .pending) ∧ (x.op.writes = true) ∧ ((s.olderThan k).any (fun y => y.rsv.tgt.val == x.rsv.tgt.val && y.op.writes && y.stage == .pending && (s.ingress y).1 == (s.ingress x).1 && s.portFree y) = false) ∧ (s.portFree x = true) ∧ (s.rsvRefused x.op x.rsv = none) ∧ (s.admits x = true) ∧ (s.ingressUsed x.rsv.tgt.val (s.ingress x).1 + s.hgHeld x + x.rsv.nfm1.val + 1 ≤ (s.ingress x).2) ∧ (Fits s ((s.freeNat 256).2.modTxn k (fun y => { y with stage := .granted, handle := BitVec.ofNat 8 (s.freeNat 256).1 })))) ∧
    (∃ (s : State) (ro : Router) (output : Fin 8) (slot : Fin 64) (arrivals : List (Fin 8 × Flit)) (k : Nat) (f : Flit),
      (arrivals = []) ∧ (s.routerClosed ro.val = true) ∧ (s.choose ro.val output.val slot.val = some k) ∧ ((s.router ro.val).head (k / 3) (k % 3) = some f) ∧ (4 ≤ output.val) ∧ (Fits s (((s.modRouter ro.val (fun x => { x with bufs := tset [] x.bufs k (tget [] x.bufs k).tail, last := tset 0 x.last output.val ((k + 1) % 24) })).probeFlit ro.val output.val (flitOut (k / 3) f).2).pulse 2 ro.val (min output.val 4)))) ∧
    (∃ (s : State) (k : TxnKey) (x : Txn),
      (s.txn k = some x) ∧ (x.stage = .atBlock ∨ x.stage = .data) ∧ (Fits s (targetTimeout k s))) ∧
    (∃ (s : State) (ini : Ini) (ro : Router) (val : Word),
      (s.mayWrite ini (ocnPage ro.val + ocnDead) = true) ∧ (Fits s ((s.fieldWrite ini (ocnPage ro.val + ocnDead) val).answer .ok 0))) ∧
    (∃ (s : State) (n : Ni),
      ((s.ni n.val).port = .opened) ∧ (hasNi n.val = true) ∧ (s.ocn.txns = []) ∧ (Fits s ((((s.modNi n.val (fun x => { x with port := .closing, woke := false })).modReg (ocnPage (n.val / 4) + ocnClose) (fun w => setBit w (n.val % 4))).setTxns []).wakeAt n.val false))) ∧
    (∃ (s : State) (n : Ni),
      ((s.ni n.val).port = .closing ∨ (s.ni n.val).port = .draining) ∧ (s.noneAdmitted n.val = true) ∧ (s.noneOpen n.val = true) ∧ (s.eventsOut n.val = true) ∧ (Fits s ((s.modNi n.val (fun x => { x with port := .down })).raise (ocnPage (n.val / 4)) 4))) ∧
    (∃ (s : State) (n : Ni),
      ((s.ni n.val).port = .down) ∧ (s.domainOn n.val = true) ∧ (Fits s ((s.modNi n.val (fun x => { x with port := .opened, woke := false })).modReg (ocnPage (n.val / 4) + ocnClose) (fun w => clrBit w (n.val % 4))))) ∧
    (∃ (s : State) (ini : Ini) (n : Ni) (off : BitVec 12) (len : Nat) (val : BitVec 64),
      (s.mayWrite ini (ocnPage 0) = true) ∧ (len = 8) ∧ (off.toNat % 8 = 0) ∧ (off.toNat / 0x800 ≠ b2n (s.ni n.val).epoch) ∧ (rtValid (val &&& 0xFFFFFFFFF) = false ∨ routeOk n.val (off.toNat % 0x800 / 8) (val &&& 0xFFFFFFFFF) = true) ∧ (Fits s ({ s with ocn := { s.ocn with routes := tset (dorEntry n.val (off.toNat % 0x800 / 8)) s.ocn.routes (512 * n.val + 256 * (off.toNat / 0x800) + off.toNat % 0x800 / 8) (val &&& 0xFFFFFFFFF) } }.answer .ok 0))) ∧
    (∃ (s : State) (ini : Ini) (ro : Router) (val : Word),
      (s.mayWrite ini (ocnPage ro.val + ocnClose) = true) ∧ (bit (s.actBits ini (ocnPage ro.val + ocnClose) val) 8 = true) ∧ (Fits s ((s.fieldWrite ini (ocnPage ro.val + ocnClose) val).answer .ok 0))) ∧
    (∃ (s : State) (ro : Router),
      (s.routerClosed ro.val = true) ∧ ((s.router ro.val).empty = true) ∧ ((s.router ro.val).drained = false) ∧ (Fits s ((s.modRouter ro.val (fun x => { x with drained := true })).raise (ocnPage ro.val) 3))) ∧
    (∃ (s : State) (ini : Ini) (ro : Router) (val : Word),
      (s.mayWrite ini (ocnPage ro.val + ocnEpoch) = true) ∧ (Fits s (((List.range 4).foldl (fun t p => if bit (s.actBits ini (ocnPage ro.val + ocnEpoch) val) p && hasNi (niAt ro.val p) then t.modNi (niAt ro.val p) (fun x => { x with flip := true }) else t) (s.fieldWrite ini (ocnPage ro.val + ocnEpoch) val)).answer .ok 0))) ∧
    (∃ (s : State) (n : Ni),
      ((s.ni n.val).flip = true) ∧ (s.noneOutstanding n.val = true) ∧ (Fits s ((s.modNi n.val (fun x => { x with flip := false, epoch := !x.epoch })).unholdAll n.val))) ∧
    (∃ (s : State) (ini : Ini) (ro : Router) (val : Word),
      (s.mayWrite ini (ocnPage ro.val + ocnWheel) = true) ∧ (bit (s.actBits ini (ocnPage ro.val + ocnWheel) val) 13 = true) ∧ ((s.fieldWrite ini (ocnPage ro.val + ocnWheel) val).locked (ocnPage ro.val + ocnWheel) = false) ∧ (Fits s (((s.fieldWrite ini (ocnPage ro.val + ocnWheel) val).modRouter ro.val (fun x => { x with staged := tset 0 x.staged (64 * fld (s.actBits ini (ocnPage ro.val + ocnWheel) val) 6 3 + fld (s.actBits ini (ocnPage ro.val + ocnWheel) val) 0 6) (fld (s.actBits ini (ocnPage ro.val + ocnWheel) val) 9 3 + 8 * b2n (bit (s.actBits ini (ocnPage ro.val + ocnWheel) val) 12)) })).answer .ok 0))) ∧
    (∃ (s : State) (ini : Ini) (ro : Router) (val : Word),
      (s.mayWrite ini (ocnPage ro.val + ocnCtrl) = true) ∧ (bit (s.actBits ini (ocnPage ro.val + ocnCtrl) val) 0 = true) ∧ (bit (s.actBits ini (ocnPage ro.val + ocnCtrl) val) 1 = false) ∧ ((s.fieldWrite ini (ocnPage ro.val + ocnCtrl) val).wheelRefusal ro.val = 0) ∧ (Fits s (((s.fieldWrite ini (ocnPage ro.val + ocnCtrl) val).modRouter ro.val (fun x => { x with commit := x.staged, wpend := true })).answer .ok 0))) ∧
    (∃ (s : State) (ro : Router),
      ((s.router ro.val).wpend = true) ∧ (Fits s ((s.modRouter ro.val (fun x => { x with wheel := x.commit, commit := [], wpend := false })).raise (ocnPage ro.val) 0))) ∧
    (∃ (s : State) (ini : Ini) (ro : Router) (val : Word),
      (s.mayWrite ini (ocnPage ro.val + ocnCtrl) = true) ∧ (bit (s.actBits ini (ocnPage ro.val + ocnCtrl) val) 0 = false) ∧ (bit (s.actBits ini (ocnPage ro.val + ocnCtrl) val) 1 = true) ∧ (Fits s (((s.fieldWrite ini (ocnPage ro.val + ocnCtrl) val).clearStats ro.val).answer .ok 0))) :=
  ⟨⟨wNet (wTxn .write .pending), (wTxn .write .pending).key, wTxn .write .pending, by decide +kernel⟩,
   ⟨wFlit, 0, 4, 0, [], 0, ⟨3, 7, 0⟩, by decide +kernel⟩,
   ⟨wNet (wTxn .read .atBlock), (wTxn .read .atBlock).key, wTxn .read .atBlock, by decide +kernel⟩,
   ⟨State.reset, levee, 0, 1, by decide +kernel⟩,
   ⟨State.reset, 0, by decide +kernel⟩,
   ⟨State.reset.modNi 0 (fun x => { x with port := .closing }), 0, by decide +kernel⟩,
   ⟨State.reset.modNi 0 (fun x => { x with port := .down }), 0, by decide +kernel⟩,
   ⟨State.reset, levee, 0, 0x808, 8, 0, by decide +kernel⟩,
   ⟨State.reset, levee, 0, 0x100, by decide +kernel⟩,
   ⟨State.reset.setReg (ocnPage 0 + ocnClose) 0x100, 0, by decide +kernel⟩,
   ⟨State.reset, levee, 0, 1, by decide +kernel⟩,
   ⟨State.reset.modNi 0 (fun x => { x with flip := true }), 0, by decide +kernel⟩,
   ⟨State.reset, levee, 0, 0x3000, by decide +kernel⟩,
   ⟨State.reset, levee, 0, 1, by decide +kernel⟩,
   ⟨State.reset.modRouter 0 (fun x => { x with wpend := true }), 0, by decide +kernel⟩,
   ⟨State.reset, levee, 0, 2, by decide +kernel⟩⟩

theorem witness_MemoryCommandsComplete :
    (∃ (s : State) (b : RBank) (x : Txn),
      (pickReq (s.presented b.val) = some x) ∧ (Fits s (s.bankPerform x (without (s.presented b.val) x)))) ∧
    (∃ (s : State) (ini : Ini) (val : Word),
      (s.handOk ini (fld val 0 8) (fld val 8 8) = true) ∧ (Fits s { s with rsvr := { s.rsvr with hand := s.rsvr.hand ++ [some (fld val 0 8, fld val 8 8)] } })) ∧
    (∃ (s : State) (cause : WipeCause),
      (s.rsvr.swReq = true) ∧ (s.ocn.txns = []) ∧ (Fits s ((({ s with rsvr := { s.rsvr with swReq := false, swipe := true, keys := [] } }).zeroBanks 240).setTxns []))) ∧
    (∃ (s : State),
      (s.rsvr.swipe = true) ∧ (Fits s (({ s with rsvr := { s.rsvr with swipe := false } }).raise (page .rsv 0) 3))) ∧
    (∃ (s : State),
      (s.rsvr.wipe = true) ∧ (Fits s (({ s with rsvr := { s.rsvr with wipe := false } }).raise (page .rsv 0) 4))) ∧
    (∃ (s : State) (k : TxnKey) (err : DramErr) (x : Txn),
      (s.drcNext = some x) ∧ (x.key = k) ∧ (err = .none) ∧ (Fits s (s.dramFlit x))) ∧
    (∃ (s : State) (k : TxnKey) (err : DramErr) (x : Txn),
      (s.drcNext = some x) ∧ (x.key = k) ∧ (err ≠ .none) ∧ (Fits s ((s.setMark x.line err).dramFlit x))) ∧
    (∃ (s : State),
      (s.drc.trained = 0xFF) ∧ (s.drc.init = false) ∧ (Fits s (({ s with drc := { s.drc with init := true, marks := [] }, mem := tkeep (fun a => decide (a < dramBase)) s.mem }).raise (page .drc 0) 0))) ∧
    (∃ (s : State) (ini : Ini) (size : Bool) (val : Word),
      (s.passesWhole ini (page .drc 0 + drcHvsize) = true) ∧ (size = true) ∧ (s.hvEn = false) ∧ (fld val 0 8 ≤ 192) ∧ ((s.hvBase + fld val 0 8) * 2 ^ 28 ≤ s.dramBytes / 16 * 15) ∧ (Fits s ((s.setReg (page .drc 0 + drcHvsize) (BitVec.ofNat 32 (fld val 0 8))).answer .ok 0))) ∧
    (∃ (s : State) (ini : Ini) (val : Word),
      (s.passesWhole ini (page .drc 0 + drcHvctrl) = true) ∧ (bit val 0 = true) ∧ (s.hvEn = false) ∧ (Fits s (((({ s with drc := { s.drc with clr := true, ready := false } }).zeroHv).setReg (page .drc 0 + drcHvctrl) 1).answer .ok 0))) ∧
    (∃ (s : State),
      (s.drc.clr = true) ∧ (Fits s (({ s with drc := { s.drc with clr := false, ready := true } }).raise (page .drc 0) 2))) ∧
    (∃ (s : State) (ini : Ini) (val : Word),
      (s.passesWhole ini (page .drc 0 + drcHvctrl) = true) ∧ (bit val 0 = false) ∧ (s.hvEn = true) ∧ (s.hif.hdm.any (fun d => d.2.committed) = false) ∧ (Fits s ((({ s with drc := { s.drc with clr := false, ready := false } }).setReg (page .drc 0 + drcHvctrl) 0).answer .ok 0))) :=
  ⟨⟨wBank, 0, wBankTxn, by decide +kernel⟩,
   ⟨State.reset, levee, 0x3105, by decide +kernel⟩,
   ⟨{ State.reset with rsvr := { swReq := true } }, .lifeCycle, by decide +kernel⟩,
   ⟨{ State.reset with rsvr := { swipe := true } }, by decide +kernel⟩,
   ⟨{ State.reset with rsvr := { wipe := true } }, by decide +kernel⟩,
   ⟨wDram, wDramTxn.key, .none, wDramTxn, by decide +kernel⟩,
   ⟨wDram, wDramTxn.key, .corrected, wDramTxn, by decide +kernel⟩,
   ⟨{ State.reset with drc := { trained := 0xFF } }, by decide +kernel⟩,
   ⟨State.reset, levee, true, 4, by decide +kernel⟩,
   ⟨State.reset, levee, 1, by decide +kernel⟩,
   ⟨{ State.reset with drc := { clr := true } }, by decide +kernel⟩,
   ⟨State.reset.setReg (page .drc 0 + drcHvctrl) 1, levee, 0, by decide +kernel⟩⟩

theorem witness_DmaCommandsComplete_part1 :
    (∃ (s : State) (ini : Ini) (d : DmaCh) (val : Word),
      (s.mayWrite ini (dmaPage d.val + dmaCtrl) = true) ∧ (fld (s.actBits ini (dmaPage d.val + dmaCtrl) val) 0 4 = 1) ∧ (((s.fieldWrite ini (dmaPage d.val + dmaCtrl) val).dmach d.val).st = .idle ∨ ((s.fieldWrite ini (dmaPage d.val + dmaCtrl) val).dmach d.val).st = .error) ∧ (Fits s ((((s.fieldWrite ini (dmaPage d.val + dmaCtrl) val).modDma d.val (fun y => { y.clear with st := .run, err := 0, fault := 0 })).dmaGoto d.val ((s.fieldWrite ini (dmaPage d.val + dmaCtrl) val).reg64 (dmaPage d.val + dmaPc) / 8 * 8 % 2 ^ 48)).answer .ok 0))) ∧
    (∃ (s : State) (ini : Ini) (d : DmaCh) (val : Word),
      (s.mayWrite ini (dmaPage d.val + dmaCtrl) = true) ∧ (fld (s.actBits ini (dmaPage d.val + dmaCtrl) val) 0 4 = 4) ∧ (((s.fieldWrite ini (dmaPage d.val + dmaCtrl) val).dmach d.val).st = .run ∨ ((s.fieldWrite ini (dmaPage d.val + dmaCtrl) val).dmach d.val).st = .wait ∨ ((s.fieldWrite ini (dmaPage d.val + dmaCtrl) val).dmach d.val).st = .parked ∨ ((s.fieldWrite ini (dmaPage d.val + dmaCtrl) val).dmach d.val).st = .suspended ∨ ((s.fieldWrite ini (dmaPage d.val + dmaCtrl) val).dmach d.val).st = .halting) ∧ (Fits s (((s.fieldWrite ini (dmaPage d.val + dmaCtrl) val).abortBegin d.val).answer .ok 0))) ∧
    (∃ (s : State) (ini : Ini) (d : DmaCh) (val : Word),
      (s.mayWrite ini (dmaPage d.val + dmaCtrl) = true) ∧ (fld (s.actBits ini (dmaPage d.val + dmaCtrl) val) 0 4 = 8) ∧ (((s.fieldWrite ini (dmaPage d.val + dmaCtrl) val).dmach d.val).waitCond = some 2) ∧ (((s.fieldWrite ini (dmaPage d.val + dmaCtrl) val).dmach d.val).fail = none) ∧ (((s.fieldWrite ini (dmaPage d.val + dmaCtrl) val).dmach d.val).st ≠ .idle) ∧ (Fits s (((s.fieldWrite ini (dmaPage d.val + dmaCtrl) val).dmaResumeRun d.val).answer .ok 0))) ∧
    (∃ (s : State) (ini : Ini) (d : DmaCh) (val : Word),
      (s.mayWrite ini (dmaPage d.val + dmaCtrl) = true) ∧ (fld (s.actBits ini (dmaPage d.val + dmaCtrl) val) 0 4 = 8) ∧ (((s.fieldWrite ini (dmaPage d.val + dmaCtrl) val).dmach d.val).st = .run) ∧ (Fits s (((s.fieldWrite ini (dmaPage d.val + dmaCtrl) val).modDma d.val (fun y => { y with go := true })).answer .ok 0))) ∧
    (∃ (s : State) (ini : Ini) (d : DmaCh) (val : Word),
      (s.mayWrite ini (dmaPage d.val + dmaCtrl) = true) ∧ (fld (s.actBits ini (dmaPage d.val + dmaCtrl) val) 0 4 = 2) ∧ (((s.fieldWrite ini (dmaPage d.val + dmaCtrl) val).dmach d.val).st = .suspended) ∧ (((s.fieldWrite ini (dmaPage d.val + dmaCtrl) val).dmach d.val).fail = none) ∧ (¬((((s.fieldWrite ini (dmaPage d.val + dmaCtrl) val).modDma d.val (fun x => { x with st := x.before, fault := 0 })).dmach d.val).waitCond = some 2 ∧ (((s.fieldWrite ini (dmaPage d.val + dmaCtrl) val).modDma d.val (fun x => { x with st := x.before, fault := 0 })).dmach d.val).go = true)) ∧ (Fits s ((let v := ((s.fieldWrite ini (dmaPage d.val + dmaCtrl) val).modDma d.val (fun x => { x with st := x.before, fault := 0 })).answer .ok 0
      { v.dmaTick with ans := v.ans })))) ∧
    (∃ (s : State) (ini : Ini) (d : DmaCh) (val : Word),
      (s.mayWrite ini (dmaPage d.val + dmaCtrl) = true) ∧ (fld (s.actBits ini (dmaPage d.val + dmaCtrl) val) 0 4 = 2) ∧ (((s.fieldWrite ini (dmaPage d.val + dmaCtrl) val).dmach d.val).st = .suspended) ∧ (((s.fieldWrite ini (dmaPage d.val + dmaCtrl) val).dmach d.val).fail = none) ∧ ((((s.fieldWrite ini (dmaPage d.val + dmaCtrl) val).modDma d.val (fun x => { x with st := x.before, fault := 0 })).dmach d.val).waitCond = some 2) ∧ ((((s.fieldWrite ini (dmaPage d.val + dmaCtrl) val).modDma d.val (fun x => { x with st := x.before, fault := 0 })).dmach d.val).go = true) ∧ (Fits s ((let v := ((((s.fieldWrite ini (dmaPage d.val + dmaCtrl) val).modDma d.val (fun x => { x with st := x.before, fault := 0 })).modDma d.val (fun x => { x with go := false })).dmaResumeRun d.val).answer .ok 0
      { v.dmaTick with ans := v.ans })))) ∧
    (∃ (s : State) (ini : Ini) (d : DmaCh) (val : Word),
      (s.mayWrite ini (dmaPage d.val + dmaAppend) = true) ∧ (bit (s.actBits ini (dmaPage d.val + dmaAppend) val) 0 = true) ∧ (((s.fieldWrite ini (dmaPage d.val + dmaAppend) val).dmach d.val).st = .parked) ∧ (((s.fieldWrite ini (dmaPage d.val + dmaAppend) val).dmach d.val).fetch = none) ∧ (((s.fieldWrite ini (dmaPage d.val + dmaAppend) val).dmach d.val).fail = none) ∧ (Fits s (((s.fieldWrite ini (dmaPage d.val + dmaAppend) val).issueFetch d.val ((s.fieldWrite ini (dmaPage d.val + dmaAppend) val).dmach d.val).tail).answer .ok 0))) ∧
    (∃ (s : State) (d : DmaCh) (status : Status) (a : Nat) (bs : List Byte),
      ((s.dmach d.val).fetch = some (a, .ok, bs)) ∧ (status = .ok) ∧ ((s.dmach d.val).st = .run) ∧ (Fits s ((((s.modDma d.val (fun y => { y with fetch := none })).modDma d.val (fun y => { y with lines := (a, bs) :: y.lines.filter (fun l => l.1 != a) })).dmaPoint d.val).latchSettle d.val))) ∧
    (∃ (s : State) (d : DmaCh) (w : DWord),
      (s.dmaAt d.val 2 = some w) ∧ ((s.dmach d.val).loop = none) ∧ (Fits s ((s.modDma d.val (fun x => { x with
        loop := some ⟨x.pc + 8, fld w 8 24, 64 * sx 16 (fld w 32 16), 64 * sx 16 (fld w 48 16)⟩
        soff := 0
        doff := 0 })).dmaNext d.val 1))) ∧
    (∃ (s : State) (d : DmaCh) (w : DWord) (l : DmaLoop),
      (s.dmaAt d.val 3 = some w) ∧ ((s.dmach d.val).loop = some l) ∧ (reservedBits w [(0, 8)] = false) ∧ (l.left ≠ 0) ∧ (Fits s ((s.modDma d.val (fun x => { x with
        loop := some { l with left := l.left - 1 }
        soff := x.soff + l.ss
        doff := x.doff + l.ds })).dmaGoto d.val l.body))) ∧
    (∃ (s : State) (d : DmaCh) (w : DWord) (l : DmaLoop),
      (s.dmaAt d.val 3 = some w) ∧ ((s.dmach d.val).loop = some l) ∧ (reservedBits w [(0, 8)] = false) ∧ (l.left = 0) ∧ (Fits s ((s.modDma d.val (fun x => { x with loop := none, soff := 0, doff := 0 })).dmaNext d.val 1))) ∧
    (∃ (s : State) (d : DmaCh) (w : DWord),
      (s.dmaAt d.val 4 = some w) ∧ (reservedBits w [(0, 18), (32, 32)] = false) ∧ (fld w 8 2 = 2) ∧ ((s.dmach d.val).go = true) ∧ (Fits s ((s.modDma d.val (fun x => { x with go := false })).dmaNext d.val 1))) ∧
    (∃ (s : State) (d : DmaCh) (w : DWord),
      (s.dmaAt d.val 4 = some w) ∧ (reservedBits w [(0, 18), (32, 32)] = false) ∧ (fld w 8 2 ≠ 2) ∧ (Fits s (s.dmaHold d.val w .wait))) :=
  ⟨⟨State.reset, levee, 0, 1, by decide +kernel⟩,
   ⟨wDma { st := .run }, levee, 0, 4, by decide +kernel⟩,
   ⟨wDma { st := .wait, wait := some 0x204 }, levee, 0, 8, by decide +kernel⟩,
   ⟨wDma { st := .run }, levee, 0, 8, by decide +kernel⟩,
   ⟨wDma { st := .suspended, before := .run }, levee, 0, 2, by decide +kernel⟩,
   ⟨wDma { st := .suspended, before := .wait, wait := some 0x204, go := true }, levee, 0, 2, by decide +kernel⟩,
   ⟨wDma { st := .parked, tail := 0x20000000 }, levee, 0, 1, by decide +kernel⟩,
   ⟨wDma { st := .run, pc := 0x20000000, fetch := some (0x20000000, .ok, bytesOf 64 0x108) }, 0, .ok, 0x20000000, bytesOf 64 0x108, by decide +kernel⟩,
   ⟨wDmaWord 0x302 {  }, 0, 0x302, by decide +kernel⟩,
   ⟨wDmaWord 3 { loop := some ⟨0, 2, 64, 64⟩ }, 0, 3, ⟨0, 2, 64, 64⟩, by decide +kernel⟩,
   ⟨wDmaWord 3 { loop := some ⟨0, 0, 64, 64⟩ }, 0, 3, ⟨0, 0, 64, 64⟩, by decide +kernel⟩,
   ⟨wDmaWord 0x204 { go := true }, 0, 0x204, by decide +kernel⟩,
   ⟨wDmaWord 0x304 {  }, 0, 0x304, by decide +kernel⟩⟩

theorem witness_DmaCommandsComplete_part2 :
    (∃ (s : State) (d : DmaCh),
      ((s.dmach d.val).waitCond = some 3) ∧ ((s.dmach d.val).fail = none) ∧ (Fits s ((s.modDma d.val (fun x => { x with st := .run, wait := none })).dmaNext d.val 1))) ∧
    (∃ (s : State) (d : DmaCh) (w : DWord),
      (s.dmaAt d.val 5 = some w) ∧ (reservedBits w [(0, 12), (16, 9)] = false) ∧ (bit w 8 = false) ∧ (bit w 24 = false) ∧ (Fits s ((s.raise (dmaPage d.val) (8 + fld w 9 3)).dmaNext d.val 1))) ∧
    (∃ (s : State) (d : DmaCh) (w : DWord),
      (s.dmaAt d.val 6 = some w) ∧ (bit w 8 = false) ∧ (reservedBits w [(0, 9), (16, 45)] = false) ∧ ((s.dmach d.val).loop = none) ∧ (Fits s ((s.modDma d.val (fun x => { x with lines := [] })).dmaGoto d.val (8 * fld w 16 45)))) ∧
    (∃ (s : State) (d : DmaCh) (w : DWord),
      (s.dmaAt d.val 6 = some w) ∧ (bit w 8 = true) ∧ (reservedBits w [(0, 9), (16, 45)] = false) ∧ ((s.dmach d.val).latch = false) ∧ (Fits s ((s.modDma d.val (fun y => { y with st := .parked, tail := (s.dmach d.val).pc, lines := [], latch := false })).raise (dmaPage d.val) 0))) ∧
    (∃ (s : State) (d : DmaCh) (w : DWord),
      (s.dmaAt d.val 7 = some w) ∧ (reservedBits w [(0, 20), (24, 24)] = false) ∧ (fld w 8 2 = 1) ∧ (Fits s ((s.modDma d.val (fun x => { x with xf := w })).dmaNext d.val 1))) ∧
    (∃ (s : State) (d : DmaCh) (w : DWord),
      (s.dmaAt d.val 8 = some w) ∧ (reservedBits w [(0, 16)] = false) ∧ ((s.dmach d.val).loop = none) ∧ (Fits s (s.dmaHold d.val w .halting))) ∧
    (∃ (s : State) (d : DmaCh) (w : DWord),
      ((s.drainFlush d.val) = s) ∧ ((s.dmach d.val).bursts = []) ∧ ((s.dmach d.val).flush = []) ∧ ((s.dmach d.val).fail = none) ∧ ((s.dmach d.val).st = .halting) ∧ ((s.dmach d.val).wait = some w) ∧ (fld w 0 8 = 8) ∧ (Fits s ((s.modDma d.val (fun y => { y.toIdle with hcode := fld w 8 8 })).raise (dmaPage d.val) 2))) ∧
    (∃ (s : State) (d : DmaCh) (code : Nat),
      ((s.dmach d.val).fail = some code) ∧ ((s.dmach d.val).outstanding = false) ∧ ((s.dmach d.val).st = .run) ∧ (Fits s ((s.modDma d.val (fun y => { y.clear with st := .error, err := code })).raise (dmaPage d.val) 3))) ∧
    (∃ (s : State) (d : DmaCh) (w : DWord) (w1 w2 : DWord) (m : DmaMove),
      (s.dmaAt d.val 1 = some w) ∧ ((s.dmach d.val).word ((s.dmach d.val).pc + 8) = some w1) ∧ ((s.dmach d.val).word ((s.dmach d.val).pc + 16) = some w2) ∧ (m = { w0 := w, w1 := w1, w2 := w2, xf := (if bit w 21 then (s.dmach d.val).xf else 0), soff := (s.dmach d.val).soff, doff := (s.dmach d.val).doff, pkts := (if bit w 22 then fld w 32 32 else 0) }) ∧ (m.ok = true) ∧ (m.pmode = 0) ∧ (Fits s ((s.modDma d.val (fun y => { y with mv := some m })).dmaTick))) ∧
    (∃ (s : State) (d : DmaCh) (burst : Nat) (read : Bool) (status : Status) (poison : Bool) (host : List Byte),
      (32 ≤ burst) ∧ ((s.dmach d.val).flush.contains (burst - 32) = true) ∧ (status = .ok) ∧ (poison = false) ∧ (Fits s (((s.modDma d.val (fun x => { x with flush := x.flush.filter (fun k => k != burst - 32) })).abortEnd d.val).dmaTick))) ∧
    (∃ (s : State) (d : DmaCh) (burst : Nat) (read : Bool) (status : Status) (poison : Bool) (host : List Byte) (b : DmaBurst),
      (burst < 32) ∧ ((s.dmach d.val).bursts.find? (fun b => b.slot == burst && b.phase == (if read then .reading else .writing) && !b.drowse) = some b) ∧ (Fits s ((((if read then s.readAnswer d.val b status poison host else s.writeAnswer d.val b status poison)).abortEnd d.val).dmaTick))) ∧
    (∃ (s : State) (d : DmaCh),
      ((s.dmach d.val).stopping = false) ∧ (Fits s (s.modDma d.val (fun x => { x with bursts := x.bursts.map (fun b => { b with drowse := false }) })))) ∧
    (∃ (s : State) (d : DmaCh) (status : Status),
      ((s.dmach d.val).stopping = false) ∧ (((List.range 128).any (fun q => (s.dmach d.val).samples q)) = true) ∧ (status ≠ .ok) ∧ (answerError status false = none) ∧ (Fits s (s.dmaCount d.val 5 1))) :=
  ⟨⟨wDma { st := .wait, wait := some 0x304 }, 0, by decide +kernel⟩,
   ⟨wDmaWord 0x605 {  }, 0, 0x605, by decide +kernel⟩,
   ⟨wDmaWord (6 + 2 ^ 16 * 0x4000000) {  }, 0, (6 + 2 ^ 16 * 0x4000000), by decide +kernel⟩,
   ⟨wDmaWord 0x106 {  }, 0, 0x106, by decide +kernel⟩,
   ⟨wDmaWord 0x107 {  }, 0, 0x107, by decide +kernel⟩,
   ⟨wDmaWord 0x508 {  }, 0, 0x508, by decide +kernel⟩,
   ⟨wDma { st := .halting, wait := some 0x508 }, 0, 0x508, by decide +kernel⟩,
   ⟨wDma { st := .run, fail := some 1 }, 0, 1, by decide +kernel⟩,
   ⟨wMove, 0, wMoveW0, 5, wMoveW2, { w0 := wMoveW0, w1 := 5, w2 := wMoveW2 }, by decide +kernel⟩,
   ⟨wDma { st := .run, flush := [1] }, 0, 33, false, .ok, false, [], by decide +kernel⟩,
   ⟨wBurst, 0, 0, false, .ok, false, [], wBurst1, by decide +kernel⟩,
   ⟨wBurst, 0, by decide +kernel⟩,
   ⟨wDma { st := .wait, wait := some 0x104 }, 0, .drowse, by decide +kernel⟩⟩

theorem witness_DmaCommandsComplete_part3 :
    (∃ (s : State) (d : DmaCh) (status : Status) (q : Nat),
      ((s.dmach d.val).stopping = false) ∧ (((List.range 128).filter (fun q => (s.dmach d.val).samples q)) = [q]) ∧ (status = .ok) ∧ ((s.dmach d.val).waitCond = none) ∧ (Fits s (((s.modDma d.val (fun y => { y with pace := tset none y.pace q (some (s.queue q).pace) })).dmaServed (dmaReadNi d.val) d.val).dmaTick))) :=
  ⟨wPace, 0, .ok, 5, by decide +kernel⟩

theorem witness_WindowCommandsComplete :
    (∃ (s : State) (ini : Ini) (off : BitVec 25) (len : Nat) (val : BitVec 64),
      (len = 4) ∧ (off.toNat % 4 = 0) ∧ ((blockAt off.toNat).isSome = true) ∧ (¬(0x1000000 ≤ off.toNat ∧ off.toNat < 0x1100000)) ∧ (¬(0x240000 ≤ off.toNat ∧ off.toNat < 0x300000)) ∧ (¬(off.toNat ≤ page .rsv 0 + rsvBhand ∧ page .rsv 0 + rsvBhand < off.toNat + 4)) ∧ (Fits s ((s.wordWrite ini off.toNat (val.setWidth 32)).hostSees ini))) ∧
    (∃ (s : State) (ini : Ini) (page : Fin 8192) (val : Word),
      ((blockAt (0x1000 * page.val)).isSome = true) ∧ (headPage (0x1000 * page.val + hOwner) = 0x1000 * page.val) ∧ (headerSp (0x1000 * page.val + hOwner) = false) ∧ (ini = levee) ∧ (Fits s ((s.setReg (0x1000 * page.val + hOwner) ((val.setWidth 8).setWidth 32)).answer .ok 0))) ∧
    (∃ (s : State) (ini : Ini) (page : Fin 8192) (val : Word),
      ((blockAt (0x1000 * page.val)).isSome = true) ∧ (headPage (0x1000 * page.val + hLock) = 0x1000 * page.val) ∧ (s.mayWrite ini (0x1000 * page.val + hLock) = true) ∧ (headerSp (0x1000 * page.val + hLock) = false) ∧ (bit val 0 = true) ∧ (Fits s ((s.setReg (0x1000 * page.val + hLock) 1).answer .ok 0))) ∧
    (∃ (s : State) (ini : Ini) (page : Fin 8192) (val : Word),
      ((blockAt (0x1000 * page.val)).isSome = true) ∧ (s.mayWrite ini (0x1000 * page.val + hEvtBase) = true) ∧ (headerSp (0x1000 * page.val + hEvtBase) = false) ∧ (fld val 0 13 ≤ 0x1FE0) ∧ (Fits s ((s.setReg (0x1000 * page.val + hEvtBase) (BitVec.ofNat 32 (fld val 0 13))).answer .ok 0))) ∧
    (∃ (s : State) (ini : Ini) (off : BitVec 25) (wr : Bool),
      ((blockAt off.toNat).isNone = true) ∧ (¬(0x1000000 ≤ off.toNat ∧ off.toNat < 0x1100000)) ∧ (¬(0x240000 ≤ off.toNat ∧ off.toNat < 0x300000)) ∧ (Fits s (((s.holeCapture ini off.toNat wr).answer .decErr 0).hostSees ini))) ∧
    (∃ (s : State) (ini : Ini) (addr : BitVec 48) (wr : Bool),
      (s.target addr.toNat = .unmapped) ∧ (Fits s (s.answer .decErr 0))) ∧
    (∃ (s : State) (ini : Ini) (val : Word),
      (Fits s (((List.range 16).foldl (fun u i => if bit val i then u.raise sysPage i else u) s).answer .ok 0))) ∧
    (∃ (s : State) (addr : BitVec 7) (wr : Bool) (data : Word),
      (s.tapOk 0x10 = true) ∧ (wr = false) ∧ (Fits s (let u := s.modTap (fun t => { t with ir := 0x10 })
      u.modTap (fun x => { x with out := u.dmRead addr.toNat })))) ∧
    (∃ (s : State) (addr : BitVec 7) (wr : Bool) (data : Word),
      (s.tapOk 0x10 = true) ∧ (wr = true) ∧ (Fits s ((s.modTap (fun t => { t with ir := 0x10 })).dmWrite addr.toNat data))) :=
  ⟨⟨State.reset, levee, 0x24, 4, 5, by decide +kernel⟩,
   ⟨wRun, levee, 0x20, 5, by decide +kernel⟩,
   ⟨wRun, levee, 0x20, 1, by decide +kernel⟩,
   ⟨wRun, levee, 0x20, 5, by decide +kernel⟩,
   ⟨State.reset, levee, 0x1FFF000, true, by decide +kernel⟩,
   ⟨State.reset, levee, 0xFFFFFFFFFFFF, true, by decide +kernel⟩,
   ⟨State.reset, levee, 5, by decide +kernel⟩,
   ⟨wTap, 0x11, false, 0, by decide +kernel⟩,
   ⟨wTap, 0x10, true, 1, by decide +kernel⟩⟩

theorem wit_atu : (∃ (s : State) (ini : Ini) (atc : BitVec 16) (va : BitVec 48) (wr : Bool) (u : State) (pa : Nat),
      (s.atuTranslate ini atc.toNat va.toNat wr = (u, some pa)) ∧ (Fits s (u.answer .ok (BitVec.ofNat 64 pa)))) :=
  ⟨wAtu, levee, 0, 0x1234, true, _, 0x1234, pair_eq _ _ (by decide +kernel), by decide +kernel⟩

theorem witness_CoreCommandsComplete_part1 :
    (∃ (s : State) (ini : Ini) (atc : BitVec 16) (va : BitVec 48) (wr : Bool) (u : State) (pa : Nat),
      (s.atuTranslate ini atc.toNat va.toNat wr = (u, some pa)) ∧ (Fits s (u.answer .ok (BitVec.ofNat 64 pa)))) ∧
    (∃ (s : State) (ini : Ini) (atc : BitVec 16) (va : BitVec 48) (wr : Bool) (u : State),
      (s.atuTranslate ini atc.toNat va.toNat wr = (u, none)) ∧ (Fits s (u.answer .slvErr 0))) :=
  ⟨wit_atu,
   ⟨State.reset, 0x40, 5, 0, true, (State.reset.atuTranslate 0x40 5 0 true).1, by decide +kernel⟩⟩

theorem witness_CoreCommandsComplete_part2 :
    (∃ (s : State) (ini : Ini) (val : Word),
      (s.mayWrite ini (atuPage + atuInval) = true) ∧ (bit (s.actBits ini (atuPage + atuInval) val) 31 = true) ∧ ((s.fieldWrite ini (atuPage + atuInval) val).atu.busy = false) ∧ (Fits s (({ (s.fieldWrite ini (atuPage + atuInval) val) with atu := { tlb := (s.fieldWrite ini (atuPage + atuInval) val).atu.tlb.filter ((s.fieldWrite ini (atuPage + atuInval) val).invalKeep ((s.fieldWrite ini (atuPage + atuInval) val).reg (atuPage + atuInval))), busy := true } }).answer .ok 0))) ∧
    (∃ (s : State),
      (s.atu.busy = true) ∧ (Fits s (({ s with atu := { s.atu with busy := false } }).raise atuPage 0))) :=
  ⟨⟨State.reset, levee, 0x80010000, by decide +kernel⟩,
   ⟨{ State.reset with atu := { busy := true } }, by decide +kernel⟩⟩

theorem witness_CoreCommandsComplete_part3 :
    (∃ (s : State) (c : Core) (b : Nat),
      (s.runBank c.val = some b) ∧ (fld (s.bank c.val b).mst 13 2 ≠ 0) ∧ (Fits s (s.fpReady c.val b))) ∧
    (∃ (s : State) (c : Core) (rs1 : Fin 32) (imm : BitVec 12) (b n : Nat),
      (s.execBank c.val = some b) ∧ ((s.bank c.val b).res ≠ 6) ∧ (((s.bank c.val b).tf && (s.bank c.val b).tdep == 7) = false) ∧ (n = ((s.bank c.val b).cur + 1) % 6) ∧ (s.issues c.val b (none) ((s.retire c.val).modBank c.val b (fun x =>
        let y := (x.kfSet 0 3 n).kfSet 3 3 (x.res + 1)
        let y := if x.tf then y.kfSet 18 3 ((s.bank c.val b).tdep + 1) else y
        { (y.setPc (((s.bank c.val b).x rs1.val + imm.signExtend 64) &&& ~~~1)) with
          up := tset 0 (tkeep (fun i => !(decide (16 * n ≤ i) && decide (i < 16 * n + 16))) y.up) (16 * n) (x.pc + 4) })) = true) ∧ (Fits s ((s.retire c.val).modBank c.val b (fun x =>
        let y := (x.kfSet 0 3 n).kfSet 3 3 (x.res + 1)
        let y := if x.tf then y.kfSet 18 3 ((s.bank c.val b).tdep + 1) else y
        { (y.setPc (((s.bank c.val b).x rs1.val + imm.signExtend 64) &&& ~~~1)) with
          up := tset 0 (tkeep (fun i => !(decide (16 * n ≤ i) && decide (i < 16 * n + 16))) y.up) (16 * n) (x.pc + 4) })))) :=
  ⟨⟨wCore { mst := 0x2000, nodeu := 0x20001000 }, 0, 0, by decide +kernel⟩,
   ⟨wCore { low := [(18, 8)] }, 0, 0, 8, 0, 1, by decide +kernel, by decide +kernel⟩⟩

theorem witness_CoreCommandsComplete_part4 :
    (∃ (s : State) (c : Core) (b : Nat),
      (s.execBank c.val = some b) ∧ ((s.bank c.val b).inTrap = false) ∧ ((s.bank c.val b).res ≠ 1) ∧ (bit ((s.bank c.val b).x 16) 0 = false) ∧ (s.issues c.val b (none) ((s.retire c.val).modBank c.val b (fun x =>
        let y := ((x.setPc (x.x 16)).kfSet 0 3 ((x.cur + 5) % 6)).kfSet 3 3 (x.res - 1)
        if x.tf then y.kfSet 18 3 (x.tdep - 1) else y)) = true) ∧ (Fits s ((s.retire c.val).modBank c.val b (fun x =>
        let y := ((x.setPc (x.x 16)).kfSet 0 3 ((x.cur + 5) % 6)).kfSet 3 3 (x.res - 1)
        if x.tf then y.kfSet 18 3 (x.tdep - 1) else y)))) ∧
    (∃ (s : State) (c : Core) (intr : Bool) (cause : BitVec 6) (tval : BitVec 64) (b : Nat),
      (s.execBank c.val = some b) ∧ (intr = false) ∧ (excCause cause.toNat = true) ∧ (s.issues c.val b (none) (s.takeTrap c.val b false cause.toNat tval) = true) ∧ (Fits s (s.takeTrap c.val b false cause.toNat tval))) :=
  ⟨⟨wCore { low := [(18, 0x11)] }, 0, 0, by decide +kernel, by decide +kernel⟩,
   ⟨wCore {}, 0, false, 8, 0, 0, by decide +kernel, by decide +kernel⟩⟩

theorem witness_CoreCommandsComplete_part5 :
    (∃ (s : State) (c : Core) (intr : Bool) (cause : BitVec 6) (tval : BitVec 64) (b : Nat),
      (s.execBank c.val = some b) ∧ (intr = true) ∧ (cause.toNat = 16) ∧ (s.intrReady c.val b = true) ∧ (s.issues c.val b (none) (s.takeTrap c.val b true 16 0) = true) ∧ (Fits s (s.takeTrap c.val b true 16 0))) ∧
    (∃ (s : State) (c : Core) (m : Bool) (b : Nat) (y : Bank),
      (s.execBank c.val = some b) ∧ (m = true) ∧ ((s.bank c.val b).retFrame = some y) ∧ ((s.bank c.val b).priv = 3) ∧ (s.issues c.val b (none) ((s.modBank c.val b (fun _ => y.mret)).retire c.val) = true) ∧ (Fits s ((s.modBank c.val b (fun _ => y.mret)).retire c.val))) :=
  ⟨⟨wIntr, 0, true, 16, 0, 0, by decide +kernel, by decide +kernel⟩,
   ⟨wCore { priv := 3 }, 0, true, 0, (({ st := .active, priv := 3 } : Bank).kfSet 16 1 0), by decide +kernel, by decide +kernel⟩⟩

theorem witness_CoreCommandsComplete_part6 :
    (∃ (s : State) (c : Core) (m : Bool) (b : Nat) (y : Bank),
      (s.execBank c.val = some b) ∧ (m = false) ∧ ((s.bank c.val b).retFrame = some y) ∧ ((s.bank c.val b).priv = 3) ∧ (s.issues c.val b (none) ((s.modBank c.val b (fun _ => y.sret)).retire c.val) = true) ∧ (Fits s ((s.modBank c.val b (fun _ => y.sret)).retire c.val))) ∧
    (∃ (s : State) (c : Core) (cut : Option Nat) (b : Nat) (u : State),
      (s.execBank c.val = some b) ∧ ((s.bank c.val b).priv = 3) ∧ (s.switchDue c.val = false) ∧ (s.saveHalf c.val b true (s.bank c.val b).svc none = (u, none, true)) ∧ (s.frameDue c.val b = []) ∧ (s.issues c.val b (some .svU) (((u.modBank c.val b (fun y => { y.kfSet 21 1 0 with cont := none })).pcAdd c.val b 4).retire c.val) = true) ∧ (Fits s (((u.modBank c.val b (fun y => { y.kfSet 21 1 0 with cont := none })).pcAdd c.val b 4).retire c.val))) :=
  ⟨⟨wCore { priv := 3 }, 0, false, 0, (({ st := .active, priv := 3 } : Bank).kfSet 16 1 0), by decide +kernel, by decide +kernel⟩,
   ⟨wSave, 0, none, 0, (wSave.saveHalf 0 0 true false none).1, by decide +kernel, by decide +kernel, by decide +kernel, pair_eq _ _ (by decide +kernel), by decide +kernel, by decide +kernel, by decide +kernel⟩⟩

theorem witness_CoreCommandsComplete_part7 :
    (∃ (s : State) (c : Core) (cut : Option Nat) (b : Nat) (u : State),
      (s.execBank c.val = some b) ∧ ((s.bank c.val b).priv = 3) ∧ (s.switchDue c.val = false) ∧ (s.saveHalf c.val b false (s.bank c.val b).svc none = (u, none, true)) ∧ (s.issues c.val b (some .svL) (((u.modBank c.val b (fun y => { y.kfSet 21 1 0 with cont := none })).pcAdd c.val b 4).retire c.val) = true) ∧ (Fits s (((u.modBank c.val b (fun y => { y.kfSet 21 1 0 with cont := none })).pcAdd c.val b 4).retire c.val))) ∧
    (∃ (s : State) (c : Core) (cut : Option Nat) (b mask : Nat) (s1 u : State),
      (s.execBank c.val = some b) ∧ ((s.bank c.val b).priv = 3) ∧ (s.switchDue c.val = false) ∧ (s.nodeMask (coreIni c.val) ((s.bank c.val b).node true) = (s1, .ok, mask)) ∧ (s1.loadHalf c.val b true ((List.range 112).filter (fun i => Nat.testBit mask i)) = (u, none)) ∧ (s.frameDue c.val b = []) ∧ (s.issues c.val b (some .ldU) (((u.modBank c.val b (fun y => { y.kfSet 21 1 0 with cont := none })).modBank c.val b (fun y => y.setPc ((s.bank c.val b).pc + 4))).retire c.val) = true) ∧ (Fits s (((u.modBank c.val b (fun y => { y.kfSet 21 1 0 with cont := none })).modBank c.val b (fun y => y.setPc ((s.bank c.val b).pc + 4))).retire c.val))) :=
  ⟨⟨wSave, 0, none, 0, (wSave.saveHalf 0 0 false false none).1, by decide +kernel, by decide +kernel, by decide +kernel, pair_eq _ _ (by decide +kernel), by decide +kernel, by decide +kernel⟩,
   ⟨wSave, 0, none, 0, 0, (wSave.nodeMask (coreIni 0) ((wSave.bank 0 0).node true)).1, ((wSave.nodeMask (coreIni 0) ((wSave.bank 0 0).node true)).1.loadHalf 0 0 true []).1, by decide +kernel, by decide +kernel, by decide +kernel, pair_eq _ _ (by decide +kernel), pair_eq _ _ (by decide +kernel), by decide +kernel, by decide +kernel, by decide +kernel⟩⟩

theorem witness_CoreCommandsComplete_part8 :
    (∃ (s : State) (c : Core) (cut : Option Nat) (b mask : Nat) (s1 u : State),
      (s.execBank c.val = some b) ∧ ((s.bank c.val b).priv = 3) ∧ (s.switchDue c.val = false) ∧ (s.nodeMask (coreIni c.val) ((s.bank c.val b).node false) = (s1, .ok, mask)) ∧ (s1.loadHalf c.val b false ((List.range 30).filter (fun i => Nat.testBit mask i)) = (u, none)) ∧ (Nat.testBit mask slotPc = true) ∧ (s.issues c.val b (some .ldL) ((u.modBank c.val b (fun y => { y.kfSet 21 1 0 with cont := none })).retire c.val) = true) ∧ (Fits s ((u.modBank c.val b (fun y => { y.kfSet 21 1 0 with cont := none })).retire c.val))) ∧
    (∃ (s : State) (c : Core) (rs1 : Fin 32) (b : Nat),
      (s.execBank c.val = some b) ∧ ((s.bank c.val b).priv ≠ 0) ∧ (s.issues c.val b (none) (((s.pcAdd c.val b 4).retire c.val).toPort (0x10000 + c.val) ⟨fld ((((s.pcAdd c.val b 4).retire c.val).bank c.val b).x rs1.val) 0 13, false⟩) = true) ∧ (Fits s (((s.pcAdd c.val b 4).retire c.val).toPort (0x10000 + c.val) ⟨fld ((((s.pcAdd c.val b 4).retire c.val).bank c.val b).x rs1.val) 0 13, false⟩))) :=
  ⟨⟨wLoad, 0, none, 0, 2 ^ 15, (wLoad.nodeMask (coreIni 0) ((wLoad.bank 0 0).node false)).1, ((wLoad.nodeMask (coreIni 0) ((wLoad.bank 0 0).node false)).1.loadHalf 0 0 false ((List.range 30).filter (fun i => Nat.testBit (2 ^ 15) i))).1, by decide +kernel, by decide +kernel, by decide +kernel, pair_eq _ _ (by decide +kernel), pair_eq _ _ (by decide +kernel), by decide +kernel, by decide +kernel, by decide +kernel⟩,
   ⟨wCore { priv := 1 }, 0, 5, 0, by decide +kernel, by decide +kernel⟩⟩

theorem witness_CoreCommandsComplete_part9 :
    (∃ (s : State) (c : Core) (b : Nat),
      (s.execBank c.val = some b) ∧ ((s.bank c.val b).priv ≠ 0) ∧ (s.issues c.val b (none) (((s.pcAdd c.val b 4).retire c.val).hwait c.val b) = true) ∧ (Fits s (((s.pcAdd c.val b 4).retire c.val).hwait c.val b))) ∧
    (∃ (s : State) (c : Core) (b : Nat),
      (s.execBank c.val = some b) ∧ ((s.bank c.val b).priv ≠ 0) ∧ (s.issues c.val b (none) (((s.pcAdd c.val b 4).retire c.val).hexit c.val b) = true) ∧ (Fits s (((s.pcAdd c.val b 4).retire c.val).hexit c.val b))) :=
  ⟨⟨wCore { priv := 1 }, 0, 0, by decide +kernel, by decide +kernel⟩,
   ⟨wCore { priv := 1 }, 0, 0, by decide +kernel, by decide +kernel⟩⟩

theorem witness_CoreCommandsComplete_part10 :
    (∃ (s : State) (c : Core) (b : Nat),
      (s.execBank c.val = some b) ∧ ((s.bank c.val b).priv ≠ 0) ∧ (s.issues c.val b (none) (((s.pcAdd c.val b 4).retire c.val).hyield c.val b) = true) ∧ (Fits s (((s.pcAdd c.val b 4).retire c.val).hyield c.val b))) ∧
    (∃ (s : State) (c : Core) (rd : Fin 32) (b : Nat),
      (s.execBank c.val = some b) ∧ ((s.bank c.val b).priv ≠ 0) ∧ (s.issues c.val b (none) (((s.pcAdd c.val b 4).retire c.val).modBank c.val b (fun x => x.setX rd.val (BitVec.ofNat 64 x.thr))) = true) ∧ (Fits s (((s.pcAdd c.val b 4).retire c.val).modBank c.val b (fun x => x.setX rd.val (BitVec.ofNat 64 x.thr))))) :=
  ⟨⟨wCore { priv := 1 }, 0, 0, by decide +kernel, by decide +kernel⟩,
   ⟨wCore { priv := 1 }, 0, 5, 0, by decide +kernel, by decide +kernel⟩⟩

theorem witness_CoreCommandsComplete_part11 :
    (∃ (s : State) (c : Core) (addr : BitVec 48) (status : Status) (old : Line),
      (status ≠ .ok) ∧ (tget (0, (0 : Line)) s.l2 (addr.toNat / 64) = (c.val, old)) ∧ ((s.l2.any (fun e => e.1 == addr.toNat / 64)) = true) ∧ ((s.reg (ccxPage c.val + ccxWberr) &&& 3) = 0) ∧ (Fits s ((((({ s with l2 := tdel s.l2 (addr.toNat / 64) }).setBytes (addr.toNat / 64 * 64) (bytesOf 64 old.toNat)).setReg (ccxPage c.val + ccxWberr) (BitVec.ofNat 32 (1 + 4 * statusCode status))).setReg64 (ccxPage c.val + ccxWbaddr) (addr.toNat / 64 * 64)).raise (ccxPage c.val) 1))) ∧
    (∃ (s : State) (c : Core) (b : Nat) (u : State),
      (s.execBank c.val = some b) ∧ (2 ≤ (s.bank c.val b).res) ∧ ((s.bank c.val b).spl ≠ 255) ∧ (s.storeFrame c.val ((List.range 16).map (fun i => ((s.bank c.val b).spillAddr (s.bank c.val b).spl + 8 * i, tget 0 (s.bank c.val b).up (16 * (s.bank c.val b).oldest + i)))) = (u, .done [])) ∧ ((s.frameDue c.val b).contains (s.bank c.val b).oldest = false) ∧ (s.issues c.val b (none) ((u.modBank c.val b (fun y => ((y.kfSet 8 8 ((s.bank c.val b).spl + 1)).kfSet 3 3 ((s.bank c.val b).res - 1)).setPc ((s.bank c.val b).pc + 4))).retire c.val) = true) ∧ (Fits s ((u.modBank c.val b (fun y => ((y.kfSet 8 8 ((s.bank c.val b).spl + 1)).kfSet 3 3 ((s.bank c.val b).res - 1)).setPc ((s.bank c.val b).pc + 4))).retire c.val))) :=
  ⟨⟨{ State.reset with l2 := [(0, (0, 5))] }, 0, 0, .slvErr, 5, by decide +kernel⟩,
   ⟨wSpill, 0, 0, (wSpill.storeFrame 0 ((List.range 16).map (fun i => ((wSpill.bank 0 0).spillAddr (wSpill.bank 0 0).spl + 8 * i, tget 0 (wSpill.bank 0 0).up (16 * (wSpill.bank 0 0).oldest + i))))).1, by decide +kernel, by decide +kernel, by decide +kernel⟩⟩

theorem witness_CoreCommandsComplete_part12 :
    (∃ (s : State) (c : Core) (b : Nat) (u : State) (l : List DWord),
      (s.execBank c.val = some b) ∧ ((s.bank c.val b).res ≤ 5) ∧ ((s.bank c.val b).spl ≠ 0) ∧ (s.loadFrame c.val ((List.range 16).map (fun i => (s.bank c.val b).spillAddr ((s.bank c.val b).spl - 1) + 8 * i)) = (u, .ok l)) ∧ (s.issues c.val b (none) ((u.modBank c.val b (fun y =>
        let z := ((y.kfSet 8 8 ((s.bank c.val b).spl - 1)).kfSet 3 3 ((s.bank c.val b).res + 1)).setPc ((s.bank c.val b).pc + 4)
        { z with up := (l.zipIdx).foldl (fun t p => tset 0 t (16 * (((s.bank c.val b).cur + 6 - (s.bank c.val b).res) % 6) + p.2) p.1) z.up })).retire c.val) = true) ∧ (Fits s ((u.modBank c.val b (fun y =>
        let z := ((y.kfSet 8 8 ((s.bank c.val b).spl - 1)).kfSet 3 3 ((s.bank c.val b).res + 1)).setPc ((s.bank c.val b).pc + 4)
        { z with up := (l.zipIdx).foldl (fun t p => tset 0 t (16 * (((s.bank c.val b).cur + 6 - (s.bank c.val b).res) % 6) + p.2) p.1) z.up })).retire c.val))) ∧
    (∃ (s : State) (c : Core) (w : Word),
      (w = 0x2B) ∧ (Fits s (ctxCmd .svU c.val none s))) :=
  ⟨⟨wFill, 0, 0, (wFill.loadFrame 0 ((List.range 16).map (fun i => (wFill.bank 0 0).spillAddr 0 + 8 * i))).1, List.replicate 16 0, by decide +kernel, by decide +kernel⟩,
   ⟨wSave, 0, 0x2B, by decide +kernel⟩⟩

theorem witness_CoreCommandsComplete_part13 :
    (∃ (s : State) (c : Core) (w : Word),
      (w = 0x102B) ∧ (Fits s (ctxCmd .svL c.val none s))) ∧
    (∃ (s : State) (c : Core) (w : Word),
      (w = 0x202B) ∧ (Fits s (ctxCmd .ldU c.val none s))) :=
  ⟨⟨wSave, 0, 0x102B, by decide +kernel⟩,
   ⟨wLoad, 0, 0x202B, by decide +kernel⟩⟩

theorem witness_CoreCommandsComplete_part14 :
    (∃ (s : State) (c : Core) (w : Word),
      (w = 0x302B) ∧ (Fits s (ctxCmd .ldL c.val none s))) ∧
    (∃ (s : State) (c : Core) (w : Word) (b : Nat),
      (xkctxOf w = none) ∧ (s.execBank c.val = some b) ∧ (fld w 0 2 = 3) ∧ (s.issues c.val b (none) (s.rvExec c.val b 4 w) = true) ∧ (Fits s (s.rvExec c.val b 4 w))) :=
  ⟨⟨wLoad, 0, 0x302B, by decide +kernel⟩,
   ⟨wCore {}, 0, 0x13, 0, by decide +kernel, by decide +kernel⟩⟩

theorem witness_CoreCommandsComplete_part15 :
    (∃ (s : State) (c : Core) (w : Word) (b : Nat) (v : Word),
      (xkctxOf w = none) ∧ (s.execBank c.val = some b) ∧ (fld w 0 2 ≠ 3) ∧ (expand (fld w 0 16) = some v) ∧ (fld v 0 7 ≠ 0x07) ∧ (fld v 0 7 ≠ 0x27) ∧ (s.issues c.val b (none) (s.rvExec c.val b 2 v) = true) ∧ (Fits s (s.rvExec c.val b 2 v))) :=
  ⟨wCore {}, 0, 0x0505, 0, 0x00150513, by decide +kernel, by decide +kernel⟩

theorem witness_SchedulerCommandsComplete_part1 :
    (∃ (s : State) (ini : Ini) (th : Thread),
      (s.mayWrite ini (htsPage 0 + htsCmd) = true) ∧ (((s.fieldWrite ini (htsPage 0 + htsCmd) (BitVec.ofNat 32 (th.val + 2 ^ 12 * 1))).thr th.val).st = .free ∨ ((s.fieldWrite ini (htsPage 0 + htsCmd) (BitVec.ofNat 32 (th.val + 2 ^ 12 * 1))).thr th.val).st = .cancelled) ∧ (fld ((s.fieldWrite ini (htsPage 0 + htsCmd) (BitVec.ofNat 32 (th.val + 2 ^ 12 * 1))).tdw 0) 9 4 ≠ 0) ∧ ((s.fieldWrite ini (htsPage 0 + htsCmd) (BitVec.ofNat 32 (th.val + 2 ^ 12 * 1))).nodeOk ((s.fieldWrite ini (htsPage 0 + htsCmd) (BitVec.ofNat 32 (th.val + 2 ^ 12 * 1))).stagedNode 3).toNat 320 = true) ∧ ((s.fieldWrite ini (htsPage 0 + htsCmd) (BitVec.ofNat 32 (th.val + 2 ^ 12 * 1))).nodeOk ((s.fieldWrite ini (htsPage 0 + htsCmd) (BitVec.ofNat 32 (th.val + 2 ^ 12 * 1))).stagedNode 5).toNat 1280 = true) ∧ (Fits s ((((s.fieldWrite ini (htsPage 0 + htsCmd) (BitVec.ofNat 32 (th.val + 2 ^ 12 * 1))).modThr th.val (fun t => { t with pri := fld ((s.fieldWrite ini (htsPage 0 + htsCmd) (BitVec.ofNat 32 (th.val + 2 ^ 12 * 1))).tdw 0) 3 6, aff := BitVec.ofNat 4 (fld ((s.fieldWrite ini (htsPage 0 + htsCmd) (BitVec.ofNat 32 (th.val + 2 ^ 12 * 1))).tdw 0) 9 4), esat := false, pcause := fld ((s.fieldWrite ini (htsPage 0 + htsCmd) (BitVec.ofNat 32 (th.val + 2 ^ 12 * 1))).tdw 0) 20 4, started := false, cnt := fld ((s.fieldWrite ini (htsPage 0 + htsCmd) (BitVec.ofNat 32 (th.val + 2 ^ 12 * 1))).tdw 1) 0 16, rld := fld ((s.fieldWrite ini (htsPage 0 + htsCmd) (BitVec.ofNat 32 (th.val + 2 ^ 12 * 1))).tdw 1) 16 16, erl := 0, nodel := (s.fieldWrite ini (htsPage 0 + htsCmd) (BitVec.ofNat 32 (th.val + 2 ^ 12 * 1))).stagedNode 3, nodeu := (s.fieldWrite ini (htsPage 0 + htsCmd) (BitVec.ofNat 32 (th.val + 2 ^ 12 * 1))).stagedNode 5, xev := fld ((s.fieldWrite ini (htsPage 0 + htsCmd) (BitVec.ofNat 32 (th.val + 2 ^ 12 * 1))).tdw 7) 0 13, xen := bit ((s.fieldWrite ini (htsPage 0 + htsCmd) (BitVec.ofNat 32 (th.val + 2 ^ 12 * 1))).tdw 7) 13, rel := none })).readyOrWait th.val).answer .ok 0))) ∧
    (∃ (s : State) (ini : Ini) (th : Thread),
      (s.mayWrite ini (htsPage 0 + htsCmd) = true) ∧ (((s.fieldWrite ini (htsPage 0 + htsCmd) (BitVec.ofNat 32 (th.val + 2 ^ 12 * 2))).thr th.val).cancels = true) ∧ (Fits s (((s.fieldWrite ini (htsPage 0 + htsCmd) (BitVec.ofNat 32 (th.val + 2 ^ 12 * 2))).cancelThread th.val none ((s.fieldWrite ini (htsPage 0 + htsCmd) (BitVec.ofNat 32 (th.val + 2 ^ 12 * 2))).cancelRdy th.val)).answer .ok 0))) ∧
    (∃ (s : State) (ini : Ini) (th : Thread),
      (s.mayWrite ini (htsPage 0 + htsCmd) = true) ∧ (((s.fieldWrite ini (htsPage 0 + htsCmd) (BitVec.ofNat 32 (th.val + 2 ^ 12 * 3))).thr th.val).st = .waiting ∨ ((s.fieldWrite ini (htsPage 0 + htsCmd) (BitVec.ofNat 32 (th.val + 2 ^ 12 * 3))).thr th.val).st = .ready ∨ ((s.fieldWrite ini (htsPage 0 + htsCmd) (BitVec.ofNat 32 (th.val + 2 ^ 12 * 3))).thr th.val).st = .running) ∧ (Fits s (((s.fieldWrite ini (htsPage 0 + htsCmd) (BitVec.ofNat 32 (th.val + 2 ^ 12 * 3))).parkBegin th.val 8).answer .ok 0))) ∧
    (∃ (s : State) (ini : Ini) (th : Thread),
      (s.mayWrite ini (htsPage 0 + htsCmd) = true) ∧ (((s.fieldWrite ini (htsPage 0 + htsCmd) (BitVec.ofNat 32 (th.val + 2 ^ 12 * 4))).thr th.val).st = .parked) ∧ (Fits s ((((s.fieldWrite ini (htsPage 0 + htsCmd) (BitVec.ofNat 32 (th.val + 2 ^ 12 * 4))).modThr th.val (fun t => t.consume)).readyOrWait th.val).answer .ok 0))) ∧
    (∃ (s : State) (ini : Ini) (th : Thread),
      (s.mayWrite ini (htsPage 0 + htsCmd) = true) ∧ (((s.fieldWrite ini (htsPage 0 + htsCmd) (BitVec.ofNat 32 (th.val + 2 ^ 12 * 5))).thr th.val).st = .parked ∨ ((s.fieldWrite ini (htsPage 0 + htsCmd) (BitVec.ofNat 32 (th.val + 2 ^ 12 * 5))).thr th.val).st = .cancelled) ∧ (Fits s (((s.fieldWrite ini (htsPage 0 + htsCmd) (BitVec.ofNat 32 (th.val + 2 ^ 12 * 5))).modThr th.val (fun t => { t with st := .free })).answer .ok 0))) ∧
    (∃ (s : State) (ini : Ini) (th : Thread),
      (s.mayWrite ini (htsPage 0 + htsCmd) = true) ∧ (((s.fieldWrite ini (htsPage 0 + htsCmd) (BitVec.ofNat 32 (th.val + 2 ^ 12 * 6))).thr th.val).st ≠ .free) ∧ (((s.fieldWrite ini (htsPage 0 + htsCmd) (BitVec.ofNat 32 (th.val + 2 ^ 12 * 6))).rq ((s.fieldWrite ini (htsPage 0 + htsCmd) (BitVec.ofNat 32 (th.val + 2 ^ 12 * 6))).thr th.val).pri).contains th.val = false) ∧ (Fits s ((((s.fieldWrite ini (htsPage 0 + htsCmd) (BitVec.ofNat 32 (th.val + 2 ^ 12 * 6))).rqDel th.val).modThr th.val (fun t => { t with pri := fld ((s.fieldWrite ini (htsPage 0 + htsCmd) (BitVec.ofNat 32 (th.val + 2 ^ 12 * 6))).tdw 0) 3 6 })).answer .ok 0))) ∧
    (∃ (s : State) (ini : Ini) (th : Thread),
      (s.mayWrite ini (htsPage 0 + htsCmd) = true) ∧ (((s.fieldWrite ini (htsPage 0 + htsCmd) (BitVec.ofNat 32 (th.val + 2 ^ 12 * 7))).thr th.val).st ≠ .free) ∧ (fld ((s.fieldWrite ini (htsPage 0 + htsCmd) (BitVec.ofNat 32 (th.val + 2 ^ 12 * 7))).tdw 0) 9 4 ≠ 0) ∧ (Fits s (((s.fieldWrite ini (htsPage 0 + htsCmd) (BitVec.ofNat 32 (th.val + 2 ^ 12 * 7))).modThr th.val (fun t => { t with aff := BitVec.ofNat 4 (fld ((s.fieldWrite ini (htsPage 0 + htsCmd) (BitVec.ofNat 32 (th.val + 2 ^ 12 * 7))).tdw 0) 9 4) })).answer .ok 0))) ∧
    (∃ (s : State),
      (s.hts.queue.length < 1024) ∧ ((s.hts.ports.filter (fun p => !p.2.isEmpty)) = []) ∧ (Fits s s)) ∧
    (∃ (s : State)  (u : State),
      (u = ((List.range 4).foldl (fun v _ => v.takeOne) s)) ∧ (u.hts.queue.length ≠ 1024) ∧ (Fits s u)) ∧
    (∃ (s : State)  (o : Occ) (l : List Occ),
      (s.skipNone 64 = s) ∧ (s.hts.cur = none) ∧ (s.hts.queue = o :: l) ∧ (fld (tget 0 s.hts.heads o.ev) 14 6 ≠ 0) ∧ (Fits s (let u := ({ s with hts := { s.hts with queue := l } }).htsCount 0
      { u with hts := { u.hts with cur := some ⟨o.ev, fld (tget 0 s.hts.heads o.ev) 0 14, fld (tget 0 s.hts.heads o.ev) 14 6⟩ } }))) ∧
    (∃ (s : State)  (o : Occ) (l : List Occ),
      (s.skipNone 64 = s) ∧ (s.hts.cur = none) ∧ (s.hts.queue = o :: l) ∧ (fld (tget 0 s.hts.heads o.ev) 14 6 = 0) ∧ (o.own = false) ∧ (Fits s (((({ s with hts := { s.hts with queue := l } }).htsCount 0).countUp (htsPage 0 + htsUnrt) 0 16 1 |>.modReg (htsPage 0 + htsUnrt) (fun w => setFld w 16 13 o.ev)).raise (htsPage 0) 1))) ∧
    (∃ (s : State)  (o : CurOcc) (w : Word),
      (s.skipNone 64 = s) ∧ (s.nextTarget = some (o, w)) ∧ (fld w 12 2 = 0) ∧ (Fits s ((({ s with hts := { s.hts with
        cur := if o.left = 1 then none else some { o with idx := o.idx + 1, left := o.left - 1 } } }).htsCount 1).decThread (fld w 0 12) o.ev))) ∧
    (∃ (s : State)  (o : CurOcc) (w : Word),
      (s.skipNone 64 = s) ∧ (s.nextTarget = some (o, w)) ∧ (fld w 12 2 = 1) ∧ (((({ s with hts := { s.hts with
        cur := if o.left = 1 then none else some { o with idx := o.idx + 1, left := o.left - 1 } } }).htsCount 1).thr (fld w 0 12)).cancels = true) ∧ (Fits s ((({ s with hts := { s.hts with
        cur := if o.left = 1 then none else some { o with idx := o.idx + 1, left := o.left - 1 } } }).htsCount 1).cancelThread (fld w 0 12) (some o.ev) false))) :=
  ⟨⟨wArm, levee, 1, by decide +kernel⟩,
   ⟨wThr { st := .parked }, levee, 0, by decide +kernel⟩,
   ⟨wThr { st := .waiting }, levee, 0, by decide +kernel⟩,
   ⟨wThr { st := .parked }, levee, 0, by decide +kernel⟩,
   ⟨wThr { st := .parked }, levee, 0, by decide +kernel⟩,
   ⟨wThr { st := .parked }, levee, 0, by decide +kernel⟩,
   ⟨(wThr { st := .parked }).setReg (htsPage 1 + htsTdw) 0x1E00, levee, 0, by decide +kernel⟩,
   ⟨State.reset, by decide +kernel⟩,
   ⟨wPort, ((List.range 4).foldl (fun v _ => v.takeOne) wPort), by decide +kernel⟩,
   ⟨wOcc, ⟨5, false⟩, [], by decide +kernel⟩,
   ⟨wUnrt, ⟨5, false⟩, [], by decide +kernel⟩,
   ⟨wTgt 0, ⟨5, 7, 1⟩, 0, by decide +kernel⟩,
   ⟨wTgt 0x1000, ⟨5, 7, 1⟩, 0x1000, by decide +kernel⟩⟩

theorem witness_SchedulerCommandsComplete_part2 :
    (∃ (s : State)  (o : CurOcc) (w : Word),
      (s.sigOut < 16) ∧ (s.skipNone 64 = s) ∧ (s.nextTarget = some (o, w)) ∧ (fld w 12 2 = 2) ∧ (fld w 16 5 < 24) ∧ (Fits s ((({ s with hts := { s.hts with
        cur := if o.left = 1 then none else some { o with idx := o.idx + 1, left := o.left - 1 } } }).htsCount 1).launch .signal { Rsv.base 0x32 24 (niAt (regionRouter (fld w 16 5)) 0) with sctx := Fin.ofNat 8 (fld w 21 3) } .hts [] []))) ∧
    (∃ (s : State) (r : Region) (status : Status) (x : Txn),
      (s.ocn.txns.find? (fun x => x.who == .hts && x.stage == .answered && x.rsv.tgt.val == niAt (regionRouter r.val) 0) = some x) ∧ (Fits s (((s.dropTxn x.key).unholdAll x.rsv.ini.val).signalResult r.val (if status = .ok then x.status else status)))) ∧
    (∃ (s : State) (c : Core) (code : Fin 8) (b : Nat),
      (s.runBank c.val = some b) ∧ (1 ≤ code.val) ∧ (code.val ≤ 3) ∧ (Fits s ((s.withdraw c.val).frameFault c.val b code.val))) ∧
    (∃ (s : State) (c : Core) (l : LinkCmd) (u : State),
      (tget none s.hts.link c.val = some l) ∧ (s.halted = false) ∧ (s.runBank c.val = none) ∧ ((s.bank c.val l.bank).st = .held) ∧ (u = { s.withdraw c.val with pmu := { s.pmu with stopped := clrBit s.pmu.stopped c.val } }) ∧ (Fits s ((u.switchBank c.val l.bank).startRunning c.val l.bank l.thr))) ∧
    (∃ (s : State) (c : Core) (status : Status) (j : EngJob) (l : List EngJob) (u : State),
      ((s.core c.val).eng = j :: l) ∧ (j.load = false) ∧ (j.half = false) ∧ ((s.bank c.val j.bank).cont = none) ∧ (s.saveHalf c.val j.bank true false none = (u, none, true)) ∧ (status = .ok) ∧ (Fits s ((((u.coreCount c.val 1).releaseFp c.val j.bank)).modCore c.val (fun x => { x with eng := { j with half := true } :: x.eng.tail })))) ∧
    (∃ (s : State) (c : Core) (status : Status) (j : EngJob) (l : List EngJob) (u : State),
      ((s.core c.val).eng = j :: l) ∧ (j.load = true) ∧ (j.frames = none) ∧ ((s.bank c.val j.bank).st = .loading) ∧ ((s.thr j.thr).started = false) ∧ (s.loadHalf c.val j.bank false ((List.range 30).filter (fun i => !(i == slotKf))) = (u, none)) ∧ (status = .ok) ∧ (Fits s (((((u.modBank c.val j.bank (fun x => x.setSlot slotKf kfStart)).loadHeld c.val j).coreCount c.val 2).nextJob c.val).loadStart c.val j))) ∧
    (∃ (s : State) (c : Core) (status : Status) (j : EngJob) (l : List EngJob) (u : State),
      ((s.core c.val).eng = j :: l) ∧ (j.load = true) ∧ (j.frames = none) ∧ ((s.bank c.val j.bank).st = .loading) ∧ ((s.thr j.thr).started = true) ∧ (s.loadHalf c.val j.bank false (List.range 30) = (u, none)) ∧ (status = .ok) ∧ (Fits s ((u.coreCount c.val 2).modCore c.val (fun x => { x with eng := { j with frames := some (u.bank c.val j.bank).loadFrames } :: x.eng.tail })))) ∧
    (∃ (s : State) (c : Core) (status : Status) (j : EngJob) (l : List EngJob) (f : Nat) (t : List Nat) (u : State),
      ((s.core c.val).eng = j :: l) ∧ (j.load = true) ∧ (j.frames = some (f :: t)) ∧ ((s.bank c.val j.bank).st = .loading) ∧ (s.loadHalf c.val j.bank true (frameSlots f) = (u, none)) ∧ (status = .ok) ∧ (Fits s (((u.loadHeld c.val j).frameLoaded c.val j t).loadStart c.val j))) ∧
    (∃ (s : State) (c : Core) (status : Status) (j : EngJob) (l : List EngJob) (f : Nat) (t : List Nat) (u : State),
      ((s.core c.val).eng = j :: l) ∧ (j.load = true) ∧ (j.frames = some (f :: t)) ∧ ((s.bank c.val j.bank).st ≠ .loading) ∧ (s.loadHalf c.val j.bank true (frameSlots f) = (u, none)) ∧ (status = .ok) ∧ (Fits s (u.frameLoaded c.val j t))) ∧
    (∃ (s : State) (c : Core) (n : Nat),
      (s.halted = false) ∧ (bit (s.reg (ccxPage c.val + ccxCtrl)) 0 = true) ∧ (bit (s.reg (htsPage 0 + htsCtrl)) 0 = true) ∧ (tget none s.hts.link c.val = none) ∧ (s.candidate c.val = some n) ∧ (s.runBank c.val = none) ∧ ((s.thr n).res = true) ∧ ((s.bank c.val (s.thr n).bank).st ≠ .active) ∧ (Fits s ((s.noteDispatch c.val n (s.thr n).bank (s.thr n).loaded).sendSwitch c.val n))) ∧
    (∃ (s : State) (c : Core) (n b : Nat) (u : State),
      (s.halted = false) ∧ (bit (s.reg (ccxPage c.val + ccxCtrl)) 0 = true) ∧ (bit (s.reg (htsPage 0 + htsCtrl)) 0 = true) ∧ (tget none s.hts.link c.val = none) ∧ (s.candidate c.val = some n) ∧ (s.runBank c.val = none) ∧ ((s.thr n).res = false) ∧ (((s.core c.val).eng.any (s.loadPends c.val)) = false) ∧ (s.sendLoad c.val n true = some (b, u)) ∧ (Fits s (u.noteDispatch c.val n b true))) ∧
    (∃ (s : State) (th : Thread) (p : Parking),
      (s.parkingOf th.val = some p) ∧ (p.saved = true) ∧ (Fits s ((s.dropParking th.val).parkFinish th.val p.cause p.core))) ∧
    (∃ (s : State) (ini : Ini) (val : Word),
      (s.mayWrite ini (htsPage 0 + htsParkctl) = true) ∧ (bit (s.actBits ini (htsPage 0 + htsParkctl) val) 0 = true) ∧ (Fits s (({ (s.fieldWrite ini (htsPage 0 + htsParkctl) val) with hts := { (s.fieldWrite ini (htsPage 0 + htsParkctl) val).hts with plog := (s.fieldWrite ini (htsPage 0 + htsParkctl) val).hts.plog.tail } }).answer .ok 0))) :=
  ⟨⟨wTgt 0x2000, ⟨5, 7, 1⟩, 0x2000, by decide +kernel⟩,
   ⟨wSig, 0, .ok, wSigTxn, by decide +kernel⟩,
   ⟨wCore {}, 0, 1, 0, by decide +kernel⟩,
   ⟨wLink, 0, ⟨0, 0⟩, _, by decide +kernel, by decide +kernel, by decide +kernel, by decide +kernel, rfl, by decide +kernel⟩,
   ⟨wEng, 0, .ok, wJob, [], (wEng.saveHalf 0 0 true false none).1, by decide +kernel, by decide +kernel, by decide +kernel, by decide +kernel, pair_eq _ _ (by decide +kernel), by decide +kernel, by decide +kernel⟩,
   ⟨wLd, 0, .ok, { bank := 0, thr := 1, load := true }, [], (wLd.loadHalf 0 0 false ((List.range 30).filter (fun i => !(i == slotKf)))).1, by decide +kernel, by decide +kernel, by decide +kernel, by decide +kernel, by decide +kernel, pair_eq _ _ (by decide +kernel), by decide +kernel, by decide +kernel⟩,
   ⟨wLd2, 0, .ok, { bank := 0, thr := 1, load := true }, [], (wLd2.loadHalf 0 0 false (List.range 30)).1, by decide +kernel, by decide +kernel, by decide +kernel, by decide +kernel, by decide +kernel, pair_eq _ _ (by decide +kernel), by decide +kernel, by decide +kernel⟩,
   ⟨wLd3, 0, .ok, { bank := 0, thr := 1, load := true, frames := some [0] }, [], 0, [], (wLd3.loadHalf 0 0 true (frameSlots 0)).1, by decide +kernel, by decide +kernel, by decide +kernel, by decide +kernel, pair_eq _ _ (by decide +kernel), by decide +kernel, by decide +kernel⟩,
   ⟨wLd4, 0, .ok, { bank := 0, thr := 1, load := true, frames := some [1] }, [], 1, [], (wLd4.loadHalf 0 0 true (frameSlots 1)).1, by decide +kernel, by decide +kernel, by decide +kernel, by decide +kernel, pair_eq _ _ (by decide +kernel), by decide +kernel, by decide +kernel⟩,
   ⟨wDisp { res := true }, 0, 0, by decide +kernel⟩,
   ⟨wDisp { aff := 1 }, 0, 0, 0, _, by decide +kernel, by decide +kernel, by decide +kernel, by decide +kernel, by decide +kernel, by decide +kernel, by decide +kernel, by decide +kernel, rfl, by decide +kernel⟩,
   ⟨{ State.reset with hts := { parking := [⟨0, 8, 0, true⟩] } }, 0, ⟨0, 8, 0, true⟩, by decide +kernel⟩,
   ⟨State.reset, levee, 1, by decide +kernel⟩⟩

theorem witness_SchedulerCommandsComplete_part3 :
    (∃ (s : State) (ini : Ini) (val : Word),
      (s.passesWhole ini (htsPage 2 + htsRhead) = true) ∧ (fld val 0 14 + fld val 14 6 ≤ 16384) ∧ (Fits s (({ s with hts := { s.hts with heads := tset 0 s.hts.heads (fld (s.reg (htsPage 2 + htsRsel)) 0 13) (val &&& 0xFFFFF) } }).answer .ok 0))) :=
  ⟨State.reset, levee, 0x4000, by decide +kernel⟩

theorem wit_jour : (∃ (s : State) (status : Byte) (u v : State) (m l row e : Nat) (bs : List Byte),
      (s.pmu.drain = 3) ∧ (s.pagesDone < s.pmu.jlen) ∧ (s.journalTarget s.pagesDone = (u, some (m, l, row))) ∧ (u.memRead 0x35 (bankAddr (fld (s.reg (pmuPage 2 + pmuDrncfg)) 0 8) + 16384 * s.pagesDone) 16384 = (v, .ok, bs)) ∧ (v.inhibit m = false) ∧ (v.tornFree = some e) ∧ (Fits s ((((v.tornIssue e m { words := [BitVec.ofNat 32 (fld (s.reg (pmuPage 2 + pmuDrnprog)) 0 11 + 2 ^ 11 + 2 ^ 15 * (l / 4) + 2 ^ 18 * (l % 4) + 2 ^ 23), BitVec.ofNat 32 row] }).modTorn e (fun x => { x with mgd := true, live := false, st := status, state := .free })).modReg
        (pmuPage 2 + pmuDrnstat) (fun w => setFld w 3 9 (s.pagesDone + 1))).modPmu (fun p => { p with jok := p.jok + b2n (!bit status 0) })))) :=
 by
  have hp : wJourOk.pagesDone = 0 := by decide +kernel
  have hb : bankAddr (fld (wJourOk.reg (pmuPage 2 + pmuDrncfg)) 0 8) + 16384 * wJourOk.pagesDone = 0x20000000 := by decide +kernel
  obtain ⟨v, l, hv, hm⟩ := wJour_reads
  have hq := hv.1
  refine ⟨wJourOk, 0, (wJourOk.journalTarget 0).1, v, 0, 0, 0, 63, l, by decide +kernel, by decide +kernel, ?_, ?_, ?_, ?_, ?_⟩
  · rw [hp]; exact pair_eq _ _ (by decide +kernel)
  · rw [hb]; exact hm
  · rw [hq]; exact (by decide +kernel : wJourOk.inhibit 0 = false)
  · rw [hq]; exact (by decide +kernel : wJourOk.tornFree = some 63)
  · rw [hq]; exact ⟨rfl, rfl, rfl⟩

theorem witness_PowerCommandsComplete_part1 :
    (∃ (s : State) (ini : Ini) (val : Word),
      (s.mayWrite ini (pmuPage 0 + pmuModereq) = true) ∧ ((s.fieldWrite ini (pmuPage 0 + pmuModereq) val).modeRefusal (Mode.ofCode (fld val 0 4)) = 0) ∧ (fld val 0 4 ≠ 4) ∧ ((s.fieldWrite ini (pmuPage 0 + pmuModereq) val).pmu.mode ≠ .drowse) ∧ (Fits s (((s.fieldWrite ini (pmuPage 0 + pmuModereq) val).modPmu (fun p => { p with trans := Mode.ofCode (fld val 0 4) })).answer .ok 0))) ∧
    (∃ (s : State) (ini : Ini) (val : Word) (k : Nat),
      (s.mayWrite ini (pmuPage 0 + pmuModereq) = true) ∧ ((s.fieldWrite ini (pmuPage 0 + pmuModereq) val).modeRefusal (Mode.ofCode (fld val 0 4)) = k + 1) ∧ (Fits s (((s.fieldWrite ini (pmuPage 0 + pmuModereq) val).modeRefuse (fld val 0 4) (k + 1)).answer .ok 0))) ∧
    (∃ (s : State) (cause : DrowseExit),
      (cause = .request) ∧ (s.pmu.trans = s.pmu.ret) ∧ (s.pmu.mode = .drowse) ∧ (s.pmu.trans = none) ∧ (Fits s (((s.modPmu (fun p => { p with trans := p.ret })).setReg (pmuPage 0 + pmuWakesrc) 3).raise (pmuPage 0) 2))) ∧
    (∃ (s : State) (cause : DrowseExit),
      (cause = .aonWake) ∧ (s.aonUp = true) ∧ (s.pmu.mode = .drowse) ∧ (s.pmu.trans = none) ∧ (Fits s (((s.modPmu (fun p => { p with trans := p.ret })).setReg (pmuPage 0 + pmuWakesrc) 2).raise (pmuPage 0) 2))) ∧
    (∃ (s : State),
      (s.twinCfg = true) ∧ (s.ply.present = false) ∧ (s.pmu.mode = .run) ∧ (s.pmu.trans = none) ∧ (Fits s (s.modPmu (fun p => { p with trans := some .solo })))) ∧
    (∃ (s : State) (k : Fin 6) (sample : BitVec 10),
      (bit (s.cmpCfg k.val) 0 = true) ∧ (s.cmpOut k.val = false) ∧ (k.val ≠ 3) ∧ (bit (s.cmpCfg k.val) 1 = true) ∧ (fld (s.cmpCfg k.val) 2 10 < s.cmpSample k.val sample) ∧ (((((s.noteWake k.val).setCmp k.val true (s.cmpSample k.val sample)).modAon (fun a => { a with mesh := a.mesh || k.val == 3 })).raiseAon (1 + k.val)).portsOk = true)) ∧
    (∃ (s : State) (k : Fin 6) (sample : BitVec 10),
      (bit (s.cmpCfg k.val) 0 = true) ∧ (s.cmpOut k.val = false) ∧ (k.val ≠ 3) ∧ (bit (s.cmpCfg k.val) 1 = false) ∧ (s.cmpSample k.val sample < fld (s.cmpCfg k.val) 2 10) ∧ (((((s.noteWake k.val).setCmp k.val true (s.cmpSample k.val sample)).modAon (fun a => { a with mesh := a.mesh || k.val == 3 })).raiseAon (1 + k.val)).portsOk = true)) ∧
    (∃ (s : State) (k : Fin 6) (sample : BitVec 10),
      (bit (s.cmpCfg k.val) 0 = true) ∧ (s.cmpOut k.val = true) ∧ (k.val ≠ 3) ∧ (bit (s.cmpCfg k.val) 1 = true) ∧ (s.cmpSample k.val sample + fld (s.cmpCfg k.val) 12 4 < fld (s.cmpCfg k.val) 2 10) ∧ (((s.setCmp k.val false (s.cmpSample k.val sample)).modAon (fun a => { a with wake := if s.pmu.mode = .hold ∧ k.val = 0 then setBit a.wake 0 else a.wake })).portsOk = true)) ∧
    (∃ (s : State),
      (bit (s.reg (aonPage + aonCtrl)) 1 = true) ∧ (s.reg64 (aonPage + aonAlarm) ≤ s.aon.time.toNat) ∧ ((((s.noteWake 6).modReg (aonPage + aonCtrl) (fun w => clrBit w 1)).raiseAon 0).portsOk = true)) ∧
    (∃ (s : State),
      (s.sec.dbg = true) ∧ (s.reg64 (page .sec 0 + secDbgexp) ≤ s.aon.time.toNat) ∧ (Fits s (s.endToken.authFall s))) ∧
    (∃ (s : State),
      (s.aon.xtal = true) ∧ (s.aon.tload = false) ∧ ((tokenExpire (alarmFire (s.modAon (fun a => { a with time := (s.aon.time + 1) &&& 0x7FFFFFFFFFFFFFFF, tload := false, xtal := true })))).portsOk = true)) ∧
    (∃ (s : State),
      (((s.modAon (fun a => { a with xtal := false, xfail := true })).raiseAon 7).portsOk = true)) ∧
    (∃ (s : State) (ini : Ini) (val : Word),
      (s.mayWrite ini (aonPage + aonCtrl) = true) ∧ (bit (s.actBits ini (aonPage + aonCtrl) val) 0 = true) ∧ (Fits s (((s.fieldWrite ini (aonPage + aonCtrl) val).modAon (fun a => { a with tload := true, por := a.por && !bit (s.actBits ini (aonPage + aonCtrl) val) 2 })).answer .ok 0))) :=
  ⟨⟨State.reset, levee, 3, by decide +kernel⟩,
   ⟨State.reset, levee, 4, 0, by decide +kernel⟩,
   ⟨wMode .drowse, .request, by decide +kernel⟩,
   ⟨wAonUp, .aonWake, by decide +kernel⟩,
   ⟨wTwin, by decide +kernel⟩,
   ⟨wCmp 3, 0, 5, by decide +kernel⟩,
   ⟨wCmp 0x21, 0, 5, by decide +kernel⟩,
   ⟨(wCmp 0x23).setCmp 0 true 9, 0, 5, by decide +kernel⟩,
   ⟨State.reset.setReg (aonPage + aonCtrl) 2, by decide +kernel⟩,
   ⟨{ State.reset with sec := { State.reset.sec with dbg := true } }, by decide +kernel⟩,
   ⟨wXtal, by decide +kernel⟩,
   ⟨State.reset, by decide +kernel⟩,
   ⟨State.reset, levee, 1, by decide +kernel⟩⟩

theorem witness_PowerCommandsComplete_part2 :
    (∃ (s : State) (p : Fin 8),
      (s.pllRuns p.val = true) ∧ (Fits s (s.modReg (pmuPage 1 + pmuPllstat) (fun w => setBit w p.val)))) ∧
    (∃ (s : State) (p : Fin 8),
      (bit (s.reg (pmuPage 1 + pmuPllstat)) p.val = true) ∧ (Fits s ((s.modReg (pmuPage 1 + pmuPllstat) (fun w => clrBit w p.val)).raise (pmuPage 0) 4))) ∧
    (∃ (s : State) (ini : Ini) (b : Bool) (val : Word),
      (s.passesWhole ini (pmuPage 1 + (if b then pmuFpllb else pmuFplla)) = true) ∧ (64 ≤ fld val 0 8) ∧ (fld val 0 8 ≤ 128) ∧ (s.fpllUsed b = false) ∧ ((fld val 0 8 != fld (s.reg (pmuPage 1 + (if b then pmuFpllb else pmuFplla))) 0 8 || (bit (s.reg (pmuPage 1 + (if b then pmuFpllb else pmuFplla))) 8 && !bit val 8)) = true) ∧ (Fits s (((s.setReg (pmuPage 1 + (if b then pmuFpllb else pmuFplla)) (val &&& 0x1FF)).modReg (pmuPage 1 + pmuPllstat) (fun w => clrBit w (if b then 4 else 3))).answer .ok 0))) ∧
    (∃ (s : State) (mv0 ma0 mv1 ma1 : BitVec 16) (pwr : BitVec 16) (pmbFault : Bool),
      (s.railOut false mv0.toNat 30 = false) ∧ (s.railOut true mv1.toNat 30 = false) ∧ (pmbFault = false) ∧ (Fits s (((s.setReg (pmuPage 1 + pmuAvs) (BitVec.ofNat 32 (mv0.toNat + 2 ^ 16 * ma0.toNat))).setReg
        (pmuPage 1 + pmuAvs + 4) (BitVec.ofNat 32 (mv1.toNat + 2 ^ 16 * ma1.toNat))).setReg (pmuPage 1 + pmuPwr) (pwr.setWidth 32)))) ∧
    (∃ (s : State) (ini : Ini) (val : Word),
      (s.mayWrite ini (pmuPage 1 + pmuPmbcmd) = true) ∧ (bit (s.actBits ini (pmuPage 1 + pmuPmbcmd) val) 31 = true) ∧ (bit ((s.fieldWrite ini (pmuPage 1 + pmuPmbcmd) val).reg (pmuPage 1 + pmuPmbstat)) 0 = false) ∧ (Fits s (((s.fieldWrite ini (pmuPage 1 + pmuPmbcmd) val).setReg (pmuPage 1 + pmuPmbstat) 1).answer .ok 0))) ∧
    (∃ (s : State) (nak pec : Bool) (data : BitVec 16),
      (bit (s.reg (pmuPage 1 + pmuPmbstat)) 0 = true) ∧ (bit (s.reg (pmuPage 1 + pmuPmbcmd)) 8 = true) ∧ (nak = false) ∧ (Fits s ((s.setReg (pmuPage 1 + pmuPmbstat) (BitVec.ofNat 32 (4 * b2n pec))).setReg (pmuPage 1 + pmuPmbdata) (data.setWidth 32)))) ∧
    (∃ (s : State),
      (Fits s (throttleStep s))) ∧
    (∃ (s : State) (src : DrainSrc),
      (src = .cmp0) ∧ (s.cmpOut 0 = true) ∧ (s.pmu.mode = .run) ∧ (Fits s (drainStart src s))) ∧
    (∃ (s : State) (src : DrainSrc),
      (src = .levee) ∧ (s.pmu.drainReq = true) ∧ (s.pmu.mode = .run) ∧ (Fits s (drainStart src s))) ∧
    (∃ (s : State),
      (s.pmu.drain = 1) ∧ ((s.drainEndsLoad.regionsOff (List.range 24)).allOff (List.range 24) = true) ∧ (Fits s (drainRegionsOff s))) ∧
    (∃ (s : State),
      (s.pmu.drain = 1) ∧ ((s.drainEndsLoad.regionsOff (List.range 24)).allOff (List.range 24) = false) ∧ (Fits s (s.drainEndsLoad.regionsOff (List.range 24)))) ∧
    (∃ (s : State) (status : Byte) (u : State),
      (s.pmu.drain = 3) ∧ (s.pagesDone < s.pmu.jlen) ∧ (s.journalTarget s.pagesDone = (u, none)) ∧ (Fits s ((u.modReg (pmuPage 2 + pmuDrnstat) (fun w => setFld w 3 9 (s.pagesDone + 1))).modPmu (fun p => { p with jok := p.jok })))) ∧
    (∃ (s : State) (status : Byte) (u v : State) (m l row e : Nat) (bs : List Byte),
      (s.pmu.drain = 3) ∧ (s.pagesDone < s.pmu.jlen) ∧ (s.journalTarget s.pagesDone = (u, some (m, l, row))) ∧ (u.memRead 0x35 (bankAddr (fld (s.reg (pmuPage 2 + pmuDrncfg)) 0 8) + 16384 * s.pagesDone) 16384 = (v, .ok, bs)) ∧ (v.inhibit m = false) ∧ (v.tornFree = some e) ∧ (Fits s ((((v.tornIssue e m { words := [BitVec.ofNat 32 (fld (s.reg (pmuPage 2 + pmuDrnprog)) 0 11 + 2 ^ 11 + 2 ^ 15 * (l / 4) + 2 ^ 18 * (l % 4) + 2 ^ 23), BitVec.ofNat 32 row] }).modTorn e (fun x => { x with mgd := true, live := false, st := status, state := .free })).modReg
        (pmuPage 2 + pmuDrnstat) (fun w => setFld w 3 9 (s.pagesDone + 1))).modPmu (fun p => { p with jok := p.jok + b2n (!bit status 0) })))) :=
  ⟨⟨State.reset, 0, by decide +kernel⟩,
   ⟨State.reset.setReg (pmuPage 1 + pmuPllstat) 1, 0, by decide +kernel⟩,
   ⟨State.reset, levee, false, 0x141, by decide +kernel⟩,
   ⟨wCmp 0, 950, 0, 800, 0, 0, false, by decide +kernel⟩,
   ⟨State.reset, levee, 0x80000000, by decide +kernel⟩,
   ⟨(State.reset.setReg (pmuPage 1 + pmuPmbstat) 1).setReg (pmuPage 1 + pmuPmbcmd) 0x100, false, false, 7, by decide +kernel⟩,
   ⟨State.reset, by decide +kernel⟩,
   ⟨wDrain0, .cmp0, by decide +kernel⟩,
   ⟨wDrainL, .levee, by decide +kernel⟩,
   ⟨wDrain 1, by decide +kernel⟩,
   ⟨{ wDrain 1 with fab := { (wDrain 1).fab with rgn := [(0, { st := .run })] } }, by decide +kernel⟩,
   ⟨wJour, 0, (wJour.journalTarget 0).1, by decide +kernel, by decide +kernel, rfl, by decide +kernel⟩,
   wit_jour⟩

theorem witness_PowerCommandsComplete_part3 :
    (∃ (s : State) (timeout : Bool) (quarterMs : BitVec 16),
      (s.pmu.drain = 3) ∧ (s.pmu.jlen ≤ s.pagesDone) ∧ (Fits s (((s.setDrain 4).setReg (aonPage + aonDrnlog) (BitVec.ofNat 32 (1 + 2 * b2n (!s.pmu.holdup) + 4 * b2n s.pmu.holdup +
        2 ^ 4 * s.pmu.jok + 2 ^ 16 * quarterMs.toNat))).modPmu (fun p => { p with holdup := false })))) ∧
    (∃ (s : State),
      (s.cmpOut 1 = true) ∧ (1 ≤ s.pmu.drain) ∧ (s.pmu.drain ≤ 3) ∧ (Fits s (((s.setDrain 4).setReg (aonPage + aonDrnlog) 4).modPmu (fun p => { p with holdup := true })))) :=
  ⟨⟨wDrain 3, false, 7, by decide +kernel⟩,
   ⟨(wDrain 2).setCmp 1 true 0, by decide +kernel⟩⟩

theorem witness_ResetCommandsComplete_part1 :
    (∃ (s : State) (us : BitVec 24),
      (s.pmu.mode = .boot) ∧ (s.pmu.trans = some .run) ∧ (Fits s (((s.modPmu (fun p => { p with mode := .run, trans := none })).setReg (pmuPage 0 + pmuTrlat) (us.setWidth 32)).raise (pmuPage 0) 0))) ∧
    (∃ (s : State) (us : BitVec 24),
      (s.pmu.mode = .boot) ∧ (s.pmu.trans = some .hold) ∧ (Fits s s.holdEntry)) ∧
    (∃ (s : State),
      (s.pmu.mode = .off) ∧ ((aonPowerUp s).portsOk = true)) ∧
    (∃ (s : State),
      ((aonPowerLoss s).portsOk = true)) ∧
    (∃ (s : State) (src : WakeSrc),
      (src = .wakePin) ∧ (s.pmu.mode = .hold) ∧ (bit (s.reg (aonPage + aonWake)) 7 = true) ∧ (((s.modAon (fun a => { a with pwren := true, rise0 := false, wake := 0 })).modPmu (fun p => { p with trans := some .boot })).portsOk = true)) ∧
    (∃ (s : State) (src : WakeSrc) (k : Fin 6),
      (src = .cmp k) ∧ (s.pmu.mode = .hold) ∧ (bit (s.reg (aonPage + aonWake)) k.val = true) ∧ (bit s.aon.wake k.val = true) ∧ (((s.modAon (fun a => { a with pwren := true, rise0 := false, wake := 0 })).modPmu (fun p => { p with trans := some .boot })).portsOk = true)) ∧
    (∃ (s : State) (src : WakeSrc),
      (src = .alarm) ∧ (s.pmu.mode = .hold) ∧ (bit (s.reg (aonPage + aonWake)) 6 = true) ∧ (bit s.aon.wake 6 = true) ∧ (((s.modAon (fun a => { a with pwren := true, rise0 := false, wake := 0 })).modPmu (fun p => { p with trans := some .boot })).portsOk = true)) ∧
    (∃ (s : State),
      (s.pmu.mode = .hold) ∧ (s.aon.pwren = true) ∧ ((s.modPmu (fun p => { p with cold := some 2 })).portsOk = true)) ∧
    (∃ (s : State),
      (s.pmu.drain = 4) ∧ (bit (s.reg (aonPage + aonDrnlog)) 0 = true) ∧ (Fits s s.holdEntry)) ∧
    (∃ (s : State) (straps : BitVec 16) (fuses : FuseRead) (cause : Nat),
      (s.pmu.cold = some cause) ∧ ((s.coldReset cause straps.toNat fuses.bad).portsOk = true)) ∧
    (∃ (s : State),
      (s.pmu.mode ≠ .drain) ∧ (Fits s { s with pmu := { s.pmu with cold := some (s.pmu.cold.getD 3), warm := none, deferred := false }, mgd := { s.mgd with defer := false } })) ∧
    (∃ (s : State) (ini : Ini) (val : Word),
      (s.mayWrite ini (pmuPage 0 + pmuRstreq) = true) ∧ (bit (s.actBits ini (pmuPage 0 + pmuRstreq) val) 0 = true) ∧ (bit (s.actBits ini (pmuPage 0 + pmuRstreq) val) 1 = false) ∧ (ini = levee) ∧ (Fits s (((s.fieldWrite ini (pmuPage 0 + pmuRstreq) val).requestCold 4).answer .ok 0))) ∧
    (∃ (s : State) (ini : Ini) (val : Word),
      (s.mayWrite ini (pmuPage 0 + pmuRstreq) = true) ∧ (bit (s.actBits ini (pmuPage 0 + pmuRstreq) val) 0 = false) ∧ (bit (s.actBits ini (pmuPage 0 + pmuRstreq) val) 1 = true) ∧ (Fits s (((s.fieldWrite ini (pmuPage 0 + pmuRstreq) val).requestWarm (if ini = levee then 5 else 6)).answer .ok 0))) :=
  ⟨⟨wTrans .boot .run, 9, by decide +kernel⟩,
   ⟨wTrans .boot .hold, 9, by decide +kernel⟩,
   ⟨wMode .off, by decide +kernel⟩,
   ⟨State.reset, by decide +kernel⟩,
   ⟨wHold 0x80 0, .wakePin, by decide +kernel⟩,
   ⟨wHold 0x4 4, .cmp 2, 2, by decide +kernel⟩,
   ⟨wHold 0x40 0x40, .alarm, by decide +kernel⟩,
   ⟨{ wMode .hold with aon := { State.reset.aon with pwren := true } }, by decide +kernel⟩,
   ⟨(wDrain 4).setReg (aonPage + aonDrnlog) 1, by decide +kernel⟩,
   ⟨{ State.reset with pmu := { State.reset.pmu with cold := some 2 } }, 0, ⟨false⟩, 2, by decide +kernel⟩,
   ⟨State.reset, by decide +kernel⟩,
   ⟨State.reset, levee, 1, by decide +kernel⟩,
   ⟨State.reset, levee, 2, by decide +kernel⟩⟩

theorem witness_ResetCommandsComplete_part2 :
    (∃ (s : State),
      (s.pmu.warm.isSome = true) ∧ (s.pmu.deferred = false) ∧ (Fits s ((s.deferBegin).modPmu (fun p => { p with deferred := true })))) ∧
    (∃ (s : State)  (cause : Nat),
      (s.pmu.warm = some cause) ∧ (s.pmu.deferred = true) ∧ (s.mgd.defer = false) ∧ (s.dma.all (fun d => !d.2.outstanding) = true) ∧ (Fits s (s.warmReset cause))) ∧
    (∃ (s : State) (ini : Ini) (val : Word),
      (s.mayWrite ini (pmuPage 0 + pmuFrgrst) = true) ∧ ((s.actBits ini (pmuPage 0 + pmuFrgrst) val).toNat % 2 ^ 24 ≠ 0) ∧ ((s.fieldWrite ini (pmuPage 0 + pmuFrgrst) val).resetting = false) ∧ ((s.fieldWrite ini (pmuPage 0 + pmuFrgrst) val).pmu.mode = .run) ∧ (Fits s ((((List.range 24).filter (fun i => bit (s.actBits ini (pmuPage 0 + pmuFrgrst) val) i)).foldl State.regionReset (s.fieldWrite ini (pmuPage 0 + pmuFrgrst) val)).answer .ok 0))) ∧
    (∃ (s : State) (ini : Ini) (val : Word),
      (s.mayWrite ini (pmuPage 0 + pmuCorerst) = true) ∧ ((s.actBits ini (pmuPage 0 + pmuCorerst) val).toNat % 2 ^ 4 ≠ 0) ∧ ((s.fieldWrite ini (pmuPage 0 + pmuCorerst) val).resetting = false) ∧ ((s.fieldWrite ini (pmuPage 0 + pmuCorerst) val).pmu.mode = .run) ∧ (Fits s ((((List.range 4).filter (fun i => bit (s.actBits ini (pmuPage 0 + pmuCorerst) val) i)).foldl State.coreReset (s.fieldWrite ini (pmuPage 0 + pmuCorerst) val)).answer .ok 0))) ∧
    (∃ (s : State) (outcome : BootOutcome),
      (s.runBank 0 = some 0) ∧ (s.pmu.mode = .boot) ∧ (s.pmu.fwIn = false) ∧ (s.pmu.recov = false) ∧ (s.rsvr.wipe = false) ∧ (s.lcState = 0) ∧ (Fits s s.toRecovery)) ∧
    (∃ (s : State) (outcome : BootOutcome),
      (s.runBank 0 = some 0) ∧ (s.pmu.mode = .boot) ∧ (s.pmu.fwIn = false) ∧ (s.pmu.recov = false) ∧ (s.rsvr.wipe = false) ∧ (s.lcState = 5) ∧ (Fits s (s.bootstat 0 8 0x87))) ∧
    (∃ (s : State) (outcome : BootOutcome) (l : List Byte) (cb : Byte) (u : State),
      (s.runBank 0 = some 0) ∧ (s.pmu.mode = .boot) ∧ (s.pmu.fwIn = false) ∧ (s.pmu.recov = false) ∧ (s.rsvr.wipe = false) ∧ (s.lcState ≠ 0) ∧ (s.lcState ≠ 5) ∧ (fld (s.reg (pmuPage 0 + pmuStrap)) 10 3 < 4) ∧ (bit (s.reg (pmuPage 0 + pmuStrap)) 2 = true) ∧ (outcome = ⟨.image l, .fail cb⟩) ∧ (cb.toNat ≠ 0) ∧ (u = s.bootStart.bootChannel (fld (s.reg (pmuPage 0 + pmuStrap)) 3 5) (.image l)) ∧ (Fits s (if u.imageCode l false = 0 then (u.bootPages (.image l)).enterFirmware l (7 + 2 ^ 5 + 2 ^ 6 * b2n (fld (s.reg (pmuPage 0 + pmuStrap)) 8 2 != 3))
      else (((((u.bootPages (.image l)).bootstat 8 8 (u.imageCode l false)).bootChannel (((fld (s.reg (pmuPage 0 + pmuStrap)) 3 5) + 1) % 32) (.fail cb)).bootPages (.fail cb)).bootstat 16 8 cb.toNat).toRecovery))) ∧
    (∃ (s : State) (outcome : BootOutcome) (l : List Byte) (ca : Byte) (u : State),
      (s.runBank 0 = some 0) ∧ (s.pmu.mode = .boot) ∧ (s.pmu.fwIn = false) ∧ (s.pmu.recov = false) ∧ (s.rsvr.wipe = false) ∧ (s.lcState ≠ 0) ∧ (s.lcState ≠ 5) ∧ (fld (s.reg (pmuPage 0 + pmuStrap)) 10 3 < 4) ∧ (bit (s.reg (pmuPage 0 + pmuStrap)) 2 = true) ∧ (outcome = ⟨.fail ca, .image l⟩) ∧ (ca.toNat ≠ 0) ∧ (u = ((((s.bootStart.bootChannel (fld (s.reg (pmuPage 0 + pmuStrap)) 3 5) (.fail ca)).bootPages (.fail ca)).bootstat 8 8 ca.toNat).bootChannel (((fld (s.reg (pmuPage 0 + pmuStrap)) 3 5) + 1) % 32) (.image l)).bootPages (.image l)) ∧ (Fits s (if u.imageCode l false = 0 then (u.enterFirmware l (7 + 2 ^ 5 + 2 ^ 6 * b2n (fld (s.reg (pmuPage 0 + pmuStrap)) 8 2 != 3))).bootstat 24 1 1
      else (u.bootstat 16 8 (u.imageCode l false)).toRecovery))) ∧
    (∃ (s : State) (outcome : BootOutcome) (ca cb : Byte) (u : State),
      (s.runBank 0 = some 0) ∧ (s.pmu.mode = .boot) ∧ (s.pmu.fwIn = false) ∧ (s.pmu.recov = false) ∧ (s.rsvr.wipe = false) ∧ (s.lcState ≠ 0) ∧ (s.lcState ≠ 5) ∧ (fld (s.reg (pmuPage 0 + pmuStrap)) 10 3 < 4) ∧ (bit (s.reg (pmuPage 0 + pmuStrap)) 2 = true) ∧ (outcome = ⟨.fail ca, .fail cb⟩) ∧ (ca.toNat ≠ 0) ∧ (cb.toNat ≠ 0) ∧ (u = (((s.bootStart.bootChannel (fld (s.reg (pmuPage 0 + pmuStrap)) 3 5) (.fail ca)).bootPages (.fail ca)).bootstat 8 8 ca.toNat).bootChannel (((fld (s.reg (pmuPage 0 + pmuStrap)) 3 5) + 1) % 32) (.fail cb)) ∧ (Fits s (((u.bootPages (.fail cb)).bootstat 16 8 cb.toNat).toRecovery))) ∧
    (∃ (s : State),
      (s.pmu.recov = true) ∧ (s.pmu.mode = .boot) ∧ ((s.runBank 0).isSome = true) ∧ (bit (s.reg (sysPage + hEvtRaw)) 0 = true) ∧ ((s.reg (sysPage + sysMbox)).toNat = 1) ∧ (Fits s ((s.modPmu (fun p => { p with area := (List.range 64).foldl (fun t i => tset 0 t ((s.reg (sysPage + sysMbox + 4)).toNat + i) (BitVec.ofNat 8 (fld (s.reg (sysPage + sysMbox + 4 * (16 + i / 4))) (8 * (i % 4)) 8))) p.area })).setReg
        (sysPage + sysMbox) 0))) ∧
    (∃ (s : State),
      (s.pmu.recov = true) ∧ (s.pmu.mode = .boot) ∧ ((s.runBank 0).isSome = true) ∧ (bit (s.reg (sysPage + hEvtRaw)) 0 = true) ∧ ((s.reg (sysPage + sysMbox)).toNat = 2) ∧ (s.lcState = 0) ∧ (Fits s ((if s.imageCode s.areaImage false = 0 then (s.enterFirmware s.areaImage 7).bootstat 24 1 1 else s.toRecovery).setReg (sysPage + sysMbox) 0))) :=
  ⟨⟨wWarm false, by decide +kernel⟩,
   ⟨wWarm true, 5, by decide +kernel⟩,
   ⟨wMode .run, levee, 1, by decide +kernel⟩,
   ⟨wMode .run, levee, 1, by decide +kernel⟩,
   ⟨wBoot 0, ⟨.fail 1, .fail 1⟩, by decide +kernel⟩,
   ⟨wBoot 5, ⟨.fail 1, .fail 1⟩, by decide +kernel⟩,
   ⟨wBootStrap, ⟨.image [], .fail 0x81⟩, [], 0x81, _, by decide +kernel, by decide +kernel, by decide +kernel, by decide +kernel, by decide +kernel, by decide +kernel, by decide +kernel, by decide +kernel, by decide +kernel, rfl, by decide +kernel, rfl, by decide +kernel⟩,
   ⟨wBootStrap, ⟨.fail 1, .image []⟩, [], 1, _, by decide +kernel, by decide +kernel, by decide +kernel, by decide +kernel, by decide +kernel, by decide +kernel, by decide +kernel, by decide +kernel, by decide +kernel, rfl, by decide +kernel, rfl, by decide +kernel⟩,
   ⟨wBootStrap, ⟨.fail 1, .fail 1⟩, 1, 1, _, by decide +kernel, by decide +kernel, by decide +kernel, by decide +kernel, by decide +kernel, by decide +kernel, by decide +kernel, by decide +kernel, by decide +kernel, rfl, by decide +kernel, by decide +kernel, rfl, by decide +kernel⟩,
   ⟨wMbox 1, by decide +kernel⟩,
   ⟨wMbox 2, by decide +kernel⟩⟩

theorem wit_trip : (∃ (s : State),
      (bit (s.reg (lvePg + lveTrip)) 8 = true) ∧ ((fld (s.reg (lvePg + lveTrip)) 0 8 : Int) ≤ s.dieTemp) ∧ (Fits s (((s.lowerCause.lastFault 5 0).raise lvePg 2).requestDrain))) :=
  ⟨State.reset.setReg (lvePg + lveTrip) 0x100, by decide +kernel, by decide +kernel, by decide +kernel⟩

theorem witness_LeveeCommandsComplete_part1 :
    (∃ (s : State),
      (Fits s ((s.modLve (fun x => { x with lockstep := true })).lastFault 1 0))) ∧
    (∃ (s : State),
      (s.lve.lockstep = true) ∧ (s.pmu.mode ≠ .drain) ∧ (Fits s { s with pmu := { s.pmu with cold := some (s.pmu.cold.getD 4), warm := none, deferred := false }, mgd := { s.mgd with defer := false } })) ∧
    (∃ (s : State),
      (Fits s ((s.modLve (fun x => { x with lockstep := true })).lastFault 2 0))) ∧
    (∃ (s : State) (ini : Ini) (val : Word),
      (s.mayWrite ini (lvePg + lveSelfkick) = true) ∧ (Fits s ((s.fieldWrite ini (lvePg + lveSelfkick) val).answer .ok 0))) ∧
    (∃ (s : State) (c : Core),
      (s.wdRuns c.val = true) ∧ (bit s.lve.wd1 c.val = false) ∧ (Fits s (((s.modLve (fun x => { x with wd1 := setBit x.wd1 c.val })).modReg (lvePg + lveWdstat) (fun w => setBit w c.val)).raise lvePg 0))) ∧
    (∃ (s : State) (c : Core),
      (s.wdRuns c.val = true) ∧ (bit s.lve.wd1 c.val = true) ∧ (bit (s.reg (lvePg + lveWdcfg)) 5 = false) ∧ (s.resetting = false) ∧ (s.pmu.mode ≠ .drain) ∧ (Fits s (((s.lastFault 3 c.val).wdRestart c.val).coreReset c.val))) ∧
    (∃ (s : State),
      (bit (s.reg (lvePg + lveWdcfg)) 4 = true) ∧ (s.htsStuck = true) ∧ (Fits s (((s.lastFault 4 0).raise lvePg 1).requestWarm 7))) ∧
    (∃ (s : State),
      (bit (s.reg (lvePg + lveTrip)) 8 = true) ∧ ((fld (s.reg (lvePg + lveTrip)) 0 8 : Int) ≤ s.dieTemp) ∧ (Fits s (((s.lowerCause.lastFault 5 0).raise lvePg 2).requestDrain))) ∧
    (∃ (s : State) (mv : BitVec 16) (rail : Bool),
      (bit (s.reg (lvePg + lveVmon)) 0 = true) ∧ (s.railOut rail mv.toNat (fld (s.reg (lvePg + lveVmon)) 8 8) = true) ∧ (Fits s (((s.lastFault 6 0).raise lvePg 3).requestDrain))) ∧
    (∃ (s : State),
      (Fits s ((s.modLve (fun x => { x with lockstep := true })).lastFault 7 0))) ∧
    (∃ (s : State) (ini : Ini) (val : Word),
      (s.mayWrite ini (lvePg + lveCtrl) = true) ∧ (bit (s.actBits ini (lvePg + lveCtrl) val) 0 = true) ∧ (Fits s ((s.fieldWrite ini (lvePg + lveCtrl) val).requestDrain.answer .ok 0))) ∧
    (∃ (s : State) (ini : Ini) (val : Word),
      (s.mayWrite ini (lvePg + lveAlogctl) = true) ∧ (bit (s.actBits ini (lvePg + lveAlogctl) val) 0 = true) ∧ (Fits s (((s.fieldWrite ini (lvePg + lveAlogctl) val).modLve (fun x => { x with alog := x.alog.tail })).answer .ok 0))) ∧
    (∃ (s : State) (ini : Ini) (fresh : BitVec 256),
      (s.mayWrite ini (secPage + Machine.secCmd) = true) ∧ (bit (s.actBits ini (secPage + Machine.secCmd) (BitVec.ofNat 32 (1 + 2 ^ 31))) 31 = true) ∧ (fld (s.actBits ini (secPage + Machine.secCmd) (BitVec.ofNat 32 (1 + 2 ^ 31))) 0 4 = 1) ∧ (Fits s (((s.fieldWrite ini (secPage + Machine.secCmd) (BitVec.ofNat 32 (1 + 2 ^ 31))).secNonceLoad fresh).answer .ok 0))) :=
  ⟨⟨State.reset, by decide +kernel⟩,
   ⟨{ State.reset with lve := { State.reset.lve with lockstep := true } }, by decide +kernel⟩,
   ⟨State.reset, by decide +kernel⟩,
   ⟨State.reset, levee, 1, by decide +kernel⟩,
   ⟨wWd 0, 0, by decide +kernel⟩,
   ⟨wWd 1, 0, by decide +kernel⟩,
   ⟨wPort.setReg (lvePg + lveWdcfg) 0x10, by decide +kernel⟩,
   wit_trip,
   ⟨(wCmp 0).setReg (lvePg + lveVmon) 0x1E01, 5, false, by decide +kernel⟩,
   ⟨State.reset, by decide +kernel⟩,
   ⟨State.reset, levee, 1, by decide +kernel⟩,
   ⟨State.reset, levee, 1, by decide +kernel⟩,
   ⟨State.reset, levee, 5, by decide +kernel⟩⟩

theorem witness_LeveeCommandsComplete_part2 :
    (∃ (s : State) (ini : Ini),
      (s.mayWrite ini (secPage + Machine.secCmd) = true) ∧ (bit (s.actBits ini (secPage + Machine.secCmd) (BitVec.ofNat 32 (2 + 2 ^ 31))) 31 = true) ∧ (fld (s.actBits ini (secPage + Machine.secCmd) (BitVec.ofNat 32 (2 + 2 ^ 31))) 0 4 = 2) ∧ (Fits s (((s.fieldWrite ini (secPage + Machine.secCmd) (BitVec.ofNat 32 (2 + 2 ^ 31))).secEnroll).answer .ok 0))) ∧
    (∃ (s : State) (ini : Ini),
      (s.mayWrite ini (secPage + Machine.secCmd) = true) ∧ (bit (s.actBits ini (secPage + Machine.secCmd) (BitVec.ofNat 32 (3 + 2 ^ 31))) 31 = true) ∧ (fld (s.actBits ini (secPage + Machine.secCmd) (BitVec.ofNat 32 (3 + 2 ^ 31))) 0 4 = 3) ∧ (Fits s (((s.fieldWrite ini (secPage + Machine.secCmd) (BitVec.ofNat 32 (3 + 2 ^ 31))).secRevoke).answer .ok 0))) ∧
    (∃ (s : State) (ini : Ini),
      (s.mayWrite ini (secPage + Machine.secCmd) = true) ∧ (bit (s.actBits ini (secPage + Machine.secCmd) (BitVec.ofNat 32 (4 + 2 ^ 31))) 31 = true) ∧ (fld (s.actBits ini (secPage + Machine.secCmd) (BitVec.ofNat 32 (4 + 2 ^ 31))) 0 4 = 4) ∧ (Fits s (((s.fieldWrite ini (secPage + Machine.secCmd) (BitVec.ofNat 32 (4 + 2 ^ 31))).secLcreq).answer .ok 0))) ∧
    (∃ (s : State) (ini : Ini),
      (s.mayWrite ini (secPage + Machine.secCmd) = true) ∧ (bit (s.actBits ini (secPage + Machine.secCmd) (BitVec.ofNat 32 (5 + 2 ^ 31))) 31 = true) ∧ (fld (s.actBits ini (secPage + Machine.secCmd) (BitVec.ofNat 32 (5 + 2 ^ 31))) 0 4 = 5) ∧ (Fits s (((s.fieldWrite ini (secPage + Machine.secCmd) (BitVec.ofNat 32 (5 + 2 ^ 31))).secToken).answer .ok 0))) ∧
    (∃ (s : State) (ini : Ini),
      (s.mayWrite ini (secPage + Machine.secCmd) = true) ∧ (bit (s.actBits ini (secPage + Machine.secCmd) (BitVec.ofNat 32 (6 + 2 ^ 31))) 31 = true) ∧ (fld (s.actBits ini (secPage + Machine.secCmd) (BitVec.ofNat 32 (6 + 2 ^ 31))) 0 4 = 6) ∧ (Fits s (((s.fieldWrite ini (secPage + Machine.secCmd) (BitVec.ofNat 32 (6 + 2 ^ 31))).secUnwrap).answer .ok 0))) ∧
    (∃ (s : State) (ini : Ini),
      (s.mayWrite ini (secPage + Machine.secCmd) = true) ∧ (bit (s.actBits ini (secPage + Machine.secCmd) (BitVec.ofNat 32 (7 + 2 ^ 31))) 31 = true) ∧ (fld (s.actBits ini (secPage + Machine.secCmd) (BitVec.ofNat 32 (7 + 2 ^ 31))) 0 4 = 7) ∧ (Fits s (((s.fieldWrite ini (secPage + Machine.secCmd) (BitVec.ofNat 32 (7 + 2 ^ 31))).secKeyErase).answer .ok 0))) ∧
    (∃ (s : State) (ini : Ini),
      (s.mayWrite ini (secPage + Machine.secCmd) = true) ∧ (bit (s.actBits ini (secPage + Machine.secCmd) (BitVec.ofNat 32 (8 + 2 ^ 31))) 31 = true) ∧ (fld (s.actBits ini (secPage + Machine.secCmd) (BitVec.ofNat 32 (8 + 2 ^ 31))) 0 4 = 8) ∧ (Fits s (((s.fieldWrite ini (secPage + Machine.secCmd) (BitVec.ofNat 32 (8 + 2 ^ 31))).secFwAdvance).answer .ok 0))) ∧
    (∃ (s : State) (ini : Ini),
      (s.mayWrite ini (secPage + Machine.secCmd) = true) ∧ (bit (s.actBits ini (secPage + Machine.secCmd) (BitVec.ofNat 32 (9 + 2 ^ 31))) 31 = true) ∧ (fld (s.actBits ini (secPage + Machine.secCmd) (BitVec.ofNat 32 (9 + 2 ^ 31))) 0 4 = 9) ∧ (Fits s (((s.fieldWrite ini (secPage + Machine.secCmd) (BitVec.ofNat 32 (9 + 2 ^ 31))).secSkAdvance).answer .ok 0))) ∧
    (∃ (s : State) (ini : Ini),
      (s.mayWrite ini (secPage + Machine.secCmd) = true) ∧ (bit (s.actBits ini (secPage + Machine.secCmd) (BitVec.ofNat 32 (10 + 2 ^ 31))) 31 = true) ∧ (fld (s.actBits ini (secPage + Machine.secCmd) (BitVec.ofNat 32 (10 + 2 ^ 31))) 0 4 = 10) ∧ (Fits s (((s.fieldWrite ini (secPage + Machine.secCmd) (BitVec.ofNat 32 (10 + 2 ^ 31))).secLvload).answer .ok 0))) ∧
    (∃ (s : State) (ini : Ini),
      (s.mayWrite ini (secPage + Machine.secCmd) = true) ∧ (bit (s.actBits ini (secPage + Machine.secCmd) (BitVec.ofNat 32 (11 + 2 ^ 31))) 31 = true) ∧ (fld (s.actBits ini (secPage + Machine.secCmd) (BitVec.ofNat 32 (11 + 2 ^ 31))) 0 4 = 11) ∧ (Fits s (((s.fieldWrite ini (secPage + Machine.secCmd) (BitVec.ofNat 32 (11 + 2 ^ 31))).secCert).answer .ok 0))) ∧
    (∃ (s : State),
      (s.aon.mesh = true) ∧ (s.powered = false) ∧ ((((s.modAon (fun a => { a with mesh := false })).modReg (secPage + secTamper) (fun w => setBit w 0)).countUp (secPage + secTamper) 8 8 1).portsOk = true)) ∧
    (∃ (s : State),
      (s.aon.mesh = true) ∧ (s.powered = true) ∧ ((tamperEvent s).portsOk = true)) ∧
    (∃ (s : State) (ini : Ini) (val : Word),
      (s.passesWhole ini (secPage + secTamper) = true) ∧ (bit val 0 = true) ∧ (s.cmpOut 3 = false) ∧ (Fits s ((s.modReg (secPage + secTamper) (fun w => clrBit w 0)).answer .ok 0))) :=
  ⟨⟨State.reset, levee, by decide +kernel⟩,
   ⟨State.reset, levee, by decide +kernel⟩,
   ⟨State.reset, levee, by decide +kernel⟩,
   ⟨State.reset, levee, by decide +kernel⟩,
   ⟨State.reset, levee, by decide +kernel⟩,
   ⟨State.reset, levee, by decide +kernel⟩,
   ⟨State.reset, levee, by decide +kernel⟩,
   ⟨State.reset, levee, by decide +kernel⟩,
   ⟨State.reset, levee, by decide +kernel⟩,
   ⟨State.reset, levee, by decide +kernel⟩,
   ⟨{ wMode .hold with aon := { State.reset.aon with mesh := true } }, by decide +kernel⟩,
   ⟨{ wMode .run with aon := { State.reset.aon with mesh := true } }, by decide +kernel⟩,
   ⟨State.reset, levee, 1, by decide +kernel⟩⟩

theorem witness_SpdmRequestsComplete_part1 :
    (∃ (s : State) (msg : List Byte),
      (4 ≤ msg.length) ∧ (msg.length ≤ 4096) ∧ ((msg.getD 1 0).toNat = 132) ∧ (Fits s ((((s.freeNat (2 ^ 32)).2).spdmAnswer 132 4 msg).modSec (fun y => { y with spdm := (fun x : Spdm => { x with phase := 1, session := 0 }) y.spdm })))) ∧
    (∃ (s : State) (msg : List Byte),
      (4 ≤ msg.length) ∧ (msg.length ≤ 4096) ∧ ((msg.getD 1 0).toNat = 225) ∧ (s.sec.spdm.phase = 1) ∧ (Fits s ((((s.freeNat (2 ^ 32)).2).spdmAnswer 225 97 msg).modSec (fun y => { y with spdm := (fun x : Spdm => { x with phase := 2 }) y.spdm })))) ∧
    (∃ (s : State) (msg : List Byte),
      (4 ≤ msg.length) ∧ (msg.length ≤ 4096) ∧ ((msg.getD 1 0).toNat = 225) ∧ (s.sec.spdm.phase ≠ 1) ∧ (Fits s (s.spdmError 4))) ∧
    (∃ (s : State) (msg : List Byte),
      (4 ≤ msg.length) ∧ (msg.length ≤ 4096) ∧ ((msg.getD 1 0).toNat = 227) ∧ (s.sec.spdm.phase = 2) ∧ (Fits s ((((s.freeNat (2 ^ 32)).2).spdmAnswer 227 99 msg).modSec (fun y => { y with spdm := (fun x : Spdm => { x with phase := 3 }) y.spdm })))) ∧
    (∃ (s : State) (msg : List Byte),
      (4 ≤ msg.length) ∧ (msg.length ≤ 4096) ∧ ((msg.getD 1 0).toNat = 227) ∧ (s.sec.spdm.phase ≠ 2) ∧ (Fits s (s.spdmError 4))) ∧
    (∃ (s : State) (msg : List Byte),
      (4 ≤ msg.length) ∧ (msg.length ≤ 4096) ∧ ((msg.getD 1 0).toNat = 129) ∧ (s.sec.spdm.phase = 3) ∧ (Fits s ((((s.freeNat (2 ^ 32)).2).spdmAnswer 129 1 msg).modSec (fun y => { y with spdm := (fun x : Spdm => x) y.spdm })))) ∧
    (∃ (s : State) (msg : List Byte),
      (4 ≤ msg.length) ∧ (msg.length ≤ 4096) ∧ ((msg.getD 1 0).toNat = 129) ∧ (s.sec.spdm.phase ≠ 3) ∧ (Fits s (s.spdmError 4))) ∧
    (∃ (s : State) (msg : List Byte),
      (4 ≤ msg.length) ∧ (msg.length ≤ 4096) ∧ ((msg.getD 1 0).toNat = 130) ∧ (s.sec.spdm.phase = 3) ∧ (Fits s ((((s.freeNat (2 ^ 32)).2).spdmAnswer 130 2 msg).modSec (fun y => { y with spdm := (fun x : Spdm => x) y.spdm })))) ∧
    (∃ (s : State) (msg : List Byte),
      (4 ≤ msg.length) ∧ (msg.length ≤ 4096) ∧ ((msg.getD 1 0).toNat = 130) ∧ (s.sec.spdm.phase ≠ 3) ∧ (Fits s (s.spdmError 4))) ∧
    (∃ (s : State) (msg : List Byte),
      (4 ≤ msg.length) ∧ (msg.length ≤ 4096) ∧ ((msg.getD 1 0).toNat = 131) ∧ (s.sec.spdm.phase = 3) ∧ (Fits s ((((s.freeNat (2 ^ 32)).2).spdmAnswer 131 3 msg).modSec (fun y => { y with spdm := (fun x : Spdm => x) y.spdm })))) ∧
    (∃ (s : State) (msg : List Byte),
      (4 ≤ msg.length) ∧ (msg.length ≤ 4096) ∧ ((msg.getD 1 0).toNat = 131) ∧ (s.sec.spdm.phase ≠ 3) ∧ (Fits s (s.spdmError 4))) ∧
    (∃ (s : State) (msg : List Byte),
      (4 ≤ msg.length) ∧ (msg.length ≤ 4096) ∧ ((msg.getD 1 0).toNat = 224) ∧ (s.sec.spdm.phase = 3) ∧ (Fits s ((((s.freeNat (2 ^ 32)).2).spdmAnswer 224 96 msg).modSec (fun y => { y with spdm := (fun x : Spdm => x) y.spdm })))) ∧
    (∃ (s : State) (msg : List Byte),
      (4 ≤ msg.length) ∧ (msg.length ≤ 4096) ∧ ((msg.getD 1 0).toNat = 224) ∧ (s.sec.spdm.phase ≠ 3) ∧ (Fits s (s.spdmError 4))) :=
  ⟨⟨{ State.reset with sec := { State.reset.sec with spdm := { phase := 0 } } }, [0x10, 132, 0, 0], by decide +kernel⟩,
   ⟨{ State.reset with sec := { State.reset.sec with spdm := { phase := 1 } } }, [0x10, 225, 0, 0], by decide +kernel⟩,
   ⟨{ State.reset with sec := { State.reset.sec with spdm := { phase := 0, session := 0 } } }, [0x10, 225, 0, 0], by decide +kernel⟩,
   ⟨{ State.reset with sec := { State.reset.sec with spdm := { phase := 2 } } }, [0x10, 227, 0, 0], by decide +kernel⟩,
   ⟨{ State.reset with sec := { State.reset.sec with spdm := { phase := 0, session := 0 } } }, [0x10, 227, 0, 0], by decide +kernel⟩,
   ⟨{ State.reset with sec := { State.reset.sec with spdm := { phase := 3 } } }, [0x10, 129, 0, 0], by decide +kernel⟩,
   ⟨{ State.reset with sec := { State.reset.sec with spdm := { phase := 0, session := 0 } } }, [0x10, 129, 0, 0], by decide +kernel⟩,
   ⟨{ State.reset with sec := { State.reset.sec with spdm := { phase := 3 } } }, [0x10, 130, 0, 0], by decide +kernel⟩,
   ⟨{ State.reset with sec := { State.reset.sec with spdm := { phase := 0, session := 0 } } }, [0x10, 130, 0, 0], by decide +kernel⟩,
   ⟨{ State.reset with sec := { State.reset.sec with spdm := { phase := 3 } } }, [0x10, 131, 0, 0], by decide +kernel⟩,
   ⟨{ State.reset with sec := { State.reset.sec with spdm := { phase := 0, session := 0 } } }, [0x10, 131, 0, 0], by decide +kernel⟩,
   ⟨{ State.reset with sec := { State.reset.sec with spdm := { phase := 3 } } }, [0x10, 224, 0, 0], by decide +kernel⟩,
   ⟨{ State.reset with sec := { State.reset.sec with spdm := { phase := 0, session := 0 } } }, [0x10, 224, 0, 0], by decide +kernel⟩⟩

theorem witness_SpdmRequestsComplete_part2 :
    (∃ (s : State) (msg : List Byte),
      (4 ≤ msg.length) ∧ (msg.length ≤ 4096) ∧ ((msg.getD 1 0).toNat = 228) ∧ (s.sec.spdm.phase = 3) ∧ (Fits s ((((s.freeNat (2 ^ 32)).2).spdmAnswer 228 100 msg).modSec (fun y => { y with spdm := (fun x : Spdm => { x with session := 1, sid := (s.freeNat (2 ^ 32)).1 }) y.spdm })))) ∧
    (∃ (s : State) (msg : List Byte),
      (4 ≤ msg.length) ∧ (msg.length ≤ 4096) ∧ ((msg.getD 1 0).toNat = 228) ∧ (s.sec.spdm.phase ≠ 3) ∧ (Fits s (s.spdmError 4))) ∧
    (∃ (s : State) (msg : List Byte),
      (4 ≤ msg.length) ∧ (msg.length ≤ 4096) ∧ ((msg.getD 1 0).toNat = 229) ∧ (s.sec.spdm.session = 1) ∧ (Fits s ((((s.freeNat (2 ^ 32)).2).spdmAnswer 229 101 msg).modSec (fun y => { y with spdm := (fun x : Spdm => { x with session := 2 }) y.spdm })))) ∧
    (∃ (s : State) (msg : List Byte),
      (4 ≤ msg.length) ∧ (msg.length ≤ 4096) ∧ ((msg.getD 1 0).toNat = 229) ∧ (s.sec.spdm.session ≠ 1) ∧ (Fits s (s.spdmError 4))) ∧
    (∃ (s : State) (msg : List Byte),
      (4 ≤ msg.length) ∧ (msg.length ≤ 4096) ∧ ((msg.getD 1 0).toNat = 232) ∧ (s.sec.spdm.session = 2) ∧ (Fits s ((((s.freeNat (2 ^ 32)).2).spdmAnswer 232 104 msg).modSec (fun y => { y with spdm := (fun x : Spdm => x) y.spdm })))) ∧
    (∃ (s : State) (msg : List Byte),
      (4 ≤ msg.length) ∧ (msg.length ≤ 4096) ∧ ((msg.getD 1 0).toNat = 232) ∧ (s.sec.spdm.session ≠ 2) ∧ (Fits s (s.spdmError 4))) ∧
    (∃ (s : State) (msg : List Byte),
      (4 ≤ msg.length) ∧ (msg.length ≤ 4096) ∧ ((msg.getD 1 0).toNat = 233) ∧ (s.sec.spdm.session = 2) ∧ (Fits s ((((s.freeNat (2 ^ 32)).2).spdmAnswer 233 105 msg).modSec (fun y => { y with spdm := (fun x : Spdm => x) y.spdm })))) ∧
    (∃ (s : State) (msg : List Byte),
      (4 ≤ msg.length) ∧ (msg.length ≤ 4096) ∧ ((msg.getD 1 0).toNat = 233) ∧ (s.sec.spdm.session ≠ 2) ∧ (Fits s (s.spdmError 4))) ∧
    (∃ (s : State) (msg : List Byte),
      (4 ≤ msg.length) ∧ (msg.length ≤ 4096) ∧ ((msg.getD 1 0).toNat = 236) ∧ (s.sec.spdm.session = 2) ∧ (Fits s ((((s.freeNat (2 ^ 32)).2).spdmAnswer 236 108 msg).modSec (fun y => { y with spdm := (fun x : Spdm => { x with session := 0 }) y.spdm })))) ∧
    (∃ (s : State) (msg : List Byte),
      (4 ≤ msg.length) ∧ (msg.length ≤ 4096) ∧ ((msg.getD 1 0).toNat = 236) ∧ (s.sec.spdm.session ≠ 2) ∧ (Fits s (s.spdmError 4))) :=
  ⟨⟨{ State.reset with sec := { State.reset.sec with spdm := { phase := 3 } } }, [0x10, 228, 0, 0], by decide +kernel⟩,
   ⟨{ State.reset with sec := { State.reset.sec with spdm := { phase := 0, session := 0 } } }, [0x10, 228, 0, 0], by decide +kernel⟩,
   ⟨{ State.reset with sec := { State.reset.sec with spdm := { session := 1 } } }, [0x10, 229, 0, 0], by decide +kernel⟩,
   ⟨{ State.reset with sec := { State.reset.sec with spdm := { phase := 0, session := 0 } } }, [0x10, 229, 0, 0], by decide +kernel⟩,
   ⟨{ State.reset with sec := { State.reset.sec with spdm := { session := 2 } } }, [0x10, 232, 0, 0], by decide +kernel⟩,
   ⟨{ State.reset with sec := { State.reset.sec with spdm := { phase := 0, session := 0 } } }, [0x10, 232, 0, 0], by decide +kernel⟩,
   ⟨{ State.reset with sec := { State.reset.sec with spdm := { session := 2 } } }, [0x10, 233, 0, 0], by decide +kernel⟩,
   ⟨{ State.reset with sec := { State.reset.sec with spdm := { phase := 0, session := 0 } } }, [0x10, 233, 0, 0], by decide +kernel⟩,
   ⟨{ State.reset with sec := { State.reset.sec with spdm := { session := 2 } } }, [0x10, 236, 0, 0], by decide +kernel⟩,
   ⟨{ State.reset with sec := { State.reset.sec with spdm := { phase := 0, session := 0 } } }, [0x10, 236, 0, 0], by decide +kernel⟩⟩

theorem wit_cxl : (∃ (s : State) (req : CxlReq) (dpa : BitVec 36) (data : BitVec 512) (mask : BitVec 64) (a : Nat),
      (req = .readCache) ∧ (s.linkUp = true) ∧ (s.pmu.mode ≠ .drain) ∧ (s.hdmAddr dpa.toNat = some a) ∧ (s.hostWaits a = false) ∧ (s.drcNext = none) ∧ (Fits s (match s.filterVictim (a / 64) with
      | some v => if s.drc.bi.any (fun e => e.line == v) then s else s.biSend { line := v, key := none, enter := some (a / 64) }
      | none => (s.filterAdd (a / 64)).hostRead a))) :=
  ⟨wCxl, .readCache, 0, 0, 0, dramBase, by decide +kernel, by decide +kernel, by decide +kernel, by decide +kernel, by decide +kernel, by decide +kernel, by decide +kernel⟩

theorem wit_birsp : (∃ (s : State) (line : BitVec 42) (l : Nat),
      (s.drc.bi.find? (fun e => e.line == line.toNat && e.ended.isNone) = some { line := line.toNat, key := none, enter := some l }) ∧ (Fits s ((((s.biDrop line.toNat).modDrc (fun d => { d with filter := d.filter.filter (fun x => x != line.toNat) })).filterAdd l).hostRead (64 * l)))) :=
  ⟨wBi ⟨0x40000000, none, some 0x40000010, none, none⟩, 0x40000000, 0x40000010, by decide +kernel, by decide +kernel⟩

theorem witness_HostCommandsComplete_part1 :
    (∃ (s : State) (ini : Ini) (val : Word),
      (s.mayWrite ini (hifPage 0 + hifMsix) = true) ∧ ((s.actBits ini (hifPage 0 + hifMsix) val).toNat ≤ 2047) ∧ (Fits s (((s.fieldWrite ini (hifPage 0 + hifMsix) val).msix (s.actBits ini (hifPage 0 + hifMsix) val).toNat).answer .ok 0))) ∧
    (∃ (s : State) (ini : Ini) (val : Word),
      (s.mayWrite ini (hifPage 0 + hifMsix) = true) ∧ (2047 < (s.actBits ini (hifPage 0 + hifMsix) val).toNat) ∧ (Fits s (((s.fieldWrite ini (hifPage 0 + hifMsix) val).raise (hifPage 0) 7).answer .ok 0))) ∧
    (∃ (s : State) (v : Option (Fin 2048)) (fn : Fin 65) (mask : Bool) (x : Fin 2048),
      (v = some x) ∧ (Fits s ((s.modHif (fun h => { h with unmasked := tset false h.unmasked x.val !mask })).pbaFlush (fun w => w == x.val)))) ∧
    (∃ (s : State) (v : Option (Fin 2048)) (fn : Fin 65) (mask : Bool),
      (v = none) ∧ (Fits s ((s.modHif (fun h => { h with fmask := tset false h.fmask fn.val mask, msixEn := tset false h.msixEn fn.val true })).pbaFlush (fun w => vectorFn w == fn.val)))) ∧
    (∃ (s : State) (ini : Ini) (addr : BitVec 48) (wr : Bool) (n : BitVec 10) (o f h m : Nat) (ide : Option Nat) (e : OutReq),
      (s.target addr.toNat = .host o) ∧ (s.linkUp = true) ∧ (s.pmu.mode ≠ .drain) ∧ (s.outTarget addr.toNat = some (f, h, m, ide)) ∧ (wr = false) ∧ (e = ⟨s.outTag, ini, nfld addr.toNat 8 2, f, h, 0, n.toNat, m, ide, s.outTxn ini addr.toNat wr, false⟩) ∧ (Fits s ((s.wakeLink.modHif (fun x => { x with out := { x.out with req := some e } })).modHif (fun x => { x with outq := x.outq ++ [e] })))) ∧
    (∃ (s : State) (ini : Ini) (addr : BitVec 48) (wr : Bool) (n : BitVec 10) (o f h m : Nat) (ide : Option Nat) (e : OutReq),
      (s.target addr.toNat = .host o) ∧ (s.linkUp = true) ∧ (s.pmu.mode ≠ .drain) ∧ (s.outTarget addr.toNat = some (f, h, m, ide)) ∧ (wr = true) ∧ (m = 0) ∧ (e = ⟨s.outTag, ini, nfld addr.toNat 8 2, f, h, 1, n.toNat, m, ide, s.outTxn ini addr.toNat wr, false⟩) ∧ (Fits s ((s.wakeLink.modHif (fun x => { x with out := { x.out with req := some e } })).outAnswer (s.outTxn ini addr.toNat wr) .ok []))) ∧
    (∃ (s : State) (ini : Ini) (addr : BitVec 48) (wr : Bool) (n : BitVec 10) (o : Nat),
      (s.target addr.toNat = .host o) ∧ (s.linkUp = false) ∧ (Fits s (s.outAnswer (s.outTxn ini addr.toNat wr) .slvErr []))) ∧
    (∃ (s : State) (ini : Ini) (addr : BitVec 48) (o f h m : Nat) (ide : Option Nat) (e : OutReq),
      (s.target addr.toNat = .host o) ∧ (s.linkUp = true) ∧ (s.pmu.mode ≠ .drain) ∧ (s.outTarget addr.toNat = some (f, h, m, ide)) ∧ (e = ⟨s.outTag, ini, nfld addr.toNat 8 2, f, h, 2, 0, m, ide, s.outTxn ini addr.toNat false, false⟩) ∧ (Fits s ((s.wakeLink.modHif (fun x => { x with outq := x.outq ++ [e], out := { x.out with req := some e } })).flushSettle))) ∧
    (∃ (s : State) (tag : Nat) (ok : Bool) (data : List Byte) (e : OutReq),
      (s.hif.outq.find? (fun e => e.tag == tag) = some e) ∧ (e.kind = 2) ∧ (ok = true) ∧ (Fits s ((s.modHif (fun x => { x with outq := x.outq.map (fun y => if y.tag = tag then { y with got := true } else y) })).flushSettle))) ∧
    (∃ (s : State) (tag : Nat) (ok : Bool) (data : List Byte) (e : OutReq),
      (s.hif.outq.find? (fun e => e.tag == tag) = some e) ∧ (e.kind ≠ 2) ∧ (Fits s (((s.modHif (fun x => { x with outq := x.outq.filter (fun y => y.tag != tag) })).outAnswer e.key (if ok then .ok else .slvErr) data).flushSettle))) ∧
    (∃ (s : State) (line : BitVec 42),
      (s.linkUp = true) ∧ (Fits s (s.modHif (fun x => { x with out := { x.out with snp := some line.toNat } })))) ∧
    (∃ (s : State) (req : CxlReq) (dpa : BitVec 36) (data : BitVec 512) (mask : BitVec 64) (a : Nat),
      (req = .write) ∧ (s.linkUp = true) ∧ (s.pmu.mode ≠ .drain) ∧ (s.hdmAddr dpa.toNat = some a) ∧ (s.hostWaits a = false) ∧ (s.drcNext = none) ∧ (s.inCarve (a - dramBase) = false) ∧ (Fits s ((s.writeLine (a / 64) data (BitVec.allOnes 64) 0).setMark (a / 64) .none))) ∧
    (∃ (s : State) (req : CxlReq) (dpa : BitVec 36) (data : BitVec 512) (mask : BitVec 64) (a : Nat) (u : State),
      (req = .writePartial) ∧ (s.linkUp = true) ∧ (s.pmu.mode ≠ .drain) ∧ (s.hdmAddr dpa.toNat = some a) ∧ (s.hostWaits a = false) ∧ (s.drcNext = none) ∧ (s.inCarve (a - dramBase) = false) ∧ (mask ≠ BitVec.allOnes 64) ∧ (s.checkLine 0x21 a = (u, true)) ∧ (Fits s ((u.writeLine (a / 64) data mask 0).setMark (a / 64) .none))) :=
  ⟨⟨State.reset, levee, 5, by decide +kernel⟩,
   ⟨State.reset, levee, 0x800, by decide +kernel⟩,
   ⟨State.reset, some 5, 0, false, 5, by decide +kernel⟩,
   ⟨State.reset, none, 0, false, by decide +kernel⟩,
   ⟨wOutb, 1, 0x400000000000, false, 64, 0, 0, 0, 0, none, _, by decide +kernel, by decide +kernel, by decide +kernel, by decide +kernel, rfl, rfl, by decide +kernel⟩,
   ⟨wOutb, 1, 0x400000000000, true, 64, 0, 0, 0, 0, none, _, by decide +kernel, by decide +kernel, by decide +kernel, by decide +kernel, rfl, rfl, rfl, by decide +kernel⟩,
   ⟨State.reset, 1, 0x400000000000, true, 64, 0, by decide +kernel⟩,
   ⟨wOutb, 1, 0x400000000000, 0, 0, 0, 0, none, _, by decide +kernel, by decide +kernel, by decide +kernel, by decide +kernel, rfl, by decide +kernel⟩,
   ⟨wHif { outq := [⟨3, 1, 0, 0, 0, 2, 0, 0, none, none, false⟩] }, 3, true, [], ⟨3, 1, 0, 0, 0, 2, 0, 0, none, none, false⟩, by decide +kernel⟩,
   ⟨wHif { outq := [⟨3, 1, 0, 0, 0, 0, 0, 0, none, none, false⟩] }, 3, true, [], ⟨3, 1, 0, 0, 0, 0, 0, 0, none, none, false⟩, by decide +kernel⟩,
   ⟨wHif { link := .l0 }, 5, by decide +kernel⟩,
   ⟨wCxl, .write, 0x40, 5, 1, 0x1000000040, by decide +kernel⟩,
   ⟨wCxl, .writePartial, 0x40, 5, 1, 0x1000000040, wCxl, by decide +kernel⟩⟩

theorem witness_HostCommandsComplete_part2 :
    (∃ (s : State) (req : CxlReq) (dpa : BitVec 36) (data : BitVec 512) (mask : BitVec 64) (a : Nat) (u : State),
      (req ≠ .write) ∧ (req ≠ .writePartial) ∧ (req ≠ .readCache) ∧ (s.linkUp = true) ∧ (s.pmu.mode ≠ .drain) ∧ (s.hdmAddr dpa.toNat = some a) ∧ (s.hostWaits a = false) ∧ (s.drcNext = none) ∧ (s.inCarve (a - dramBase) = false) ∧ (s.checkLine 0x21 a = (u, true)) ∧ (Fits s (u.modHif (fun x => { x with out := { x.out with drs := some (u.readLine (a / 64), false) } })))) ∧
    (∃ (s : State) (req : CxlReq) (dpa : BitVec 36) (data : BitVec 512) (mask : BitVec 64) (a : Nat),
      (req = .readCache) ∧ (s.linkUp = true) ∧ (s.pmu.mode ≠ .drain) ∧ (s.hdmAddr dpa.toNat = some a) ∧ (s.hostWaits a = false) ∧ (s.drcNext = none) ∧ (Fits s (match s.filterVictim (a / 64) with
      | some v => if s.drc.bi.any (fun e => e.line == v) then s else s.biSend { line := v, key := none, enter := some (a / 64) }
      | none => (s.filterAdd (a / 64)).hostRead a))) ∧
    (∃ (s : State) (dpa : BitVec 36) (a : Nat),
      (s.hdmAddr dpa.toNat = some a) ∧ (Fits s (s.modDrc (fun d => { d with filter := d.filter.filter (fun x => x != a / 64) })))) ∧
    (∃ (s : State) (k : TxnKey) (x : Txn) (o l : Nat),
      (s.txn k = some x) ∧ (s.target x.rsv.addr.toNat = .dram o) ∧ (s.heldLine x = some l) ∧ (x.stage = .atBlock) ∧ ((s.drc.bi.all (fun e => e.line != l)) = true) ∧ (Fits s (s.biSend { line := l, key := some k, enter := none }))) ∧
    (∃ (s : State) (line : BitVec 42) (k : TxnKey) (x : Txn),
      (s.drc.bi.find? (fun e => e.line == line.toNat && e.ended.isNone) = some { line := line.toNat, key := some k, enter := none }) ∧ (s.txn k = some x) ∧ (Fits s (((s.biDrop line.toNat).modDrc (fun d => { d with filter := d.filter.filter (fun x => x != line.toNat) })).dramFlit x))) ∧
    (∃ (s : State) (line : BitVec 42) (n : Ini),
      (s.drc.bi.find? (fun e => e.line == line.toNat && e.ended.isNone) = some { line := line.toNat, key := none, enter := none, unit := some n }) ∧ (Fits s ((s.biOver line.toNat true).modDrc (fun d => { d with filter := d.filter.filter (fun x => x != line.toNat) })))) ∧
    (∃ (s : State) (line : BitVec 42) (l : Nat),
      (s.drc.bi.find? (fun e => e.line == line.toNat && e.ended.isNone) = some { line := line.toNat, key := none, enter := some l }) ∧ (Fits s ((((s.biDrop line.toNat).modDrc (fun d => { d with filter := d.filter.filter (fun x => x != line.toNat) })).filterAdd l).hostRead (64 * l)))) ∧
    (∃ (s : State) (line : BitVec 42) (k : TxnKey) (x : Txn),
      (s.drc.bi.find? (fun e => e.line == line.toNat && e.ended.isNone) = some { line := line.toNat, key := some k, enter := none }) ∧ ((((s.biDrop line.toNat).countUp (hifPage 0 + hifBicnt) 16 16 1).raise (hifPage 0) 5).txn k = some x) ∧ (Fits s ((((s.biDrop line.toNat).countUp (hifPage 0 + hifBicnt) 16 16 1).raise (hifPage 0) 5).flitServed x .slvErr none none))) ∧
    (∃ (s : State) (line : BitVec 42) (n : Ini),
      (s.drc.bi.find? (fun e => e.line == line.toNat && e.ended.isNone) = some { line := line.toNat, key := none, enter := none, unit := some n }) ∧ (Fits s (((s.biOver line.toNat false).countUp (hifPage 0 + hifBicnt) 16 16 1).raise (hifPage 0) 5))) ∧
    (∃ (s : State) (line : BitVec 42) (l : Nat),
      (s.drc.bi.find? (fun e => e.line == line.toNat && e.ended.isNone) = some { line := line.toNat, key := none, enter := some l }) ∧ (Fits s ((((s.biDrop line.toNat).countUp (hifPage 0 + hifBicnt) 16 16 1).raise (hifPage 0) 5).modHif (fun x => { x with out := { x.out with drs := some (0, true) } })))) ∧
    (∃ (s : State) (dec : Fin 2) (size : BitVec 8),
      ((tget {} s.hif.hdm dec.val).committed = false) ∧ (s.drc.ready = true) ∧ (size.toNat + (if (tget {} s.hif.hdm (1 - dec.val)).committed then (tget {} s.hif.hdm (1 - dec.val)).size else 0) ≤ s.hvSize) ∧ (Fits s ((s.modHif (fun x => { x with hdm := tset {} x.hdm dec.val ⟨true, size.toNat, false⟩ })).raise (hifPage 0) 4))) ∧
    (∃ (s : State) (dec : Fin 2) (size : BitVec 8),
      ((tget {} s.hif.hdm dec.val).committed = false) ∧ (s.drc.ready = false) ∧ (Fits s ((s.modHif (fun x => { x with hdm := tset {} x.hdm dec.val { tget {} s.hif.hdm dec.val with err := true } })).raise (hifPage 0) 4))) ∧
    (∃ (s : State) (dec : Fin 2),
      ((tget {} s.hif.hdm dec.val).committed = true) ∧ (Fits s ((s.modHif (fun x => { x with hdm := tset {} x.hdm dec.val {} })).raise (hifPage 0) 4))) :=
  ⟨⟨wCxl, .readNoCache, 0, 0, 0, 0x1000000000, wCxl, by decide +kernel⟩,
   wit_cxl,
   ⟨wCxl, 0x40, 0x1000000040, by decide +kernel⟩,
   ⟨wHeld, wHeldTxn.key, wHeldTxn, 0, 0x40000000, by decide +kernel⟩,
   ⟨wBi { line := 0x40000000, key := some wHeldTxn.key, enter := none }, 0x40000000, wHeldTxn.key, wHeldTxn, by decide +kernel⟩,
   ⟨wBi { line := 0x40000000, key := none, enter := none, unit := some 0x10 }, 0x40000000, 0x10, by decide +kernel⟩,
   wit_birsp,
   ⟨wBi { line := 0x40000000, key := some wHeldTxn.key, enter := none }, 0x40000000, wHeldTxn.key, wHeldTxn, by decide +kernel⟩,
   ⟨wBi { line := 0x40000000, key := none, enter := none, unit := some 0x10 }, 0x40000000, 0x10, by decide +kernel⟩,
   ⟨wBi { line := 0x40000000, key := none, enter := some 0x40000010 }, 0x40000000, 0x40000010, by decide +kernel⟩,
   ⟨wHdm, 0, 1, by decide +kernel⟩,
   ⟨State.reset, 0, 1, by decide +kernel⟩,
   ⟨wHif { hdm := [(0, ⟨true, 1, false⟩)] }, 0, by decide +kernel⟩⟩

theorem witness_HostCommandsComplete_part3 :
    (∃ (s : State) (src : BitVec 12) (o : BitVec 34) (data : List Byte) (k b v : Nat) (u : State),
      (s.peerOpen = true) ∧ (s.peerWindow src o.toNat = some k) ∧ (s.target (s.reg64 (hifPage 2 + hifPwTgt + 32 * k) / 4096 * 4096 % 2 ^ 48 + o.toNat - fld (s.reg (hifPage 2 + hifPwBase + 32 * k)) 0 22 * 4096) = .reservoir b v) ∧ (s.memWrite 0x21 (s.reg64 (hifPage 2 + hifPwTgt + 32 * k) / 4096 * 4096 % 2 ^ 48 + o.toNat - fld (s.reg (hifPage 2 + hifPwBase + 32 * k)) 0 22 * 4096) data = (u, .ok)) ∧ (Fits s (u.modHif (fun x => { x with out := { x.out with ur := false } })))) ∧
    (∃ (s : State) (src : BitVec 12) (o : BitVec 34) (data : List Byte),
      (s.peerOpen = true) ∧ (s.peerWindow src o.toNat = none) ∧ (Fits s s.peerDrop)) ∧
    (∃ (s : State) (src : BitVec 12) (o : BitVec 34) (k : Nat),
      (s.peerOpen = true) ∧ (s.peerWindow src o.toNat = some k) ∧ (Fits s (s.raise (hifPage 0) (8 + k)))) ∧
    (∃ (s : State) (f : Fin 64) (q : Nat) (head : Bool) (val : BitVec 16),
      (q ≤ 64) ∧ (s.nvOpen f.val = true) ∧ (s.pmu.mode = .run) ∧ (Fits s (((s.wakeLink).modHif (fun x => { x with db := tset 0 x.db (256 * f.val + 2 * q + b2n head) val.toNat })).nvEvent f.val))) ∧
    (∃ (s : State) (f : Fin 64) (reg : NvReg) (val : BitVec 64),
      (s.nvOpen f.val = true) ∧ (s.pmu.mode ≠ .drain) ∧ (reg = .cc) ∧ (Fits s (((s.wakeLink).modHif (fun x => { x with nv := tset {} x.nv f.val { tget {} x.nv f.val with cc := val.setWidth 32 } })).nvEvent f.val))) ∧
    (∃ (s : State) (f : Fin 64) (reg : NvReg) (val : BitVec 64),
      (s.nvOpen f.val = true) ∧ (s.pmu.mode ≠ .drain) ∧ (reg = .aqa) ∧ (Fits s (((s.wakeLink).modHif (fun x => { x with nv := tset {} x.nv f.val { tget {} x.nv f.val with aqa := val.setWidth 32 } })).nvEvent f.val))) ∧
    (∃ (s : State) (f : Fin 64) (reg : NvReg) (val : BitVec 64),
      (s.nvOpen f.val = true) ∧ (s.pmu.mode ≠ .drain) ∧ (reg = .asq) ∧ (Fits s (((s.wakeLink).modHif (fun x => { x with nv := tset {} x.nv f.val { tget {} x.nv f.val with asq := val } })).nvEvent f.val))) ∧
    (∃ (s : State) (f : Fin 64) (reg : NvReg) (val : BitVec 64),
      (s.nvOpen f.val = true) ∧ (s.pmu.mode ≠ .drain) ∧ (reg = .acq) ∧ (Fits s (((s.wakeLink).modHif (fun x => { x with nv := tset {} x.nv f.val { tget {} x.nv f.val with acq := val } })).nvEvent f.val))) ∧
    (∃ (s : State) (secured : Bool) (stream : Fin 6) (key : BitVec 256),
      (secured = true) ∧ (s.sec.spdm.session = 2) ∧ (Fits s (s.modHif (fun x => { x with ide := tset none x.ide stream.val (some key) })))) ∧
    (∃ (s : State) (tdi : Fin 64) (req : TdispReq),
      (req = .lock) ∧ (tget 0 s.hif.tdi tdi.val = 0) ∧ (Fits s (s.modHif (fun x => { x with tdi := tset 0 x.tdi tdi.val 1 })))) ∧
    (∃ (s : State) (tdi : Fin 64) (req : TdispReq),
      (req = .start) ∧ (tget 0 s.hif.tdi tdi.val = 1) ∧ (Fits s (s.modHif (fun x => { x with tdi := tset 0 x.tdi tdi.val 2 })))) ∧
    (∃ (s : State) (tdi : Fin 64) (req : TdispReq),
      (req = .stop) ∧ (Fits s (s.modHif (fun x => { x with tdi := tset 0 x.tdi tdi.val 0 })))) ∧
    (∃ (s : State) (tdi : Fin 64),
      (Fits s (s.tdiFail tdi.val))) :=
  ⟨⟨wPeer, 3, 0, [5], 0, 0, 0, (wPeer.memWrite 0x21 0x20000000 [5]).1, by decide +kernel⟩,
   ⟨wHif { link := .l0 }, 3, 0, [5], by decide +kernel⟩,
   ⟨wPeer, 3, 0, 0, by decide +kernel⟩,
   ⟨{ wHif { link := .l0 } with pmu := { State.reset.pmu with mode := .run } }, 0, 1, false, 5, by decide +kernel⟩,
   ⟨wHif { link := .l0 }, 0, .cc, 1, by decide +kernel⟩,
   ⟨wHif { link := .l0 }, 0, .aqa, 1, by decide +kernel⟩,
   ⟨wHif { link := .l0 }, 0, .asq, 1, by decide +kernel⟩,
   ⟨wHif { link := .l0 }, 0, .acq, 1, by decide +kernel⟩,
   ⟨{ State.reset with sec := { State.reset.sec with spdm := { session := 2 } } }, true, 0, 7, by decide +kernel⟩,
   ⟨wHif { tdi := tset 0 [] 5 0 }, 5, .lock, by decide +kernel⟩,
   ⟨wHif { tdi := tset 0 [] 5 1 }, 5, .start, by decide +kernel⟩,
   ⟨wHif { tdi := tset 0 [] 5 1 }, 5, .stop, by decide +kernel⟩,
   ⟨State.reset, 0, by decide +kernel⟩⟩

theorem witness_HostCommandsComplete_part4 :
    (∃ (s : State),
      (s.hif.perst = false) ∧ (s.powered = true) ∧ ((((s.linkReset).modHif (fun x => { x with perst := true, link := .down })).raise (hifPage 0) 2).portsOk = true)) ∧
    (∃ (s : State),
      (s.hif.perst = false) ∧ (s.powered = false) ∧ ((s.modHif (fun x => { x with perst := true })).portsOk = true)) ∧
    (∃ (s : State),
      ((s.modHif (fun x => { x with perst := false, link := if x.perst && x.en then .training else x.link })).portsOk = true)) ∧
    (∃ (s : State),
      (s.linkUp = true) ∧ (s.hif.perst = false) ∧ (Fits s (((s.linkReset).modHif (fun x => { x with link := .training })).raise (hifPage 0) 1))) ∧
    (∃ (s : State) (rate : Fin 5) (width : BitVec 5),
      (s.hif.en = true) ∧ (s.hif.perst = false) ∧ (s.linkUp = false) ∧ (1 ≤ rate.val) ∧ (width.toNat = 16 ∨ width.toNat = 8 ∨ width.toNat = 4) ∧ (Fits s ((s.modHif (fun x => { x with link := .l0, rate := rate.val, width := width.toNat })).raise (hifPage 0) 0))) ∧
    (∃ (s : State) (l12 : Bool),
      (s.hif.link = .l0) ∧ (Fits s (s.modHif (fun x => { x with link := if l12 then .l12 else .l11 })))) ∧
    (∃ (s : State) (fn : Fin 65),
      (fn.val ≠ 0) ∧ (tget 0 s.hif.tdi (fn.val - 1) = 0) ∧ (Fits s (((s.endRequests (fun e => e.fn == fn.val)).modHif (fun x => x.resetFns (fun f => f == fn.val))).raise (hifPage 0) 3))) ∧
    (∃ (s : State) (val : Bool),
      (s.hif.lcommit ≠ val) ∧ (Fits s ((s.modHif (fun x => { x with lcommit := val })).raise (hifPage 0) 6))) :=
  ⟨⟨wHif { perst := false }, by decide +kernel⟩,
   ⟨{ wMode .hold with hif := {} }, by decide +kernel⟩,
   ⟨State.reset, by decide +kernel⟩,
   ⟨wHif { link := .l0, perst := false }, by decide +kernel⟩,
   ⟨wHif { en := true, perst := false }, 4, 16, by decide +kernel⟩,
   ⟨wHif { link := .l0 }, true, by decide +kernel⟩,
   ⟨State.reset, 1, by decide +kernel⟩,
   ⟨State.reset, true, by decide +kernel⟩⟩

theorem wit_plysend : (∃ (s : State)  (a : Nat) (h : List Byte) (u : State),
      (s.ply.st = .sync) ∧ (s.ply.txerr = false) ∧ (s.txSent + 1 ≤ s.txTail) ∧ (a = s.reg64 (plyPage + plyTxbase) % 2 ^ 48 / 64 * 64 + 64 * ((s.txSent + 1) % s.txSlots)) ∧ (s.plyMaySend a = true) ∧ (s.memRead 0x33 a 64 = (u, .ok, h)) ∧ (imgField h 0 4 = 0x524A5A45) ∧ (imgField h 8 8 = s.txSent + 1) ∧ (imgField h 5 1 % 2 = 0) ∧ (Fits s ((u.sendRecord (sliceBytes h 0 0x14 ++ bytesOf 4 0 ++ sliceBytes h 0x18 40) (s.pmu.mode == .drain) false).setReg64 (plyPage + plyTxsent) (s.txSent + 1)))) :=
  ⟨wRecord, 0x20000040, _, _, by decide +kernel, by decide +kernel, by decide +kernel, by decide +kernel, by decide +kernel, read_ok _ (by decide +kernel), by decide +kernel, by decide +kernel, by decide +kernel, by decide +kernel⟩

theorem witness_PlyCommandsComplete_part1 :
    (∃ (s : State) (lanes : Byte) (preset : Byte),
      (s.plyEn = true) ∧ (s.ply.st = .train) ∧ (s.pmu.plyGated = false) ∧ (bit (s.reg (page .pmu 1 + pmuPllstat)) 7 = true) ∧ (Fits s (s.trained8 lanes preset))) ∧
    (∃ (s : State) (lanes : Byte) (preset : Byte),
      (s.plyEn = true) ∧ (s.ply.st = .down) ∧ (s.ply.shut = false) ∧ (s.pmu.plyGated = false) ∧ (bit (s.reg (page .pmu 1 + pmuPllstat)) 7 = true) ∧ (Fits s (s.trained8 lanes preset))) ∧
    (∃ (s : State) (f : PlyFrame),
      (s.ply.up = true) ∧ (frameOk f = false) ∧ (Fits s (s.sendNak f.fseq.toNat))) ∧
    (∃ (s : State) (f : PlyFrame),
      (s.ply.up = true) ∧ (frameOk f = true) ∧ (f.fseq.toNat ≠ s.ply.rseq) ∧ (Fits s s)) ∧
    (∃ (s : State) (f : PlyFrame),
      (s.ply.up = true) ∧ (frameOk f = true) ∧ (f.fseq.toNat = s.ply.rseq) ∧ (f.type.toNat = 0) ∧ (Fits s (s.plyAccept f))) ∧
    (∃ (s : State) (f : PlyFrame),
      (s.ply.up = true) ∧ (frameOk f = true) ∧ (f.fseq.toNat = s.ply.rseq) ∧ (f.type.toNat = 0) ∧ (Fits s (s.plyAccept f))) ∧
    (∃ (s : State) (f : PlyFrame),
      (s.ply.up = true) ∧ (frameOk f = true) ∧ (f.fseq.toNat = s.ply.rseq) ∧ (f.type.toNat = 1) ∧ (Fits s ((s.plyAccept f).hello (helloOf f.payload)))) ∧
    (∃ (s : State) (f : PlyFrame),
      (s.ply.up = true) ∧ (frameOk f = true) ∧ (f.fseq.toNat = s.ply.rseq) ∧ (f.type.toNat = 2) ∧ (Fits s ((s.plyAccept f).recArrive f f.fseq.toNat))) ∧
    (∃ (s : State) (f : PlyFrame),
      (s.ply.up = true) ∧ (frameOk f = true) ∧ (f.fseq.toNat = s.ply.rseq) ∧ (f.type.toNat = 3) ∧ (((((s.plyAccept f).modPly (fun x => { x with naks := x.naks + 1 })).countUp (plyPage + plyErr) 0 16 1).ply.naks) < 8) ∧ (Fits s ((((s.plyAccept f).modPly (fun x => { x with naks := x.naks + 1 })).countUp (plyPage + plyErr) 0 16 1).resend (imgField f.payload 0 2)))) ∧
    (∃ (s : State) (f : PlyFrame),
      (s.ply.up = true) ∧ (frameOk f = true) ∧ (f.fseq.toNat = s.ply.rseq) ∧ (f.type.toNat = 4) ∧ (Fits s (((s.plyAccept f).setRole 1 ((s.plyAccept f).aon.gen.toNat + 1)).sendFrame 5 0 []))) ∧
    (∃ (s : State) (f : PlyFrame),
      (s.ply.up = true) ∧ (frameOk f = true) ∧ (f.fseq.toNat = s.ply.rseq) ∧ (f.type.toNat = 5) ∧ (Fits s (s.plyAccept f))) ∧
    (∃ (s : State)  (q : Nat) (l : List Nat),
      (s.ply.placed = q :: l) ∧ (s.plyFrozen = false) ∧ (q = s.rxSeq + 1) ∧ (Fits s (((s.modPly (fun x => { x with placed := l })).setReg64 (plyPage + plyRxseq) q).raise plyPage 3))) ∧
    (∃ (s : State),
      (s.ply.up = true) ∧ (Fits s s.plyLost)) :=
  ⟨⟨(wPly { st := .train }).setReg (page .pmu 1 + pmuPllstat) 0x80, 0x0F, 3, by decide +kernel⟩,
   ⟨(wPly { st := .down }).setReg (page .pmu 1 + pmuPllstat) 0x80, 0x0F, 3, by decide +kernel⟩,
   ⟨wPly { st := .sync }, ⟨0, 0, 0, [], 0, 5⟩, by decide +kernel⟩,
   ⟨wPly { st := .sync }, wFr 0 1 [], by decide +kernel⟩,
   ⟨wPly { st := .sync }, wFr 0 0 [], by decide +kernel⟩,
   ⟨wPly { st := .sync }, wFr 0 0 [], by decide +kernel⟩,
   ⟨wPly { st := .sync }, wFr 1 0 [], by decide +kernel⟩,
   ⟨wPly { st := .sync }, wFr 2 0 [], by decide +kernel⟩,
   ⟨wPly { st := .sync }, wFr 3 0 [], by decide +kernel⟩,
   ⟨wPly { st := .sync }, wFr 4 0 [], by decide +kernel⟩,
   ⟨wPly { st := .sync }, wFr 5 0 [], by decide +kernel⟩,
   ⟨wPly { st := .sync, placed := [1] }, 1, [], by decide +kernel⟩,
   ⟨wPly { st := .sync }, by decide +kernel⟩⟩

theorem witness_PlyCommandsComplete_part2 :
    (∃ (s : State) (ini : Ini) (val : BitVec 64),
      (s.passesWhole ini (plyPage + plyTxtail) = true) ∧ (s.txTail ≤ val.toNat) ∧ (val.toNat ≤ s.txAck + s.txSlots) ∧ (Fits s ((s.setReg64 (plyPage + plyTxtail) val.toNat).answer .ok 0))) ∧
    (∃ (s : State)  (a : Nat) (h : List Byte) (u : State),
      (s.ply.st = .sync) ∧ (s.ply.txerr = false) ∧ (s.txSent + 1 ≤ s.txTail) ∧ (a = s.reg64 (plyPage + plyTxbase) % 2 ^ 48 / 64 * 64 + 64 * ((s.txSent + 1) % s.txSlots)) ∧ (s.plyMaySend a = true) ∧ (s.memRead 0x33 a 64 = (u, .ok, h)) ∧ (imgField h 0 4 = 0x524A5A45) ∧ (imgField h 8 8 = s.txSent + 1) ∧ (imgField h 5 1 % 2 = 0) ∧ (Fits s ((u.sendRecord (sliceBytes h 0 0x14 ++ bytesOf 4 0 ++ sliceBytes h 0x18 40) (s.pmu.mode == .drain) false).setReg64 (plyPage + plyTxsent) (s.txSent + 1)))) ∧
    (∃ (s : State)  (a : Nat) (h : List Byte) (u : State),
      (s.ply.st = .sync) ∧ (s.ply.txerr = false) ∧ (s.txSent + 1 ≤ s.txTail) ∧ (a = s.reg64 (plyPage + plyTxbase) % 2 ^ 48 / 64 * 64 + 64 * ((s.txSent + 1) % s.txSlots)) ∧ (s.plyMaySend a = true) ∧ (s.memRead 0x33 a 64 = (u, .ok, h)) ∧ (imgField h 0 4 ≠ 0x524A5A45) ∧ (Fits s u.txStop)) ∧
    (∃ (s : State) (ini : Ini) (val : Word),
      (s.mayWrite ini (plyPage + Machine.plyCtrl) = true) ∧ ((s.actBits ini (plyPage + Machine.plyCtrl) val) = 2) ∧ (bit (s.reg (plyPage + Machine.plyCtrl)) 0 = false) ∧ ((s.fieldWrite ini (plyPage + Machine.plyCtrl) val).ply.present = true) ∧ ((s.fieldWrite ini (plyPage + Machine.plyCtrl) val).aon.role = 1) ∧ (Fits s ((((s.fieldWrite ini (plyPage + Machine.plyCtrl) val).setRole 2 ((s.fieldWrite ini (plyPage + Machine.plyCtrl) val).aon.gen.toNat + 1)).sendFrame 4 0 []).answer .ok 0))) ∧
    (∃ (s : State) (ini : Ini) (val : Word),
      (s.mayWrite ini (plyPage + Machine.plyCtrl) = true) ∧ ((s.actBits ini (plyPage + Machine.plyCtrl) val) = 4) ∧ (bit (s.reg (plyPage + Machine.plyCtrl)) 0 = false) ∧ (Fits s (((s.fieldWrite ini (plyPage + Machine.plyCtrl) val).modPly (fun x => { x with gap := false, conflict := false })).answer .ok 0))) ∧
    (∃ (s : State) (ini : Ini) (val : Word),
      (s.mayWrite ini (plyPage + Machine.plyCtrl) = true) ∧ ((s.actBits ini (plyPage + Machine.plyCtrl) val) = 8) ∧ (bit (s.reg (plyPage + Machine.plyCtrl)) 0 = false) ∧ ((s.fieldWrite ini (plyPage + Machine.plyCtrl) val).ply.up = true) ∧ (Fits s ((s.fieldWrite ini (plyPage + Machine.plyCtrl) val).retrain.answer .ok 0))) ∧
    (∃ (s : State) (ini : Ini) (val : Word),
      (ini = levee) ∧ (s.ply.present = false) ∧ (s.aon.role ≠ 1) ∧ (val.toNat = s.aon.gen.toNat + 1) ∧ (Fits s ((s.setRole 1 val.toNat).answer .ok 0))) ∧
    (∃ (s : State)  (h : Hello),
      (s.ply.peer = some h) ∧ (s.ply.st = .replay) ∧ (s.ply.conflict = false) ∧ (s.ply.gap = false) ∧ (s.ply.tail0 ≤ s.txAck) ∧ (h.txtail ≤ s.rxSeq) ∧ (Fits s ((s.modPly (fun x => { x with st := .sync, present := true })).raise plyPage 4))) :=
  ⟨⟨State.reset, levee, 1, by decide +kernel⟩,
   wit_plysend,
   ⟨wSend, 0x20000040, (wSend.memRead 0x33 0x20000040 64).2.2, (wSend.memRead 0x33 0x20000040 64).1, by decide +kernel, by decide +kernel, by decide +kernel, by decide +kernel, by decide +kernel, rfl, by decide +kernel, by decide +kernel⟩,
   ⟨wRole, levee, 2, by decide +kernel⟩,
   ⟨State.reset, levee, 4, by decide +kernel⟩,
   ⟨wRole, levee, 8, by decide +kernel⟩,
   ⟨State.reset, levee, 1, by decide +kernel⟩,
   ⟨wPly { st := .replay, peer := some wHello }, wHello, by decide +kernel⟩⟩

theorem witness_PinCommandsComplete_part1 :
    (∃ (s : State) (ini : Ini) (pin : Pin) (psrc : Bool) (val : Word),
      (psrc = false) ∧ (pinJudge ini (fld (s.pin pin.val).regs.1 4 2) val = .take) ∧ (s.locked (pioPg 0 + pioPin + 4 * pin.val) = false) ∧ ((s.pin pin.val).sw = false) ∧ (Fits s ((s.pinTake pin.val (val &&& 0xFFF, (s.pin pin.val).regs.2)).answer .ok 0))) ∧
    (∃ (s : State) (ini : Ini) (pin : Pin) (psrc : Bool) (val : Word),
      (psrc = false) ∧ (pinJudge ini (fld (s.pin pin.val).regs.1 4 2) val = .take) ∧ (s.locked (pioPg 0 + pioPin + 4 * pin.val) = false) ∧ ((s.pin pin.val).sw = true) ∧ (Fits s ((s.modPin pin.val (fun x => { x with stored := some (val &&& 0xFFF, (s.pin pin.val).regs.2) })).answer .ok 0))) ∧
    (∃ (s : State) (ini : Ini) (pin : Pin) (psrc : Bool) (val : Word),
      (psrc = true) ∧ (psrcJudge ini (s.pin pin.val) val = .take) ∧ (s.locked (pioPg 0 + pioPsrc + 4 * pin.val) = false) ∧ ((s.pin pin.val).sw = false) ∧ (Fits s ((s.pinTake pin.val ((s.pin pin.val).regs.1, val &&& 0x1FFFF)).answer .ok 0))) ∧
    (∃ (s : State) (pin : Pin),
      ((s.pin pin.val).sw = true) ∧ ((s.pin pin.val).stored = none) ∧ (Fits s ((s.modPin pin.val (fun x => { x with sw := false, stored := none })).raise (pioPg 0) 17))) ∧
    (∃ (s : State) (pin : Pin) (v : Word × Word),
      ((s.pin pin.val).sw = true) ∧ ((s.pin pin.val).stored = some v) ∧ (Fits s (((s.modPin pin.val (fun x => { x with sw := false, stored := none })).raise (pioPg 0) 17).pinTake pin.val v))) ∧
    (∃ (s : State) (ini : Ini) (off : Fin 8) (val : Word),
      (off.val = 0) ∧ (s.locked (pioPg 0 + pioOut0) = false) ∧ (Fits s ((s.modReg (pioPg 0 + pioOut0) (fun w => (w &&& ~~~(s.gpioMask ini 0)) ||| (val &&& s.gpioMask ini 0))).answer .ok 0))) ∧
    (∃ (s : State) (ini : Ini) (off : Fin 8) (val : Word),
      (off.val = 1) ∧ (s.locked (pioPg 0 + pioOut0 + 4) = false) ∧ (Fits s ((s.modReg (pioPg 0 + pioOut0 + 4) (fun w => (w &&& ~~~(s.gpioMask ini 1)) ||| (val &&& s.gpioMask ini 1))).answer .ok 0))) ∧
    (∃ (s : State) (ini : Ini) (off : Fin 8) (val : Word),
      (off.val = 2) ∧ (s.locked (pioPg 0 + pioOut0) = false) ∧ (Fits s ((s.modReg (pioPg 0 + pioOe0) (fun w => (w &&& ~~~(s.gpioMask ini 0)) ||| (val &&& s.gpioMask ini 0))).answer .ok 0))) ∧
    (∃ (s : State) (ini : Ini) (off : Fin 8) (val : Word),
      (off.val = 3) ∧ (s.locked (pioPg 0 + pioOut0 + 4) = false) ∧ (Fits s ((s.modReg (pioPg 0 + pioOe0 + 4) (fun w => (w &&& ~~~(s.gpioMask ini 1)) ||| (val &&& s.gpioMask ini 1))).answer .ok 0))) ∧
    (∃ (s : State) (ini : Ini) (off : Fin 8) (val : Word),
      (off.val = 4) ∧ (Fits s ((s.modReg (pioPg 0 + pioOut0) (fun w => w ||| (val &&& s.gpioMask ini 0))).answer .ok 0))) ∧
    (∃ (s : State) (ini : Ini) (off : Fin 8) (val : Word),
      (off.val = 5) ∧ (Fits s ((s.modReg (pioPg 0 + pioOut0 + 4) (fun w => w ||| (val &&& s.gpioMask ini 1))).answer .ok 0))) ∧
    (∃ (s : State) (ini : Ini) (off : Fin 8) (val : Word),
      (off.val = 6) ∧ (Fits s ((s.modReg (pioPg 0 + pioOut0) (fun w => w &&& ~~~(val &&& s.gpioMask ini 0))).answer .ok 0))) ∧
    (∃ (s : State) (ini : Ini) (off : Fin 8) (val : Word),
      (off.val = 7) ∧ (Fits s ((s.modReg (pioPg 0 + pioOut0 + 4) (fun w => w &&& ~~~(val &&& s.gpioMask ini 1))).answer .ok 0))) :=
  ⟨⟨State.reset, levee, 0, false, 0x11, by decide +kernel⟩,
   ⟨State.reset.modPin 0 (fun x => { x with sw := true }), levee, 0, false, 0x11, by decide +kernel⟩,
   ⟨State.reset, levee, 0, true, 1, by decide +kernel⟩,
   ⟨State.reset.modPin 0 (fun x => { x with sw := true }), 0, by decide +kernel⟩,
   ⟨State.reset.modPin 0 (fun x => { x with sw := true, stored := some (0x11, 0) }), 0, (0x11, 0), by decide +kernel⟩,
   ⟨State.reset, 0, 0, 5, by decide +kernel⟩,
   ⟨State.reset, 0, 1, 5, by decide +kernel⟩,
   ⟨State.reset, 0, 2, 5, by decide +kernel⟩,
   ⟨State.reset, 0, 3, 5, by decide +kernel⟩,
   ⟨State.reset, 0, 4, 5, by decide +kernel⟩,
   ⟨State.reset, 0, 5, 5, by decide +kernel⟩,
   ⟨State.reset, 0, 6, 5, by decide +kernel⟩,
   ⟨State.reset, 0, 7, 5, by decide +kernel⟩⟩

theorem witness_PinCommandsComplete_part2 :
    (∃ (s : State) (k : Fin 16) (rise : Bool) (held : Bool) (n : Nat),
      (s.evinPins k.val = [n]) ∧ (held = true) ∧ (bit (BitVec.ofNat 2 (fld (s.reg (pioPg 1 + pioEvinCfg + 4 * k.val)) 0 2)) (if rise then 0 else 1) = true) ∧ ((s.pin n).sw = false) ∧ (s.bankVolt n ≠ 0) ∧ ((tget [] s.hts.ports (pioPg 0 / 0x1000)).length < 8) ∧ (Fits s ((s.setReg64 (pioPg 1 + pioEvts + 8 * k.val) s.aon.time.toNat).raise (pioPg 0) k.val))) ∧
    (∃ (s : State),
      (s.tapOk 0xFF = true) ∧ (Fits s (s.modTap (fun t => { t with ir := 0xFF })))) ∧
    (∃ (s : State),
      (s.tapOk 0x00 = true) ∧ (Fits s (s.modTap (fun t => { t with ir := 0x00 })))) ∧
    (∃ (s : State),
      (s.tapOk 0x03 = true) ∧ (Fits s (s.modTap (fun t => { t with ir := 0x03 })))) ∧
    (∃ (s : State),
      (s.tapOk 0x04 = true) ∧ (Fits s (s.modTap (fun t => { t with ir := 0x04 })))) ∧
    (∃ (s : State),
      (s.tapOk 0x05 = true) ∧ (Fits s (s.modTap (fun t => { t with ir := 0x05 })))) ∧
    (∃ (s : State),
      (s.tapOk 0x06 = true) ∧ (Fits s (s.modTap (fun t => { t with ir := 0x06 })))) ∧
    (∃ (s : State),
      (Fits s ((s.modTap (fun t => { t with ir := 0x02 })).modTap (fun t => { t with out := idcodeWord })))) ∧
    (∃ (s : State) (data : List Bool),
      (s.tapOk 0x01 = true) ∧ (Fits s ((s.modTap (fun t => { t with ir := 0x01 })).modTap (fun x => { x with bsr := data })))) ∧
    (∃ (s : State) (ini : Ini) (k : Fin 62) (val : Word),
      (s.mayWrite ini (calOff k.val) = true) ∧ (Fits s ((s.fieldWrite ini (calOff k.val) val).answer .ok 0))) ∧
    (∃ (s : State) (ini : Ini) (val : Word),
      (s.mayWrite ini (page .cal 0 + calClrall) = true) ∧ (bit (s.actBits ini (page .cal 0 + calClrall) val) 0 = true) ∧ (Fits s (((List.range 62).foldl (fun u k => if calSp k && ini != levee then u else u.modReg (calOff k) (fun w => setFld w 0 8 0)) (s.fieldWrite ini (page .cal 0 + calClrall) val)).answer .ok 0))) ∧
    (∃ (s : State) (bank : Fin 3) (volt : Fin 3),
      (Fits s { s with pio := { s.pio with volt := tset 0 s.pio.volt bank.val volt.val } })) :=
  ⟨⟨wEvin, 0, true, true, 0, by decide +kernel⟩,
   ⟨wTap, by decide +kernel⟩,
   ⟨wTap, by decide +kernel⟩,
   ⟨wTap, by decide +kernel⟩,
   ⟨wTap, by decide +kernel⟩,
   ⟨wTap, by decide +kernel⟩,
   ⟨wTap, by decide +kernel⟩,
   ⟨State.reset, by decide +kernel⟩,
   ⟨State.reset, [true], by decide +kernel⟩,
   ⟨State.reset, levee, 0, 5, by decide +kernel⟩,
   ⟨State.reset, levee, 1, by decide +kernel⟩,
   ⟨State.reset, 0, 1, by decide +kernel⟩⟩

theorem witness_FiresComplete_part1 :
    (∃ (s : State) (t : TileId),
      (s.canFire t.val fuNop = true) ∧ (Fits s (s.fireEffect t.val fuNop))) ∧
    (∃ (s : State) (t : TileId),
      (s.canFire t.val fuAdd = true) ∧ (Fits s (s.fireEffect t.val fuAdd))) ∧
    (∃ (s : State) (t : TileId),
      (s.canFire t.val fuAddc = true) ∧ (Fits s (s.fireEffect t.val fuAddc))) ∧
    (∃ (s : State) (t : TileId),
      (s.canFire t.val fuSub = true) ∧ (Fits s (s.fireEffect t.val fuSub))) ∧
    (∃ (s : State) (t : TileId),
      (s.canFire t.val fuSubb = true) ∧ (Fits s (s.fireEffect t.val fuSubb))) ∧
    (∃ (s : State) (t : TileId),
      (s.canFire t.val fuCmpeq = true) ∧ (Fits s (s.fireEffect t.val fuCmpeq))) ∧
    (∃ (s : State) (t : TileId),
      (s.canFire t.val fuCmpne = true) ∧ (Fits s (s.fireEffect t.val fuCmpne))) ∧
    (∃ (s : State) (t : TileId),
      (s.canFire t.val fuCmplt = true) ∧ (Fits s (s.fireEffect t.val fuCmplt))) ∧
    (∃ (s : State) (t : TileId),
      (s.canFire t.val fuCmpltu = true) ∧ (Fits s (s.fireEffect t.val fuCmpltu))) ∧
    (∃ (s : State) (t : TileId),
      (s.canFire t.val fuCmple = true) ∧ (Fits s (s.fireEffect t.val fuCmple))) ∧
    (∃ (s : State) (t : TileId),
      (s.canFire t.val fuCmpleu = true) ∧ (Fits s (s.fireEffect t.val fuCmpleu))) ∧
    (∃ (s : State) (t : TileId),
      (s.canFire t.val fuMov = true) ∧ (Fits s (s.fireEffect t.val fuMov))) ∧
    (∃ (s : State) (t : TileId),
      (s.canFire t.val fuNeg = true) ∧ (Fits s (s.fireEffect t.val fuNeg))) :=
  ⟨⟨wFire 0x00, 0, by decide +kernel⟩,
   ⟨wFire 0x01, 0, by decide +kernel⟩,
   ⟨wFire 0x02, 0, by decide +kernel⟩,
   ⟨wFire 0x03, 0, by decide +kernel⟩,
   ⟨wFire 0x04, 0, by decide +kernel⟩,
   ⟨wFire 0x05, 0, by decide +kernel⟩,
   ⟨wFire 0x06, 0, by decide +kernel⟩,
   ⟨wFire 0x07, 0, by decide +kernel⟩,
   ⟨wFire 0x08, 0, by decide +kernel⟩,
   ⟨wFire 0x09, 0, by decide +kernel⟩,
   ⟨wFire 0x0A, 0, by decide +kernel⟩,
   ⟨wFire 0x0B, 0, by decide +kernel⟩,
   ⟨wFire 0x0C, 0, by decide +kernel⟩⟩

theorem witness_FiresComplete_part2 :
    (∃ (s : State) (t : TileId),
      (s.canFire t.val fuAbs = true) ∧ (Fits s (s.fireEffect t.val fuAbs))) ∧
    (∃ (s : State) (t : TileId),
      (s.canFire t.val fuAnd = true) ∧ (Fits s (s.fireEffect t.val fuAnd))) ∧
    (∃ (s : State) (t : TileId),
      (s.canFire t.val fuOr = true) ∧ (Fits s (s.fireEffect t.val fuOr))) ∧
    (∃ (s : State) (t : TileId),
      (s.canFire t.val fuXor = true) ∧ (Fits s (s.fireEffect t.val fuXor))) ∧
    (∃ (s : State) (t : TileId),
      (s.canFire t.val fuAndn = true) ∧ (Fits s (s.fireEffect t.val fuAndn))) ∧
    (∃ (s : State) (t : TileId),
      (s.canFire t.val fuNot = true) ∧ (Fits s (s.fireEffect t.val fuNot))) ∧
    (∃ (s : State) (t : TileId),
      (s.canFire t.val fuShl = true) ∧ (Fits s (s.fireEffect t.val fuShl))) ∧
    (∃ (s : State) (t : TileId),
      (s.canFire t.val fuShr = true) ∧ (Fits s (s.fireEffect t.val fuShr))) ∧
    (∃ (s : State) (t : TileId),
      (s.canFire t.val fuSar = true) ∧ (Fits s (s.fireEffect t.val fuSar))) ∧
    (∃ (s : State) (t : TileId),
      (s.canFire t.val fuRol = true) ∧ (Fits s (s.fireEffect t.val fuRol))) ∧
    (∃ (s : State) (t : TileId),
      (s.canFire t.val fuRor = true) ∧ (Fits s (s.fireEffect t.val fuRor))) ∧
    (∃ (s : State) (t : TileId),
      (s.canFire t.val fuSel = true) ∧ (Fits s (s.fireEffect t.val fuSel))) ∧
    (∃ (s : State) (t : TileId),
      (s.canFire t.val fuSelp = true) ∧ (Fits s (s.fireEffect t.val fuSelp))) :=
  ⟨⟨wFire 0x0D, 0, by decide +kernel⟩,
   ⟨wFire 0x10, 0, by decide +kernel⟩,
   ⟨wFire 0x11, 0, by decide +kernel⟩,
   ⟨wFire 0x12, 0, by decide +kernel⟩,
   ⟨wFire 0x13, 0, by decide +kernel⟩,
   ⟨wFire 0x14, 0, by decide +kernel⟩,
   ⟨wFire 0x15, 0, by decide +kernel⟩,
   ⟨wFire 0x16, 0, by decide +kernel⟩,
   ⟨wFire 0x17, 0, by decide +kernel⟩,
   ⟨wFire 0x18, 0, by decide +kernel⟩,
   ⟨wFire 0x19, 0, by decide +kernel⟩,
   ⟨wFire 0x20, 0, by decide +kernel⟩,
   ⟨wFire 0x21, 0, by decide +kernel⟩⟩

theorem witness_FiresComplete_part3 :
    (∃ (s : State) (t : TileId),
      (s.canFire t.val fuSelt = true) ∧ (Fits s (s.fireEffect t.val fuSelt))) ∧
    (∃ (s : State) (t : TileId),
      (s.canFire t.val fuPasseq = true) ∧ (Fits s (s.fireEffect t.val fuPasseq))) ∧
    (∃ (s : State) (t : TileId),
      (s.canFire t.val fuPassne = true) ∧ (Fits s (s.fireEffect t.val fuPassne))) ∧
    (∃ (s : State) (t : TileId),
      (s.canFire t.val fuPasslt = true) ∧ (Fits s (s.fireEffect t.val fuPasslt))) ∧
    (∃ (s : State) (t : TileId),
      (s.canFire t.val fuPassltu = true) ∧ (Fits s (s.fireEffect t.val fuPassltu))) ∧
    (∃ (s : State) (t : TileId),
      (s.canFire t.val fuPassle = true) ∧ (Fits s (s.fireEffect t.val fuPassle))) ∧
    (∃ (s : State) (t : TileId),
      (s.canFire t.val fuPassleu = true) ∧ (Fits s (s.fireEffect t.val fuPassleu))) ∧
    (∃ (s : State) (t : TileId),
      (s.canFire t.val fuMul = true) ∧ (Fits s (s.fireEffect t.val fuMul))) ∧
    (∃ (s : State) (t : TileId),
      (s.canFire t.val fuMulu = true) ∧ (Fits s (s.fireEffect t.val fuMulu))) ∧
    (∃ (s : State) (t : TileId),
      (s.canFire t.val fuMac = true) ∧ (Fits s (s.fireEffect t.val fuMac))) ∧
    (∃ (s : State) (t : TileId),
      (s.canFire t.val fuMacu = true) ∧ (Fits s (s.fireEffect t.val fuMacu))) ∧
    (∃ (s : State) (t : TileId),
      (s.canFire t.val fuMsu = true) ∧ (Fits s (s.fireEffect t.val fuMsu))) ∧
    (∃ (s : State) (t : TileId),
      (s.canFire t.val fuAccld = true) ∧ (Fits s (s.fireEffect t.val fuAccld))) :=
  ⟨⟨wFire 0x22, 0, by decide +kernel⟩,
   ⟨wFire 0x23, 0, by decide +kernel⟩,
   ⟨wFire 0x24, 0, by decide +kernel⟩,
   ⟨wFire 0x25, 0, by decide +kernel⟩,
   ⟨wFire 0x26, 0, by decide +kernel⟩,
   ⟨wFire 0x27, 0, by decide +kernel⟩,
   ⟨wFire 0x28, 0, by decide +kernel⟩,
   ⟨wFire 0x30, 0, by decide +kernel⟩,
   ⟨wFire 0x31, 0, by decide +kernel⟩,
   ⟨wFire 0x32, 0, by decide +kernel⟩,
   ⟨wFire 0x33, 0, by decide +kernel⟩,
   ⟨wFire 0x34, 0, by decide +kernel⟩,
   ⟨wFire 0x35, 0, by decide +kernel⟩⟩

theorem witness_FiresComplete_part4 :
    (∃ (s : State) (t : TileId),
      (s.canFire t.val fuAdd4 = true) ∧ (Fits s (s.fireEffect t.val fuAdd4))) ∧
    (∃ (s : State) (t : TileId),
      (s.canFire t.val fuAdd2 = true) ∧ (Fits s (s.fireEffect t.val fuAdd2))) ∧
    (∃ (s : State) (t : TileId),
      (s.canFire t.val fuAdds4 = true) ∧ (Fits s (s.fireEffect t.val fuAdds4))) ∧
    (∃ (s : State) (t : TileId),
      (s.canFire t.val fuAdds2 = true) ∧ (Fits s (s.fireEffect t.val fuAdds2))) ∧
    (∃ (s : State) (t : TileId),
      (s.canFire t.val fuDot4 = true) ∧ (Fits s (s.fireEffect t.val fuDot4))) ∧
    (∃ (s : State) (t : TileId),
      (s.canFire t.val fuDot4u = true) ∧ (Fits s (s.fireEffect t.val fuDot4u))) ∧
    (∃ (s : State) (t : TileId),
      (s.canFire t.val fuDot2 = true) ∧ (Fits s (s.fireEffect t.val fuDot2))) ∧
    (∃ (s : State) (t : TileId),
      (s.canFire t.val fuDot2u = true) ∧ (Fits s (s.fireEffect t.val fuDot2u))) ∧
    (∃ (s : State) (t : TileId),
      (s.canFire t.val fuDdot4 = true) ∧ (Fits s (s.fireEffect t.val fuDdot4))) ∧
    (∃ (s : State) (t : TileId),
      (s.canFire t.val fuDdot4u = true) ∧ (Fits s (s.fireEffect t.val fuDdot4u))) ∧
    (∃ (s : State) (t : TileId),
      (s.canFire t.val fuPopc = true) ∧ (Fits s (s.fireEffect t.val fuPopc))) ∧
    (∃ (s : State) (t : TileId),
      (s.canFire t.val fuClz = true) ∧ (Fits s (s.fireEffect t.val fuClz))) ∧
    (∃ (s : State) (t : TileId),
      (s.canFire t.val fuCtz = true) ∧ (Fits s (s.fireEffect t.val fuCtz))) :=
  ⟨⟨wFire 0x40, 0, by decide +kernel⟩,
   ⟨wFire 0x41, 0, by decide +kernel⟩,
   ⟨wFire 0x42, 0, by decide +kernel⟩,
   ⟨wFire 0x43, 0, by decide +kernel⟩,
   ⟨wFire 0x44, 0, by decide +kernel⟩,
   ⟨wFire 0x45, 0, by decide +kernel⟩,
   ⟨wFire 0x46, 0, by decide +kernel⟩,
   ⟨wFire 0x47, 0, by decide +kernel⟩,
   ⟨wFire 0x48, 0, by decide +kernel⟩,
   ⟨wFire 0x49, 0, by decide +kernel⟩,
   ⟨wFire 0x50, 0, by decide +kernel⟩,
   ⟨wFire 0x51, 0, by decide +kernel⟩,
   ⟨wFire 0x52, 0, by decide +kernel⟩⟩

theorem witness_FiresComplete_part5 :
    (∃ (s : State) (t : TileId),
      (s.canFire t.val fuBext = true) ∧ (Fits s (s.fireEffect t.val fuBext))) ∧
    (∃ (s : State) (t : TileId),
      (s.canFire t.val fuBins = true) ∧ (Fits s (s.fireEffect t.val fuBins))) ∧
    (∃ (s : State) (t : TileId),
      (s.canFire t.val fuBrev = true) ∧ (Fits s (s.fireEffect t.val fuBrev))) ∧
    (∃ (s : State) (t : TileId),
      (s.canFire t.val fuGfmul = true) ∧ (Fits s (s.fireEffect t.val fuGfmul))) ∧
    (∃ (s : State) (t : TileId),
      (s.canFire t.val fuGfmuls = true) ∧ (Fits s (s.fireEffect t.val fuGfmuls))) ∧
    (∃ (s : State) (t : TileId),
      (s.canFire t.val fuGfmad = true) ∧ (Fits s (s.fireEffect t.val fuGfmad))) ∧
    (∃ (s : State) (t : TileId),
      (s.canFire t.val fuGfmads = true) ∧ (Fits s (s.fireEffect t.val fuGfmads))) ∧
    (∃ (s : State) (t : TileId),
      (s.canFire t.val fuCrcb = true) ∧ (Fits s (s.fireEffect t.val fuCrcb))) ∧
    (∃ (s : State) (t : TileId),
      (s.canFire t.val fuCrch = true) ∧ (Fits s (s.fireEffect t.val fuCrch))) ∧
    (∃ (s : State) (t : TileId),
      (s.canFire t.val fuCrcw = true) ∧ (Fits s (s.fireEffect t.val fuCrcw))) ∧
    (∃ (s : State) (t : TileId),
      (s.canFire t.val fuAdds = true) ∧ (Fits s (s.fireEffect t.val fuAdds))) ∧
    (∃ (s : State) (t : TileId),
      (s.canFire t.val fuSubs = true) ∧ (Fits s (s.fireEffect t.val fuSubs))) ∧
    (∃ (s : State) (t : TileId),
      (s.canFire t.val fuAddus = true) ∧ (Fits s (s.fireEffect t.val fuAddus))) :=
  ⟨⟨wFire 0x53, 0, by decide +kernel⟩,
   ⟨wFire 0x54, 0, by decide +kernel⟩,
   ⟨wFire 0x55, 0, by decide +kernel⟩,
   ⟨wFire 0x60, 0, by decide +kernel⟩,
   ⟨wFire 0x61, 0, by decide +kernel⟩,
   ⟨wFire 0x62, 0, by decide +kernel⟩,
   ⟨wFire 0x63, 0, by decide +kernel⟩,
   ⟨wFire 0x70, 0, by decide +kernel⟩,
   ⟨wFire 0x71, 0, by decide +kernel⟩,
   ⟨wFire 0x72, 0, by decide +kernel⟩,
   ⟨wFire 0x80, 0, by decide +kernel⟩,
   ⟨wFire 0x81, 0, by decide +kernel⟩,
   ⟨wFire 0x82, 0, by decide +kernel⟩⟩

theorem witness_FiresComplete_part6 :
    (∃ (s : State) (t : TileId),
      (s.canFire t.val fuSubus = true) ∧ (Fits s (s.fireEffect t.val fuSubus))) ∧
    (∃ (s : State) (t : TileId),
      (s.canFire t.val fuMin = true) ∧ (Fits s (s.fireEffect t.val fuMin))) ∧
    (∃ (s : State) (t : TileId),
      (s.canFire t.val fuMax = true) ∧ (Fits s (s.fireEffect t.val fuMax))) ∧
    (∃ (s : State) (t : TileId),
      (s.canFire t.val fuMinu = true) ∧ (Fits s (s.fireEffect t.val fuMinu))) ∧
    (∃ (s : State) (t : TileId),
      (s.canFire t.val fuMaxu = true) ∧ (Fits s (s.fireEffect t.val fuMaxu))) ∧
    (∃ (s : State) (t : TileId),
      (s.canFire t.val fuMinix = true) ∧ (Fits s (s.fireEffect t.val fuMinix))) ∧
    (∃ (s : State) (t : TileId),
      (s.canFire t.val fuBxor3 = true) ∧ (Fits s (s.fireEffect t.val fuBxor3))) ∧
    (∃ (s : State) (t : TileId),
      (s.canFire t.val fuBmaj3 = true) ∧ (Fits s (s.fireEffect t.val fuBmaj3))) ∧
    (∃ (s : State) (t : TileId),
      (s.canFire t.val fuBthr = true) ∧ (Fits s (s.fireEffect t.val fuBthr))) ∧
    (∃ (s : State) (t : TileId),
      (s.canFire t.val fuBmux = true) ∧ (Fits s (s.fireEffect t.val fuBmux))) ∧
    (∃ (s : State) (t : TileId),
      (s.canFire t.val fuBand3 = true) ∧ (Fits s (s.fireEffect t.val fuBand3))) ∧
    (∃ (s : State) (t : TileId),
      (s.canFire t.val fuBor3 = true) ∧ (Fits s (s.fireEffect t.val fuBor3))) :=
  ⟨⟨wFire 0x83, 0, by decide +kernel⟩,
   ⟨wFire 0x84, 0, by decide +kernel⟩,
   ⟨wFire 0x85, 0, by decide +kernel⟩,
   ⟨wFire 0x86, 0, by decide +kernel⟩,
   ⟨wFire 0x87, 0, by decide +kernel⟩,
   ⟨wFire 0x88, 0, by decide +kernel⟩,
   ⟨wFire 0x90, 0, by decide +kernel⟩,
   ⟨wFire 0x91, 0, by decide +kernel⟩,
   ⟨wFire 0x92, 0, by decide +kernel⟩,
   ⟨wFire 0x93, 0, by decide +kernel⟩,
   ⟨wFire 0x94, 0, by decide +kernel⟩,
   ⟨wFire 0x95, 0, by decide +kernel⟩⟩

theorem witness_StepTakesTheFrontCommand : (∃ (s : State) (c : Instr) (rest : List Instr), s.pending = c :: rest) ∧ (∃ s : State, s.pending = []) ∧
    ∃ s : State, s.pending = [] ∧ s.powered = false :=
  ⟨⟨State.reset.withFront .eventTake, .eventTake, [], rfl⟩, ⟨State.reset, rfl⟩, ⟨wMode .hold, rfl, by decide +kernel⟩⟩

theorem witness_UnpoweredBlocksStandStill : ∃ s : State, s.powered = false :=
  ⟨wMode .hold, by decide +kernel⟩

theorem witness_PortsBoundedKept : ∃ s t : State, PortsBounded s ∧ step s = .next t ∧ s.pending ≠ [] :=
  ⟨State.reset.withFront .eventTake, _, by unfold PortsBounded; decide +kernel, rfl, by decide⟩

theorem witness_NothingHeldKept : ∃ s t : State, NothingHeld s ∧ step s = .next t ∧ s.pending ≠ [] :=
  ⟨State.reset.withFront .eventTake, _, rfl, rfl, by decide⟩

theorem witness_RegisterReadsChangeNothing : ∃ off len : Nat, (blockAt off).isSome = true ∧ widthOk off len = true ∧ ¬(0x1000000 ≤ off ∧ off < 0x1100000) ∧ ¬(0x240000 ≤ off ∧ off < 0x300000) :=
  ⟨0x24, 4, by decide +kernel⟩

theorem witness_FirstViolationIsKept : (∃ (s : State) (pg flag : Nat), flag < 5 ∧ (s.reg (pg + hErr) &&& 0x8000001F) = 0) ∧ (∃ (s : State) (pg flag : Nat), flag < 5 ∧ (s.reg (pg + hErr) &&& 0x8000001F) ≠ 0) :=
  ⟨⟨State.reset, 0, 4, by decide +kernel⟩, ⟨State.reset.setReg hErr 1, 0, 0, by decide +kernel⟩⟩

theorem witness_OwnerAndLockTurnAway : (∃ (s : State) (ini : Ini) (off : Nat), s.mayWrite ini off = false ∧ (regDefAt off).isSome = true) ∧
    (∃ (s : State) (ini : Ini) (off : Nat) (d : RegDef), regDefAt off = some d ∧ s.mayWrite ini off = true ∧ d.sp = 0 ∧ d.rwl ≠ 0 ∧ s.locked off = true) :=
  ⟨⟨State.reset.setReg (dmaPage 0 + hOwner) 3, 0x20, dmaPage 0 + dmaCtrl, by decide +kernel⟩, ⟨State.reset.setReg (sysPage + hLock) 1, levee, sysPage + 0x54, _, rfl, by decide +kernel, by decide +kernel, by decide +kernel, by decide +kernel⟩⟩

theorem witness_HoleAccessIsCaptured : ∃ (s : State) (ini : Ini) (off : BitVec 25) (wr : Bool), (blockAt off.toNat).isNone = true ∧ ¬(0x1000000 ≤ off.toNat ∧ off.toNat < 0x1100000) ∧ ¬(0x240000 ≤ off.toNat ∧ off.toNat < 0x300000) ∧ Fits s (holeAccess ini off.toNat wr s) ∧ (s.reg (page .sys 0 + sysWerr) &&& 3) = 0 :=
  ⟨State.reset, levee, 0x1FFF000, true, by decide +kernel⟩

theorem witness_FireFrame : ∃ (t : TileId) (s : State), fireOf (.add t) = some (t, fuAdd) ∧ s.canFire t.val fuAdd = true ∧ Fits s (fire t.val fuAdd s) :=
  ⟨0, wFire 1, rfl, by decide +kernel⟩

theorem witness_LatencyOneFire : ∃ (s : State), s.canFire 0 fuAdd = true ∧ (fuAdd.run (s.fuIn 0)).idle = false ∧ fDreg (s.act 0) < 8 ∧ fFw (s.act 0) = true ∧ fDtm (s.act 0) = true ∧ fMen (s.act 0) = true ∧ fDoa (s.act 0) = true :=
  ⟨wFrame (1 + 2 ^ 10 + 2 ^ 32 * 1 + 2 ^ 40 * (0x14 + 2 ^ 5 * 0x14 + 2 ^ 10 * 0x14) + 2 ^ 55 + 2 ^ 61 + 2 ^ 63 + 2 ^ 96), by decide +kernel⟩

theorem witness_LatencyTwoFire : (∃ s : State, s.canFire 0 fuMac = true) ∧ (∃ (s : State) (e : Stage2), (s.tile 0).stage2 = [e] ∧ e.new = false ∧ regionMoves (s.rgn 0) = true ∧ s.stageFree 0 e = true ∧ e.dreg < 8) :=
  ⟨⟨wFire 0x32, by decide +kernel⟩, ⟨wTile { stage2 := [{ wStage2 with dreg := 3 }] }, _, rfl, by decide +kernel⟩⟩

theorem witness_GfMultiplication : ∃ w x y z k : Nat, w < 512 ∧ x < 256 ∧ y < 256 ∧ z < 256 ∧ k < 4 :=
  ⟨511, 255, 255, 255, 3, by decide⟩

theorem witness_CrcIsBitSerial : ∃ (n : Nat) (op : FuOp), (n = 1 ∧ op = fuCrcb) ∨ (n = 2 ∧ op = fuCrch) ∨ (n = 4 ∧ op = fuCrcw) :=
  ⟨4, fuCrcw, Or.inr (Or.inr ⟨rfl, rfl⟩)⟩

theorem witness_MinixUpdatesTheState : (∃ i : FuIn, i.a.toNat % 256 < i.b.toNat % 256) ∧ ∃ i : FuIn, i.b.toNat % 256 ≤ i.a.toNat % 256 :=
  ⟨⟨⟨4, 5, 0, 0, 0, 0, 0, false⟩, by decide⟩, ⟨⟨5, 5, 0, 0, 0, 0, 0, false⟩, by decide⟩⟩

theorem witness_MemoryWritesAreExact : (∃ (s : State) (q : WordReq), q.wr = true ∧ (s.bankWord q).2.1 = .ok) ∧ (∃ (s : State) (q : WordReq), q.wr = true ∧ (s.bankWord q).2.1 ≠ .ok) ∧
    (∃ (s : State) (ini : Ini) (first : Bool) (a : Nat) (d : Line) (m : BitVec 64), s.ocn.txns = [] ∧ a < 0x400000000000 ∧ (s.lineWrite ini first a d m).2 = .ok) ∧
    (∃ (s : State) (ini : Ini) (first : Bool) (a : Nat) (d : Line) (m : BitVec 64), s.ocn.txns = [] ∧ (s.lineWrite ini first a d m).2 ≠ .ok) :=
  ⟨⟨State.reset, ⟨levee, 0, 0x100, 1, true, 5, 7⟩, by decide +kernel⟩, ⟨State.reset, ⟨0x10, 4, 0x3FC0000, 0, true, 5, 7⟩, by decide +kernel⟩,
   ⟨State.reset, levee, true, 0x24000000, 5, 7, by decide +kernel⟩, ⟨State.reset, levee, true, 0xF00000000000, 1, 1, by decide +kernel⟩⟩

theorem witness_MemoryFormKeptByStores : ∃ (s t : State) (b : RBank), Memory.wf s.mem ∧ exec (.bankAccess b) s = .next t :=
  ⟨wBank, _, 0, by decide +kernel, rfl⟩

theorem witness_WipesZeroTheirRange : (∃ s : State, s.rsvr.swReq = true ∧ Fits s s) ∧
    (∃ (s : State) (ini : Ini) (val : Word), s.passesWhole ini (page .drc 0 + drcHvctrl) = true ∧ bit val 0 = true ∧ s.hvEn = false ∧ Fits s s) ∧
    (∃ s : State, s.drc.trained = 0xFF ∧ s.drc.init = false ∧ Fits s (dramInitDone s)) :=
  ⟨⟨{ State.reset with rsvr := { swReq := true } }, by decide +kernel⟩, ⟨State.reset, levee, 1, by decide +kernel⟩, ⟨{ State.reset with drc := { trained := 0xFF } }, by decide +kernel⟩⟩

theorem witness_HvDisableNeedsUncommitted : (∃ (s : State) (ini : Ini) (val : Word), s.passesWhole ini (page .drc 0 + drcHvctrl) = true ∧ bit val 0 = false ∧ s.hvEn = true ∧ s.hif.hdm.any (fun d => d.2.committed) = true) ∧
    (∃ (s : State) (ini : Ini) (val : Word), s.passesWhole ini (page .drc 0 + drcHvctrl) = true ∧ bit val 0 = false ∧ s.hvEn = true ∧ s.hif.hdm.any (fun d => d.2.committed) = false ∧ Fits s (hvDisable ini val s)) ∧
    (∃ (s : State) (ini : Ini) (val : Word), bit val 0 = true ∧ s.hvEn = false ∧ Fits s (hvDisable ini val s)) :=
  ⟨⟨{ State.reset.setReg (page .drc 0 + drcHvctrl) 1 with hif := { hdm := [(0, ⟨true, 1, true⟩)] } }, levee, 0, by decide +kernel⟩, ⟨State.reset.setReg (page .drc 0 + drcHvctrl) 1, levee, 0, by decide +kernel⟩, ⟨State.reset, levee, 1, by decide +kernel⟩⟩

theorem witness_WeirJudgesPace : ∃ (s : State) (ini : Ini) (q : Queue) (val : Word), s.passesWhole ini (sqPage q.val + sqWeir) = true ∧ fld val 16 10 < fld val 0 10 ∧ fld val 0 10 ≤ 512 ∧ Fits s s :=
  ⟨State.reset, levee, 127, 0x01FF0200, by decide +kernel⟩

theorem witness_LinkAndEnd : (∃ (s : State) (d : DmaCh) (w : DWord), s.dmaAt d.val 6 = some w ∧ bit w 8 = false ∧ reservedBits w [(0, 9), (16, 45)] = false ∧ (s.dmach d.val).loop = none ∧ Fits s (dmaLink d.val s) ∧ s.programAddr (8 * fld w 16 45 / 64 * 64) = true) ∧
    (∃ (s : State) (d : DmaCh) (w : DWord), s.dmaAt d.val 6 = some w ∧ bit w 8 = true ∧ reservedBits w [(0, 9), (16, 45)] = false ∧ (s.dmach d.val).latch = false ∧ Fits s (dmaEnd d.val s)) :=
  ⟨⟨wDmaWord (6 + 2 ^ 16 * 0x4000000) {}, 0, _, rfl, by decide +kernel⟩, ⟨wDmaWord 0x106 {}, 0, _, rfl, by decide +kernel⟩⟩

theorem witness_FcallThenFretReturns : (∃ (s : State) (b : Nat), s.execBank 0 = some b ∧ (s.bank 0 b).tf = false ∧ 1 ≤ (s.bank 0 b).res ∧ (s.bank 0 b).res < 6 ∧ (s.bank 0 b).cur < 6 ∧ bit (s.bank 0 b).pc 0 = false ∧ (s.bank 0 b).cont = none ∧ s.frameDue 0 b = [] ∧ Fits s s) ∧
    (∃ (s : State) (b : Nat), s.execBank 0 = some b ∧ (s.bank 0 b).tf = false ∧ (s.bank 0 b).res ≠ 1 ∧ (s.bank 0 b).cur < 6 ∧ bit ((s.bank 0 b).x 16) 0 = false ∧ ((s.bank 0 b).cur + 5) % 6 ∈ s.frameDue 0 b ∧ Fits s s) :=
  ⟨⟨wCore { low := [(18, 0x2D)] }, 0, by decide +kernel⟩, ⟨wDue, 0, by decide +kernel⟩⟩

theorem witness_TrapThenReturn : ∃ (s : State) (b : Nat), s.execBank 0 = some b ∧ (s.bank 0 b).tf = false ∧ (s.bank 0 b).tnest = false ∧ excCause 8 = true ∧ s.delegated 0 b false 8 = false ∧ bit (s.bank 0 b).pc 0 = false ∧ (s.bank 0 b).cont = none ∧ s.frameDue 0 b = [] ∧ Fits s s :=
  ⟨wCore { low := [(18, 8)] }, 0, by decide +kernel⟩

theorem witness_XkhtsNeedPrivilege : (∃ (s : State) (b : Nat), s.execBank 0 = some b ∧ (s.bank 0 b).priv = 0 ∧ (s.bank 0 b).tf = false ∧ bit (s.csr 0 csrMedeleg) 2 = false ∧ (s.bank 0 b).cont = none ∧ s.frameDue 0 b = [] ∧ Fits s s) ∧
    (∃ (s : State) (b : Nat), s.execBank 0 = some b ∧ (s.bank 0 b).priv ≠ 0 ∧ (s.bank 0 b).cont = none ∧ s.frameDue 0 b = [] ∧ Fits s s ∧ (tget [] s.hts.ports 0x10000).length < 8) :=
  ⟨⟨wCore { priv := 0 }, 0, by decide +kernel⟩, ⟨wCore { priv := 1 }, 0, by decide +kernel⟩⟩

theorem witness_RvRegisterArithmetic : ∃ (s : State) (b : Nat), s.execBank 0 = some b ∧ (s.bank 0 b).cont = none ∧ s.frameDue 0 b = [] ∧ Fits s s :=
  ⟨wCore {}, 0, by decide +kernel⟩

theorem witness_AtuInvalidateRemoves : (∃ (s : State) (ini : Ini) (val : Word), s.mayWrite ini (atuPage + atuInval) = true ∧ bit (s.actBits ini (atuPage + atuInval) val) 31 = true ∧ s.atu.busy = false ∧ Fits s (s.fieldWrite ini (atuPage + atuInval) val) ∧ s.atu.tlb ≠ []) ∧
    (∃ (s : State) (ini : Ini) (val : Word), s.mayWrite ini (atuPage + atuInval) = true ∧ bit (s.actBits ini (atuPage + atuInval) val) 31 = true ∧ s.atu.busy = true ∧ Fits s (atuInvalDone s)) :=
  ⟨⟨{ State.reset with atu := { tlb := [⟨some 5, 7, 0, 3⟩] } }, levee, 0x80010000, by decide +kernel⟩, ⟨{ State.reset with atu := { busy := true } }, levee, 0x80000000, by decide +kernel⟩⟩

theorem witness_NonceIsConsumed : (∃ (s : State) (ini : Ini) (v : BitVec 256), s.mayWrite ini (secPage + secCmd) = true ∧ bit (s.actBits ini (secPage + secCmd) (BitVec.ofNat 32 (1 + 2 ^ 31))) 31 = true ∧ fld (s.actBits ini (secPage + secCmd) (BitVec.ofNat 32 (1 + 2 ^ 31))) 0 4 = 1 ∧ Fits s (secNonce256 ini v s)) ∧
    (∃ (s : State) (ini : Ini) (v : Word) (k : Nat), k ∈ [2, 3, 4, 5] ∧ s.mayWrite ini (secPage + secCmd) = true ∧ bit (s.actBits ini (secPage + secCmd) v) 31 = true ∧ fld (s.actBits ini (secPage + secCmd) v) 0 4 = k) :=
  ⟨⟨State.reset, levee, 5, by decide +kernel⟩, ⟨State.reset, levee, 0x80000005, 5, by decide +kernel⟩⟩

theorem witness_ResetsKeepTheAonDomain : (∃ (s t : State) (straps : BitVec 16) (f : FuseRead) (cause : Nat), s.pmu.cold = some cause ∧ s.powered = true ∧ t.portsOk = true ∧ t = s.coldReset cause straps.toNat f.bad) ∧
    (∃ s : State, fld (s.reg (lvePg + lveLastflt)) 0 4 ≠ 0) :=
  ⟨⟨wPmu (fun p => { p with cold := some 2 }), _, 0, { bad := false }, 2, by decide +kernel, by decide +kernel, by decide +kernel, rfl⟩, ⟨State.reset.setReg (lvePg + lveLastflt) 3, by decide +kernel⟩⟩

theorem witness_MsixVectors : ∃ (s : State) (ini : Ini) (val : Word), s.mayWrite ini (hifPage 0 + hifMsix) = true ∧ Fits s (msixSend ini val s) :=
  ⟨State.reset, levee, 0xFFF, by decide +kernel⟩

theorem witness_OwnPbrIdRefused : ∃ (s : State) (ini : Ini) (a : BitVec 48) (wr : Bool) (id o : Nat), s.target a.toNat = .peer id o ∧ bit (s.reg (hifPage 0 + hifPbrid)) 31 = true ∧ fld (s.reg (hifPage 0 + hifPbrid)) 0 12 = id ∧ Fits s s ∧ s.outTxn ini a.toNat wr = none :=
  ⟨State.reset.setReg (hifPage 0 + hifPbrid) 0x80000005, levee, 0x801400000000, true, 5, 0, by decide +kernel⟩

theorem witness_DecActionByState : (∃ (s : State) (n : Nat), s.parkingOf n = none ∧ (s.thr n).st = .waiting ∧ (s.thr n).cnt = 1) ∧ (∃ (s : State) (n : Nat), s.parkingOf n = none ∧ (s.thr n).st = .waiting ∧ 2 ≤ (s.thr n).cnt) ∧
    (∃ (s : State) (n : Nat), s.parkingOf n = none ∧ (s.thr n).st = .parked ∧ 0xFFFE ≤ (s.thr n).erl) ∧ (∃ (s : State) (n : Nat), s.parkingOf n = none ∧ (s.thr n).st = .cancelled) ∧ (∃ (s : State) (n : Nat), s.parkingOf n = none ∧ (s.thr n).st = .free) :=
  ⟨⟨wThr { st := .waiting, cnt := 1 }, 0, by decide⟩, ⟨wThr { st := .waiting, cnt := 9 }, 0, by decide⟩, ⟨wThr { st := .parked, erl := 0xFFFF }, 0, by decide⟩, ⟨wThr { st := .cancelled }, 0, by decide⟩, ⟨State.reset, 4095, by decide⟩⟩

theorem witness_TimeAdvancesAndAlarms : (∃ s : State, s.aon.xtal = true ∧ s.sec.dbg = false ∧ (aonTick s).portsOk = true ∧ bit (s.reg (aonPage + aonCtrl)) 1 = true ∧ s.reg64 (aonPage + aonAlarm) ≤ (aonTick s).aon.time.toNat) ∧
    (∃ s : State, s.aon.xtal = true ∧ s.sec.dbg = false ∧ (aonTick s).portsOk = true ∧ bit (s.reg (aonPage + aonCtrl)) 1 = false) :=
  ⟨⟨{ State.reset.setReg (aonPage + aonCtrl) 2 with aon := { State.reset.aon with xtal := true, time := 0x7FFFFFFFFFFFFFFF } }, by decide +kernel⟩, ⟨{ State.reset with aon := { State.reset.aon with xtal := true } }, by decide +kernel⟩⟩

theorem witness_GpioWritesItsOwnPins : ∃ (s : State) (k : Fin 8), s.locked (pioPg 0 + pioOut0 + 4 * (k.val % 2)) = false ∧ Fits s s ∧ fld (s.pin (32 * (k.val % 2) + 3)).regs.1 4 2 = ownCore :=
  ⟨State.reset.modPin 3 (fun x => { x with pin := 0x11 }), 0, by decide +kernel⟩
end

section
/-!
PROOFS. The operations of the tile function unit that work byte by byte: GF(2^8) products (R51), CRC-32C (R52) and the
min-with-index update (R53).
-/
namespace Sys2Proof.Machine

/-! ### Lanes put together -/

/-- Lanes put together are the digits of the word in base 2^n. -/
theorem packLanes_eq_ofDigits (n : Nat) (l : List Nat) :
    packLanes n l = BitVec.ofNat 32 (Nat.ofDigits (2 ^ n) (l.map (· % 2 ^ n))) := by
  simp [packLanes, Nat.ofDigits_eq_sum_mapIdx, List.mapIdx_eq_zipIdx_map, List.zipIdx_map, Function.comp_def, pow_mul]

theorem ofDigits_mod_div_pow {b : Nat} (hb : 0 < b) (l : List Nat) (k : Nat) :
    Nat.ofDigits b (l.map (· % b)) / b ^ k % b = l.getD k 0 % b := by
  rw [Nat.ofDigits_div_pow_eq_ofDigits_drop k hb _ (by simpa using fun a _ => Nat.mod_lt a hb), Nat.ofDigits_mod_eq_head!,
    List.head!_eq_head?_getD, List.head?_drop, List.getElem?_map, List.getD_eq_getElem?_getD]
  cases l[k]? <;> simp

theorem fld_ofNat (v : Nat) {m lo n : Nat} (h : lo + n ≤ m) : fld (BitVec.ofNat m v) lo n = v / 2 ^ lo % 2 ^ n := by
  apply Nat.eq_of_testBit_eq
  intro j
  rw [testBit_fld, BitVec.getLsbD_ofNat, Nat.testBit_mod_two_pow, Nat.testBit_div_two_pow]
  by_cases hj : j < n
  · simp [hj, show j + lo < m by omega]
  · simp [hj]

/-- A lane of a word put together from lanes is what was put there, cut to the lane. -/
theorem lane_packLanes {n k : Nat} (h : n * (k + 1) ≤ 32) (l : List Nat) : lane (packLanes n l) n k = l.getD k 0 % 2 ^ n := by
  rw [lane, packLanes_eq_ofDigits, fld_ofNat _ (by rwa [← Nat.mul_succ]), pow_mul, ofDigits_mod_div_pow (by positivity)]

/-! ### Products in GF(2^8) -/

@[simp] theorem gfMulN_zero (p x y : Nat) : gfMulN p 0 x y = 0 := rfl

theorem gfMulN_succ (p n x y : Nat) :
    gfMulN p (n + 1) x y = (if y % 2 = 1 then x else 0) ^^^ gfMulN p n (gfMulStep p x) (y / 2) := rfl

@[simp] theorem gfMulN_right_zero (p n x : Nat) : gfMulN p n x 0 = 0 := by
  induction n generalizing x with
  | zero => rfl
  | succ n ih => simp [gfMulN_succ, ih]

theorem gfPoly_lt (w : Nat) : gfPoly w < 256 := by
  unfold gfPoly
  split <;> decide

theorem gfMulStep_lt {p v : Nat} (hp : p < 256) (hv : v < 256) : gfMulStep p v < 256 := by
  unfold gfMulStep
  split
  · omega
  · exact Nat.xor_lt_two_pow (n := 8) (by omega) hp

theorem gfMulN_lt {p : Nat} (hp : p < 256) (n : Nat) {x : Nat} (hx : x < 256) (y : Nat) : gfMulN p n x y < 256 := by
  induction n generalizing x y with
  | zero => simp
  | succ n ih =>
    rw [gfMulN_succ]
    exact Nat.xor_lt_two_pow (n := 8) (by split <;> omega) (ih (gfMulStep_lt hp hx) _)

theorem gfMul_lt (w y : Nat) {x : Nat} (hx : x < 256) : gfMul (gfPoly w) x y < 256 := gfMulN_lt (gfPoly_lt w) 8 hx y

/-- The term of a product that one bit of the second factor gives is linear in that bit. -/
theorem ite_odd_xor (x y z : Nat) :
    (if (y ^^^ z) % 2 = 1 then x else 0) = (if y % 2 = 1 then x else 0) ^^^ (if z % 2 = 1 then x else 0) := by
  rw [Nat.xor_mod_two_eq, Nat.add_mod]
  rcases Nat.mod_two_eq_zero_or_one y with hy | hy <;> rcases Nat.mod_two_eq_zero_or_one z with hz | hz <;> simp [hy, hz]

theorem gfMulN_xor (p n x y z : Nat) : gfMulN p n x (y ^^^ z) = gfMulN p n x y ^^^ gfMulN p n x z := by
  induction n generalizing x y z with
  | zero => simp
  | succ n ih =>
    rw [gfMulN_succ, gfMulN_succ, gfMulN_succ, Nat.xor_div_two, ih, ite_odd_xor]
    ac_rfl

/-- The multiplication by 2^k is k multiplications by x. -/
theorem gfMulN_two_pow (p : Nat) {n k : Nat} (h : k < n) (x : Nat) : gfMulN p n x (2 ^ k) = (gfMulStep p)^[k] x := by
  induction n generalizing k x with
  | zero => omega
  | succ n ih =>
    cases k with
    | zero => simp [gfMulN_succ]
    | succ k => simp [gfMulN_succ, pow_succ, ih (Nat.lt_of_succ_lt_succ h)]

theorem gfMul_two_pow_succ (p : Nat) {k : Nat} (hk : k < 7) (x : Nat) :
    gfMul p x (2 ^ (k + 1)) = gfMulStep p (gfMul p x (2 ^ k)) := by
  rw [gfMul, gfMul, gfMulN_two_pow p (by omega), gfMulN_two_pow p (by omega), Function.iterate_succ_apply']

/-- Taking bit 8 from a nine-bit number adds x^8 to it. -/
theorem sub_256_eq_xor {v : Nat} (hlo : 256 ≤ v) (hhi : v < 512) : v - 256 = v ^^^ 256 := by
  have hdiv : (v ^^^ 256) / 2 ^ 8 = 0 := by
    rw [Nat.xor_div_two_pow, show v / 2 ^ 8 = 1 by omega, show 256 / 2 ^ 8 = 1 by decide, Nat.xor_self]
  have hmod : (v ^^^ 256) % 2 ^ 8 = v % 2 ^ 8 := by
    rw [Nat.xor_mod_two_pow, show 256 % 2 ^ 8 = 0 by decide, Nat.xor_zero]
  omega

/-- x times v is 2v, reduced by the whole polynomial (its x^8 included) when it leaves the byte. -/
theorem gfMulStep_gfPoly (w : Nat) {v : Nat} (hv : v < 256) :
    gfMulStep (gfPoly w) v = if v < 128 then 2 * v else (2 * v) ^^^ (if w / 256 % 2 = 1 then 0x11B else 0x11D) := by
  have hpoly : 256 ^^^ gfPoly w = if w / 256 % 2 = 1 then 0x11B else 0x11D := by
    change 256 ^^^ (if w / 256 % 2 = 1 then 0x1B else 0x1D) = _
    split <;> rfl
  unfold gfMulStep
  split
  · rfl
  next h => rw [← hpoly, ← Nat.xor_assoc, ← sub_256_eq_xor (by omega) (by omega)]; rfl

/-- R51: a lane of any of the four operations. -/
theorem lane_gfOut (i : FuIn) (scalar acc : Bool) {k : Nat} (hk : k < 4) :
    lane (gfOut i scalar acc).res 8 k =
      (if acc then lane i.c 8 k else 0) ^^^
        gfMul (gfPoly i.imm) (lane i.a 8 k) (if scalar then i.imm % 256 else lane i.b 8 k) := by
  refine (lane_packLanes (by omega) _).trans ?_
  rw [List.getD_eq_getElem _ _ (by simpa using hk), List.getElem_map, List.getElem_range]
  refine Nat.mod_eq_of_lt ?_
  have hacc : (if acc then lane i.c 8 k else 0) < 2 ^ 8 := by
    split
    · exact fld_lt ..
    · decide
  exact Nat.xor_lt_two_pow hacc (gfMul_lt _ _ (fld_lt i.a (8 * k) 8))

/-- Settles O40: by linearity and induction on the bits of the second factor. -/
theorem gfMultiplication : Obligations.GfMultiplication := by
  refine ⟨?linear, ?one, ?double, ?lanes, rfl, rfl⟩
  case linear => exact fun w x y z _ _ _ _ => gfMulN_xor _ 8 x y z
  case one => exact fun w x _ => gfMulN_two_pow _ (k := 0) (by decide) x
  case double =>
    intro w x k hx hk
    rw [gfMul_two_pow_succ _ hk]
    exact gfMulStep_gfPoly w (gfMul_lt w _ hx)
  case lanes =>
    intro i k hk
    refine ⟨?_, ?_, lane_gfOut i false true hk, lane_gfOut i true true hk⟩
    · exact (lane_gfOut i false false hk).trans (Nat.zero_xor _)
    · exact (lane_gfOut i true false hk).trans (Nat.zero_xor _)

/-! ### CRC-32C -/

/-- One bit of the message taken into the register (R52). -/
def crcTake (c : Word) (b : Bool) : Word := if bit c 0 != b then (c >>> 1) ^^^ 0x82F63B78 else c >>> 1

/-- The first `n` of the message bits `m` taken in turn. -/
def crcTakes (m : Nat → Bool) (n : Nat) (c : Word) : Word := (List.range n).foldl (fun c j => crcTake c (m j)) c

theorem crcTakes_succ (m : Nat → Bool) (n : Nat) (c : Word) :
    crcTakes m (n + 1) c = crcTakes (fun j => m (j + 1)) n (crcTake c (m 0)) := by
  simp [crcTakes, List.range_succ_eq_map, List.foldl_map]

theorem crcTakes_add (m : Nat → Bool) (k n : Nat) (c : Word) :
    crcTakes m (k + n) c = crcTakes (fun j => m (k + j)) n (crcTakes m k c) := by
  simp [crcTakes, List.range_add, List.foldl_map]

/-- One step of the model's byte register: the message stands added to the register, its low bit is taken. -/
theorem crcBit_xor (c : Word) (m : Nat) : crcBit (c.toNat ^^^ m) = (crcTake c (m.testBit 0)).toNat ^^^ (m / 2) := by
  have hcond : (c.toNat ^^^ m) % 2 = 1 ↔ (bit c 0 != m.testBit 0) = true := by
    simp only [bit, BitVec.getLsbD, Nat.testBit_zero, Nat.xor_mod_two_eq, bne_iff_ne, ne_eq, decide_eq_decide]
    omega
  unfold crcBit crcTake
  by_cases h : (bit c 0 != m.testBit 0) = true
  · rw [if_pos h, if_pos (hcond.2 h)]
    simp only [Nat.xor_eq, Nat.xor_div_two, BitVec.toNat_xor, BitVec.toNat_ushiftRight, Nat.shiftRight_one]
    exact Nat.xor_right_comm ..
  · rw [if_neg h, if_neg (mt hcond.1 h)]
    simp only [Nat.xor_div_two, BitVec.toNat_ushiftRight, Nat.shiftRight_one]

theorem crcBits_xor (n : Nat) (c : Word) (m : Nat) :
    crcBits n (c.toNat ^^^ m) = (crcTakes m.testBit n c).toNat ^^^ (m / 2 ^ n) := by
  induction n generalizing c m with
  | zero => simp [crcBits, crcTakes]
  | succ n ih =>
    have hrest : (m / 2).testBit = fun j => m.testBit (j + 1) := funext (Nat.testBit_div_two m)
    rw [crcBits, crcBit_xor, ih, crcTakes_succ, Nat.div_div_eq_div_mul, ← pow_succ', hrest]

theorem crcByte_toNat (c : Word) (b : Byte) : crcByte c.toNat b.toNat = (crcTakes (bit b) 8 c).toNat := by
  have hgone : b.toNat / 2 ^ 8 = 0 := Nat.div_eq_of_lt b.isLt
  rw [crcByte, Nat.xor_eq, crcBits_xor, hgone, Nat.xor_zero]
  rfl

theorem crcTakes_congr {m m' : Nat → Bool} {n : Nat} (h : ∀ j < n, m j = m' j) (c : Word) :
    crcTakes m n c = crcTakes m' n c :=
  List.foldl_ext _ _ _ fun c j hj => by rw [h j (List.mem_range.1 hj)]

/-- The bits of byte `n` of a word are the word's bits from 8n on. -/
theorem bit_byte (a : Word) (n : Nat) {j : Nat} (hj : j < 8) :
    bit (BitVec.ofNat 8 (a.toNat / 2 ^ (8 * n))) j = bit a (8 * n + j) := by
  rw [bit, BitVec.getLsbD_ofNat, Nat.testBit_div_two_pow, decide_eq_true hj, Bool.true_and, Nat.add_comm]
  rfl

/-- The register after the low `n` bytes of a word, lowest first, has taken the word's low 8n bits. -/
theorem crc32cFrom_bytesOf (n : Nat) (a c : Word) :
    crc32cFrom c.toNat (bytesOf n a.toNat) = (crcTakes (bit a) (8 * n) c).toNat := by
  induction n with
  | zero => rfl
  | succ n ih =>
    have hlast : bytesOf (n + 1) a.toNat = bytesOf n a.toNat ++ [BitVec.ofNat 8 (a.toNat / 2 ^ (8 * n))] := by
      simp [bytesOf, List.range_succ]
    calc crc32cFrom c.toNat (bytesOf (n + 1) a.toNat)
        = crcByte (crc32cFrom c.toNat (bytesOf n a.toNat)) (BitVec.ofNat 8 (a.toNat / 2 ^ (8 * n))).toNat := by
          rw [hlast]; simp [crc32cFrom]
      _ = (crcTakes (fun j => bit a (8 * n + j)) 8 (crcTakes (bit a) (8 * n) c)).toNat := by
          rw [ih, crcByte_toNat, crcTakes_congr fun j hj => bit_byte a n hj]
      _ = (crcTakes (bit a) (8 * (n + 1)) c).toNat := by
          rw [Nat.mul_succ, crcTakes_add]

/-- R52: each CRC operation is bit-serial. -/
theorem crcOut_res (n : Nat) (i : FuIn) : (crcOut n i).res = crcTakes (bit i.a) (8 * n) i.b := by
  simp [crcOut, plain, crc32cFrom_bytesOf]

/-- Settles O41: the bytes one after the other, each bit by bit; the check value by evaluation. -/
theorem crcIsBitSerial : Obligations.CrcIsBitSerial := by
  refine ⟨?serial, ?check⟩
  case serial =>
    rintro i n op (⟨rfl, rfl⟩ | ⟨rfl, rfl⟩ | ⟨rfl, rfl⟩) <;> exact crcOut_res _ i
  case check =>
    intro i
    simp only [fuCrcw, fuCrcb, crcOut_res]
    decide +kernel

/-! ### The min-with-index update -/

theorem fld_low_byte (w : Word) : fld w 0 8 = w.toNat % 256 := by simp [fld]

theorem fld_top_byte (w : Word) : fld w 24 8 = w.toNat / 2 ^ 24 :=
  Nat.mod_eq_of_lt (Nat.div_lt_of_lt_mul w.isLt)

/-- The state word of R53 by field. -/
def minixWord (min1 min2 idx count : Nat) : Word :=
  BitVec.ofNat 32 (min1 + 2 ^ 8 * min2 + 2 ^ 16 * idx + 2 ^ 24 * (count % 256))

theorem minixWord_fields {min1 min2 idx : Nat} (h1 : min1 < 256) (h2 : min2 < 256) (hi : idx < 256) (count : Nat) :
    let r := (minixWord min1 min2 idx count).toNat
    r / 2 ^ 24 = count % 256 ∧ r % 256 = min1 ∧ r / 2 ^ 8 % 256 = min2 ∧ r / 2 ^ 16 % 256 = idx := by
  intro r
  have hr : r = min1 + 2 ^ 8 * min2 + 2 ^ 16 * idx + 2 ^ 24 * (count % 256) :=
    (BitVec.toNat_ofNat ..).trans (Nat.mod_eq_of_lt (by omega))
  omega

/-- R53, the first case: A becomes the least magnitude, at the position that the count names. -/
theorem minixOut_below (i : FuIn) (h : i.a.toNat % 256 < i.b.toNat % 256) :
    minixOut i = { res := minixWord (i.a.toNat % 256) (i.b.toNat % 256) (i.b.toNat / 2 ^ 24) (i.b.toNat / 2 ^ 24 + 1), ft := some true } := by
  rw [minixOut]
  simp only [fld_low_byte, fld_top_byte]
  exact if_pos h

/-- R53, the other cases: the index stays, and A replaces the second magnitude where it is below it. -/
theorem minixOut_not_below (i : FuIn) (h : i.b.toNat % 256 ≤ i.a.toNat % 256) :
    minixOut i = { res := minixWord (i.b.toNat % 256) (min (i.a.toNat % 256) (fld i.b 8 8)) (fld i.b 16 8) (i.b.toNat / 2 ^ 24 + 1), ft := some false } := by
  rw [minixOut]
  simp only [fld_low_byte, fld_top_byte, if_neg h.not_gt]
  split
  next h2 => rw [min_eq_left h2.le]; rfl
  next h2 => rw [min_eq_right (not_lt.1 h2)]; rfl

theorem minixOut_with (i : FuIn) (a b : Word) :
    minixOut { i with a := a, b := b } = minixOut ⟨a, b, 0, 0, 0, 0, 0, false⟩ := rfl

/-- Settles O42: the fields of the state word in the two cases of the update, and the rule's table by evaluation. -/
theorem minixUpdatesTheState : Obligations.MinixUpdatesTheState := by
  refine ⟨fun i => ?fields, fun i => ?table⟩
  case fields =>
    have ha : i.a.toNat % 256 < 256 := Nat.mod_lt _ (by decide)
    have hmin1 : i.b.toNat % 256 < 256 := Nat.mod_lt _ (by decide)
    have hpos : i.b.toNat / 2 ^ 24 < 256 := Nat.div_lt_of_lt_mul i.b.isLt
    rcases lt_or_ge (i.a.toNat % 256) (i.b.toNat % 256) with h | h
    · obtain ⟨hcount, hrest⟩ := minixWord_fields ha hmin1 hpos (i.b.toNat / 2 ^ 24 + 1)
      simp only [fuMinix, minixOut_below i h]
      exact ⟨by simp [h], hcount, fun _ => hrest, fun h' => absurd h h'.not_gt⟩
    · obtain ⟨hcount, hrest⟩ := minixWord_fields hmin1 (min_lt_of_left_lt ha) (fld_lt i.b 16 8) (i.b.toNat / 2 ^ 24 + 1)
      simp only [fuMinix, minixOut_not_below i h]
      exact ⟨by simp [h], hcount, fun h' => absurd h' h.not_gt, fun _ => hrest⟩
  case table =>
    simp only [fuMinix]
    rw [minixOut_with i, minixOut_with i, minixOut_with i, minixOut_with i]
    decide +kernel

end Sys2Proof.Machine
end

section
/-!
PROOFS. The enable of the host-visible DRAM range: what a write of DRC_HVCTRL does where it is let through (R289, R290), and that
neither a write turned away nor a command that waits touches the enable.
-/
namespace Sys2Proof.Machine

/-! ### What a refused or waiting command leaves of the registers -/

/-- A violation is recorded in ERR and EVT_RAW of its page (R29), which every page holds at the same two offsets. -/
theorem State.reg_turnedAway (s : State) (flag : Nat) (ini : Ini) (off : Nat) (st : Status) {o : Nat} (herr : o % 0x1000 ≠ hErr)
    (hraw : o % 0x1000 ≠ hEvtRaw) : (s.turnedAway flag ini off st).reg o = s.reg o := by
  have hne1 : o ≠ off / 0x1000 * 0x1000 + hErr := by unfold hErr at *; omega
  have hne2 : o ≠ off / 0x1000 * 0x1000 + hEvtRaw := by unfold hEvtRaw at *; omega
  simp only [State.turnedAway, State.violate, State.reg_answer, State.reg_raise, State.reg_setReg, if_neg hne1, if_neg hne2]

/-- The one register that the begin of a wait touches is the count of back-invalidate exchanges (R443). -/
theorem State.reg_await (s : State) (h : Hold) {o : Nat} (ho : o ≠ page .hif 0 + hifBicnt) : (s.await h).reg o = s.reg o := by
  unfold State.await
  split
  · rfl
  · split
    · rfl
    · exact (State.reg_modReg ..).trans (if_neg ho)

/-- A guarded write of a register without SP bits runs its action, or OWNER or LOCK turns it away. -/
theorem State.regGuard_cases (s : State) (ini : Ini) {off : Nat} {d : RegDef} (hd : regDefAt off = some d) (hsp : d.sp = 0)
    (act : State → State) :
    s.regGuard ini off act = (act s).answer .ok 0 ∨ ∃ flag, s.regGuard ini off act = s.turnedAway flag ini off .ok := by
  unfold State.regGuard
  simp only [hd, hsp]
  by_cases howner : s.mayWrite ini off = true
  · by_cases hlock : (d.rwl ≠ 0 && s.locked off) = true
    · exact .inr ⟨2, by simp_all [State.turnedAway]⟩
    · exact .inl (by simp_all)
  · exact .inr ⟨1, by simp_all [State.turnedAway]⟩

/-! ### The enable of the host-visible range -/

/-- The enable is a bit of DRC_HVCTRL. -/
theorem State.hvEn_congr {s t : State} (h : t.reg (page .drc 0 + drcHvctrl) = s.reg (page .drc 0 + drcHvctrl)) : t.hvEn = s.hvEn :=
  congrArg (bit · 0) h

@[simp] theorem State.hvEn_answer (s : State) (st : Status) (d : DWord) : (s.answer st d).hvEn = s.hvEn := rfl

theorem State.hvEn_setHvctrl (s : State) (v : Word) : (s.setReg (page .drc 0 + drcHvctrl) v).hvEn = bit v 0 := by
  rw [State.hvEn, State.reg_setReg_self]

theorem State.hvEn_turnedAway (s : State) (flag : Nat) (ini : Ini) (off : Nat) (st : Status) :
    (s.turnedAway flag ini off st).hvEn = s.hvEn :=
  State.hvEn_congr (s.reg_turnedAway flag ini off st (by decide) (by decide))

theorem State.hvEn_await (s : State) (h : Hold) : (s.await h).hvEn = s.hvEn :=
  State.hvEn_congr (s.reg_await h (by decide))

theorem hvDisable_passes {s : State} {ini : Ini} (val : Word) (h : s.passesWhole ini (page .drc 0 + drcHvctrl) = true) :
    hvDisable ini val s = (s.hvctrlAct val).answer .ok 0 :=
  State.regGuard_passes _ h

theorem hvDisable_cases (s : State) (ini : Ini) (val : Word) :
    hvDisable ini val s = (s.hvctrlAct val).answer .ok 0 ∨
      ∃ flag, hvDisable ini val s = s.turnedAway flag ini (page .drc 0 + drcHvctrl) .ok :=
  s.regGuard_cases ini rfl rfl _

/-- R289: a write of 1 clears the range as it opens it. -/
theorem State.hvctrlAct_open {s : State} {val : Word} (hval : bit val 0 = true) (hen : s.hvEn = false) :
    s.hvctrlAct val = (({ s with drc := { s.drc with clr := true, ready := false } }).zeroHv).setReg (page .drc 0 + drcHvctrl) 1 := by
  simp [State.hvctrlAct, hval, hen]

/-- R290: a write of 0 is ignored, with cmdig, while a decoder is committed. -/
theorem State.hvctrlAct_close_committed {s : State} {val : Word} (hval : bit val 0 = false) (hen : s.hvEn = true)
    (hdm : s.hif.hdm.any (fun d => d.2.committed) = true) : s.hvctrlAct val = s.raise (page .drc 0) 3 := by
  simp only [State.hvctrlAct, hval, hen, hdm, Bool.false_eq_true, if_false, if_true]

/-- R290: with every decoder uncommitted a write of 0 closes the range. -/
theorem State.hvctrlAct_close_uncommitted {s : State} {val : Word} (hval : bit val 0 = false) (hen : s.hvEn = true)
    (hdm : s.hif.hdm.any (fun d => d.2.committed) = false) :
    s.hvctrlAct val = ({ s with drc := { s.drc with clr := false, ready := false } }).setReg (page .drc 0 + drcHvctrl) 0 := by
  simp only [State.hvctrlAct, hval, hen, hdm, Bool.false_eq_true, if_false, if_true]

theorem State.byteAt_hvctrlAct_open {s : State} {val : Word} (hval : bit val 0 = true) (hen : s.hvEn = false) {k : Nat}
    (hk : dramBase ≤ k) (hin : s.inHv (k - dramBase) = true) : (s.hvctrlAct val).byteAt k = 0 := by
  rw [State.hvctrlAct_open hval hen, State.byteAt_of_mem (State.setReg_mem ..), State.byteAt_zeroHv]
  exact if_pos ⟨hk, hin⟩

/-- Settles O46: a write that passes runs R290's case of the action, and the enable turns 1 only where the action clears the
range, since every other outcome of the command keeps the enable. -/
theorem hvDisableNeedsUncommitted : Obligations.HvDisableNeedsUncommitted := by
  refine ⟨fun s ini val hpass hval hen => ⟨fun hdm => ?committed, fun hdm hfits => ?uncommitted⟩, ?opened⟩
  case committed =>
    refine Takes.of_op rfl ?_
    rw [hvDisable_passes val hpass, State.hvctrlAct_close_committed hval hen hdm]
  case uncommitted =>
    refine ⟨_, congrArg Host.Outcome.next (State.gate_fits hfits), ?_⟩
    rw [hvDisable_passes val hpass, State.hvctrlAct_close_uncommitted hval hen hdm]
    exact ⟨State.hvEn_setHvctrl _ 0, rfl⟩
  case opened =>
    intro s ini val t hval hen hexec hopen k hk hin
    obtain rfl : s.gate (hvDisable ini val s) = t := Host.Outcome.next.inj hexec
    rcases s.gate_cases (hvDisable ini val s) with ⟨hgate, -⟩ | hgate | ⟨h, hgate⟩ <;> rw [hgate] at hopen ⊢
    · rcases hvDisable_cases s ini val with hact | ⟨flag, haway⟩
      · rw [hact]
        exact State.byteAt_hvctrlAct_open hval hen hk hin
      · rw [haway, State.hvEn_turnedAway, hen] at hopen
        cases hopen
    · rw [hen] at hopen
      cases hopen
    · rw [State.hvEn_await, hen] at hopen
      cases hopen

end Sys2Proof.Machine
end

section
/-!
PROOFS. The part's own PBR ID: how a register without a live value reads, and what becomes of a peer access that names the ID
(R445).
-/
namespace Sys2Proof.Machine

/-! ### Registers that read as stored -/

/-- Past the page header a register that reports no live state reads as the stored word (R33). -/
theorem State.regRead_stored (s : State) {off : Nat} {r : BlockRow} {d : RegDef} (hblock : blockAt off = some r)
    (hdef : regDefAt off = some d) (hbody : 0x40 ≤ off % 0x1000) (hliveA : s.liveA r.blk (pageIdx r off) (off % 0x1000) = none)
    (hliveB : s.liveB r.blk (pageIdx r off) (off % 0x1000) = none) : s.regRead off = s.reg off := by
  have hheader : off % 0x1000 ≠ hId ∧ off % 0x1000 ≠ hCaps ∧ off % 0x1000 ≠ hOwner ∧ off % 0x1000 ≠ hLock := by
    unfold hId hCaps hOwner hLock; omega
  obtain ⟨hid, hcaps, howner, hlock⟩ := hheader
  simp [State.regRead, hblock, hdef, hid, hcaps, howner, hlock, hliveA, hliveB, Nat.not_lt.mpr hbody]

/-- Outside the routing tables a 4-byte read returns the register word. -/
theorem State.windowValue_word (s : State) {off : Nat} (h : ¬ (0x240000 ≤ off ∧ off < 0x300000)) :
    s.windowValue off 4 = (s.regRead off).setWidth 64 := by
  simp [State.windowValue, if_neg h]

theorem State.regRead_hifPbrid (s : State) : s.regRead (hifPage 0 + hifPbrid) = s.reg (hifPage 0 + hifPbrid) :=
  s.regRead_stored (r := ⟨.hif, 0x0016, 0x0900000, 4, false⟩) (by decide) (Option.eq_some_of_isSome (by decide)) (by decide) rfl rfl

/-! ### An access that is not sent -/

/-- An address of the peer range that names the part's own ID has no place to be sent to (R445). -/
theorem State.outTarget_ownId {s : State} {a id o : Nat} (htarget : s.target a = .peer id o)
    (hassigned : bit (s.reg (hifPage 0 + hifPbrid)) 31 = true) (hown : fld (s.reg (hifPage 0 + hifPbrid)) 0 12 = id) :
    s.outTarget a = none := by
  simp [State.outTarget, htarget, hassigned, hown]

/-- A peer access without a place to be sent to is refused, whatever the link and the power mode. -/
theorem outboundAccess_peer_refused (ini : Ini) {s : State} {a id o : Nat} (wr : Bool) (n : Nat) (htarget : s.target a = .peer id o)
    (hnone : s.outTarget a = none) : outboundAccess ini a wr n s = s.outAnswer (s.outTxn ini a wr) .slvErr [] := by
  simp [outboundAccess, htarget, hnone]

/-- With no transaction of the network waiting, an answer without data is the status and zero. -/
theorem State.outAnswer_none_nil (s : State) (st : Status) : s.outAnswer none st [] = s.answer st 0 := rfl

/-- Settles O57: the ID has no live value, so it reads as stored; a peer access that names it finds no place to go, and its refusal
is an answer alone. -/
theorem ownPbrIdRefused : Obligations.OwnPbrIdRefused := by
  refine ⟨fun s => ?reads, fun s ini a wr n id o htarget hassigned hown hfits hwaits => ?refused⟩
  case reads => rw [State.windowValue_word s (by decide), State.regRead_hifPbrid]
  case refused =>
    have hop : outboundAccess ini a.toNat wr n.toNat s = s.answer .slvErr 0 := by
      rw [outboundAccess_peer_refused ini wr _ htarget (State.outTarget_ownId htarget hassigned hown), hwaits, State.outAnswer_none_nil]
    exact ⟨_, Takes.of_op rfl hop hfits, rfl, State.answer_hif .., State.answer_mem ..⟩

end Sys2Proof.Machine
end

section
/-!
PROOFS. The step and the gate: every command is the gate of an operation, which is why the event ports stay bounded (R357, R358), why
no access is left waiting between commands (R265, R443), and why only the AON domain acts without main power (R374).
-/
namespace Sys2Proof.Machine

/-! ### The gate of a command -/

/-- The commands of the AON domain, which has power in HOLD and OFF too (R374). -/
def isAonCommand : Instr → Bool
  | .comparatorAssert _ _ | .comparatorDeassert _ _ | .alarmFire | .aonTick | .xtalFail | .aonPowerUp | .aonPowerLoss | .wake _
  | .pgMainRise | .coldReset _ _ | .perstAssert | .perstRelease | .tamperEvent => true
  | _ => false

/-- What a command of the AON domain does where the event ports have room. -/
def aonEffect : Instr → State → State
  | .comparatorAssert k sample, s => comparatorAssert k.val sample s
  | .comparatorDeassert k sample, s => comparatorDeassert k.val sample s
  | .alarmFire, s => alarmFire s
  | .aonTick, s => aonTick s
  | .xtalFail, s => xtalFail s
  | .aonPowerUp, s => aonPowerUp s
  | .aonPowerLoss, s => aonPowerLoss s
  | .wake src, s => wakeUp src s
  | .pgMainRise, s => pgMainRise s
  | .coldReset straps f, s => coldResetCmd straps f s
  | .perstAssert, s => perstAssert s
  | .perstRelease, s => perstRelease s
  | .tamperEvent, s => tamperEvent s
  | _, s => s

theorem exec_gate {c : Instr} (h : isAonCommand c = false) (s : State) : ∃ t, exec c s = .next (s.gate t) := by
  cases c
  case comparatorAssert | comparatorDeassert | alarmFire | aonTick | xtalFail | aonPowerUp | aonPowerLoss | wake | pgMainRise
    | coldReset | perstAssert | perstRelease | tamperEvent => cases h
  all_goals exact ⟨_, rfl⟩

theorem exec_gateAon {c : Instr} (h : isAonCommand c = true) (s : State) : exec c s = .next (s.gateAon (aonEffect c s)) := by
  cases c
  case comparatorAssert | comparatorDeassert | alarmFire | aonTick | xtalFail | aonPowerUp | aonPowerLoss | wake | pgMainRise
    | coldReset | perstAssert | perstRelease | tamperEvent => rfl
  all_goals cases h

/-- What a command can do: it passes the gate of its block or that of the AON domain. -/
theorem exec_cases (c : Instr) (s : State) : (∃ t, exec c s = .next (s.gate t)) ∨ exec c s = .next (s.gateAon (aonEffect c s)) := by
  cases h : isAonCommand c
  · exact .inl (exec_gate h s)
  · exact .inr (exec_gateAon h s)

/-- What a step can do: idle, or the command at the front of the queue on the state with the queue's rest. -/
theorem step_cases {s t : State} (h : step s = .next t) : t = s.idle ∨ ∃ c rest, exec c { s with pending := rest } = .next t := by
  unfold step at h
  split at h
  case h_1 => exact .inl (Host.Outcome.next.inj h).symm
  case h_2 c rest _ => exact .inr ⟨c, rest, h⟩

/-- Settles O28: each command passes a gate, and a gate lets a state through only where the ports have room for what it holds. -/
theorem portsBoundedKept : Obligations.PortsBoundedKept := by
  intro s t hs hstep
  rcases step_cases hstep with rfl | ⟨c, rest, hexec⟩
  · exact s.idle_portsOk hs
  · rcases exec_cases c { s with pending := rest } with ⟨u, h⟩ | h <;> obtain rfl := Host.Outcome.next.inj (h.symm.trans hexec)
    · exact State.gate_portsOk u hs
    · exact State.gateAon_portsOk _ hs

/-- Settles O2: each command passes a gate, and a gate answers a next state. -/
theorem everyCommandAnswersANextState : Obligations.EveryCommandAnswersANextState := by
  intro c s
  rcases exec_cases c s with ⟨t, h⟩ | h <;> exact ⟨_, h⟩

/-- Settles O26: without main power the gate of a block's command is shut. -/
theorem unpoweredBlocksStandStill : Obligations.UnpoweredBlocksStandStill := by
  intro c s hdown
  have hstill : ∀ c, isAonCommand c = false → exec c s = .next s := by
    intro c hc
    obtain ⟨t, h⟩ := exec_gate hc s
    rw [h, State.gate_unpowered t hdown]
  cases c
  case comparatorAssert | comparatorDeassert | alarmFire | aonTick | xtalFail | aonPowerUp | aonPowerLoss | wake | pgMainRise
    | coldReset | perstAssert | perstRelease | tamperEvent => exact everyCommandAnswersANextState _ s
  all_goals exact hstill _ rfl

/-- Settles O1: the step by the two cases of the queue. -/
theorem stepTakesTheFrontCommand : Obligations.StepTakesTheFrontCommand := by
  refine ⟨fun c s => rfl, fun s c rest h => ?front, fun s h => ?idle, fun s h hdown => ?down⟩
  case front => rw [step, h]
  case idle => rw [step, h]
  case down => rw [step, h]; exact congrArg Host.Outcome.next (s.idle_unpowered hdown)

/-! ### What a command waits for -/

theorem State.gate_hold {s : State} (t : State) (h : s.hold = none) : (s.gate t).hold = none := by
  rcases s.gate_cases t with ⟨hgate, hnone⟩ | hgate | ⟨w, hgate⟩ <;> rw [hgate]
  · exact hnone
  · exact h
  · rw [State.await_eq]; exact h

theorem State.gateAon_hold {s t : State} (hs : s.hold = none) (ht : t.hold = none) : (s.gateAon t).hold = none := by
  unfold State.gateAon
  split <;> assumption

theorem State.idle_hold (s : State) (h : s.hold = none) : s.idle.hold = none := by
  unfold State.idle
  generalize [State.queueTick, State.dmaTick, State.shadowTick, State.padEdge] = l
  induction l generalizing s with
  | nil => exact h
  | cons f l ih => exact ih _ (State.gate_hold _ h)

/-- Steps in a row keep what is waited for when each one does. -/
theorem hold_foldl {α : Type} (f : State → α → State) (hf : ∀ u x, (f u x).hold = u.hold) (l : List α) (s : State) :
    (l.foldl f s).hold = s.hold := by
  induction l generalizing s with
  | nil => rfl
  | cons x l ih => rw [List.foldl_cons, ih, hf]

@[simp] theorem State.hold_setMark (s : State) (line : Nat) (e : DramErr) : (s.setMark line e).hold = s.hold := rfl

@[simp] theorem State.hold_writeLine (s : State) (line : Nat) (d : Line) (m : BitVec 64) (v : Nat) :
    (s.writeLine line d m v).hold = s.hold := by
  unfold State.writeLine State.touchLine
  exact hold_foldl _ (fun u i => by split <;> rfl) _ s

@[simp] theorem State.hold_blockAnswer (s : State) (k : TxnKey) (f : Txn → Txn) : (s.blockAnswer k f).hold = s.hold := by
  unfold State.blockAnswer
  (repeat' split) <;> rfl

@[simp] theorem State.hold_flitServed (s : State) (x : Txn) (st : Status) (d : Option Line) (w : Option Ini) :
    (s.flitServed x st d w).hold = s.hold := by
  unfold State.flitServed
  dsimp only
  split <;> simp

@[simp] theorem State.hold_logUe (s : State) (b : Bool) (ini : Ini) (a : Nat) : (s.logUe b ini a).hold = s.hold := by
  unfold State.logUe
  dsimp only
  split <;> simp

@[simp] theorem State.hold_checkLine (s : State) (ini : Ini) (a : Nat) : (s.checkLine ini a).1.hold = s.hold := by
  unfold State.checkLine
  split <;> simp

theorem State.hold_dramLine (s : State) (ini : Ini) (a : Nat) (wr : Bool) (d : Line) (m : BitVec 64) :
    (s.dramLine ini a wr d m).1.hold = s.hold := by
  have hcheck := s.hold_checkLine ini a
  have hfull : (if m = BitVec.allOnes 64 then (s, true) else s.checkLine ini a).1.hold = s.hold := by
    split
    · rfl
    · exact hcheck
  unfold State.dramLine
  dsimp only
  split
  · rfl
  split
  · rfl
  split
  · revert hcheck
    rcases s.checkLine ini a with ⟨u, _ | _⟩ <;> exact id
  · revert hfull
    rcases (if m = BitVec.allOnes 64 then (s, true) else s.checkLine ini a) with ⟨u, _ | _⟩
    · exact id
    · intro h; simpa using h

@[simp] theorem State.hold_dramFlit (s : State) (x : Txn) : (s.dramFlit x).hold = s.hold :=
  (State.hold_flitServed ..).trans (State.hold_dramLine ..)

@[simp] theorem State.hold_emptyFilter (s : State) : s.emptyFilter.hold = s.hold := by
  unfold State.emptyFilter
  refine (hold_foldl _ (fun u e => ?_) _ _).trans rfl
  (repeat' split) <;> simp

@[simp] theorem State.hold_outAnswer (s : State) (k : Option TxnKey) (st : Status) (l : List Byte) : (s.outAnswer k st l).hold = s.hold := by
  unfold State.outAnswer
  cases k
  · rfl
  · exact State.hold_blockAnswer _ _ _

@[simp] theorem State.hold_endRequests (s : State) (p : OutReq → Bool) : (s.endRequests p).hold = s.hold :=
  (hold_foldl _ (fun u _ => u.hold_outAnswer _ _ _) _ _).trans rfl

@[simp] theorem State.hold_hdmClear (s : State) : s.hdmClear.hold = s.hold := by
  unfold State.hdmClear
  dsimp only
  split <;> simp

@[simp] theorem State.hold_linkReset (s : State) : s.linkReset.hold = s.hold := by
  simp [State.linkReset]

@[simp] theorem State.hold_noteWake (s : State) (k : Nat) : (s.noteWake k).hold = s.hold := by rw [State.noteWake_only]

@[simp] theorem State.hold_raiseAon (s : State) (i : Nat) : (s.raiseAon i).hold = s.hold := by
  unfold State.raiseAon
  split <;> simp

@[simp] theorem State.hold_setCmp (s : State) (k : Nat) (b : Bool) (v : Nat) : (s.setCmp k b v).hold = s.hold := rfl

@[simp] theorem State.hold_tapDrop (s : State) : s.tapDrop.hold = s.hold := by
  unfold State.tapDrop
  split <;> rfl

@[simp] theorem State.hold_endToken (s : State) : s.endToken.hold = s.hold := by
  unfold State.endToken
  rw [State.hold_tapDrop]
  split <;> rfl

@[simp] theorem State.hold_probeOff (s : State) : s.probeOff.hold = s.hold := by
  unfold State.probeOff
  split
  · rfl
  · exact hold_foldl _ (fun u _ => u.modReg_hold _ _) _ s

@[simp] theorem State.hold_authFall (t s : State) : (t.authFall s).hold = t.hold := by
  unfold State.authFall
  split
  · exact (hold_foldl _ (fun u _ => u.modReg_hold _ _) _ _).trans t.hold_probeOff
  · rfl

@[simp] theorem State.hold_setFcc16 (s : State) (off : Nat) (d : BitVec 512) : (s.setFcc16 off d).hold = s.hold :=
  hold_foldl _ (fun u _ => u.setReg_hold _ _) _ s

@[simp] theorem State.hold_endSession (s : State) : s.endSession.hold = s.hold := by
  unfold State.endSession
  split <;> simp

/-- A choice of two states that wait for the same. -/
theorem State.hold_ite {p : Prop} [Decidable p] {s t : State} {h : Option Hold} (hs : s.hold = h) (ht : t.hold = h) :
    (if p then s else t).hold = h := by
  split <;> assumption

theorem hold_comparatorAssert (k : Nat) (v : BitVec 10) (s : State) : (comparatorAssert k v s).hold = s.hold :=
  State.hold_ite (by simp) (State.hold_setCmp ..)

theorem hold_comparatorDeassert (k : Nat) (v : BitVec 10) (s : State) : (comparatorDeassert k v s).hold = s.hold :=
  State.hold_ite (by simp) (State.hold_setCmp ..)

theorem hold_perstAssert (s : State) : (perstAssert s).hold = s.hold :=
  State.hold_ite rfl (State.hold_ite (by simp) rfl)

@[simp] theorem hold_alarmFire (s : State) : (alarmFire s).hold = s.hold := by
  unfold alarmFire
  split <;> simp

@[simp] theorem hold_tokenExpire (s : State) : (tokenExpire s).hold = s.hold := by
  unfold tokenExpire
  split <;> simp

theorem hold_aonTick (s : State) : (aonTick s).hold = s.hold := by
  have hfree : (if s.aon.xtal || s.aon.xfail then (b2n s.aon.xtal, s) else s.freeNat 2).2.hold = s.hold := by split <;> rfl
  unfold aonTick
  dsimp only
  revert hfree
  rcases (if s.aon.xtal || s.aon.xfail then (b2n s.aon.xtal, s) else s.freeNat 2) with ⟨x, u⟩
  intro hfree
  simpa using hfree

theorem hold_tamperEvent (s : State) : (tamperEvent s).hold = s.hold := by
  unfold tamperEvent
  (repeat' split) <;> simp [State.requestDrain, State.emptyKeySlots]

theorem hold_coldReset (s : State) (cause straps : Nat) (bad : Bool) : (s.coldReset cause straps bad).hold = none := by
  unfold State.coldReset State.fuseCheck
  rw [State.hold_tapDrop]
  split
  · exact State.raise_hold _ _ _
  · rfl

theorem hold_coldResetCmd (straps : BitVec 16) (f : FuseRead) {s : State} (h : s.hold = none) : (coldResetCmd straps f s).hold = none := by
  unfold coldResetCmd
  split
  · exact hold_coldReset ..
  · exact h

/-- No command of the AON domain has an access to wait for. -/
theorem hold_aonEffect (c : Instr) {s : State} (h : s.hold = none) : (aonEffect c s).hold = none := by
  cases c
  case comparatorAssert k v => exact (hold_comparatorAssert ..).trans h
  case comparatorDeassert k v => exact (hold_comparatorDeassert ..).trans h
  case alarmFire => exact (hold_alarmFire s).trans h
  case aonTick => exact (hold_aonTick s).trans h
  case xtalFail => exact (State.hold_raiseAon ..).trans h
  case aonPowerUp => exact State.hold_ite rfl h
  case aonPowerLoss => rfl
  case wake src => exact State.hold_ite h h
  case pgMainRise => exact State.hold_ite h h
  case coldReset straps f => exact hold_coldResetCmd straps f h
  case perstAssert => exact (hold_perstAssert s).trans h
  case tamperEvent => exact (hold_tamperEvent s).trans h
  all_goals exact h

/-- Settles O29: a gate lets through no state in which an access waits, and the AON domain has no such access. -/
theorem nothingHeldKept : Obligations.NothingHeldKept := by
  intro s t hs hstep
  rcases step_cases hstep with rfl | ⟨c, rest, hexec⟩
  · exact s.idle_hold hs
  · have hs' : ({ s with pending := rest } : State).hold = none := hs
    rcases exec_cases c { s with pending := rest } with ⟨u, h⟩ | h <;> obtain rfl := Host.Outcome.next.inj (h.symm.trans hexec)
    · exact State.gate_hold u hs'
    · exact State.gateAon_hold hs' (hold_aonEffect c hs')

end Sys2Proof.Machine
end

section
/-!
PROOFS. The register window: what a violation leaves in ERR and EVT_RAW (R29), the writes that OWNER and LOCK turn away (R31, R32), and
that a read changes nothing (R26).
-/
namespace Sys2Proof.Machine

/-- Settles O27: the reset state has no occurrence and no access in hand. -/
theorem portsBoundedAtReset : Obligations.PortsBoundedAtReset := ⟨rfl, rfl⟩

/-! ### Violations (R29) -/

/-- ERR after a violation: the capture of the first, or the flag and ovf added to what is captured. -/
theorem State.reg_violate_err (s : State) (pg flag : Nat) (ini : Ini) (off : Nat) (wr : Bool) :
    (s.violate pg flag ini off wr).reg (pg + hErr) =
      if (s.reg (pg + hErr) &&& 0x8000001F) = 0 then
        BitVec.ofNat 32 (2 ^ flag + 2 ^ 8 * ini.toNat + 2 ^ 16 * (off % 0x1000) + 2 ^ 28 * b2n wr)
      else setBit (setBit (s.reg (pg + hErr)) flag) 31 := by
  have hne : pg + hErr ≠ pg + hEvtRaw := by simp [hErr, hEvtRaw]
  rw [State.violate, State.reg_raise, if_neg hne, State.reg_setReg_self]

theorem State.reg_violate_evtRaw (s : State) (pg flag : Nat) (ini : Ini) (off : Nat) (wr : Bool) :
    (s.violate pg flag ini off wr).reg (pg + hEvtRaw) = setBit (s.reg (pg + hEvtRaw)) 31 := by
  have hne : pg + hEvtRaw ≠ pg + hErr := by simp [hErr, hEvtRaw]
  rw [State.violate, State.reg_raise, if_pos rfl, State.reg_setReg, if_neg hne]

theorem State.reg_violate_ne (s : State) (pg flag : Nat) (ini : Ini) (off : Nat) (wr : Bool) {o : Nat} (herr : o ≠ pg + hErr)
    (hraw : o ≠ pg + hEvtRaw) : (s.violate pg flag ini off wr).reg o = s.reg o := by
  rw [State.violate, State.reg_raise, if_neg hraw, State.reg_setReg, if_neg herr]

/-- Settles O32: ERR by the two cases of its capture, the kept fields bit by bit. -/
theorem firstViolationIsKept : Obligations.FirstViolationIsKept := by
  intro s pg flag ini off wr hflag
  refine ⟨s.reg_violate_evtRaw .., fun hclear => ?first, fun hset => ?further⟩
  case first => rw [State.reg_violate_err, if_pos hclear]
  case further =>
    rw [State.reg_violate_err, if_neg hset]
    have hflag31 : flag ≠ 31 := by omega
    refine ⟨?_, ?_, fun k hlo hhi => ?_⟩
    · simp [bit_setBit, show flag < 32 by omega]
    · simp [bit_setBit]
    · simp [bit_setBit, show flag ≠ k by omega, show 31 ≠ k by omega]

/-! ### Ownership and lock (R31, R32) -/

/-- A write of a page that another initiator owns is turned away before its action. -/
theorem State.regGuard_notOwner {s : State} {ini : Ini} {off : Nat} (f : State → State) (h : s.mayWrite ini off = false)
    (hdef : (regDefAt off).isSome = true) : s.regGuard ini off f = s.turnedAway 1 ini off .ok := by
  obtain ⟨d, hd⟩ := Option.isSome_iff_exists.mp hdef
  simp [State.regGuard, State.turnedAway, hd, h]

/-- A write of a register with RWL fields is turned away while LOCK is set. -/
theorem State.regGuard_locked {s : State} {ini : Ini} {off : Nat} {d : RegDef} (f : State → State) (hd : regDefAt off = some d)
    (howner : s.mayWrite ini off = true) (hsp : d.sp = 0) (hrwl : d.rwl ≠ 0) (hlock : s.locked off = true) :
    s.regGuard ini off f = s.turnedAway 2 ini off .ok := by
  simp [State.regGuard, State.turnedAway, hd, howner, hsp, hrwl, hlock]

/-- Settles O33: each turned-away write by the rule that turns it away, and the frame of a violation. -/
theorem ownerAndLockTurnAway : Obligations.OwnerAndLockTurnAway := by
  refine ⟨fun s ini off val act h => ⟨?owner, fun hdef f => ?guard⟩, fun s ini off f d hd howner hsp hrwl hlock => ?lock,
    fun s flag ini off st o herr hraw => ?frame⟩
  case owner => exact State.regWrite_refused val act h
  case guard => exact State.regGuard_notOwner f h hdef
  case lock => exact State.regGuard_locked f hd howner hsp hrwl hlock
  case frame => exact s.reg_violate_ne _ _ _ _ _ herr hraw

/-! ### Reads (R26) -/

/-- Settles O30: of a read's cases a page of the window and a width that it takes leave the one that answers the value. -/
theorem registerReadsChangeNothing : Obligations.RegisterReadsChangeNothing := by
  intro s ini off len hblock hwidth haperture htables
  obtain ⟨r, hr⟩ := Option.isSome_iff_exists.mp hblock
  simp only [State.windowRead, if_neg haperture, if_neg htables, hr, hwidth, if_true]
  rfl

end Sys2Proof.Machine
end

section
/-!
PROOFS. What a register write can touch, said once (R9, R29, R33, R409), and the invalidation of the ATU's entries (R346).
-/
namespace Sys2Proof.Machine

/-! ### What passes a gate -/

/-- A command with room for its events and no access in hand answers its effect. -/
theorem exec_of_fits {c : Instr} {s t : State} (h : exec c s = .next (s.gate t)) (hfits : Fits s t) : exec c s = .next t := by
  rw [h, State.gate_fits hfits]

/-- Whether a command takes place depends on the ports and the wait of the state it leads to. -/
theorem Fits.congr {s t u : State} (h : Fits s t) (hports : u.hts.ports = t.hts.ports) (hhold : u.hold = t.hold) : Fits s u := by
  obtain ⟨hpower, hroom, hnone⟩ := h
  exact ⟨hpower, by rw [State.portsOk, hports]; exact hroom, hhold.trans hnone⟩

/-! ### Register writes -/

/-- Between s and u only registers, event ports and the access log have changed. -/
def State.onlyRegs (s u : State) : Prop :=
  u = { s with regs := u.regs, hts := { s.hts with ports := u.hts.ports }, lve := u.lve }

theorem State.onlyRegs.eq {s u : State} (h : s.onlyRegs u) :
    u = { s with regs := u.regs, hts := { s.hts with ports := u.hts.ports }, lve := u.lve } := h

theorem State.onlyRegs.trans {s u v : State} (h : s.onlyRegs u) (g : u.onlyRegs v) : s.onlyRegs v := by
  unfold State.onlyRegs at *
  rw [g, h]

theorem State.onlyRegs_setReg (s : State) (o : Nat) (w : Word) : s.onlyRegs (s.setReg o w) := rfl

theorem State.onlyRegs_raise (s : State) (pg i : Nat) : s.onlyRegs (s.raise pg i) := by
  unfold State.raise
  dsimp only
  split <;> rfl

theorem State.onlyRegs_violate (s : State) (pg flag : Nat) (ini : Ini) (off : Nat) (wr : Bool) : s.onlyRegs (s.violate pg flag ini off wr) :=
  (s.onlyRegs_setReg _ _).trans (State.onlyRegs_raise _ _ _)

theorem State.onlyRegs_logSp (s : State) (ini : Ini) (off : Nat) : s.onlyRegs (s.logSp ini off) := by
  unfold State.logSp
  split
  · rfl
  · dsimp only
    refine State.onlyRegs.trans ?_ (State.onlyRegs_raise _ _ _)
    split <;> rfl

theorem State.onlyRegs_refuseSp (s : State) (ini : Ini) (off : Nat) : s.onlyRegs (s.refuseSp ini off) :=
  (s.onlyRegs_violate _ _ _ _ _).trans (State.onlyRegs_logSp _ _ _)

/-- A field-by-field write touches registers, the ports of the events it raises and the access log. -/
theorem State.onlyRegs_fieldWrite (s : State) (ini : Ini) (off : Nat) (val : Word) : s.onlyRegs (s.fieldWrite ini off val) := by
  have hite : ∀ {p : Prop} [Decidable p] {u v : State}, s.onlyRegs v → (s.onlyRegs v → s.onlyRegs u) → s.onlyRegs (if p then u else v) := by
    intro p _ u v hv hu
    split
    · exact hu hv
    · exact hv
  unfold State.fieldWrite
  split
  · rfl
  · dsimp only
    exact hite (hite (s.onlyRegs_setReg _ _) (·.trans (State.onlyRegs_refuseSp _ _ _))) (·.trans (State.onlyRegs_violate _ _ _ _ _ _))

@[simp] theorem State.fieldWrite_atu (s : State) (ini : Ini) (off : Nat) (val : Word) : (s.fieldWrite ini off val).atu = s.atu :=
  (congrArg State.atu (s.onlyRegs_fieldWrite ini off val).eq :)
@[simp] theorem State.fieldWrite_mem (s : State) (ini : Ini) (off : Nat) (val : Word) : (s.fieldWrite ini off val).mem = s.mem :=
  (congrArg State.mem (s.onlyRegs_fieldWrite ini off val).eq :)
@[simp] theorem State.fieldWrite_hif (s : State) (ini : Ini) (off : Nat) (val : Word) : (s.fieldWrite ini off val).hif = s.hif :=
  (congrArg State.hif (s.onlyRegs_fieldWrite ini off val).eq :)
@[simp] theorem State.fieldWrite_sec (s : State) (ini : Ini) (off : Nat) (val : Word) : (s.fieldWrite ini off val).sec = s.sec :=
  (congrArg State.sec (s.onlyRegs_fieldWrite ini off val).eq :)
@[simp] theorem State.fieldWrite_hold (s : State) (ini : Ini) (off : Nat) (val : Word) : (s.fieldWrite ini off val).hold = s.hold :=
  (congrArg State.hold (s.onlyRegs_fieldWrite ini off val).eq :)

/-! ### The ATU's invalidation (R346) -/

/-- A go while idle drops the entries that it names and starts the wait for the translations before it. -/
theorem atuInvalidate_idle {s : State} {ini : Ini} {val : Word} (howner : s.mayWrite ini (atuPage + atuInval) = true)
    (hgo : bit (s.actBits ini (atuPage + atuInval) val) 31 = true) (hidle : s.atu.busy = false) :
    let u := s.fieldWrite ini (atuPage + atuInval) val
    atuInvalidate ini val s =
      { u with atu := { tlb := s.atu.tlb.filter (u.invalKeep (u.reg (atuPage + atuInval))), busy := true } }.answer .ok 0 := by
  intro u
  rw [atuInvalidate, State.regWrite_owner _ _ howner]
  simp [hgo, hidle, u]

/-- A go while busy raises cmdig and leaves the entries. -/
theorem atuInvalidate_busy {s : State} {ini : Ini} {val : Word} (howner : s.mayWrite ini (atuPage + atuInval) = true)
    (hgo : bit (s.actBits ini (atuPage + atuInval) val) 31 = true) (hbusy : s.atu.busy = true) :
    atuInvalidate ini val s = ((s.fieldWrite ini (atuPage + atuInval) val).raise atuPage 2).answer .ok 0 := by
  rw [atuInvalidate, State.regWrite_owner _ _ howner]
  simp [hgo, hbusy]

/-- An invalidation of everything keeps no entry. -/
theorem State.invalKeep_all (s : State) {w : Word} (h : bit w 16 = true) (e : TlbEnt) : s.invalKeep w e = false := by
  simp [State.invalKeep, h]

/-- With no page named no entry of the named context is kept. -/
theorem State.invalKeep_context (s : State) {w : Word} (h : bit w 17 = false) {e : TlbEnt} (he : s.invalKeep w e = true) :
    e.ctx ≠ some (fld w 0 10) := by
  intro hctx
  simp [State.invalKeep, h, hctx] at he

/-- An entry of another context is kept unless everything goes. -/
theorem State.invalKeep_other (s : State) {w : Word} (h : bit w 16 = false) {e : TlbEnt} (he : e.ctx ≠ some (fld w 0 10)) :
    s.invalKeep w e = true := by
  simp [State.invalKeep, h, he]

theorem atuInvalDone_busy {s : State} (h : s.atu.busy = true) :
    atuInvalDone s = ({ s with atu := { s.atu with busy := false } }).raise atuPage 0 := by
  simp [atuInvalDone, h]

/-- Settles O53: the filter of a go by what each entry's context and the request's bits say of it. -/
theorem atuInvalidateRemoves : Obligations.AtuInvalidateRemoves := by
  refine ⟨?go, fun s ini val howner hgo hbusy => ?busy, fun s hbusy hfits => ?done⟩
  case go =>
    intro s ini val howner hgo hidle w hfits
    have hop := atuInvalidate_idle howner hgo hidle
    refine ⟨_, (exec_of_fits rfl (hop ▸ hfits.congr rfl rfl)).trans (congrArg _ hop), rfl, ?_, fun hall => ?_, fun hctx e he => ?_,
      fun hall e he hctx => ?_⟩
    · exact fun e he => (List.mem_filter.mp he).1
    · exact List.filter_eq_nil_iff.mpr fun e _ => ne_true_of_eq_false (State.invalKeep_all _ hall e)
    · exact State.invalKeep_context _ hctx (List.mem_filter.mp he).2
    · exact List.mem_filter.mpr ⟨he, State.invalKeep_other _ hall hctx⟩
  case busy => exact Takes.of_op rfl (atuInvalidate_busy howner hgo hbusy)
  case done =>
    refine ⟨_, exec_of_fits rfl hfits, ?_⟩
    rw [atuInvalDone_busy hbusy]
    exact ⟨State.raise_atu .., by simp [State.reg_raise, bit_setBit], State.raise_mem ..⟩

end Sys2Proof.Machine
end

section
/-!
PROOFS. SEC's nonce: what loads it, and that every command that names it leaves it spent (R427).
-/
namespace Sys2Proof.Machine

/-! ### What leaves SEC's state alone -/

@[simp] theorem State.sec_secEnd (s : State) (op code : Nat) : (s.secEnd op code).sec = s.sec := by
  unfold State.secEnd
  dsimp only
  split <;> simp

@[simp] theorem State.hold_secEnd (s : State) (op code : Nat) : (s.secEnd op code).hold = s.hold := by
  unfold State.secEnd
  dsimp only
  split <;> simp

/-- The end of a command writes SEC_RES and EVT_RAW alone. -/
theorem State.reg_secEnd (s : State) (op code : Nat) {o : Nat} (hres : o ≠ secPage + secRes) (hraw : o ≠ secPage + hEvtRaw) :
    (s.secEnd op code).reg o = s.reg o := by
  unfold State.secEnd
  dsimp only
  split <;> simp [State.reg_raise, State.reg_setReg, hres, hraw]

/-- Steps in a row keep SEC's state when each one does. -/
theorem sec_foldl {α : Type} (f : State → α → State) (hf : ∀ u x, (f u x).sec = u.sec) (l : List α) (s : State) :
    (l.foldl f s).sec = s.sec := by
  induction l generalizing s with
  | nil => rfl
  | cons x l ih => rw [List.foldl_cons, ih, hf]

@[simp] theorem State.sec_endSession (s : State) : s.endSession.sec = s.sec := by
  unfold State.endSession State.setFcc16
  split
  · rw [State.raise_sec, sec_foldl _ fun u i => u.setReg_sec _ _]
  · rfl

@[simp] theorem State.sec_probeOff (s : State) : s.probeOff.sec = s.sec := by
  unfold State.probeOff
  split
  · rfl
  · exact sec_foldl _ (fun u _ => u.modReg_sec _ _) _ s

@[simp] theorem State.sec_authFall (t s : State) : (t.authFall s).sec = t.sec := by
  unfold State.authFall
  split
  · exact (sec_foldl _ (fun u _ => u.modReg_sec _ _) _ _).trans t.sec_probeOff
  · rfl

@[simp] theorem State.sec_tapDrop (s : State) : s.tapDrop.sec = s.sec := by
  unfold State.tapDrop
  split <;> rfl

/-- The end of the debug token leaves the nonce. -/
@[simp] theorem State.nonce_endToken (s : State) : s.endToken.sec.nonce = s.sec.nonce := by
  unfold State.endToken
  rw [State.sec_tapDrop]
  split <;> rfl

@[simp] theorem State.sec_requestCold (s : State) (cause : Nat) : (s.requestCold cause).sec = s.sec := by
  unfold State.requestCold
  split <;> rfl

@[simp] theorem State.sec_burn (s : State) (b : Nat) : (s.burn b).sec = s.sec := by
  unfold State.burn
  dsimp only
  (repeat' split) <;> rfl

@[simp] theorem State.nonce_lifeCycleWipe (s : State) : s.lifeCycleWipe.sec.nonce = s.sec.nonce := by
  unfold State.lifeCycleWipe
  rw [State.sec_requestCold]
  show (State.endToken _).sec.nonce = _
  rw [State.nonce_endToken, State.sec_endSession]
  rfl

/-! ### The nonce (R427) -/

/-- A command under an authorisation record spends the nonce before it acts, and its action brings none. -/
theorem State.nonce_secAuth (s : State) (op klen : Nat) (codes : State → List Byte → List Nat) (act : State → List Byte → State × Nat)
    (hact : ∀ u l, (act u l).1.sec.nonce = u.sec.nonce) : (s.secAuth op klen codes act).sec.nonce = false := by
  unfold State.secAuth
  rcases s.secRead 0 (64 + klen + 3312) with ⟨s0, _ | l⟩
  · exact congrArg Sec.nonce (State.sec_secEnd ..)
  · dsimp only
    split
    · exact congrArg Sec.nonce (State.sec_secEnd ..)
    · rw [State.sec_secEnd, hact]
      rfl

theorem State.nonce_secEnroll (s : State) : s.secEnroll.sec.nonce = false := s.nonce_secAuth _ _ _ _ fun _ _ => rfl
theorem State.nonce_secRevoke (s : State) : s.secRevoke.sec.nonce = false := s.nonce_secAuth _ _ _ _ fun _ _ => rfl
theorem State.nonce_secToken (s : State) : s.secToken.sec.nonce = false := s.nonce_secAuth _ _ _ _ fun _ _ => rfl

theorem State.nonce_secLcreq (s : State) : s.secLcreq.sec.nonce = false := by
  refine s.nonce_secAuth _ _ _ _ fun u l => ?_
  dsimp only
  rw [State.sec_authFall, State.nonce_lifeCycleWipe]
  split
  · rfl
  · rw [State.sec_burn]
    rfl

/-- The eight words of SEC_NONCE after NONCE. -/
theorem State.reg_nonceWords (s : State) (v : BitVec 256) {n i : Nat} (hi : i < n) :
    ((List.range n).foldl (fun u i => u.setReg (secPage + secNonce + 4 * i) (BitVec.ofNat 32 (fld v (32 * i) 32))) s).reg
      (secPage + secNonce + 4 * i) = BitVec.ofNat 32 (fld v (32 * i) 32) := by
  induction n with
  | zero => omega
  | succ n ih =>
    rw [List.range_succ, List.foldl_append, List.foldl_cons, List.foldl_nil, State.reg_setReg]
    by_cases h : i = n
    · rw [h, if_pos rfl]
    · rw [if_neg (by omega), ih (by omega)]

theorem State.nonce_secNonceLoad (s : State) (v : BitVec 256) : (s.secNonceLoad v).sec.nonce = true :=
  congrArg Sec.nonce (State.sec_secEnd ..)

theorem State.reg_secNonceLoad (s : State) (v : BitVec 256) {i : Nat} (hi : i < 8) :
    (s.secNonceLoad v).reg (secPage + secNonce + 4 * i) = BitVec.ofNat 32 (fld v (32 * i) 32) := by
  have hres : secPage + secNonce + 4 * i ≠ secPage + secRes := by simp only [secNonce, secRes]; omega
  have hraw : secPage + secNonce + 4 * i ≠ secPage + hEvtRaw := by simp only [secNonce, hEvtRaw]; omega
  exact (State.reg_secEnd _ _ _ hres hraw).trans (s.reg_nonceWords v hi)

theorem State.secOp_nonce (s : State) (v : BitVec 256) : s.secOp 1 (some v) = s.secNonceLoad v := rfl

theorem State.nonce_secOp (s : State) {op : Nat} (h : op ∈ [2, 3, 4, 5]) : (s.secOp op none).sec.nonce = false := by
  simp only [List.mem_cons, List.not_mem_nil, or_false] at h
  rcases h with rfl | rfl | rfl | rfl <;> unfold State.secOp
  · exact s.nonce_secEnroll
  · exact s.nonce_secRevoke
  · exact s.nonce_secLcreq
  · exact s.nonce_secToken

/-- A write of SEC_CMD with go runs the command that it names. -/
theorem secCmdWrite_go {s : State} {ini : Ini} {val : Word} (ent : Option (BitVec 256)) (howner : s.mayWrite ini (secPage + secCmd) = true)
    (hgo : bit (s.actBits ini (secPage + secCmd) val) 31 = true) :
    secCmdWrite ini val ent s =
      ((s.fieldWrite ini (secPage + secCmd) val).secOp (fld (s.actBits ini (secPage + secCmd) val) 0 4) ent).answer .ok 0 := by
  rw [secCmdWrite, State.regWrite_owner _ _ howner, if_pos hgo]

/-- Settles O54: NONCE by its load, the other commands by the authorisation that they run under. -/
theorem nonceIsConsumed : Obligations.NonceIsConsumed := by
  refine ⟨fun s ini v howner hgo hop hfits => ?load,
    fun s => ⟨s.nonce_secEnroll, s.nonce_secRevoke, s.nonce_secLcreq, s.nonce_secToken⟩, fun s ini v k hk howner hgo hop => ?spend⟩
  case load =>
    have hop' : secNonce256 ini v s = ((s.fieldWrite ini (secPage + secCmd) (BitVec.ofNat 32 (1 + 2 ^ 31))).secNonceLoad v).answer .ok 0 := by
      rw [secNonce256, secCmdWrite_go _ howner hgo, hop, State.secOp_nonce]
    have hexec : exec (.nonce ini v) s = .next (secNonce256 ini v s) := exec_of_fits rfl hfits
    rw [hexec, hop']
    refine ⟨_, rfl, ?_, fun i hi => ?_⟩
    · rw [State.answer_sec, State.nonce_secNonceLoad]
    · rw [State.reg_answer, State.reg_secNonceLoad _ v hi]
  case spend =>
    rw [secCmdWrite_go _ howner hgo, hop, State.answer_sec]
    exact State.nonce_secOp _ hk

end Sys2Proof.Machine
end

section
/-!
PROOFS. The marks of a stream queue (R183, R184), and the DEC action of the scheduler (R360).
-/
namespace Sys2Proof.Machine

/-! ### WEIR and pace (R183, R184) -/

/-- A mask that holds the whole of a field leaves the field. -/
theorem fld_and_mask {m : Nat} (w v : BitVec m) {lo n : Nat} (h : ∀ j < n, v.getLsbD (j + lo) = true) : fld (w &&& v) lo n = fld w lo n := by
  apply Nat.eq_of_testBit_eq
  intro j
  rw [testBit_fld, testBit_fld, BitVec.getLsbD_and]
  by_cases hj : j < n
  · rw [h j hj, Bool.and_true]
  · simp [hj]

/-- With marks in the wrong order or above 512 the write only raises cmdig. -/
theorem weirWrite_bad {s : State} {ini : Ini} {q : Nat} {val : Word} (hpass : s.passesWhole ini (sqPage q + sqWeir) = true)
    (hbad : fld val 0 10 ≤ fld val 16 10 ∨ 512 < fld val 0 10) :
    weirWrite ini q val s = (s.raise (sqPage q) 8).answer .ok 0 := by
  rw [weirWrite, State.regGuard_passes _ hpass, if_pos hbad]

/-- Marks in order are stored and judged. -/
theorem weirWrite_good {s : State} {ini : Ini} {q : Nat} {val : Word} (hpass : s.passesWhole ini (sqPage q + sqWeir) = true)
    (horder : fld val 16 10 < fld val 0 10) (hmax : fld val 0 10 ≤ 512) :
    weirWrite ini q val s = ((s.setReg (sqPage q + sqWeir) (val &&& 0x03FF03FF)).paceAgain q).answer .ok 0 := by
  rw [weirWrite, State.regGuard_passes _ hpass, if_neg (by omega)]

@[simp] theorem State.reg_paceAgain (s : State) (q o : Nat) : (s.paceAgain q).reg o = s.reg o := rfl
@[simp] theorem State.queue_setReg (s : State) (o k : Nat) (w : Word) : (s.setReg o w).queue k = s.queue k := rfl

theorem State.queue_paceAgain (s : State) (q k : Nat) :
    (s.paceAgain q).queue k = if k = q then
      let w := s.reg (sqPage q + sqWeir)
      { s.queue q with pace := paceOf (fld w 0 10) (fld w 16 10) ((s.queue q).watched (sqWsel (s.sqCtl q))) (s.queue q).pace }
    else s.queue k :=
  State.queue_setQueue ..

/-- The marks read neither the choice of what they watch nor what is stored beside them. -/
theorem State.sqCtl_setWeir (s : State) (q : Nat) (w : Word) : (s.setReg (sqPage q + sqWeir) w).sqCtl q = s.sqCtl q := by
  unfold State.sqCtl
  rw [State.reg_setReg, if_neg (by simp [sqWeir, sqCtrl])]

/-- pace by the place of the count between the marks. -/
theorem paceOf_cases {high low : Nat} (h : low < high) (m : Nat) (old : Bool) :
    (high ≤ m → paceOf high low m old = true) ∧ (m ≤ low → paceOf high low m old = false) ∧
      (low < m → m < high → paceOf high low m old = old) := by
  unfold paceOf
  refine ⟨fun hm => if_pos hm, fun hm => ?_, fun hlo hhi => ?_⟩
  · rw [if_neg (by omega), if_pos hm]
  · rw [if_neg (by omega), if_neg (by omega)]

/-- Settles O47: the two cases of the write, pace by the marks' case of the count. -/
theorem weirJudgesPace : Obligations.WeirJudgesPace := by
  intro s ini q val hpass
  refine ⟨fun hbad => Takes.of_op rfl (weirWrite_bad hpass hbad), fun horder hmax hfits => ?_⟩
  have hop := weirWrite_good hpass horder hmax
  have hhigh : fld (val &&& 0x03FF03FF) 0 10 = fld val 0 10 := fld_and_mask _ _ (by decide)
  have hlow : fld (val &&& 0x03FF03FF) 16 10 = fld val 16 10 := fld_and_mask _ _ (by decide)
  let t := ((s.setReg (sqPage q.val + sqWeir) (val &&& 0x03FF03FF)).paceAgain q.val).answer .ok 0
  have hweir : t.reg (sqPage q.val + sqWeir) = val &&& 0x03FF03FF := State.reg_setReg_self ..
  let m := (s.queue q.val).watched (sqWsel (s.sqCtl q.val))
  have hqueue : t.queue q.val = { s.queue q.val with pace := paceOf (fld val 0 10) (fld val 16 10) m (s.queue q.val).pace } := by
    refine (State.queue_paceAgain ..).trans ?_
    rw [if_pos rfl, State.reg_setReg_self]
    dsimp only
    rw [hhigh, hlow, State.sqCtl_setWeir, State.queue_setReg]
  refine ⟨t, (exec_of_fits rfl (hop ▸ hfits.congr rfl rfl)).trans (congrArg _ hop), ?_, ?_, ?_, ?_, fun k hk => ?_, fun o ho => ?_, rfl⟩
  · rw [hweir, hhigh]
  · rw [hweir, hlow]
  · rw [hqueue]
    exact paceOf_cases horder _ _
  · rw [hqueue]
  · exact (State.queue_paceAgain ..).trans (if_neg hk)
  · exact (State.reg_setReg ..).trans (if_neg ho)

/-! ### DEC (R360) -/

theorem State.thr_modThr (s : State) (n k : Nat) (f : Thr → Thr) : (s.modThr n f).thr k = if k = n then f (s.thr n) else s.thr k :=
  tget_tset ..

@[simp] theorem State.thr_modThr_self (s : State) (n : Nat) (f : Thr → Thr) : (s.modThr n f).thr n = f (s.thr n) := by
  rw [State.thr_modThr, if_pos rfl]

@[simp] theorem State.reg_modThr (s : State) (n o : Nat) (f : Thr → Thr) : (s.modThr n f).reg o = s.reg o := rfl
@[simp] theorem State.thr_setRq (s : State) (p n : Nat) (l : List Nat) : (s.setRq p l).thr n = s.thr n := rfl
@[simp] theorem State.thr_modReg (s : State) (o n : Nat) (f : Word → Word) : (s.modReg o f).thr n = s.thr n := rfl
@[simp] theorem State.thr_countUp (s : State) (o lo m k n : Nat) : (s.countUp o lo m k).thr n = s.thr n := rfl
@[simp] theorem State.mem_setRq (s : State) (p : Nat) (l : List Nat) : (s.setRq p l).mem = s.mem := rfl

@[simp] theorem State.thr_raise (s : State) (pg i n : Nat) : (s.raise pg i).thr n = s.thr n := by
  unfold State.raise
  dsimp only
  split <;> rfl

theorem State.thr_makeReady (s : State) (n k : Nat) :
    (s.makeReady n).thr k = if k = n then { s.thr n with st := .ready } else s.thr k :=
  State.thr_modThr s n k (fun t => { t with st := .ready })

@[simp] theorem State.mem_makeReady (s : State) (n : Nat) : (s.makeReady n).mem = s.mem := rfl

/-- A thread that becomes READY joins its queue's tail. -/
theorem State.rq_makeReady (s : State) (n : Nat) : (s.makeReady n).rq (s.thr n).pri = s.rq (s.thr n).pri ++ [n] := by
  unfold State.makeReady State.rqTail
  simp only [State.thr_modThr_self]
  exact tget_tset_self ..

/-- The early count after a DEC: the thread's, and its saturation as an event. -/
theorem State.thr_earlyDec (s : State) (n k : Nat) :
    (s.earlyDec n).thr k = if k = n then
      { s.thr n with erl := min 0xFFFF ((s.thr n).erl + 1), esat := (s.thr n).esat || decide (0xFFFE ≤ (s.thr n).erl) }
    else s.thr k := by
  unfold State.earlyDec
  by_cases hsat : 0xFFFE ≤ (s.thr n).erl <;> by_cases hk : k = n <;> simp [hsat, hk, State.thr_modThr]

theorem State.evtRaw_earlyDec (s : State) (n : Nat) : (s.earlyDec n).reg (htsPage 0 + hEvtRaw) =
    if 0xFFFE ≤ (s.thr n).erl then setBit (s.reg (htsPage 0 + hEvtRaw)) 7 else s.reg (htsPage 0 + hEvtRaw) := by
  unfold State.earlyDec
  by_cases hsat : 0xFFFE ≤ (s.thr n).erl <;> simp [hsat, State.reg_raise]

@[simp] theorem State.mem_earlyDec (s : State) (n : Nat) : (s.earlyDec n).mem = s.mem := by
  unfold State.earlyDec
  dsimp only
  split <;> simp

/-- A DEC for a FREE thread is a stray: the count, the thread's number and the event. -/
def State.strayDec (s : State) (n : Nat) : State :=
  ((s.countUp (htsPage 0 + htsStray) 0 16 1).modReg (htsPage 0 + htsStray) (fun w => setFld w 16 12 n)).raise (htsPage 0) 2

section

variable {s : State} {n : Nat} (hpark : s.parkingOf n = none)
include hpark

theorem State.decThread_counts (ev : Nat) (hst : (s.thr n).st = .waiting) (hcnt : 1 < (s.thr n).cnt) :
    s.decThread n ev = s.modThr n (fun t => { t with cnt := t.cnt - 1 }) := by
  simp [State.decThread, hpark, hst, Nat.not_le.mpr hcnt]

theorem State.decThread_releases (ev : Nat) (hst : (s.thr n).st = .waiting) (hcnt : (s.thr n).cnt ≤ 1) :
    s.decThread n ev =
      ((s.modThr n (fun t => { t with cnt := t.cnt - 1 })).modThr n (fun t => { t with rel := some ev })).makeReady n := by
  simp [State.decThread, hpark, hst, hcnt]

theorem State.decThread_early (ev : Nat) (hst : (s.thr n).st = .ready ∨ (s.thr n).st = .running ∨ (s.thr n).st = .parked) :
    s.decThread n ev = s.earlyDec n := by
  rcases hst with hst | hst | hst <;> simp [State.decThread, hpark, hst]

theorem State.decThread_cancelled (ev : Nat) (hst : (s.thr n).st = .cancelled) : s.decThread n ev = s := by
  simp [State.decThread, hpark, hst]

theorem State.decThread_free (ev : Nat) (hst : (s.thr n).st = .free) : s.decThread n ev = s.strayDec n := by
  simp [State.decThread, hpark, hst, State.strayDec]

/-- What a DEC can do: the count goes down, the thread is released, the early count grows, nothing, or a stray. -/
theorem State.decThread_cases (ev : Nat) :
    s.decThread n ev = s.modThr n (fun t => { t with cnt := t.cnt - 1 }) ∨
    s.decThread n ev =
      ((s.modThr n (fun t => { t with cnt := t.cnt - 1 })).modThr n (fun t => { t with rel := some ev })).makeReady n ∨
    s.decThread n ev = s.earlyDec n ∨ s.decThread n ev = s ∨ s.decThread n ev = s.strayDec n := by
  cases hst : (s.thr n).st
  case waiting =>
    rcases Nat.lt_or_ge 1 (s.thr n).cnt with hcnt | hcnt
    · exact .inl (State.decThread_counts hpark ev hst hcnt)
    · exact .inr (.inl (State.decThread_releases hpark ev hst hcnt))
  case ready | running | parked => exact .inr (.inr (.inl (State.decThread_early hpark ev (by simp [hst]))))
  case cancelled => exact .inr (.inr (.inr (.inl (State.decThread_cancelled hpark ev hst))))
  case free => exact .inr (.inr (.inr (.inr (State.decThread_free hpark ev hst))))

end

@[simp] theorem State.thr_strayDec (s : State) (n k : Nat) : (s.strayDec n).thr k = s.thr k := by simp [State.strayDec]
@[simp] theorem State.mem_strayDec (s : State) (n : Nat) : (s.strayDec n).mem = s.mem := by simp [State.strayDec]

theorem State.evtRaw_strayDec (s : State) (n : Nat) : bit ((s.strayDec n).reg (htsPage 0 + hEvtRaw)) 2 = true := by
  rw [State.strayDec, State.reg_raise, if_pos rfl]
  simp [bit_setBit]

theorem State.reg_strayDec (s : State) (n : Nat) : (s.strayDec n).reg (htsPage 0 + htsStray) =
    setFld (setFld (s.reg (htsPage 0 + htsStray)) 0 16 (satAdd (2 ^ 16 - 1) (fld (s.reg (htsPage 0 + htsStray)) 0 16) 1)) 16 12 n := by
  have hne : htsPage 0 + htsStray ≠ htsPage 0 + hEvtRaw := by simp [htsStray, hEvtRaw]
  rw [State.strayDec, State.reg_raise, if_neg hne, State.reg_modReg, if_pos rfl, State.countUp, State.reg_modReg, if_pos rfl]

/-- Settles O58: the thread's state picks the case of the DEC. -/
theorem decActionByState : Obligations.DecActionByState := by
  intro s n ev hpark
  refine ⟨fun k hk => ?others, ?memory, fun hst hcnt => ?counts, fun hst hcnt => ?releases, fun hst => ?early,
    State.decThread_cancelled hpark ev, fun hst => ?stray⟩
  case others =>
    rcases State.decThread_cases hpark ev with h | h | h | h | h <;> rw [h]
    · rw [State.thr_modThr, if_neg hk]
    · rw [State.thr_makeReady, if_neg hk, State.thr_modThr, if_neg hk, State.thr_modThr, if_neg hk]
    · rw [State.thr_earlyDec, if_neg hk]
    · exact s.thr_strayDec n k
  case memory => rcases State.decThread_cases hpark ev with h | h | h | h | h <;> rw [h] <;> simp
  case counts => rw [State.decThread_counts hpark ev hst hcnt, State.thr_modThr_self]
  case releases =>
    rw [State.decThread_releases hpark ev hst hcnt.le]
    generalize hu : (s.modThr n (fun t => { t with cnt := t.cnt - 1 })).modThr n (fun t => { t with rel := some ev }) = u
    have hthr : u.thr n = { s.thr n with cnt := (s.thr n).cnt - 1, rel := some ev } := by rw [← hu]; simp
    have hrq : u.rq (s.thr n).pri = s.rq (s.thr n).pri := by rw [← hu]; rfl
    have hpri : (u.thr n).pri = (s.thr n).pri := by rw [hthr]
    refine ⟨?_, ?_, ?_⟩
    · rw [State.thr_makeReady, if_pos rfl]
    · rw [State.thr_makeReady, if_pos rfl, hthr, hcnt]
    · rw [← hrq, ← hpri, State.rq_makeReady]
  case early =>
    rw [State.decThread_early hpark ev hst, State.thr_earlyDec, if_pos rfl, State.evtRaw_earlyDec]
    refine ⟨rfl, rfl, fun hlow => if_neg (by omega), fun hhigh => ⟨by simp [hhigh], ?_⟩⟩
    rw [if_pos hhigh]
    simp [bit_setBit]
  case stray =>
    rw [State.decThread_free hpark ev hst]
    refine ⟨s.evtRaw_strayDec n, s.thr_strayDec n n, ?_, ?_⟩
    · exact (congrArg (fld · 16 12) (State.reg_strayDec ..)).trans (fld_setFld_self _ _ _ _ (by decide))
    · rw [State.reg_strayDec, fld_setFld_ne _ _ _ _ _ _ (by decide) (by decide), fld_setFld_self _ _ _ _ (by decide), satAdd]
      omega

end Sys2Proof.Machine
end

section
/-!
PROOFS. The AON time and its alarm (R377, R378), the GPIO output registers (R481, R489), and the MSI-X messages of the host interface
(R436).
-/
namespace Sys2Proof.Machine

/-! ### AON_TIME and the alarm (R377, R378) -/

@[simp] theorem State.reg_modAon (s : State) (f : Aon → Aon) (o : Nat) : (s.modAon f).reg o = s.reg o := rfl
@[simp] theorem State.reg_noteWake (s : State) (k o : Nat) : (s.noteWake k).reg o = s.reg o := by rw [State.noteWake_only]; rfl

/-- An occurrence of the AON page sets its bit in every mode. -/
theorem State.reg_raiseAon (s : State) (i o : Nat) :
    (s.raiseAon i).reg o = if o = aonPage + hEvtRaw then setBit (s.reg o) i else s.reg o := by
  unfold State.raiseAon
  split
  · rw [State.reg_modReg]
    split
    · next h => rw [h]
    · rfl
  · exact State.reg_raise ..

/-- An occurrence of the AON page touches registers and ports alone. -/
theorem State.onlyRegs_raiseAon (s : State) (i : Nat) : s.onlyRegs (s.raiseAon i) := by
  unfold State.raiseAon
  split
  · exact s.onlyRegs_setReg _ _
  · exact s.onlyRegs_raise _ _

/-- The alarm is due: armed, and its time has come. -/
def State.alarmDue (s : State) : Prop :=
  bit (s.reg (aonPage + aonCtrl)) 1 = true ∧ s.reg64 (aonPage + aonAlarm) ≤ s.aon.time.toNat

theorem alarmFire_due {s : State} (h : s.alarmDue) :
    alarmFire s = ((s.noteWake 6).modReg (aonPage + aonCtrl) (fun w => clrBit w 1)).raiseAon 0 := by
  obtain ⟨harmed, hcome⟩ := h
  simp [alarmFire, harmed, hcome]

theorem alarmFire_notDue {s : State} (h : ¬ s.alarmDue) : alarmFire s = s := by
  rw [alarmFire, if_neg]
  simpa [State.alarmDue] using h

/-- An alarm that fires is disarmed and sets its event. -/
theorem reg_alarmFire_due {s : State} (h : s.alarmDue) :
    bit ((alarmFire s).reg (aonPage + aonCtrl)) 1 = false ∧ bit ((alarmFire s).reg (aonPage + hEvtRaw)) 0 = true := by
  have hne : aonPage + aonCtrl ≠ aonPage + hEvtRaw := by simp [aonCtrl, hEvtRaw]
  rw [alarmFire_due h, State.reg_raiseAon, State.reg_raiseAon, if_neg hne, if_pos rfl, State.reg_modReg, if_pos rfl, State.reg_noteWake]
  exact ⟨by simp [bit_clrBit], by simp [bit_setBit]⟩

/-- The alarm's part of a tick leaves the time, memory, the fabric and the debug token. -/
theorem alarmFire_keeps (s : State) : (alarmFire s).aon.time = s.aon.time ∧ (alarmFire s).aon.tload = s.aon.tload ∧
    (alarmFire s).mem = s.mem ∧ (alarmFire s).fab = s.fab ∧ (alarmFire s).sec = s.sec := by
  by_cases h : s.alarmDue
  · rw [alarmFire_due h]
    have hraise := (State.onlyRegs_raiseAon ((s.noteWake 6).modReg (aonPage + aonCtrl) (fun w => clrBit w 1)) 0).eq
    rw [hraise, State.noteWake_only]
    exact ⟨rfl, rfl, rfl, rfl, rfl⟩
  · rw [alarmFire_notDue h]
    exact ⟨rfl, rfl, rfl, rfl, rfl⟩

theorem tokenExpire_noToken {s : State} (h : s.sec.dbg = false) : tokenExpire s = s := by
  simp [tokenExpire, h]

/-- The count that a tick leads to: one more, or the value that waits to be loaded. -/
def State.nextTime (s : State) : DWord :=
  (if s.aon.tload then BitVec.ofNat 64 (s.reg64 (aonPage + aonTset)) else s.aon.time + 1) &&& 0x7FFFFFFFFFFFFFFF

theorem toNat_and_63 (w : DWord) : (w &&& 0x7FFFFFFFFFFFFFFF).toNat = w.toNat % 2 ^ 63 := by
  rw [BitVec.toNat_and, ← Nat.and_two_pow_sub_one_eq_mod]
  rfl

/-- R377: the count has 63 bits. -/
theorem State.toNat_nextTime (s : State) :
    s.nextTime.toNat = (if s.aon.tload then s.reg64 (aonPage + aonTset) else s.aon.time.toNat + 1) % 2 ^ 63 := by
  rw [State.nextTime, toNat_and_63]
  split
  · rw [BitVec.toNat_ofNat, Nat.mod_mod_of_dvd _ (by decide)]
  · rw [BitVec.toNat_add, Nat.mod_mod_of_dvd _ (by decide)]
    rfl

/-- With the crystal up and no debug token a tick is the new time and the alarm's part. -/
theorem aonTick_eq {s : State} (hxtal : s.aon.xtal = true) (htoken : s.sec.dbg = false) :
    aonTick s = alarmFire (s.modAon (fun a => { a with time := s.nextTime, tload := false, xtal := true })) := by
  obtain ⟨-, -, -, -, hsec⟩ := alarmFire_keeps (s.modAon (fun a => { a with time := s.nextTime, tload := false, xtal := true }))
  refine Eq.trans ?_ (tokenExpire_noToken ((congrArg Sec.dbg hsec).trans htoken))
  simp [aonTick, hxtal, b2n, State.nextTime]

/-- Settles O59: the new time, and the alarm's two cases at it. -/
theorem timeAdvancesAndAlarms : Obligations.TimeAdvancesAndAlarms := by
  intro s hxtal htoken hroom
  have hop := aonTick_eq hxtal htoken
  generalize hu : s.modAon (fun a => { a with time := s.nextTime, tload := false, xtal := true }) = u at hop
  obtain ⟨htime, hload, hmem, hfab, -⟩ := alarmFire_keeps u
  have hnext : u.aon.time = s.nextTime := by rw [← hu]; rfl
  have hreg : ∀ o, u.reg o = s.reg o := fun o => by rw [← hu]; rfl
  have hdue : u.alarmDue ↔ bit (s.reg (aonPage + aonCtrl)) 1 = true ∧ s.reg64 (aonPage + aonAlarm) ≤ s.nextTime.toNat := by
    rw [State.alarmDue, State.reg64, hreg, hreg, hreg, hnext]
    rfl
  have hexec : exec .aonTick s = .next (aonTick s) := congrArg Host.Outcome.next (s.gateAon_fits hroom)
  refine ⟨_, hexec.trans (congrArg _ hop), ?_, ?_, ?_, ?_, fun harmed hcome => ?_, fun hno => ?_⟩
  · rw [htime, hnext, State.toNat_nextTime]
  · rw [hload, ← hu]
    rfl
  · rw [hmem, ← hu]
    rfl
  · rw [hfab, ← hu]
    rfl
  · rw [htime, hnext] at hcome
    exact reg_alarmFire_due (hdue.mpr ⟨harmed, hcome⟩)
  · rw [htime, hnext] at hno
    have hnot : ¬ u.alarmDue := by
      rw [hdue]
      rintro ⟨harmed, hcome⟩
      rcases hno with h | h
      · rw [h] at harmed
        cases harmed
      · omega
    rw [alarmFire_notDue hnot]
    exact ⟨hreg _, hreg _⟩

/-! ### GPIO outputs (R481, R489) -/

/-- A sum of distinct powers of two below 2^n is below 2^n. -/
theorem sum_two_pow_lt (p : Nat → Prop) [DecidablePred p] (n : Nat) :
    ((List.range n).map (fun b => if p b then 2 ^ b else 0)).sum < 2 ^ n := by
  induction n with
  | zero => simp
  | succ n ih =>
    rw [List.range_succ, List.map_append, List.sum_append, Nat.pow_succ]
    simp only [List.map_cons, List.map_nil, List.sum_cons, List.sum_nil, Nat.add_zero]
    split <;> omega

/-- The bits of a number put together from a predicate. -/
theorem testBit_sum_two_pow (p : Nat → Prop) [DecidablePred p] (n b : Nat) :
    ((List.range n).map (fun b => if p b then 2 ^ b else 0)).sum.testBit b = (decide (b < n) && decide (p b)) := by
  induction n with
  | zero => simp
  | succ n ih =>
    have hlt := sum_two_pow_lt p n
    rw [List.range_succ, List.map_append, List.sum_append]
    simp only [List.map_cons, List.map_nil, List.sum_cons, List.sum_nil, Nat.add_zero]
    rcases Nat.lt_trichotomy b n with hb | rfl | hb
    · have hb' : b < n + 1 := by omega
      split
      · rw [Nat.add_comm, Nat.testBit_two_pow_add_gt hb, ih]
        simp [hb, hb']
      · rw [Nat.add_zero, ih]
        simp [hb, hb']
    · split
      next h => rw [Nat.add_comm, Nat.testBit_two_pow_add_eq, Nat.testBit_lt_two_pow hlt]; simp [h]
      next h => rw [Nat.add_zero, Nat.testBit_lt_two_pow hlt]; simp [h]
    · have hhigh : (2 : Nat) ^ (n + 1) ≤ 2 ^ b := Nat.pow_le_pow_right (by decide) hb
      rw [Nat.testBit_lt_two_pow]
      · simp [show ¬ b < n + 1 by omega]
      · rw [Nat.pow_succ] at hhigh
        split <;> omega

/-- Pin `b` of word `i` is one that this writer reaches (R481). -/
def State.gpioReaches (s : State) (ini : Ini) (i b : Nat) : Bool :=
  let own := fld (s.pin (32 * i + b)).regs.1 4 2
  (isCore ini || ini == levee) && (own == ownCore || own == ownLevee) && decide (i = 0 ∨ b < 16)

theorem State.bit_gpioMask (s : State) (ini : Ini) (i : Nat) {b : Nat} (hb : b < 32) : bit (s.gpioMask ini i) b = s.gpioReaches ini i b := by
  unfold State.gpioMask State.gpioReaches
  cases hini : (isCore ini || ini == levee)
  · simp [bit]
  · have hrange : (decide (b < if i = 0 then 32 else 16)) = decide (i = 0 ∨ b < 16) := by
      by_cases hi : i = 0 <;> simp [hi, hb]
    simp only [if_true, Bool.true_and, bit, BitVec.getLsbD_ofNat, decide_eq_true hb,
      testBit_sum_two_pow (fun b => fld (s.pin (32 * i + b)).regs.1 4 2 = ownCore ∨ fld (s.pin (32 * i + b)).regs.1 4 2 = ownLevee), hrange]
    rw [Bool.and_comm]
    simp [Bool.decide_or, beq_eq_decide]

/-- What a write of kind `kind` makes of an output word where `m` lets it: store, store, set or clear. -/
def gpioStore (kind : Nat) (m val w : Word) : Word :=
  if kind ≤ 1 then (w &&& ~~~m) ||| (val &&& m) else if kind = 2 then w ||| (val &&& m) else w &&& ~~~(val &&& m)

theorem bit_gpioStore (kind : Nat) (m val w : Word) {b : Nat} (hb : b < 32) : bit (gpioStore kind m val w) b =
    if bit m b then (if kind ≤ 1 then bit val b else if kind = 2 then bit w b || bit val b else bit w b && !bit val b) else bit w b := by
  unfold gpioStore bit
  by_cases h1 : kind ≤ 1
  · cases hm : m[b] <;> simp [h1, hm, hb]
  · by_cases h2 : kind = 2 <;> cases hm : m[b] <;> simp [h1, h2, hm, hb]

/-- The register that a write of kind `k / 2` changes. -/
def gpioOff (k : Nat) : Nat := if k / 2 = 1 then pioPg 0 + pioOe0 + 4 * (k % 2) else pioPg 0 + pioOut0 + 4 * (k % 2)

theorem gpioOutputWrite_eq {s : State} (ini : Ini) (k : Nat) (val : Word) (h : s.locked (pioPg 0 + pioOut0 + 4 * (k % 2)) = false) :
    gpioOutputWrite ini k val s = (s.modReg (gpioOff k) (gpioStore (k / 2) (s.gpioMask ini (k % 2)) val)).answer .ok 0 := by
  unfold gpioOutputWrite
  dsimp only
  rw [h, Bool.false_and, if_neg Bool.false_ne_true]
  rcases hk : k / 2 with _ | _ | _ | n <;> simp [gpioOff, hk] <;> rfl

/-- Settles O60: the one register that the write changes, bit by bit. -/
theorem gpioWritesItsOwnPins : Obligations.GpioWritesItsOwnPins := by
  intro s ini k val hlock hfits
  have hop := gpioOutputWrite_eq ini k.val val hlock
  refine ⟨_, (exec_of_fits rfl (hop ▸ hfits.congr rfl rfl)).trans (congrArg _ hop), fun b hb => ?_, fun o ho => ?_, rfl, rfl⟩
  · rw [State.reg_answer, State.reg_modReg]
    exact (congrArg (bit · b) (if_pos rfl)).trans ((bit_gpioStore _ _ _ _ hb).trans (by rw [State.bit_gpioMask _ _ _ hb]; rfl))
  · rw [State.reg_answer, State.reg_modReg]
    exact if_neg ho

/-! ### MSI-X (R436) -/

theorem State.msix_dropped {s : State} {v : Nat} (h : tget false s.hif.msixEn (vectorFn v) = false ∨ tget false s.hif.d3 (vectorFn v) = true) :
    s.msix v = s.countUp (hifPage 0 + hifMsixdrop) 0 32 1 := by
  rw [State.msix, if_pos]
  simpa using h

theorem State.msix_pends {s : State} {v : Nat} (hen : tget false s.hif.msixEn (vectorFn v) = true)
    (hawake : tget false s.hif.d3 (vectorFn v) = false) (hmask : s.masked v = true) :
    s.msix v = s.modHif (fun x => { x with pba := tset false x.pba v true }) := by
  simp [State.msix, hen, hawake, hmask]

theorem State.msix_sends {s : State} {v : Nat} (hen : tget false s.hif.msixEn (vectorFn v) = true)
    (hawake : tget false s.hif.d3 (vectorFn v) = false) (hmask : s.masked v = false) :
    s.msix v = s.modHif (fun x => { x with out := { x.out with msi := some v } }) := by
  simp [State.msix, hen, hawake, hmask]

/-- Settles O56: the write's case by its number, and the message's by the function's and the vector's state. -/
theorem msixVectors : Obligations.MsixVectors := by
  refine ⟨fun v h => if_pos h, fun f e he => ?function, ?write⟩
  case function =>
    rw [vectorFn, if_neg (by omega)]
    omega
  case write =>
    intro s ini val howner v w t
    have ht : t = (if 2047 < v then w.raise (hifPage 0) 7 else w.msix v).answer .ok 0 := State.regWrite_owner _ _ howner
    refine ⟨Takes.of_op rfl rfl, fun hv => ?_, fun hv hdrop => ?_, fun hv hen hawake => ⟨fun hmask => ?_, fun hmask => ?_⟩⟩ <;> rw [ht]
    · rw [if_pos hv]
    · rw [if_neg (by omega), State.msix_dropped hdrop]
    · rw [if_neg (by omega), State.msix_pends hen hawake hmask]
      exact ⟨tget_tset_self false w.hif.pba v true, rfl, fun k hk => tget_tset_ne false w.hif.pba true hk⟩
    · rw [if_neg (by omega), State.msix_sends hen hawake hmask]
      exact ⟨rfl, rfl⟩

end Sys2Proof.Machine
end

section
/-!
PROOFS. What the resets and the entry to HOLD keep: the registers of the AON domain, its time, the fuses and, through a warm reset,
memory (R393, R396, R397, R400, R417).
-/
namespace Sys2Proof.Machine

/-! ### Registers of the AON domain -/

theorem aonHeld_of_page {o : Nat} (h : o / 0x1000 * 0x1000 = aonPage) : aonHeld o = true := by simp [aonHeld, h]

theorem aonHeld_lastflt : aonHeld (lvePg + lveLastflt) = true := by decide

theorem warmKept_of_aonHeld {o : Nat} (h : aonHeld o = true) : warmKept o = true := by
  simp only [aonHeld, Bool.or_eq_true, beq_iff_eq] at h
  rcases h with (h | rfl) | rfl
  · simp [warmKept, h]
  · decide
  · decide

/-- A held register is none of those that are not held. -/
theorem ne_of_aonHeld {o x : Nat} (ho : aonHeld o = true) (hx : aonHeld x = false) : o ≠ x := by
  rintro rfl
  rw [ho] at hx
  cases hx

/-- A register that a reset keeps in its table reads as before. -/
theorem reg_of_tkeep {s t : State} {p : Nat → Bool} (h : t.regs = tkeep p s.regs) {o : Nat} (ho : p o = true) : t.reg o = s.reg o := by
  rw [State.reg, h, tget_tkeep, if_pos ho, State.reg]

theorem State.reg_strapResets (s : State) (straps : Nat) (drc : Bool) {o : Nat} (ho : aonHeld o = true) :
    (s.strapResets straps drc).reg o = s.reg o := by
  have hstrap := ne_of_aonHeld ho (x := pmuPage 0 + pmuStrap) (by decide)
  have hcfg := ne_of_aonHeld ho (x := pmuPage 0 + pmuCfg) (by decide)
  have hspi := ne_of_aonHeld ho (x := fccPg + fccSpicfg) (by decide)
  have hdrc := ne_of_aonHeld ho (x := page .drc 0 + drcCfg) (by decide)
  unfold State.strapResets
  cases drc <;> simp [State.reg_setReg, hstrap, hcfg, hspi, hdrc]

theorem State.reg_fuseCheck (s : State) (bad : Bool) {o : Nat} (ho : aonHeld o = true) : (s.fuseCheck bad).reg o = s.reg o := by
  have hraw := ne_of_aonHeld ho (x := page .cal 0 + hEvtRaw) (by decide)
  unfold State.fuseCheck
  cases bad
  · rfl
  · exact (State.reg_raise ..).trans (if_neg hraw)

/-- Dropping the TAP's instruction touches the pins' block alone. -/
theorem State.tapDrop_eq (s : State) : s.tapDrop = { s with pio := s.tapDrop.pio } := by
  unfold State.tapDrop
  split <;> rfl

theorem State.reg_tapDrop (s : State) (o : Nat) : s.tapDrop.reg o = s.reg o := by rw [State.tapDrop_eq]; rfl

/-- The check of the fuse map touches CAL, registers and ports alone. -/
theorem State.fuseCheck_eq (s : State) (bad : Bool) :
    s.fuseCheck bad = { s with cal := (s.fuseCheck bad).cal, regs := (s.fuseCheck bad).regs, hts := (s.fuseCheck bad).hts } := by
  unfold State.fuseCheck
  cases bad
  · rfl
  · simp only [if_true, State.raise]
    split <;> rfl

/-- The straps' reset values touch registers alone. -/
theorem State.strapResets_eq (s : State) (straps : Nat) (drc : Bool) :
    s.strapResets straps drc = { s with regs := (s.strapResets straps drc).regs } := by
  cases drc <;> rfl

/-! ### The resets and HOLD -/

/-- A cold reset keeps the registers of the AON domain, the fuses and the time, and leaves no byte of memory. -/
theorem State.coldReset_keeps (s : State) (cause straps : Nat) (bad : Bool) :
    (∀ o, aonHeld o = true → (s.coldReset cause straps bad).reg o = s.reg o) ∧ (s.coldReset cause straps bad).fuses = s.fuses ∧
    (s.coldReset cause straps bad).aon.time = s.aon.time ∧ (s.coldReset cause straps bad).pmu.mode = .boot ∧
    (s.coldReset cause straps bad).mem = [] := by
  unfold State.coldReset
  refine ⟨fun o ho => ?_, ?_⟩
  · rw [State.reg_tapDrop, State.reg_fuseCheck _ _ ho, State.reg_strapResets _ _ _ ho]
    exact reg_of_tkeep rfl ho
  · rw [State.tapDrop_eq, State.fuseCheck_eq, State.strapResets_eq]
    exact ⟨rfl, rfl, rfl, rfl⟩

/-- The end of a capture leaves memory. -/
theorem State.mem_captureEnd (s : State) (code : Nat) : (s.captureEnd code).mem = s.mem := State.raise_mem ..

/-- A capture that does not copy leaves memory when a reset ends it (R164). -/
theorem State.mem_captureReset {s : State} (r : Nat) (h : s.capState ≠ 3) : (s.captureReset r).mem = s.mem := by
  unfold State.captureReset
  rw [if_neg h]
  split
  · exact s.mem_captureEnd 7
  · rfl

/-- A warm reset keeps the registers of the AON domain, the fuses, the time and what a capture caught in its copy has not written. -/
theorem State.warmReset_keeps (s : State) (cause : Nat) :
    (∀ o, aonHeld o = true → (s.warmReset cause).reg o = s.reg o) ∧ (s.warmReset cause).fuses = s.fuses ∧
    (s.warmReset cause).aon.time = s.aon.time ∧ (s.warmReset cause).pmu.mode = .boot ∧
    (s.warmReset cause).mem = (s.captureReset ((rgnList s.integ.capRgn).headD 0)).mem := by
  unfold State.warmReset
  refine ⟨fun o ho => ?_, ?_⟩
  · have hdbg := ne_of_aonHeld ho (x := secPage + secDbgperm) (by decide)
    have hcnt := ne_of_aonHeld ho (x := pmuPage 0 + pmuRstcnt) (by decide)
    rw [State.countUp, State.reg_modReg, if_neg hcnt, State.reg_tapDrop, State.reg_setReg, if_neg hdbg, State.reg_strapResets _ _ _ ho]
    exact reg_of_tkeep rfl (warmKept_of_aonHeld ho)
  · dsimp only
    rw [State.tapDrop_eq, State.strapResets_eq]
    exact ⟨rfl, rfl, rfl, rfl⟩

theorem State.lastFault_stands {s : State} (cause core : Nat) (h : fld (s.reg (lvePg + lveLastflt)) 0 4 ≠ 0) : s.lastFault cause core = s :=
  if_neg h

theorem coldResetCmd_requested {s : State} {cause : Nat} (straps : BitVec 16) (f : FuseRead) (h : s.pmu.cold = some cause) :
    coldResetCmd straps f s = s.coldReset cause straps.toNat f.bad := by
  rw [coldResetCmd, h]

/-- Settles O55: each reset by what it keeps, a register of the AON domain being among those. -/
theorem resetsKeepTheAonDomain : Obligations.ResetsKeepTheAonDomain := by
  refine ⟨fun s t straps f cause hcold _ hroom ht => ?cold, fun s cause => ?warm, fun s => ?hold, fun s cause core => State.lastFault_stands cause core⟩
  case cold =>
    subst ht
    obtain ⟨hregs, hfuses, htime, hmode, hmem⟩ := s.coldReset_keeps cause straps.toNat f.bad
    have hop := coldResetCmd_requested straps f hcold
    have hexec : exec (.coldReset straps f) s = .next (coldResetCmd straps f s) := congrArg Host.Outcome.next (State.gateAon_fits s (hop ▸ hroom))
    exact ⟨hexec.trans (congrArg _ hop), hfuses, htime, hmode, fun k => by rw [State.byteAt, hmem, tget_nil], hregs _ aonHeld_lastflt,
      fun o ho => hregs o (aonHeld_of_page ho)⟩
  case warm =>
    obtain ⟨hregs, hfuses, htime, hmode, hmem⟩ := s.warmReset_keeps cause
    exact ⟨hfuses, htime, hmode, fun hcap => hmem.trans (State.mem_captureReset _ hcap), hregs _ aonHeld_lastflt,
      fun o ho => hregs o (aonHeld_of_page ho)⟩
  case hold =>
    have hregs : ∀ o, aonHeld o = true → s.holdEntry.reg o = s.reg o := fun o ho => reg_of_tkeep rfl ho
    exact ⟨rfl, rfl, rfl, fun k => rfl, hregs _ aonHeld_lastflt, fun o ho => hregs o (aonHeld_of_page ho)⟩

end Sys2Proof.Machine
end

section
/-!
PROOFS. Memory: which bytes a write through the network stores (R276), the canonical form under the commands that store (R276, R281, R287,
R289, R341), and the wipes (R281, R287, R289).
-/
namespace Sys2Proof.Machine

/-! ### The bytes that a line write stores (R276) -/

/-- What a byte of memory holds after the bytes of line `line` that `m` enables have been written through view `v`. -/
def State.byteAfter (s : State) (line : Nat) (d : Line) (m : BitVec 64) (v k : Nat) : Byte :=
  if k / 64 = line ∧ bit m (k % 64) = true then
    let new := BitVec.ofNat 8 (fld d (8 * (k % 64)) 8)
    if v = 1 then s.byteAt k ||| new else if v = 2 then s.byteAt k &&& ~~~new else new
  else s.byteAt k

theorem State.byteAt_writeLine_eq (s : State) (line : Nat) (d : Line) (m : BitVec 64) (v k : Nat) :
    (s.writeLine line d m v).byteAt k = s.byteAfter line d m v k := s.byteAt_writeLine line d m v k

theorem State.byteAfter_of_mem {s t : State} (h : t.mem = s.mem) (line : Nat) (d : Line) (m : BitVec 64) (v k : Nat) :
    t.byteAfter line d m v k = s.byteAfter line d m v k := by
  simp only [State.byteAfter, State.byteAt_of_mem h]

/-- The two ends of a write: it is not performed and memory stands, or its bytes are stored. -/
def State.wrote (s : State) (st : Status) (u : State) (line : Nat) (d : Line) (m : BitVec 64) (v : Nat) : Prop :=
  (st ≠ .ok ∧ u.mem = s.mem) ∨ (st = .ok ∧ ∀ k, u.byteAt k = s.byteAfter line d m v k)

theorem State.wrote_of_mem {s s1 u : State} {st : Status} {line : Nat} {d : Line} {m : BitVec 64} {v : Nat} (h : s1.wrote st u line d m v)
    (hmem : s1.mem = s.mem) : s.wrote st u line d m v := by
  rcases h with ⟨hst, h⟩ | ⟨hst, h⟩
  · exact .inl ⟨hst, h.trans hmem⟩
  · exact .inr ⟨hst, fun k => (h k).trans (State.byteAfter_of_mem hmem ..)⟩

/-- A bank's refusal leaves memory, a read answers the plain word, a write stores its bytes. -/
theorem State.bankWord_cases (s : State) (q : WordReq) :
    ((s.bankWord q).2.1 ≠ .ok ∧ (s.bankWord q).1.mem = s.mem) ∨
    (q.wr = false ∧ s.bankWord q = (s, .ok, s.readLine (rsvLine q.off))) ∨
    (q.wr = true ∧ s.bankWord q = (s.writeLine (rsvLine q.off) q.data q.mask q.view, .ok, 0)) := by
  unfold State.bankWord
  dsimp only
  split
  · exact .inl ⟨nofun, rfl⟩
  split
  · exact .inl ⟨nofun, State.mem_rsvViolate ..⟩
  cases hwr : q.wr
  · exact .inr (.inl ⟨rfl, rfl⟩)
  · exact .inr (.inr ⟨rfl, rfl⟩)

theorem State.wrote_bankWord (s : State) {q : WordReq} (h : q.wr = true) :
    s.wrote (s.bankWord q).2.1 (s.bankWord q).1 (rsvLine q.off) q.data q.mask q.view := by
  rcases s.bankWord_cases q with hrefused | ⟨hread, -⟩ | ⟨-, hword⟩
  · exact .inl hrefused
  · rw [h] at hread
    cases hread
  · rw [hword]
    exact .inr ⟨rfl, fun k => State.byteAt_writeLine_eq ..⟩

/-- The DRAM controller's write of a line, whole or partial. -/
theorem State.wrote_dramLine (s : State) (ini : Ini) (a : Nat) (d : Line) (m : BitVec 64) :
    s.wrote (s.dramLine ini a true d m).2.1 (s.dramLine ini a true d m).1 (a / 64) d m 0 := by
  have hcheck : (if m = BitVec.allOnes 64 then (s, true) else s.checkLine ini a).1.mem = s.mem := by
    split
    · rfl
    · exact s.mem_checkLine ini a
  unfold State.dramLine
  dsimp only
  split
  · exact .inl ⟨nofun, rfl⟩
  split
  · exact .inl ⟨nofun, rfl⟩
  rw [if_neg (by decide)]
  revert hcheck
  rcases (if m = BitVec.allOnes 64 then (s, true) else s.checkLine ini a) with ⟨u, _ | _⟩ <;> intro hcheck
  · exact .inl ⟨nofun, hcheck⟩
  · exact .inr ⟨rfl, fun k => (State.byteAt_writeLine_eq ..).trans (State.byteAfter_of_mem hcheck ..)⟩

/-- Passing the network leaves the registers, and with them where an address lies. -/
theorem State.regs_reach (s : State) (ini : Ini) (first : Bool) (a : Nat) (wr : Bool) : (s.reach ini first a wr).1.regs = s.regs := by
  unfold State.reach State.awaitNi State.countFlit State.countAt
  dsimp only
  (repeat' split) <;> rfl

theorem State.target_of_regs {s t : State} (h : t.regs = s.regs) (a : Nat) : t.target a = s.target a := by
  unfold State.target State.dramBytes State.reg
  rw [h]

/-- An access of a unit to the window writes no memory and is not answered OK. -/
theorem State.windowMiss_write (s : State) (ini : Ini) (off : Nat) : (s.windowMiss ini off true).2 ≠ .ok := by
  unfold State.windowMiss
  rw [if_pos rfl]
  (repeat' split) <;> nofun

/-- An address below the host's range names neither the host nor a peer device. -/
theorem State.target_below (s : State) {a : Nat} (h : a < 0x400000000000) : (∀ x, s.target a ≠ .host x) ∧ ∀ x y, s.target a ≠ .peer x y := by
  have hhost : ¬(0x400000000000 ≤ a ∧ a < 0x800000000000) := by omega
  have hpeer : ¬(0x800000000000 ≤ a ∧ a < 0xC00000000000) := by omega
  rw [State.target, if_neg hhost, if_neg hpeer]
  constructor <;> intros <;> (repeat' split) <;> nofun

theorem State.host_of_target {s : State} {a x : Nat} (h : s.target a = .host x) : 0x400000000000 ≤ a :=
  Nat.not_lt.1 fun hlt => (s.target_below hlt).1 x h

theorem State.peer_of_target {s : State} {a x y : Nat} (h : s.target a = .peer x y) : 0x400000000000 ≤ a :=
  Nat.not_lt.1 fun hlt => (s.target_below hlt).2 x y h

theorem rsvLine_unit (o : Nat) : rsvLine (o / 64 * 64) = (rsvBase + o) / 64 := by
  unfold rsvLine rsvBase
  omega

/-- R276 of a unit's line: with no request of another unit waiting, its write stores its bytes or leaves memory; a write into the
host's or a peer's addresses is neither. -/
theorem State.wrote_lineWrite {s : State} (ini : Ini) (first : Bool) (a : Nat) (d : Line) (m : BitVec 64) (h : s.ocn.txns = []) :
    s.wrote (s.lineWrite ini first a d m).2 (s.lineWrite ini first a d m).1 ((s.plainAddr a).1 / 64) d m (s.plainAddr a).2 ∨
      (0x400000000000 ≤ a ∧ (s.lineWrite ini first a d m).2 = .ok) := by
  have hsame := s.sameMemory_reach ini first a true
  have htarget := State.target_of_regs (s.regs_reach ini first a true) a
  unfold State.lineWrite State.plainAddr
  rw [← htarget]
  generalize s.reach ini first a true = R at hsame htarget
  obtain ⟨s1, st⟩ := R
  obtain ⟨hmem, htxns⟩ := hsame
  have htxns1 : s1.ocn.txns = [] := htxns.trans h
  cases st
  case ok =>
    dsimp only
    cases hplace : s1.target a <;> dsimp only
    case rom o => exact .inl (.inl ⟨nofun, hmem⟩)
    case reservoir o v =>
      left
      rw [State.bankServe_alone _ htxns1, ← rsvLine_unit]
      exact State.wrote_of_mem (s1.wrote_bankWord (q := unitReq ini a o v true d m) rfl) hmem
    case dram o =>
      left
      rw [State.drcDrain_none (State.drcNext_alone htxns1), State.lineHeld_alone htxns1, if_neg (by decide)]
      have hbi := s1.mem_biUnit ini (a / 64)
      generalize s1.biUnit ini (a / 64) = B at hbi
      obtain ⟨u, _ | _ | _⟩ := B
      · exact .inl ⟨nofun, hbi.trans hmem⟩
      · exact .inl ⟨nofun, hbi.trans hmem⟩
      · have hline := State.wrote_of_mem (u.wrote_dramLine ini (a / 64 * 64) d m) (hbi.trans hmem)
        rwa [Nat.mul_div_cancel _ (by decide)] at hline
    case window o => exact .inl (.inl ⟨s1.windowMiss_write ini o, (s1.mem_windowMiss ini o true).trans hmem⟩)
    case host x => exact .inr ⟨State.host_of_target hplace, rfl⟩
    case peer x y => exact .inr ⟨State.peer_of_target hplace, rfl⟩
    case unmapped => exact .inl (.inl ⟨nofun, hmem⟩)
  all_goals exact .inl (.inl ⟨nofun, hmem⟩)

/-- Settles O43: a bank's word by its cases, a unit's line by the ends of a write. -/
theorem memoryWritesAreExact : Obligations.MemoryWritesAreExact := by
  refine ⟨fun s q => ⟨fun hwr hok k => ?stores, fun hno k => ?leaves, fun hrd hok => ?reads⟩,
    fun s ini first a d m htxns => ⟨fun ha hok k => ?line, fun hno k => ?refused⟩⟩
  case stores =>
    rcases s.wrote_bankWord hwr with ⟨hno, -⟩ | ⟨-, hbytes⟩
    · exact absurd hok hno
    · exact hbytes k
  case leaves =>
    rcases s.bankWord_cases q with ⟨-, hmem⟩ | ⟨-, hword⟩ | ⟨hwr, hword⟩
    · exact State.byteAt_of_mem hmem k
    · rw [hword]
    · rw [hword, hwr] at hno
      simp at hno
  case reads =>
    rcases s.bankWord_cases q with ⟨hno, -⟩ | ⟨-, hword⟩ | ⟨hwr, -⟩
    · exact absurd hok hno
    · rw [hword]
    · rw [hrd] at hwr
      cases hwr
  case line =>
    rcases State.wrote_lineWrite ini first a d m htxns with (⟨hno, -⟩ | ⟨-, hbytes⟩) | ⟨hhost, -⟩
    · exact absurd hok hno
    · exact hbytes k
    · omega
  case refused =>
    rcases State.wrote_lineWrite ini first a d m htxns with (⟨-, hmem⟩ | ⟨hok, -⟩) | ⟨-, hok⟩
    · exact State.byteAt_of_mem hmem k
    · exact absurd hok hno
    · exact absurd hok hno

/-! ### The canonical form of memory -/

/-- A gate lets through the memory of one of its two states. -/
theorem State.wf_gate {s t : State} (hs : Memory.wf s.mem) (ht : Memory.wf t.mem) : Memory.wf (s.gate t).mem := by
  rcases s.gate_cases t with ⟨h, -⟩ | h | ⟨w, h⟩ <;> rw [h]
  · exact ht
  · exact hs
  · rw [State.await_eq]
    exact hs

theorem wf_bankAccess (b : Nat) (s : State) (h : Memory.wf s.mem) : Memory.wf (bankAccess b s).mem := by
  unfold bankAccess
  split
  · exact h
  · exact s.wf_bankPerform _ _ h

theorem wf_dramAccess (k : TxnKey) (e : DramErr) (s : State) (h : Memory.wf s.mem) : Memory.wf (dramAccess k e s).mem := by
  unfold dramAccess
  split
  · exact h
  · split
    · refine State.wf_dramFlit _ _ ?_
      split <;> exact h
    · exact h

theorem wf_secureWipe (c : WipeCause) (s : State) (h : Memory.wf s.mem) : Memory.wf (secureWipe c s).mem := by
  unfold secureWipe
  split
  · exact State.wf_zeroBanks { s with rsvr := { s.rsvr with swReq := false, swipe := true, keys := [] } } 240 h
  · exact h

theorem State.wf_hvctrlAct (s : State) (v : Word) (h : Memory.wf s.mem) : Memory.wf (s.hvctrlAct v).mem := by
  unfold State.hvctrlAct
  dsimp only
  (repeat' split)
  · exact h
  · exact State.wf_zeroHv { s with drc := { s.drc with clr := true, ready := false } } h
  · rw [State.raise_mem]
    exact h
  · exact h
  · exact h

theorem wf_hvClear (ini : Ini) (v : Word) (s : State) (h : Memory.wf s.mem) : Memory.wf (hvClear ini v s).mem :=
  s.wf_regGuard _ _ _ h fun u hu => u.wf_hvctrlAct v hu

theorem wf_dramInitDone (s : State) (h : Memory.wf s.mem) : Memory.wf (dramInitDone s).mem := by
  unfold dramInitDone
  split
  · rw [State.raise_mem]
    exact twf_tkeep _ (fun a => decide (a < dramBase)) s.mem h
  · exact h

theorem wf_writebackError (c a : Nat) (st : Status) (s : State) (h : Memory.wf s.mem) : Memory.wf (writebackError c a st s).mem := by
  unfold writebackError
  split
  · exact h
  · split
    next k old _ =>
      have hstore := State.wf_setBytes { s with l2 := tdel s.l2 (a / 64) } (a / 64 * 64) (bytesOf 64 old.toNat) h
      generalize State.setBytes { s with l2 := tdel s.l2 (a / 64) } (a / 64 * 64) (bytesOf 64 old.toNat) = u at hstore ⊢
      split
      · rw [State.raise_mem]
        split <;> exact hstore
      · exact h

/-- Settles O44: each storing command by the operations that it stores with. -/
theorem memoryFormKeptByStores : Obligations.MemoryFormKeptByStores := by
  intro s t c hs hexec
  cases c
  case bankAccess b => exact Host.Outcome.next.inj hexec ▸ State.wf_gate hs (wf_bankAccess b.val s hs)
  case dramAccess k e => exact Host.Outcome.next.inj hexec ▸ State.wf_gate hs (wf_dramAccess k e s hs)
  case secureWipe cause => exact Host.Outcome.next.inj hexec ▸ State.wf_gate hs (wf_secureWipe cause s hs)
  case hvClear ini v => exact Host.Outcome.next.inj hexec ▸ State.wf_gate hs (wf_hvClear ini v s hs)
  case dramInitDone => exact Host.Outcome.next.inj hexec ▸ State.wf_gate hs (wf_dramInitDone s hs)
  case writebackError k a st => exact Host.Outcome.next.inj hexec ▸ State.wf_gate hs (wf_writebackError k.val a.toNat st s hs)
  all_goals trivial

/-! ### Wipes and clears (R281, R287, R289) -/

theorem dramInitDone_due {s : State} (htrained : s.drc.trained = 0xFF) (hinit : s.drc.init = false) :
    dramInitDone s =
      ({ s with drc := { s.drc with init := true, marks := [] }, mem := tkeep (fun a => decide (a < dramBase)) s.mem }).raise (page .drc 0) 0 := by
  simp [dramInitDone, htrained, hinit]

theorem hvClear_passes {s : State} {ini : Ini} (val : Word) (h : s.passesWhole ini (page .drc 0 + drcHvctrl) = true) :
    hvClear ini val s = (s.hvctrlAct val).answer .ok 0 :=
  State.regGuard_passes _ h

/-- Settles O45: each wipe is one range of memory returned to zero. -/
theorem wipesZeroTheirRange : Obligations.WipesZeroTheirRange := by
  refine ⟨fun s cause t hreq hfits hexec => ?wipe, fun s ini val t hpass hval hen hfits hexec => ?clear,
    fun s t htrained hinit hfits hexec => ?init⟩
  case wipe =>
    have hop : Fits s (secureWipe cause s) := by
      rw [secureWipe, if_pos hreq]
      exact hfits.congr rfl rfl
    obtain rfl : secureWipe cause s = t := Host.Outcome.next.inj ((exec_of_fits rfl hop).symm.trans hexec)
    rw [secureWipe, if_pos hreq]
    exact ⟨rfl, rfl, fun k => State.byteAt_zeroBanks { s with rsvr := { s.rsvr with swReq := false, swipe := true, keys := [] } } 240 k⟩
  case clear =>
    have hact := (hvClear_passes val hpass).trans (congrArg (State.answer · .ok 0) (State.hvctrlAct_open hval hen))
    have hop : Fits s (hvClear ini val s) := hact ▸ hfits.congr rfl rfl
    obtain rfl : hvClear ini val s = t := Host.Outcome.next.inj ((exec_of_fits rfl hop).symm.trans hexec)
    rw [hact]
    exact ⟨State.hvEn_setHvctrl _ 1, fun k => State.byteAt_zeroHv { s with drc := { s.drc with clr := true, ready := false } } k⟩
  case init =>
    obtain rfl : dramInitDone s = t := Host.Outcome.next.inj ((exec_of_fits rfl hfits).symm.trans hexec)
    rw [dramInitDone_due htrained hinit]
    refine ⟨congrArg Drc.init (State.raise_drc ..), fun k => ?_⟩
    rw [State.byteAt_of_mem (State.raise_mem ..), State.byteAt, tget_tkeep, State.byteAt]
    by_cases hk : k < dramBase
    · simp [hk]
    · simp [hk, Nat.not_lt.mp hk]

end Sys2Proof.Machine
end

section
/-!
PROOFS. The fires of the function unit: what they leave alone, what a latency-1 fire writes at once, and what a latency-2 fire hands to the
second stage and its retirement writes (R44 to R50, R54, R55).
-/
namespace Sys2Proof.Machine

/-! ### The parts of a fire -/

/-- What the operation of a fire produces. -/
def State.fireOut (s : State) (t : Nat) (op : FuOp) : FuOut := op.run (s.fuIn t)

/-- The fire writes tile memory: the frame asks for it, memory is enabled and the gate of R54 is open. -/
def State.fireStores (s : State) (t : Nat) (op : FuOp) : Bool :=
  fDtm (s.act t) && fMen (s.act t) && gateOpen (s.act t) (s.fireOut t op)

/-- The fire loads OA: the frame drives it, its handshake lets it and the gate is open. -/
def State.fireLoadsA (s : State) (t : Nat) (op : FuOp) : Bool :=
  fDoa (s.act t) && hsel true (s.pds t) (fHsOa (s.act t)) && gateOpen (s.act t) (s.fireOut t op)

/-- The same of OB. -/
def State.fireLoadsB (s : State) (t : Nat) (op : FuOp) : Bool :=
  fDob (s.act t) && hsel true (s.pds t) (fHsOb (s.act t)) && gateOpen (s.act t) (s.fireOut t op)

/-- A latency-1 fire: the second stage's result, the start, the result, the outputs. -/
theorem State.fireEffect_one (s : State) (t : Nat) {op : FuOp} (h : op.lat2 = false) :
    s.fireEffect t op = (((secondStageRetire t s).fireStart t false).modTile t (fun T =>
      T.writeResult (s.ctxOf t) (s.act t) (s.memAddr t (s.act t) (s.pds t)) (s.fireOut t op) (s.fireStores t op))).loadOuts t
        (s.fireLoadsA t op) (s.fireLoadsB t op) (s.fireOut t op).res := by
  rw [State.fireEffect, h]
  rfl

/-- The result that a latency-2 fire of tile `T` puts behind what the second stage holds. -/
def State.fireStage (s : State) (t : Nat) (op : FuOp) (T : Tile) : Stage2 :=
  { ctx := s.ctxOf t, acc := (s.fireOut t op).acc.getD (tget 0 T.acc (s.ctxOf t)), res := (s.fireOut t op).res, dreg := fDreg (s.act t),
    doa := s.fireLoadsA t op, dob := s.fireLoadsB t op, dtm := s.fireStores t op, addr := s.memAddr t (s.act t) (s.pds t),
    mode := fMode (s.act t), len := fLen (s.act t), base := fBase (s.act t), fw := fFw (s.act t), new := true }

/-- A latency-2 fire: the second stage's result, the start, and the new result behind it. -/
theorem State.fireEffect_two (s : State) (t : Nat) {op : FuOp} (h : op.lat2 = true) :
    s.fireEffect t op = ((secondStageRetire t s).fireStart t true).modTile t (fun T => { T with stage2 := T.stage2 ++ [s.fireStage t op T] }) := by
  rw [State.fireEffect, h]
  rfl

theorem fire_of_canFire {s : State} {t : Nat} {op : FuOp} (h : s.canFire t op = true) : fire t op s = s.fireEffect t op := if_pos h

/-- Each of the 77 commands is the gate of its fire. -/
theorem exec_fire {c : Instr} {t : TileId} {op : FuOp} (h : fireOf c = some (t, op)) (s : State) : exec c s = .next (s.gate (fire t.val op s)) := by
  cases c <;> cases h <;> rfl

/-- The start of a fire leaves what a program reads of its tile, but for a FIFO's head. -/
theorem State.tile_fireStart (s : State) (t : Nat) (b : Bool) :
    ((s.fireStart t b).tile t).pr = (s.tile t).pr ∧ ((s.fireStart t b).tile t).sh = (s.tile t).sh ∧
    ((s.fireStart t b).tile t).acc = (s.tile t).acc ∧ ((s.fireStart t b).tile t).flags = (s.tile t).flags ∧
    ((s.fireStart t b).tile t).mem = (s.tile t).mem ∧ ((s.fireStart t b).tile t).tail = (s.tile t).tail ∧
    ((s.fireStart t b).tile t).stage2 = (s.tile t).stage2 := by
  obtain ⟨-, -, T, ⟨hpr, hsh, hacc, hflags, hmem, -, -, htail, -⟩, hstage, -, -, hstart⟩ := s.fireStart_spec t b
  obtain ⟨gpr, gsh, gacc, gflags, gmem, -, gtail, gstage, -, -⟩ := T.startFire_keeps (s.act t) b
  rw [hstart]
  exact ⟨gpr.trans hpr, gsh.trans hsh, gacc.trans hacc, gflags.trans hflags, gmem.trans hmem, gtail.trans htail, gstage.trans hstage⟩

theorem Tile.memTarget_of_tail {T U : Tile} (h : T.tail = U.tail) (m b a : Nat) : T.memTarget m b a = U.memTarget m b a := by
  rw [Tile.memTarget, h, Tile.memTarget]

section

variable {s : State} {t : Nat} {op : FuOp}

/-- What the firing tile's registers, flags and memory hold after a latency-1 fire. -/
theorem State.tile_fireOne (h : op.lat2 = false) :
    let T := (secondStageRetire t s).tile t
    let U := (s.fireEffect t op).tile t
    let o := s.fireOut t op
    let f := s.act t
    U.pr = (if o.idle = false ∧ fDreg f < 8 then tset 0 T.pr (8 * s.ctxOf t + fDreg f) o.res else T.pr) ∧
    U.sh = (if o.idle = false ∧ 8 ≤ fDreg f ∧ fDreg f < 16 then tset 0 T.sh (fDreg f - 8) o.res else T.sh) ∧
    U.acc = T.acc ∧
    U.flags = (if fFw f then tset 0 T.flags (s.ctxOf t) (newFlags (tget 0 T.flags (s.ctxOf t)) o) else T.flags) ∧
    U.mem = (if s.fireStores t op = false ∨ fMode f = 2 ∨ 4 ≤ fMode f then T.mem
      else tset 0 T.mem (T.memTarget (fMode f) (fBase f) (s.memAddr t f (s.pds t))) o.res) := by
  intro T U o f
  obtain ⟨hpr, hsh, hacc, hflags, hmem, htail, -⟩ := (secondStageRetire t s).tile_fireStart t false
  obtain ⟨gpr, gsh, gacc, gflags, gmem, -, -, -, -⟩ : (Tile.writeResult (((secondStageRetire t s).fireStart t false).tile t) (s.ctxOf t) f
      (s.memAddr t f (s.pds t)) o (s.fireStores t op)).sameCore U := by
    have hloads := State.core_loadOuts (((secondStageRetire t s).fireStart t false).modTile t (fun T =>
      T.writeResult (s.ctxOf t) f (s.memAddr t f (s.pds t)) o (s.fireStores t op))) t (s.fireLoadsA t op) (s.fireLoadsB t op) o.res t
    rw [State.tile_modTile_self, ← State.fireEffect_one s t h] at hloads
    exact hloads
  rw [gpr, gsh, gacc, gflags, gmem, Tile.writeResult_pr, Tile.writeResult_sh, Tile.writeResult_acc, Tile.writeResult_flags,
    Tile.writeResult_mem, hpr, hsh, hacc, hflags, hmem, Tile.memTarget_of_tail htail]
  exact ⟨rfl, rfl, rfl, rfl, rfl⟩

/-- What the firing tile holds after a latency-2 fire. -/
theorem State.tile_fireTwo (h : op.lat2 = true) :
    let T := (secondStageRetire t s).tile t
    let U := (s.fireEffect t op).tile t
    U.pr = T.pr ∧ U.sh = T.sh ∧ U.acc = T.acc ∧ U.flags = T.flags ∧ U.mem = T.mem ∧ U.stage2 = T.stage2 ++ [s.fireStage t op T] := by
  intro T U
  obtain ⟨hpr, hsh, hacc, hflags, hmem, -, hstage⟩ := (secondStageRetire t s).tile_fireStart t true
  have hU : U = _ := (congrArg (State.tile · t) (State.fireEffect_two s t h)).trans (State.tile_modTile_self ..)
  rw [hU]
  refine ⟨hpr, hsh, hacc, hflags, hmem, ?_⟩
  dsimp only
  rw [hstage, State.fireStage, hacc]
  rfl

/-- A fire leaves the other tiles' programs, and of the rest of the machine all but what takes the tile's words. -/
theorem State.fireEffect_others (s : State) (t : Nat) (op : FuOp) : (secondStageRetire t s).onlyTiles (s.fireEffect t op) ∧
    ∀ k, k ≠ t → ((secondStageRetire t s).tile k).sameCore ((s.fireEffect t op).tile k) := by
  cases h : op.lat2
  · obtain ⟨honly, hothers, -⟩ := (secondStageRetire t s).fireStart_spec t false
    rw [State.fireEffect_one s t h]
    refine ⟨State.onlyTiles_trans (State.onlyTiles_trans honly (State.onlyTiles_modTile ..)) (State.onlyTiles_loadOuts ..), fun k hk => ?_⟩
    refine Tile.sameCore_trans (hothers k hk) (Tile.sameCore_trans ?_ (State.core_loadOuts ..))
    rw [State.tile_modTile_ne _ _ hk]
    exact Tile.sameCore_refl _
  · obtain ⟨honly, hothers, -⟩ := (secondStageRetire t s).fireStart_spec t true
    rw [State.fireEffect_two s t h]
    refine ⟨State.onlyTiles_trans honly (State.onlyTiles_modTile ..), fun k hk => ?_⟩
    rw [State.tile_modTile_ne _ _ hk]
    exact hothers k hk

end

/-- Settles O35: the frame of each of the two kinds of fire. -/
theorem fireFrame : Obligations.FireFrame := by
  intro c t op s hfire hcan hfits
  have heffect := fire_of_canFire hcan
  refine ⟨s.fireEffect t.val op, (exec_of_fits (exec_fire hfire s) hfits).trans (congrArg _ heffect), ?_⟩
  obtain ⟨honly, hothers⟩ := s.fireEffect_others t.val op
  refine ⟨honly, hothers, ?_⟩
  cases hlat : op.lat2
  case true =>
    obtain ⟨hpr, hsh, hacc, hflags, hmem, -⟩ := State.tile_fireTwo (s := s) (t := t.val) hlat
    rw [hpr, hsh, hacc, hflags, hmem]
    exact ⟨fun _ _ => rfl, fun _ _ => rfl, rfl, fun _ _ => rfl, fun _ _ => rfl⟩
  case false =>
    obtain ⟨hpr, hsh, hacc, hflags, hmem⟩ := State.tile_fireOne (s := s) (t := t.val) hlat
    rw [hpr, hsh, hacc, hflags, hmem]
    refine ⟨fun k hk => ?_, fun k hk => ?_, rfl, fun k hk => ?_, fun k hk => ?_⟩ <;> split <;> try rfl
    next hwrites => exact tget_tset_ne _ _ _ (by simp at hk; omega)
    next hwrites => exact tget_tset_ne _ _ _ (by simp at hk; omega)
    next hwrites => exact tget_tset_ne _ _ _ (by simpa [hwrites] using hk)
    next hwrites =>
      refine tget_tset_ne _ _ _ ?_
      have hstores : s.fireStores t.val op = true := by simpa using fun h => hwrites (.inl h)
      simp only [State.fireStores, Bool.and_eq_true] at hstores
      obtain ⟨⟨hdtm, hmen⟩, -⟩ := hstores
      rcases hk with hne | hdtm' | hmen' | hlat'
      · exact hne
      · simp [hdtm] at hdtm'
      · simp [hmen] at hmen'
      · cases hlat'

/-! ### The flags and outputs of a fire -/

/-- z and n of a result (R50). -/
theorem bit_znFlags (old : BitVec 5) (w : Word) : bit (znFlags old w) 0 = (w == 0) ∧ bit (znFlags old w) 1 = bit w 31 := by
  simp [znFlags, bit_putBit]

/-- c, v and t follow the operations that name them and stay under the others (R50). -/
theorem bit_newFlags {o : FuOut} (h : o.idle = false) (old : BitVec 5) :
    bit (newFlags old o) 0 = (o.res == 0) ∧ bit (newFlags old o) 1 = bit o.res 31 ∧ bit (newFlags old o) 2 = o.fc.getD (bit old 2) ∧
    bit (newFlags old o) 3 = o.fv.getD (bit old 3) ∧ bit (newFlags old o) 4 = o.ft.getD (bit old 4) := by
  obtain ⟨res, acc, fc, fv, ft, idle⟩ := o
  cases h
  cases fc <;> cases fv <;> cases ft <;> simp [newFlags, znFlags, bit_putBit]

/-- tgate lets a fire through that ignores it or sets t (R54). -/
theorem gateOpen_true {f : Nat} {o : FuOut} (hidle : o.idle = false) (h : fTgate f = false ∨ o.ft = some true) : gateOpen f o = true := by
  rcases h with h | h <;> simp [gateOpen, h, hidle]

section

variable {s : State} {t : Nat} {op : FuOp}

theorem State.fireEffect_oa (h : op.lat2 = false) (hload : s.fireLoadsA t op = true) :
    ((s.fireEffect t op).tile t).oa.val = some (s.fireOut t op).res := by
  rw [State.fireEffect_one s t h, hload]
  exact State.loadOuts_oa ..

theorem State.fireEffect_ob (h : op.lat2 = false) (hload : s.fireLoadsB t op = true) :
    ((s.fireEffect t op).tile t).ob.val = some (s.fireOut t op).res := by
  rw [State.fireEffect_one s t h, hload]
  exact State.loadOuts_ob ..

end

/-- Settles O36: the register, flags and memory word that `State.tile_fireOne` gives, and the two loads. -/
theorem latencyOneFire : Obligations.LatencyOneFire := by
  intro t op s hcan hlat hidle f o T U
  have hgate := gateOpen_true (f := f) hidle
  obtain ⟨hpr, hsh, -, hflags, hmem⟩ := State.tile_fireOne (s := s) (t := t) hlat
  have hU : U = (s.fireEffect t op).tile t := congrArg (State.tile · t) (fire_of_canFire hcan)
  clear_value U
  subst hU
  refine ⟨fun hd => ?_, fun hlo hhi => ?_, fun hfw => ?_, fun hdtm hmen hmode hopen => ?_, fun hdoa hhs hopen => ?_, fun hdob hhs hopen => ?_⟩
  · rw [hpr, if_pos ⟨hidle, hd⟩, tget_tset_self]; rfl
  · rw [hsh, if_pos ⟨hidle, hlo, hhi⟩, tget_tset_self]; rfl
  · rw [hflags, if_pos hfw, tget_tset_self]
    exact bit_newFlags hidle _
  · have hstores : s.fireStores t op = true := by
      simp only [State.fireStores, Bool.and_eq_true]
      exact ⟨⟨hdtm, hmen⟩, hgate hopen⟩
    have hlt := fMode_lt f
    rw [hmem, if_neg (by rintro (h | h | h) <;> [simp [hstores] at h; exact hmode h; exact absurd hlt (not_lt.2 h)]), tget_tset_self]
    rfl
  · refine State.fireEffect_oa hlat ?_
    simp only [State.fireLoadsA, Bool.and_eq_true]
    exact ⟨⟨hdoa, hhs⟩, hgate hopen⟩
  · refine State.fireEffect_ob hlat ?_
    simp only [State.fireLoadsB, Bool.and_eq_true]
    exact ⟨⟨hdob, hhs⟩, hgate hopen⟩

/-! ### The second stage -/

/-- What a result writes as it leaves the second stage (R48). -/
theorem Tile.retire_writes (T : Tile) (e : Stage2) :
    (T.retire e).stage2 = T.stage2 ∧ (T.retire e).acc = tset 0 T.acc e.ctx e.acc ∧
    (T.retire e).pr = (if e.dreg < 8 then tset 0 T.pr (8 * e.ctx + e.dreg) e.res else T.pr) ∧
    (T.retire e).flags = (if e.fw then tset 0 T.flags e.ctx (znFlags (tget 0 T.flags e.ctx) e.res) else T.flags) := by
  have hmem : ∀ U : Tile, ∃ m p tl n, U.writeMem e.mode e.base e.len e.addr e.res = { U with mem := m, ptr := p, tail := tl, count := n } :=
    fun U => ⟨_, U.writeMem_eq ..⟩
  unfold Tile.retire
  cases e.dtm
  · cases e.fw <;> simp [Tile.writeReg_eq]
  · simp only [if_true]
    obtain ⟨m, p, tl, n, h⟩ := hmem _
    rw [h]
    cases e.fw <;> simp [Tile.writeReg_eq]

/-- A lone result whose turn has come leaves the second stage. -/
theorem secondStageRetire_lone {s : State} {t : Nat} {e : Stage2} (hstage : (s.tile t).stage2 = [e]) (hnew : e.new = false)
    (hmoves : regionMoves (s.rgn (t / 256)) = true) (hfree : s.stageFree t e = true) :
    secondStageRetire t s =
      ((s.modTile t (fun T => { T with stage2 := [] })).modTile t (fun T => T.retire e)).loadOuts t e.doa e.dob e.res := by
  simp [secondStageRetire, hstage, hnew, hmoves, hfree]

/-- Settles O37: the fire's stage entry, and the retirement of a lone one field by field. -/
theorem latencyTwoFire : Obligations.LatencyTwoFire := by
  refine ⟨?fires, ?retires⟩
  case fires =>
    intro t op s hcan hlat T
    obtain ⟨-, -, -, -, -, hstage⟩ := State.tile_fireTwo (s := s) (t := t) hlat
    rw [fire_of_canFire hcan]
    exact ⟨_, hstage, rfl, rfl, rfl, rfl, rfl, rfl⟩
  case retires =>
    intro t s e hstage hnew hmoves hfree U
    have hretire := secondStageRetire_lone hstage hnew hmoves hfree
    obtain ⟨gstage, gacc, gpr, gflags⟩ := Tile.retire_writes { s.tile t with stage2 := [] } e
    have htile : ((s.modTile t (fun T => { T with stage2 := [] })).modTile t (fun T => T.retire e)).tile t =
        Tile.retire { s.tile t with stage2 := [] } e := by
      rw [State.tile_modTile_self, State.tile_modTile_self]
    have hU : U = _ := congrArg (State.tile · t) hretire
    have hcore := State.core_loadOuts ((s.modTile t (fun T => { T with stage2 := [] })).modTile t (fun T => T.retire e)) t e.doa e.dob e.res t
    have hempty := State.stage2_loadOuts ((s.modTile t (fun T => { T with stage2 := [] })).modTile t (fun T => T.retire e)) t e.doa e.dob e.res
    rw [← hU, htile] at hcore hempty
    obtain ⟨hpr, -, hacc, hflags, -⟩ := hcore
    rw [hempty, gstage, hpr, gpr, hacc, gacc, hflags, gflags]
    refine ⟨rfl, tget_tset_self .., fun k hk => tget_tset_ne _ _ _ hk, fun hd => ?_, fun hfw => ?_, fun k hk => ?_⟩
    · rw [if_pos hd, tget_tset_self]
    · rw [if_pos hfw, tget_tset_self]
      exact bit_znFlags ..
    · split
      · exact tget_tset_ne _ _ _ hk
      · rfl

end Sys2Proof.Machine
end

section
/-!
PROOFS. What the adds, subtracts, compares, multiplies and saturating forms compute, in terms of whole words (R49, R50).
-/
namespace Sys2Proof.Machine

/-! ### Sums and differences -/

theorem addCV_res (a b : Word) (k : Nat) : (addCV a b k).res = a + b + BitVec.ofNat 32 k := by
  apply BitVec.eq_of_toNat_eq
  simp [addCV]

theorem addCV_fc (a b : Word) : (addCV a b 0).fc = some (a.uaddOverflow b) := rfl

theorem addCV_fv (a b : Word) : (addCV a b 0).fv = some (a.saddOverflow b) := by
  simp [addCV, BitVec.saddOverflow, or_comm]

theorem subCV_res (a b : Word) : (subCV a b 0).res = a - b := by simp [subCV]

theorem subCV_fc (a b : Word) : (subCV a b 0).fc = some (!a.ult b) := by
  show some (decide (b.toNat ≤ a.toNat)) = some (!decide (a.toNat < b.toNat))
  rw [← decide_not]
  exact congrArg some (decide_eq_decide.2 not_lt.symm)

theorem subCV_fv (a b : Word) : (subCV a b 0).fv = some (a.ssubOverflow b) := by
  simp [subCV, BitVec.ssubOverflow, or_comm]

/-- ADDC adds the flag c. -/
theorem fuAddc_res (i : FuIn) : (fuAddc.run i).res = i.a + i.b + (if bit i.fl 2 then 1 else 0) := by
  refine (addCV_res ..).trans ?_
  unfold carryIn b2n
  split <;> rfl

/-- SUBB takes the complement of the flag c off. -/
theorem fuSubb_res (i : FuIn) : (fuSubb.run i).res = i.a - i.b - (if bit i.fl 2 then 0 else 1) := by
  show i.a - i.b - BitVec.ofNat 32 (1 - b2n (bit i.fl 2)) = _
  cases bit i.fl 2 <;> rfl

theorem fuNeg_res (i : FuIn) : (fuNeg.run i).res = -i.a := (subCV_res 0 i.a).trans (BitVec.zero_sub i.a)

theorem fuAbs_res (i : FuIn) : (fuAbs.run i).res.toNat = i.a.toInt.natAbs := by
  show (if i.a.msb then 0 - i.a else i.a).toNat = _
  have hlt := i.a.isLt
  rw [BitVec.toInt_eq_msb_cond]
  cases hmsb : i.a.msb
  · simp
  · have hge := BitVec.toNat_ge_of_msb_true hmsb
    simp
    omega

/-! ### Compares -/

/-- A compare answers its truth as 1 or 0. -/
theorem cmpOut_spec (k : Nat) (i : FuIn) :
    (cmpOut k i).res = (if (cmpOut k i).ft = some true then 1 else 0) ∧ (cmpOut k i).fc = (subCV i.a i.b 0).fc ∧
    (cmpOut k i).fv = (subCV i.a i.b 0).fv := by
  refine ⟨?_, rfl, rfl⟩
  show BitVec.ofNat 32 (b2n (compareOp k i.a i.b)) = if some (compareOp k i.a i.b) = some true then 1 else 0
  cases compareOp k i.a i.b <;> rfl

/-! ### Products -/

theorem mulS_eq (a b : Word) : mulS a b = a.signExtend 64 * b.signExtend 64 := BitVec.ofInt_mul ..

theorem mulU_eq (a b : Word) : mulU a b = a.setWidth 64 * b.setWidth 64 := by
  apply BitVec.eq_of_toNat_eq
  simp [mulU, Nat.mul_mod]

/-- The two words side by side as a sum. -/
theorem append_eq_add (b a : Word) : (b ++ a : DWord) = b.setWidth 64 * 2 ^ 32 + a.setWidth 64 := by
  have ha := a.isLt
  have hb := b.isLt
  have hshift : (2 ^ 32 : DWord) = 4294967296#64 := by decide
  apply BitVec.eq_of_toNat_eq
  rw [BitVec.toNat_append, ← Nat.shiftLeft_add_eq_or_of_lt ha, Nat.shiftLeft_eq, hshift, BitVec.toNat_add, BitVec.toNat_mul,
    BitVec.toNat_setWidth, BitVec.toNat_setWidth, BitVec.toNat_ofNat]
  omega

/-! ### Saturation -/

theorem clampI_eq {lo hi : Int} (h : lo ≤ hi) (v : Int) : clampI lo hi v = max lo (min hi v) := by
  unfold clampI
  split
  · omega
  · split <;> omega

/-- A clamped number fits the word. -/
theorem satS_res (v : Int) : (satS v).res.toInt = max (-2 ^ 31) (min (2 ^ 31 - 1) v) := by
  show (BitVec.ofInt 32 (clampI (-2 ^ 31) (2 ^ 31 - 1) v)).toInt = _
  rw [clampI_eq (by decide), BitVec.toInt_ofInt, Int.bmod_eq_of_le] <;> omega

theorem satS_fv (v : Int) : (satS v).fv = some (decide (2 ^ 31 ≤ v) || decide (v < -2 ^ 31)) := by
  show some (decide (clampI (-2 ^ 31) (2 ^ 31 - 1) v ≠ v)) = _
  rw [clampI_eq (by decide), ← Bool.decide_or]
  exact congrArg some (decide_eq_decide.2 (by omega))

theorem satU_res {v : Int} : ((satU v).res.toNat : Int) = max 0 (min (2 ^ 32 - 1) v) := by
  show ((BitVec.ofInt 32 (clampI 0 (2 ^ 32 - 1) v)).toNat : Int) = _
  rw [clampI_eq (by decide), BitVec.toNat_ofInt, Int.toNat_of_nonneg, Int.emod_eq_of_lt] <;> omega

/-- Settles O38, operation by operation. -/
theorem arithmeticResults : Obligations.ArithmeticResults := by
  intro i
  refine ⟨(addCV_res ..).trans (BitVec.add_zero _), addCV_fc .., addCV_fv .., fuAddc_res i, fuSubb_res i, subCV_res .., subCV_fc .., subCV_fv .., fuNeg_res i,
    fuAbs_res i, rfl, rfl, rfl, rfl, rfl, rfl, ?compares, ?passes, rfl, rfl, congrArg some (mulS_eq ..), congrArg some (mulU_eq ..),
    congrArg (fun w => some (i.acc + w)) (mulS_eq ..), congrArg (fun w => some (i.acc + w)) (mulU_eq ..),
    congrArg (fun w => some (i.acc - w)) (mulS_eq ..), congrArg some (append_eq_add ..), ?halves, satS_res _, satS_fv _, satS_res _, satS_fv _,
    ?_, ?_, ?_, ?_, ?_, ?_⟩
  case compares =>
    intro op hop
    fin_cases hop <;> exact cmpOut_spec _ i
  case passes =>
    intro op hop
    fin_cases hop <;> rfl
  case halves =>
    intro op hop
    fin_cases hop <;> exact ⟨_, rfl, rfl⟩
  · have := satU_res (v := (i.a.toNat : Int) + i.b.toNat)
    show (satU _).res.toNat = _
    omega
  · have := satU_res (v := (i.a.toNat : Int) - i.b.toNat)
    have := i.a.isLt
    show (satU _).res.toNat = _
    omega
  · show (if i.b.toInt < i.a.toInt then i.b else i.a).toInt = _
    split <;> omega
  · show (if i.a.toInt < i.b.toInt then i.b else i.a).toInt = _
    split <;> omega
  · show (if i.b.toNat < i.a.toNat then i.b else i.a).toNat = _
    split <;> omega
  · show (if i.a.toNat < i.b.toNat then i.b else i.a).toNat = _
    split <;> omega

end Sys2Proof.Machine
end

section
/-!
PROOFS. What the shifts, selects and bit operations compute, bit by bit (R49).
-/
namespace Sys2Proof.Machine

/-! ### Shifts and rotates -/

/-- The count of a shift is B[4:0]. -/
theorem fld_shiftCount (b : Word) : fld b 0 5 = b.toNat % 32 := by simp [fld]

/-- A rotate to the left moves bit k to bit k + r, round the word. -/
theorem bit_rotateLeft (a : Word) {r k : Nat} (hr : r < 32) (hk : k < 32) : bit (a.rotateLeft r) ((k + r) % 32) = bit a k := by
  rw [bit, BitVec.getLsbD_rotateLeft_of_le hr]
  by_cases h : k + r < 32
  · rw [Nat.mod_eq_of_lt h]
    simp [h, bit]
  · have hmod : (k + r) % 32 = k + r - 32 := by omega
    have hlt : k + r - 32 < r := by omega
    have hback : 32 - r + (k + r - 32) = k := by omega
    simp [hmod, hlt, hback, bit]

/-- A rotate to the right answers at bit k what stood at bit k + r, round the word. -/
theorem bit_rotateRight (a : Word) {r k : Nat} (hr : r < 32) (hk : k < 32) : bit (a.rotateRight r) k = bit a ((k + r) % 32) := by
  rw [bit, BitVec.getLsbD_rotateRight, Nat.mod_eq_of_lt hr]
  by_cases h : k < 32 - r
  · have hmod : (k + r) % 32 = r + k := by omega
    simp [h, hmod, bit]
  · have hmod : (k + r) % 32 = k - (32 - r) := by omega
    simp [h, hmod, hk, bit]

theorem bit_fuRol (i : FuIn) {k : Nat} (hk : k < 32) : bit (fuRol.run i).res ((k + i.b.toNat) % 32) = bit i.a k := by
  have hmod : (k + i.b.toNat) % 32 = (k + i.b.toNat % 32) % 32 := by omega
  show bit (i.a.rotateLeft (fld i.b 0 5)) _ = _
  rw [hmod, fld_shiftCount, bit_rotateLeft i.a (Nat.mod_lt _ (by decide)) hk]

theorem bit_fuRor (i : FuIn) {k : Nat} (hk : k < 32) : bit (fuRor.run i).res k = bit i.a ((k + i.b.toNat) % 32) := by
  have hmod : (k + i.b.toNat) % 32 = (k + i.b.toNat % 32) % 32 := by omega
  show bit (i.a.rotateRight (fld i.b 0 5)) _ = _
  rw [hmod, fld_shiftCount, bit_rotateRight i.a (Nat.mod_lt _ (by decide)) hk]

/-- The flag c of a shift by a count that is not zero: the last bit shifted out. -/
theorem shiftOut_fc {i : FuIn} (h : i.b.toNat % 32 ≠ 0) (k : Nat) :
    (shiftOut k i).fc = some (if k = 0 ∨ k = 3 then bit i.a (32 - i.b.toNat % 32) else bit i.a (i.b.toNat % 32 - 1)) := by
  simp [shiftOut, fld_shiftCount, h]

/-- A shift by zero passes A. -/
theorem shiftOut_zero {i : FuIn} (h : i.b.toNat % 32 = 0) (k : Nat) : (shiftOut k i).fc = some false ∧ (shiftOut k i).res = i.a := by
  have hl : i.a.rotateLeft 0 = i.a := BitVec.eq_of_getLsbD_eq fun j hj => by simp [hj]
  have hr : i.a.rotateRight 0 = i.a := BitVec.eq_of_getLsbD_eq fun j hj => by simp [hj]
  refine ⟨by simp [shiftOut, fld_shiftCount, h], ?_⟩
  simp only [shiftOut, fld_shiftCount, h]
  split
  · exact BitVec.shiftLeft_zero ..
  · exact BitVec.ushiftRight_zero ..
  · exact BitVec.sshiftRight_zero
  · exact hl
  · exact hr

/-! ### Counts -/

/-- The first number below 32 that meets a predicate, or 32. -/
theorem find_first (p : Nat → Bool) :
    ((List.range 32).find? p).getD 32 = 32 ∧ (∀ k, k < 32 → p k = false) ∨
    ∃ n, ((List.range 32).find? p).getD 32 = n ∧ n < 32 ∧ p n = true ∧ ∀ k, k < n → p k = false := by
  cases h : (List.range 32).find? p with
  | none =>
    rw [List.find?_range_eq_none] at h
    exact .inl ⟨rfl, by simpa using h⟩
  | some n =>
    obtain ⟨hp, hn, hbefore⟩ := List.find?_range_eq_some.1 h
    exact .inr ⟨n, rfl, List.mem_range.1 hn, hp, by simpa using hbefore⟩

theorem exists_bit_of_ne_zero {a : Word} (h : a ≠ 0) : ∃ k, k < 32 ∧ bit a k = true := by
  by_contra hno
  push Not at hno
  exact h (BitVec.eq_of_getLsbD_eq fun k hk => by simpa [bit] using hno k hk)

theorem toNat_ofNat_lt {n : Nat} (h : n < 32) : (BitVec.ofNat 32 n).toNat = n := by
  rw [BitVec.toNat_ofNat]
  omega

/-- CTZ names the lowest one bit. -/
theorem fuCtz_res {i : FuIn} (h : i.a ≠ 0) : (fuCtz.run i).res.toNat < 32 ∧ bit i.a (fuCtz.run i).res.toNat = true ∧
    ∀ k, k < (fuCtz.run i).res.toNat → bit i.a k = false := by
  obtain ⟨k, hk, hbit⟩ := exists_bit_of_ne_zero h
  rcases find_first (fun k => bit i.a k) with ⟨-, hnone⟩ | ⟨n, hctz, hn, hone, hbelow⟩
  · rw [hnone k hk] at hbit
    cases hbit
  · have hres : (fuCtz.run i).res.toNat = n := (congrArg (fun n => (BitVec.ofNat 32 n).toNat) hctz).trans (toNat_ofNat_lt hn)
    rw [hres]
    exact ⟨hn, hone, hbelow⟩

/-- CLZ names the highest one bit, counted from bit 31. -/
theorem fuClz_res {i : FuIn} (h : i.a ≠ 0) : (fuClz.run i).res.toNat < 32 ∧ bit i.a (31 - (fuClz.run i).res.toNat) = true ∧
    ∀ k, 31 - (fuClz.run i).res.toNat < k → bit i.a k = false := by
  obtain ⟨k, hk, hbit⟩ := exists_bit_of_ne_zero h
  rcases find_first (fun k => bit i.a (31 - k)) with ⟨-, hnone⟩ | ⟨n, hclz, hn, hone, habove⟩
  · have hzero := hnone (31 - k) (by omega)
    rw [show 31 - (31 - k) = k by omega, hbit] at hzero
    cases hzero
  · have hres : (fuClz.run i).res.toNat = n := (congrArg (fun n => (BitVec.ofNat 32 n).toNat) hclz).trans (toNat_ofNat_lt hn)
    rw [hres]
    refine ⟨hn, hone, fun j hj => ?_⟩
    by_cases hj32 : j < 32
    · have hzero := habove (31 - j) (by omega)
      rwa [show 31 - (31 - j) = j by omega] at hzero
    · exact BitVec.getLsbD_of_ge _ _ (by omega)

/-! ### Words put together bit by bit -/

/-- The bits of a word put together from a predicate. -/
theorem bit_ofNat_sum (p : Nat → Bool) {k : Nat} (hk : k < 32) :
    bit (BitVec.ofNat 32 ((List.range 32).map (fun k => 2 ^ k * b2n (p k))).sum) k = p k := by
  have hsum : (fun k => 2 ^ k * b2n (p k)) = fun k => if p k = true then 2 ^ k else 0 := by
    funext k
    cases p k <;> simp [b2n]
  rw [hsum, bit, BitVec.getLsbD_ofNat, testBit_sum_two_pow]
  simp [hk]

/-- The sum over the bits of A from the top down, as R49 writes BREV, is the sum from the bottom up of the bits at 31 − k. -/
theorem brev_eq (a : Word) : brev a = BitVec.ofNat 32 ((List.range 32).map (fun k => 2 ^ k * b2n (bit a (31 - k)))).sum := by
  have hrange : (List.range 32).map (fun k => 2 ^ k * b2n (bit a (31 - k))) =
      ((List.range 32).map (fun k => 2 ^ (31 - k) * b2n (bit a k))).reverse := by
    refine List.ext_getElem (by simp) fun k hk _ => ?_
    have hk32 : k < 32 := by simpa using hk
    simp [show 31 - (31 - k) = k by omega]
  rw [hrange, List.sum_reverse]
  rfl

theorem bit_fuBrev (i : FuIn) {k : Nat} (hk : k < 32) : bit (fuBrev.run i).res k = bit i.a (31 - k) :=
  (congrArg (bit · k) (brev_eq i.a)).trans (bit_ofNat_sum (fun k => bit i.a (31 - k)) hk)

theorem bit_fuBthr (i : FuIn) {k : Nat} (hk : k < 32) :
    bit (fuBthr.run i).res k = decide (i.imm % 4 ≤ b2n (bit i.a k) + b2n (bit i.b k) + b2n (bit i.c k)) :=
  bit_ofNat_sum (fun k => decide (i.imm % 4 ≤ b2n (bit i.a k) + b2n (bit i.b k) + b2n (bit i.c k))) hk

theorem bit_fuBmaj3 (i : FuIn) (k : Nat) : bit (fuBmaj3.run i).res k = decide (2 ≤ b2n (bit i.a k) + b2n (bit i.b k) + b2n (bit i.c k)) := by
  have hbits : bit (fuBmaj3.run i).res k = (bit i.a k && bit i.b k || bit i.a k && bit i.c k || bit i.b k && bit i.c k) := by
    simp [fuBmaj3, plain, bit]
  rw [hbits]
  cases bit i.a k <;> cases bit i.b k <;> cases bit i.c k <;> rfl

theorem bit_fuBmux (i : FuIn) {k : Nat} (hk : k < 32) : bit (fuBmux.run i).res k = if bit i.c k then bit i.a k else bit i.b k := by
  have hbits : bit (fuBmux.run i).res k = (bit i.a k && bit i.c k || bit i.b k && !bit i.c k) := by
    simp [fuBmux, plain, bit, hk]
  rw [hbits]
  cases bit i.c k <;> simp

/-! ### Bit fields -/

theorem bit_fuBext (i : FuIn) {k : Nat} (hk : k < 32) :
    bit (fuBext.run i).res k = (decide (k ≤ i.imm / 32 % 32) && bit i.a (i.imm % 32 + k)) := by
  show (BitVec.ofNat 32 (fld i.a (i.imm % 32) (i.imm / 32 % 32 + 1))).getLsbD k = _
  rw [BitVec.getLsbD_ofNat, testBit_fld, Nat.add_comm k]
  simp [hk, bit]

theorem bit_fuBins (i : FuIn) {k : Nat} (hk : k < 32) :
    bit (fuBins.run i).res k = if i.imm % 32 ≤ k ∧ k ≤ i.imm % 32 + i.imm / 32 % 32 then bit i.b (k - i.imm % 32) else bit i.a k := by
  show (setFld i.a (i.imm % 32) (i.imm / 32 % 32 + 1) i.b.toNat).getLsbD k = _
  rw [getLsbD_setFld _ _ _ _ _ hk]
  by_cases h : i.imm % 32 ≤ k ∧ k ≤ i.imm % 32 + i.imm / 32 % 32
  · have hwidth : k - i.imm % 32 < i.imm / 32 % 32 + 1 := by omega
    rw [if_pos (by omega), if_pos h, Nat.testBit_mod_two_pow, decide_eq_true hwidth, Bool.true_and]
    rfl
  · rw [if_neg (by omega), if_neg h]
    rfl

/-- Settles O39, operation by operation. -/
theorem shiftAndBitResults : Obligations.ShiftAndBitResults := by
  intro i
  have hcount := fld_shiftCount i.b
  refine ⟨congrArg (i.a <<< ·) hcount, congrArg (i.a >>> ·) hcount, congrArg i.a.sshiftRight hcount, fun k hk => ⟨bit_fuRol i hk, bit_fuRor i hk⟩,
    fun hs => ?carries, fun hs op hop => ?still, fun hc => if_neg (not_not.2 hc), fun hc => if_pos hc, fun ha => ?zero,
    fun ha => ?counts, fun k hk => ⟨bit_fuBrev i hk, bit_fuBext i hk, bit_fuBins i hk, bit_fuBmaj3 i k, bit_fuBthr i hk, bit_fuBmux i hk⟩⟩
  case carries =>
    have hrol := bit_fuRol i (k := 32 - i.b.toNat % 32) (by omega)
    have hror := bit_fuRor i (k := 31) (by omega)
    rw [show (32 - i.b.toNat % 32 + i.b.toNat) % 32 = 0 by omega] at hrol
    rw [show (31 + i.b.toNat) % 32 = i.b.toNat % 32 - 1 by omega] at hror
    rw [hrol, hror]
    exact ⟨shiftOut_fc hs 3, shiftOut_fc hs 4, shiftOut_fc hs 0, shiftOut_fc hs 1, (shiftOut_fc hs 2).trans (shiftOut_fc hs 1).symm⟩
  case still => fin_cases hop <;> exact shiftOut_zero hs _
  case zero =>
    simp only [fuClz, fuCtz, fuPopc, ha]
    decide
  case counts =>
    obtain ⟨hclz, hone, habove⟩ := fuClz_res ha
    obtain ⟨hctz, hlow, hbelow⟩ := fuCtz_res ha
    exact ⟨hclz, hone, habove, hctz, hlow, hbelow⟩

end Sys2Proof.Machine
end

section
/-!
PROOFS. The rider cores: what an instruction leaves of the choice of the executing bank, the frame map under a call and a trap
(R325 to R328, R347), the privilege of the scheduler's instructions (R368) and the register forms by encoding (R322).
-/
namespace Sys2Proof.Machine

/-! ### Instructions that change registers alone -/

/-- Between s and t core `c` has changed nothing but the registers and status of its banks and its CSRs and counters, and nothing
else has changed. -/
structure State.sameRun (s t : State) (c : Nat) : Prop where
  only : t = { s with cores := t.cores }
  eng : (t.core c).eng = (s.core c).eng
  banks : ∀ j, (t.bank c j).st = (s.bank c j).st ∧ (t.bank c j).thr = (s.bank c j).thr ∧ (t.bank c j).cont = (s.bank c j).cont

namespace State.sameRun

variable {s t u : State} {c : Nat}

theorem refl (s : State) (c : Nat) : s.sameRun s c := ⟨rfl, rfl, fun _ => ⟨rfl, rfl, rfl⟩⟩

theorem trans (h : s.sameRun t c) (g : t.sameRun u c) : s.sameRun u c where
  only := g.only.trans (congrArg (fun t : State => { t with cores := u.cores }) h.only)
  eng := g.eng.trans h.eng
  banks j := by
    obtain ⟨hst, hthr, hcont⟩ := h.banks j
    obtain ⟨gst, gthr, gcont⟩ := g.banks j
    exact ⟨gst.trans hst, gthr.trans hthr, gcont.trans hcont⟩

theorem mem (h : s.sameRun t c) : t.mem = s.mem := (congrArg State.mem h.only :)
theorem hts (h : s.sameRun t c) : t.hts = s.hts := (congrArg State.hts h.only :)

theorem execBank (h : s.sameRun t c) : t.execBank c = s.execBank c := by
  refine State.execBank_of s t c ?_ h.hts (congrArg State.pio h.only :) fun b => ⟨(h.banks b).1, (h.banks b).2.1⟩
  rw [h.only]
  rfl

theorem frameDue (h : s.sameRun t c) (b : Nat) : t.frameDue c b = s.frameDue c b := by rw [State.frameDue, h.eng, State.frameDue]

theorem fits (h : s.sameRun t c) {v : State} (hfits : Fits v s) : Fits v t :=
  hfits.congr (congrArg (fun t : State => t.hts.ports) h.only :) (congrArg State.hold h.only :)

theorem fits_left (h : s.sameRun t c) {v : State} (hfits : Fits s v) : Fits t v :=
  ⟨(congrArg State.powered h.only :).trans hfits.1, hfits.2⟩

end State.sameRun

/-- A change of a bank's registers, status or mode. -/
theorem State.sameRun_modBank (s : State) (c b : Nat) {f : Bank → Bank} (h : (f (s.bank c b)).st = (s.bank c b).st ∧
    (f (s.bank c b)).thr = (s.bank c b).thr ∧ (f (s.bank c b)).cont = (s.bank c b).cont) :
    s.sameRun (s.modBank c b f) c := by
  refine ⟨rfl, ?_, fun j => ?_⟩
  · rw [State.modBank, State.core_modCore, if_pos rfl]
    rfl
  · rw [State.bank_modBank]
    split
    · next hj => exact hj.2 ▸ h
    · exact ⟨rfl, rfl, rfl⟩

theorem State.sameRun_retire (s : State) (c : Nat) : s.sameRun (s.retire c) c := by
  refine ⟨?_, ?_, fun j => by rw [State.bank_retire]; exact ⟨rfl, rfl, rfl⟩⟩
  · unfold State.retire
    split <;> rfl
  · unfold State.retire
    split
    · rfl
    · rw [State.setCsr, State.core_modCore, if_pos rfl]

theorem State.sameRun_coreCount (s : State) (c k : Nat) : s.sameRun (s.coreCount c k) c := by
  refine ⟨rfl, ?_, fun j => by rw [State.bank_coreCount]; exact ⟨rfl, rfl, rfl⟩⟩
  rw [State.coreCount, State.core_modCore, if_pos rfl]

/-- Core `c` executes in bank `b`, and nothing there stalls it (R335, R337). -/
structure State.free (s : State) (c b : Nat) : Prop where
  runs : s.execBank c = some b
  cont : (s.bank c b).cont = none
  due : s.frameDue c b = []

theorem State.free.of_sameRun {s t : State} {c b : Nat} (h : s.free c b) (hsame : s.sameRun t c) : t.free c b :=
  ⟨hsame.execBank.trans h.runs, (hsame.banks b).2.2.trans h.cont, (hsame.frameDue b).trans h.due⟩

theorem State.free.onRunning {s : State} {c b : Nat} (h : s.free c b) (f : Nat → State → State) : s.onRunning c f = f b s := by
  rw [State.onRunning, h.runs]
  exact State.issue_of_idle _ _ _ _ _ h.cont h.due

/-! ### The frame state of a bank -/

theorem Bank.st_kfSet (x : Bank) (lo n v : Nat) : (x.kfSet lo n v).st = x.st := rfl

/-- A field of kfstatus beside the one that is written. -/
theorem Bank.fld_kfSet_ne (x : Bank) {lo n v l k : Nat} (h : l + k ≤ 64) (hd : lo + n ≤ l ∨ l + k ≤ lo) :
    fld (x.kfSet lo n v).kf l k = fld x.kf l k := by
  rw [Bank.kf_kfSet, fld_setFld_ne _ _ _ _ _ _ h hd]

theorem Bank.fld_kfSet_self (x : Bank) {lo n v : Nat} (h : lo + n ≤ 64) (hv : v < 2 ^ n) : fld (x.kfSet lo n v).kf lo n = v := by
  rw [Bank.kf_kfSet, fld_setFld_self _ _ _ _ h, Nat.mod_eq_of_lt hv]

theorem Bank.bit_kfSet_ne (x : Bank) {lo n v i : Nat} (h : i < 64) (hd : i < lo ∨ lo + n ≤ i) : bit (x.kfSet lo n v).kf i = bit x.kf i := by
  rw [Bank.kf_kfSet, bit_setFld_ne _ _ _ _ _ h hd]

/-- A one-bit field of kfstatus written. -/
theorem Bank.bit_kfSet_self (x : Bank) {i : Nat} (h : i < 64) (v : Nat) : bit (x.kfSet i 1 v).kf i = v.testBit 0 := by
  rw [Bank.kf_kfSet, bit, getLsbD_setFld _ _ _ _ _ h, if_pos (by omega)]
  simp

/-- What x0 to x31 read depends on the slots of the lower half below the pc, on the upper half and on the first slot of the frame. -/
theorem Bank.x_congr {x y : Bank} {r : Nat} (hlow : r < 16 → tget 0 y.low (r - 1) = tget 0 x.low (r - 1))
    (hup : 16 ≤ r → tget 0 y.up (y.frame + (r - 16)) = tget 0 x.up (x.frame + (r - 16))) : y.x r = x.x r := by
  unfold Bank.x
  split
  · rfl
  · split
    · next h => exact hlow h
    · next h => exact hup (not_lt.1 h)

/-! ### A trap to machine mode and its return -/

/-- A bank after a trap to machine mode taken with tf = 0: the trap frame is current (R328). -/
def Bank.trapped (x : Bank) (cause : Nat) (tval tvec : DWord) : Bank := ((x.kfSet 16 1 1).kfSet 18 3 0).trapM false cause tval tvec

theorem Bank.trapM_keeps (x : Bank) (intr : Bool) (cause : Nat) (tval tvec : DWord) :
    (x.trapM intr cause tval tvec).st = x.st ∧ (x.trapM intr cause tval tvec).thr = x.thr ∧ (x.trapM intr cause tval tvec).cont = x.cont :=
  ⟨rfl, rfl, rfl⟩

theorem Bank.kf_trapM (x : Bank) (intr : Bool) (cause : Nat) (tval tvec : DWord) : (x.trapM intr cause tval tvec).kf = x.kf := by
  simp [Bank.trapM, Bank.kf, Bank.slot, Bank.setPc, tget_tset, slotPc, slotMepc, slotMcause, slotMtval, slotKf, slotPriv]

/-- The trap's own record. -/
theorem Bank.trapM_record (x : Bank) (cause : Nat) (tval tvec : DWord) :
    (x.trapM false cause tval tvec).pc = (tvec &&& ~~~3) ∧ (x.trapM false cause tval tvec).slot slotMepc = (x.pc &&& ~~~1) ∧
    (x.trapM false cause tval tvec).slot slotMcause = BitVec.ofNat 64 cause ∧ (x.trapM false cause tval tvec).slot slotMtval = tval := by
  simp [Bank.trapM, Bank.pc, Bank.slot, Bank.setPc, tget_tset, vector, b2n, slotPc, slotMepc, slotMcause, slotMtval, slotPriv]

/-- The trap changes no register of the lower half. -/
theorem Bank.low_trapM (x : Bank) (intr : Bool) (cause : Nat) (tval tvec : DWord) {j : Nat} (hj : j < 15) :
    tget 0 (x.trapM intr cause tval tvec).low j = tget 0 x.low j := by
  simp only [Bank.trapM, Bank.setPc, Bank.low_setSlot, tget_tset, slotPc, slotMepc, slotMcause, slotMtval]
  rw [if_neg (by omega), if_neg (by omega), if_neg (by omega), if_neg (by omega)]

theorem Bank.low_kfSet (x : Bank) (lo n v : Nat) {j : Nat} (hj : j < 15) : tget 0 (x.kfSet lo n v).low j = tget 0 x.low j :=
  tget_tset_ne _ _ _ (by unfold slotKf; omega)

section

variable (x : Bank) (cause : Nat) (tval tvec : DWord)

theorem Bank.kf_trapped : (x.trapped cause tval tvec).kf = ((x.kfSet 16 1 1).kfSet 18 3 0).kf := Bank.kf_trapM ..

/-- The trap frame is current: tf is 1 and tdep 0, while tnest and cur stand. -/
theorem Bank.trapped_frameState :
    (x.trapped cause tval tvec).tf = true ∧ (x.trapped cause tval tvec).tdep = 0 ∧ (x.trapped cause tval tvec).tnest = x.tnest ∧
    (x.trapped cause tval tvec).cur = x.cur := by
  unfold Bank.tf Bank.tdep Bank.tnest Bank.cur
  rw [Bank.kf_trapped]
  refine ⟨?_, Bank.fld_kfSet_self _ (by decide) (by decide), ?_, ?_⟩
  · rw [Bank.bit_kfSet_ne _ (by decide) (by decide), Bank.bit_kfSet_self _ (by decide)]
    rfl
  · rw [Bank.bit_kfSet_ne _ (by decide) (by decide), Bank.bit_kfSet_ne _ (by decide) (by decide)]
  · rw [Bank.fld_kfSet_ne _ (by decide) (by decide), Bank.fld_kfSet_ne _ (by decide) (by decide)]

theorem Bank.x_trapped_low {r : Nat} (hr : r < 16) : (x.trapped cause tval tvec).x r = x.x r := by
  refine Bank.x_congr (fun _ => ?_) (fun h => absurd hr h.not_gt)
  rw [Bank.trapped, Bank.low_trapM _ _ _ _ _ (by omega), Bank.low_kfSet _ _ _ _ (by omega), Bank.low_kfSet _ _ _ _ (by omega)]

theorem Bank.x_trapped_up {r : Nat} (hr : 16 ≤ r) : (x.trapped cause tval tvec).x r = tget 0 x.up (96 + (r - 16)) := by
  obtain ⟨htf, htdep, -, -⟩ := x.trapped_frameState cause tval tvec
  have hframe : (x.trapped cause tval tvec).frame = 96 := by simp [Bank.frame, Bank.inTrap, htf, htdep]
  rw [Bank.x, if_neg (by omega), if_neg (by omega), hframe]
  rfl

theorem Bank.mst_trapped : (x.trapped cause tval tvec).mst =
    setFld (putBit (putBit x.mst mMpie (bit x.mst mMie)) mMie false) mMpp 2 x.priv.toNat := rfl

/-- The status word of the trap: interrupts off, the bit before it in mpie, the mode in mpp. -/
theorem Bank.trapped_status :
    bit (x.trapped cause tval tvec).mst mMie = false ∧ bit (x.trapped cause tval tvec).mst mMpie = bit x.mst mMie ∧
    fld (x.trapped cause tval tvec).mst mMpp 2 = x.priv.toNat := by
  rw [Bank.mst_trapped]
  refine ⟨?_, ?_, ?_⟩
  · rw [bit_setFld_ne _ _ _ _ _ (by decide) (by decide), bit_putBit _ _ _ _ (by decide), if_pos rfl]
  · rw [bit_setFld_ne _ _ _ _ _ (by decide) (by decide), bit_putBit _ _ _ _ (by decide), if_neg (by decide), bit_putBit _ _ _ _ (by decide),
      if_pos rfl]
  · rw [fld_setFld_self _ _ _ _ (by decide), Nat.mod_eq_of_lt x.priv.isLt]

/-- A bank after MRET out of that trap. -/
def Bank.resumed : Bank := ((x.trapped cause tval tvec).kfSet 16 1 0).mret

theorem Bank.retFrame_trapped (h : x.tnest = false) : (x.trapped cause tval tvec).retFrame = some ((x.trapped cause tval tvec).kfSet 16 1 0) := by
  obtain ⟨-, htdep, htnest, -⟩ := x.trapped_frameState cause tval tvec
  simp [Bank.retFrame, htnest, htdep, h]

theorem Bank.mst_kfSet (lo n v : Nat) : (x.kfSet lo n v).mst = x.mst := rfl

theorem Bank.priv_mret : x.mret.priv = BitVec.ofNat 2 (fld x.mst mMpp 2) := rfl

theorem Bank.mst_mret : x.mret.mst =
    if fld x.mst mMpp 2 = 3 then setFld (putBit (putBit x.mst mMie (bit x.mst mMpie)) mMpie true) mMpp 2 0
    else putBit (setFld (putBit (putBit x.mst mMie (bit x.mst mMpie)) mMpie true) mMpp 2 0) mMprv false := rfl

theorem Bank.up_mret : x.mret.up = x.up := rfl

theorem Bank.mret_keeps : x.mret.st = x.st ∧ x.mret.thr = x.thr ∧ x.mret.cont = x.cont := ⟨rfl, rfl, rfl⟩

theorem Bank.kf_mret : x.mret.kf = x.kf := Bank.kf_setPc ..

/-- After the return the ring frame is current again. -/
theorem Bank.resumed_frameState : (x.resumed cause tval tvec).tf = false ∧ (x.resumed cause tval tvec).cur = x.cur := by
  obtain ⟨-, -, -, hcur⟩ := x.trapped_frameState cause tval tvec
  unfold Bank.tf
  rw [Bank.resumed, Bank.cur, Bank.kf_mret]
  exact ⟨Bank.bit_kfSet_self _ (by decide) _, (Bank.fld_kfSet_ne _ (by decide) (by decide)).trans hcur⟩

theorem Bank.up_resumed : (x.resumed cause tval tvec).up = x.up := by
  rw [Bank.resumed, Bank.up_mret, Bank.up_kfSet]
  rfl

theorem Bank.resumed_keeps : (x.resumed cause tval tvec).st = x.st ∧ (x.resumed cause tval tvec).thr = x.thr ∧
    (x.resumed cause tval tvec).cont = x.cont := by
  obtain ⟨hst, hthr, hcont⟩ := ((x.trapped cause tval tvec).kfSet 16 1 0).mret_keeps
  obtain ⟨gst, gthr, gcont⟩ := ((x.kfSet 16 1 1).kfSet 18 3 0).trapM_keeps false cause tval tvec
  exact ⟨hst.trans gst, hthr.trans gthr, hcont.trans gcont⟩

theorem Bank.x_resumed (htf : x.tf = false) {r : Nat} (hr : r < 32) : (x.resumed cause tval tvec).x r = x.x r := by
  obtain ⟨gtf, gcur⟩ := x.resumed_frameState cause tval tvec
  refine Bank.x_congr (fun hlow => ?_) (fun _ => ?_)
  · have hpc : tget 0 (x.resumed cause tval tvec).low (r - 1) = tget 0 ((x.trapped cause tval tvec).kfSet 16 1 0).low (r - 1) :=
      tget_tset_ne _ _ _ (by unfold slotPc; omega)
    rw [hpc, Bank.low_kfSet _ _ _ _ (by omega), Bank.trapped, Bank.low_trapM _ _ _ _ _ (by omega), Bank.low_kfSet _ _ _ _ (by omega),
      Bank.low_kfSet _ _ _ _ (by omega)]
  · have hframe : (x.resumed cause tval tvec).frame = x.frame := by simp [Bank.frame, Bank.inTrap, htf, gtf, gcur]
    rw [hframe, x.up_resumed]

theorem Bank.pc_resumed : (x.resumed cause tval tvec).pc = (x.pc &&& ~~~1) := by
  have hslot : ((x.trapped cause tval tvec).kfSet 16 1 0).slot slotMepc = (x.trapped cause tval tvec).slot slotMepc :=
    (Bank.slot_setSlot _ _ _ _ (by decide)).trans (if_neg (by decide))
  obtain ⟨-, hmepc, -, -⟩ := ((x.kfSet 16 1 1).kfSet 18 3 0).trapM_record cause tval tvec
  rw [Bank.pc_kfSet, Bank.pc_kfSet] at hmepc
  exact (Bank.pc_setPc ..).trans (hslot.trans hmepc)

/-- The mode and the interrupt bit come back. -/
theorem Bank.resumed_status : (x.resumed cause tval tvec).priv = x.priv ∧ bit (x.resumed cause tval tvec).mst mMie = bit x.mst mMie := by
  obtain ⟨-, hmpie, hmpp⟩ := x.trapped_status cause tval tvec
  generalize hy : x.trapped cause tval tvec = y at hmpie hmpp
  have hmie : bit (setFld (putBit (putBit y.mst mMie (bit y.mst mMpie)) mMpie true) mMpp 2 0) mMie = bit x.mst mMie := by
    rw [bit_setFld_ne _ _ _ _ _ (by decide) (by decide), bit_putBit _ _ _ _ (by decide), if_neg (by decide), bit_putBit _ _ _ _ (by decide),
      if_pos rfl, hmpie]
  refine ⟨?_, ?_⟩
  · rw [Bank.resumed, hy, Bank.priv_mret, Bank.mst_kfSet, hmpp, BitVec.ofNat_toNat, BitVec.setWidth_eq]
  · rw [Bank.resumed, hy, Bank.mst_mret, Bank.mst_kfSet]
    split
    · exact hmie
    · rw [bit_putBit _ _ _ _ (by decide), if_neg (by decide)]
      exact hmie

end

/-- A pc whose bit 0 is 0 is its own even address. -/
theorem even_of_bit {v : DWord} (h : bit v 0 = false) : (v &&& ~~~1) = v := by
  refine BitVec.eq_of_getLsbD_eq fun i hi => ?_
  by_cases h0 : i = 0
  · subst h0
    rw [BitVec.getLsbD_and, show v.getLsbD 0 = false from h]
    rfl
  · have hone : (1 : DWord).getLsbD i = false := (BitVec.getLsbD_one).trans (by simp [h0])
    rw [BitVec.getLsbD_and, BitVec.getLsbD_not, hone]
    simp [hi]

/-- What a trap does to its bank. -/
def State.trapBank (s : State) (c b cause : Nat) (tval : DWord) (x : Bank) : Bank :=
  match x.trapFrame with
  | some y => if s.delegated c b false cause then y.trapS false cause tval else y.trapM false cause tval (s.csr c csrMtvec)
  | none => x

theorem Bank.trapFrame_keeps (x : Bank) {y : Bank} (h : x.trapFrame = some y) : y.st = x.st ∧ y.thr = x.thr ∧ y.cont = x.cont := by
  unfold Bank.trapFrame at h
  split at h
  · exact Option.some.inj h ▸ ⟨rfl, rfl, rfl⟩
  · split at h
    · exact Option.some.inj h ▸ ⟨rfl, rfl, rfl⟩
    · cases h

theorem State.takeTrap_eq {s : State} {c b cause : Nat} {tval : DWord} {y : Bank} (h : (s.bank c b).trapFrame = some y) :
    s.takeTrap c b false cause tval =
      if cause = 24 then (s.modBank c b (s.trapBank c b cause tval)).coreCount c 4
      else if cause = 25 then (s.modBank c b (s.trapBank c b cause tval)).coreCount c 5 else s.modBank c b (s.trapBank c b cause tval) := by
  rw [State.takeTrap, h]
  rfl

/-- An exception that is not delegated, taken with tf = 0, changes its bank and a counter alone. -/
theorem State.takeTrap_machine {s : State} {c b cause : Nat} (htf : (s.bank c b).tf = false) (hdel : s.delegated c b false cause = false) (tval : DWord) :
    (s.takeTrap c b false cause tval).bank c b = (s.bank c b).trapped cause tval (s.csr c csrMtvec) ∧
    s.sameRun (s.takeTrap c b false cause tval) c := by
  have hframe : (s.bank c b).trapFrame = some (((s.bank c b).kfSet 16 1 1).kfSet 18 3 0) := by simp [Bank.trapFrame, htf]
  have hbank : ∀ x : Bank, (s.trapBank c b cause tval x).st = x.st ∧ (s.trapBank c b cause tval x).thr = x.thr ∧ (s.trapBank c b cause tval x).cont = x.cont := by
    intro x
    unfold State.trapBank
    split
    · next y hy =>
      obtain ⟨hst, hthr, hcont⟩ := x.trapFrame_keeps hy
      split <;> exact ⟨hst, hthr, hcont⟩
    · exact ⟨rfl, rfl, rfl⟩
  have hself : (s.modBank c b (s.trapBank c b cause tval)).bank c b = (s.bank c b).trapped cause tval (s.csr c csrMtvec) := by
    rw [State.bank_modBank_self, State.trapBank, hframe, hdel]
    rfl
  have hsame := s.sameRun_modBank c b (hbank _)
  rw [State.takeTrap_eq hframe]
  split
  · exact ⟨(State.bank_coreCount ..).trans hself, hsame.trans (State.sameRun_coreCount ..)⟩
  · split
    · exact ⟨(State.bank_coreCount ..).trans hself, hsame.trans (State.sameRun_coreCount ..)⟩
    · exact ⟨hself, hsame⟩

theorem trapEntry_exception {s : State} {c b cause : Nat} (h : s.free c b) (hcause : excCause cause = true) (tval : DWord) :
    trapEntry c false cause tval s = s.takeTrap c b false cause tval := by
  rw [trapEntry, h.runs]
  simp only [Bool.false_eq_true, if_false, hcause, if_true]
  exact State.issue_of_idle _ _ _ _ _ h.cont h.due

/-- MRET from the bank's state after such a trap. -/
theorem State.xret_trapped {t : State} {c b cause : Nat} {tval tvec : DWord} {x : Bank} (hbank : t.bank c b = x.trapped cause tval tvec)
    (htnest : x.tnest = false) :
    t.xret c b true = (t.modBank c b (fun _ => x.resumed cause tval tvec)).retire c := by
  unfold State.xret
  dsimp only
  rw [hbank, x.retFrame_trapped cause tval tvec htnest]
  rfl

/-- Settles O50: the trap by `State.takeTrap_machine`, the return by `Bank.resumed`. -/
theorem trapThenReturn : Obligations.TrapThenReturn := by
  intro s c b cause tval hruns htf htnest hcause hdel heven hcont hdue hfits
  have hfree : s.free c.val b := ⟨hruns, hcont, hdue⟩
  obtain ⟨hbank, hsame⟩ := State.takeTrap_machine htf hdel tval
  generalize hx : s.bank c.val b = x at *
  generalize htvec : s.csr c.val csrMtvec = tvec at hbank
  have htrap := trapEntry_exception hfree hcause tval
  generalize s.takeTrap c.val b false cause.toNat tval = t at *
  have hret := ((hfree.of_sameRun hsame).onRunning (fun b u => u.xret c.val b true)).trans (State.xret_trapped hbank htnest)
  have hfits' := hsame.fits hfits
  have hresumed : t.sameRun ((t.modBank c.val b (fun _ => x.resumed cause.toNat tval tvec)).retire c.val) c.val := by
    refine (t.sameRun_modBank c.val b ?_).trans (State.sameRun_retire ..)
    rw [hbank]
    exact x.resumed_keeps ..
  have hback : ((t.modBank c.val b (fun _ => x.resumed cause.toNat tval tvec)).retire c.val).bank c.val b = x.resumed cause.toNat tval tvec := by
    rw [State.bank_retire, State.bank_modBank_self]
  refine ⟨t, (t.modBank c.val b (fun _ => x.resumed cause.toNat tval tvec)).retire c.val,
    (exec_of_fits rfl (htrap ▸ hfits')).trans (congrArg _ htrap), ?_⟩
  obtain ⟨hpc, hmepc, hmcause, hmtval⟩ := ((x.kfSet 16 1 1).kfSet 18 3 0).trapM_record cause.toNat tval tvec
  obtain ⟨hmie, -, -⟩ := x.trapped_status cause.toNat tval tvec
  obtain ⟨gpriv, gmie⟩ := x.resumed_status cause.toNat tval tvec
  rw [Bank.pc_kfSet, Bank.pc_kfSet, even_of_bit heven] at hmepc
  rw [hbank]
  refine ⟨hpc, hmepc, hmcause, hmtval, rfl, hmie, (x.trapped_frameState ..).1, fun r hr _ => x.x_trapped_up _ _ _ hr,
    fun r hr => x.x_trapped_low _ _ _ hr, hsame.mem,
    (exec_of_fits rfl (hret ▸ hresumed.fits (hsame.fits_left hfits'))).trans (congrArg _ hret), ?_⟩
  rw [hback]
  exact ⟨(x.pc_resumed ..).trans (even_of_bit heven), gpriv, gmie, (x.resumed_frameState ..).1, fun r hr => x.x_resumed _ _ _ htf hr,
    (hresumed.mem).trans hsame.mem⟩

end Sys2Proof.Machine
end

section
/-!
PROOFS. The calls and returns of the frame ring (R325 to R327, R337), the scheduler's instructions (R368) and the register forms of
RV64 by encoding (R322).
-/
namespace Sys2Proof.Machine

/-- A write of a register leaves the bank's state, thread and interrupted instruction. -/
theorem Bank.setX_keeps (x : Bank) (r : Nat) (v : DWord) : (x.setX r v).st = x.st ∧ (x.setX r v).thr = x.thr ∧ (x.setX r v).cont = x.cont := by
  unfold Bank.setX
  split
  · exact ⟨rfl, rfl, rfl⟩
  · split <;> exact ⟨rfl, rfl, rfl⟩

/-! ### The scheduler's instructions -/

/-- A port that has room stays within eight occurrences. -/
theorem State.portsOk_toPort {s : State} (h : s.portsOk = true) {k : Nat} (o : Occ) (hroom : (tget [] s.hts.ports k).length < 8) :
    (s.toPort k o).portsOk = true := by
  unfold State.portsOk at h ⊢
  rw [List.all_eq_true] at h ⊢
  intro e he
  have he' : e ∈ tset [] s.hts.ports k (tget [] s.hts.ports k ++ [o]) := he
  rw [tset, if_neg (by simp)] at he'
  rcases mem_tput _ _ _ _ he' with rfl | hmem
  · simpa using hroom
  · exact h e hmem

section

variable {s : State} {c b : Nat}

theorem State.free.xkhts_user (h : s.free c b) (hpriv : (s.bank c b).priv = 0) (w : Word) (f : Nat → State → State) :
    s.xkhts c w f = s.illegal c b w := by
  rw [State.xkhts, h.onRunning]
  exact if_pos hpriv

theorem State.free.xkhts_may (h : s.free c b) (hpriv : (s.bank c b).priv ≠ 0) (w : Word) (f : Nat → State → State) :
    s.xkhts c w f = f b ((s.pcAdd c b 4).retire c) := by
  rw [State.xkhts, h.onRunning]
  exact if_neg hpriv

/-- The pc moves on and the instruction counts. -/
theorem State.sameRun_pcAdd (s : State) (c b n : Nat) : s.sameRun ((s.pcAdd c b n).retire c) c :=
  (s.sameRun_modBank c b ⟨rfl, rfl, rfl⟩).trans (State.sameRun_retire ..)

theorem State.bank_pcAdd (s : State) (c b n : Nat) :
    ((s.pcAdd c b n).retire c).bank c b = (s.bank c b).setPc ((s.bank c b).pc + BitVec.ofNat 64 n) := by
  rw [State.bank_retire, State.pcAdd, State.bank_modBank_self]

/-- A scheduler instruction in user mode is exception 2 (R368). -/
theorem exec_xkhts_user {i : Instr} {w : Word} {f : Nat → State → State} (hexec : exec i s = .next (s.gate (s.xkhts c w f)))
    (hfree : s.free c b) (hpriv : (s.bank c b).priv = 0) (htf : (s.bank c b).tf = false) (hdel : bit (s.csr c csrMedeleg) 2 = false) (hfits : Fits s s) :
    ∃ t, exec i s = .next t ∧ (t.bank c b).slot slotMcause = 2 ∧ (t.bank c b).slot slotMepc = ((s.bank c b).pc &&& ~~~1) ∧
      (t.bank c b).priv = 3 ∧ t.hts = s.hts ∧ t.mem = s.mem := by
  have hmachine : s.delegated c b false 2 = false := by simp [State.delegated, hdel]
  have hop : s.xkhts c w f = s.takeTrap c b false 2 (if Config.illegalBits then w.setWidth 64 else 0) := hfree.xkhts_user hpriv w f
  obtain ⟨hbank, hsame⟩ := State.takeTrap_machine htf hmachine (if Config.illegalBits then w.setWidth 64 else 0)
  refine ⟨_, (exec_of_fits hexec (hop ▸ hsame.fits hfits)).trans (congrArg _ hop), ?_⟩
  obtain ⟨-, hmepc, hmcause, -⟩ := (((s.bank c b).kfSet 16 1 1).kfSet 18 3 0).trapM_record 2 (if Config.illegalBits then w.setWidth 64 else 0) (s.csr c csrMtvec)
  rw [Bank.pc_kfSet, Bank.pc_kfSet] at hmepc
  rw [hbank]
  exact ⟨hmcause, hmepc, rfl, hsame.hts, hsame.mem⟩

end

/-- Settles O51: the five instructions in user mode by `exec_xkhts_user`, HSELF and HEVT by what they do behind the pc's step. -/
theorem xkhtsNeedPrivilege : Obligations.XkhtsNeedPrivilege := by
  refine ⟨?user, ?hself, ?hevt⟩
  case user =>
    intro s c b i hi hruns hpriv htf hdel hcont hdue hfits
    have hfree : s.free c.val b := ⟨hruns, hcont, hdue⟩
    cases i
    case hevt d rs1 => cases hi; exact exec_xkhts_user rfl hfree hpriv htf hdel hfits
    case hwait d => cases hi; exact exec_xkhts_user rfl hfree hpriv htf hdel hfits
    case hexit d => cases hi; exact exec_xkhts_user rfl hfree hpriv htf hdel hfits
    case hyield d => cases hi; exact exec_xkhts_user rfl hfree hpriv htf hdel hfits
    case hself d rd => cases hi; exact exec_xkhts_user rfl hfree hpriv htf hdel hfits
    all_goals exact hi.elim
  case hself =>
    intro s c b rd hruns hpriv hrd hcont hdue hfits
    have hfree : s.free c.val b := ⟨hruns, hcont, hdue⟩
    have hop : hselfCmd c.val rd.val s = _ := hfree.xkhts_may hpriv _ _
    have hsame := (s.sameRun_pcAdd c.val b 4).trans (State.sameRun_modBank _ c.val b (f := fun x => x.setX rd.val (BitVec.ofNat 64 x.thr)) (Bank.setX_keeps ..))
    refine ⟨_, (exec_of_fits rfl (hop ▸ hsame.fits hfits)).trans (congrArg _ hop), ?_⟩
    have hne : rd.val ≠ 0 := fun h => hrd (Fin.ext h)
    rw [State.bank_modBank_self, State.bank_pcAdd]
    refine ⟨?_, ?_, fun r hr hr32 => ?_, hsame.hts⟩
    · rw [Bank.x_setX _ _ _ _ rd.isLt rd.isLt, if_pos ⟨rfl, hne⟩]
      rfl
    · rw [Bank.pc_setX _ _ _ rd.isLt, Bank.pc_setPc]
      rfl
    · rw [Bank.x_setX _ _ _ _ rd.isLt hr32, if_neg (fun h => hr h.1), Bank.x_setPc]
  case hevt =>
    intro s c b rs1 hruns hpriv hcont hdue hfits hroom
    have hfree : s.free c.val b := ⟨hruns, hcont, hdue⟩
    have hsame := s.sameRun_pcAdd c.val b 4
    have hbank := s.bank_pcAdd c.val b 4
    have hop : hevtCmd c.val rs1.val s = _ := hfree.xkhts_may hpriv _ _
    generalize (s.pcAdd c.val b 4).retire c.val = u at hsame hbank hop
    obtain ⟨hpower, hports, hhold⟩ := hsame.fits hfits
    have hroom' : (tget [] u.hts.ports (0x10000 + c.val)).length < 8 := by rwa [hsame.hts]
    refine ⟨_, (exec_of_fits rfl (hop ▸ ⟨hpower, State.portsOk_toPort hports _ hroom', hhold⟩)).trans (congrArg _ hop), ?_⟩
    have hx : ∀ r, (u.bank c.val b).x r = (s.bank c.val b).x r := fun r => by rw [hbank, Bank.x_setPc]
    refine ⟨?_, ?_, fun r _ => hx r⟩
    · refine (tget_tset_self ..).trans ?_
      rw [hsame.hts, hx]
    · show (u.bank c.val b).pc = _
      rw [hbank, Bank.pc_setPc]
      rfl

/-! ### Calls and returns -/

/-- A bank after FCALL with room in the ring and tf = 0 (R327). -/
def Bank.called (x : Bank) (target : DWord) : Bank :=
  { (((x.kfSet 0 3 ((x.cur + 1) % 6)).kfSet 3 3 (x.res + 1)).setPc target) with
    up := tset 0 (tkeep (fun i => !(decide (16 * ((x.cur + 1) % 6) ≤ i) && decide (i < 16 * ((x.cur + 1) % 6) + 16))) x.up)
      (16 * ((x.cur + 1) % 6)) (x.pc + 4) }

/-- A bank after FRET with tf = 0. -/
def Bank.returned (x : Bank) : Bank := ((x.setPc (x.x 16)).kfSet 0 3 ((x.cur + 5) % 6)).kfSet 3 3 (x.res - 1)

section

variable (x : Bank)

theorem Bank.kf_called (target : DWord) : (x.called target).kf = ((x.kfSet 0 3 ((x.cur + 1) % 6)).kfSet 3 3 (x.res + 1)).kf := Bank.kf_setPc ..

theorem Bank.called_frameState (target : DWord) (hres : x.res < 6) :
    (x.called target).cur = (x.cur + 1) % 6 ∧ (x.called target).res = x.res + 1 ∧ (x.called target).tf = x.tf := by
  have hcur : (x.cur + 1) % 6 < 6 := Nat.mod_lt _ (by decide)
  unfold Bank.tf
  rw [Bank.cur, Bank.res, Bank.kf_called]
  refine ⟨?_, Bank.fld_kfSet_self _ (by decide) (by omega), ?_⟩
  · rw [Bank.fld_kfSet_ne _ (by decide) (by decide)]
    exact Bank.fld_kfSet_self _ (by decide) (by omega)
  · rw [Bank.bit_kfSet_ne _ (by decide) (by decide), Bank.bit_kfSet_ne _ (by decide) (by decide)]

theorem Bank.returned_frameState :
    x.returned.cur = (x.cur + 5) % 6 ∧ x.returned.res = x.res - 1 ∧ x.returned.tf = x.tf := by
  have hres : fld x.kf 3 3 < 8 := fld_lt ..
  have hcur' : (x.cur + 5) % 6 < 6 := Nat.mod_lt _ (by decide)
  unfold Bank.tf
  rw [Bank.returned, Bank.cur, Bank.res]
  refine ⟨?_, Bank.fld_kfSet_self _ (by decide) (by omega), ?_⟩
  · rw [Bank.fld_kfSet_ne _ (by decide) (by decide)]
    exact Bank.fld_kfSet_self _ (by decide) (by omega)
  · rw [Bank.bit_kfSet_ne _ (by decide) (by decide), Bank.bit_kfSet_ne _ (by decide) (by decide), Bank.kf_setPc]

/-- Outside a trap the frame is the one that cur names. -/
theorem Bank.frame_of_tf (h : x.tf = false) : x.frame = 16 * x.cur := by simp [Bank.frame, Bank.inTrap, h]

theorem Bank.low_called (target : DWord) {j : Nat} (hj : j < 15) : tget 0 (x.called target).low j = tget 0 x.low j := by
  have hpc : tget 0 (x.called target).low j = tget 0 ((x.kfSet 0 3 ((x.cur + 1) % 6)).kfSet 3 3 (x.res + 1)).low j :=
    tget_tset_ne _ _ _ (by unfold slotPc; omega)
  rw [hpc, Bank.low_kfSet _ _ _ _ hj, Bank.low_kfSet _ _ _ _ hj]

theorem Bank.x_called_low (target : DWord) {r : Nat} (hr : r < 16) : (x.called target).x r = x.x r :=
  Bank.x_congr (fun _ => x.low_called target (by omega)) (fun h => absurd hr h.not_gt)

theorem Bank.low_returned {j : Nat} (hj : j < 15) : tget 0 x.returned.low j = tget 0 x.low j := by
  rw [Bank.returned, Bank.low_kfSet _ _ _ _ hj, Bank.low_kfSet _ _ _ _ hj]
  exact tget_tset_ne _ _ _ (by unfold slotPc; omega)

theorem Bank.pc_returned : x.returned.pc = x.x 16 := by
  rw [Bank.returned, Bank.pc_kfSet, Bank.pc_kfSet, Bank.pc_setPc]

section

variable {x} (htf : x.tf = false) (hres : x.res < 6)
include htf hres

/-- The new frame: the return address in x16, zero in x17 to x31. -/
theorem Bank.x_called_up (target : DWord) {r : Nat} (hlo : 16 ≤ r) (hhi : r < 32) :
    (x.called target).x r = if r = 16 then x.pc + 4 else 0 := by
  obtain ⟨hcur, -, htf'⟩ := x.called_frameState target hres
  rw [Bank.x, if_neg (by omega), if_neg (by omega), Bank.frame_of_tf _ (htf'.trans htf), hcur]
  refine (tget_tset ..).trans ?_
  by_cases h : r = 16
  · rw [if_pos (by omega), if_pos h]
  · rw [if_neg (by omega), if_neg h, tget_tkeep, if_neg (by simp; omega)]

/-- The return finds the caller's frame state and registers. -/
theorem Bank.returned_called (target : DWord) (hcur : x.cur < 6) :
    (x.called target).returned.cur = x.cur ∧ (x.called target).returned.res = x.res ∧ (x.called target).returned.pc = x.pc + 4 ∧
    ∀ r, r < 32 → (x.called target).returned.x r = x.x r := by
  obtain ⟨gcur, gres, gtf⟩ := x.called_frameState target hres
  obtain ⟨rcur, rres, rtf⟩ := (x.called target).returned_frameState
  have hback : (x.called target).returned.cur = x.cur := by omega
  refine ⟨hback, by omega, ?_, fun r hr => Bank.x_congr (fun hlow => ?_) (fun hup => ?_)⟩
  · rw [Bank.pc_returned, Bank.x_called_up htf hres target (by decide) (by decide)]
    rfl
  · rw [Bank.low_returned _ (by omega), Bank.low_called _ _ (by omega)]
  · rw [Bank.frame_of_tf _ (rtf.trans (gtf.trans htf)), Bank.frame_of_tf _ htf, hback]
    refine (tget_tset_ne _ _ _ (by omega)).trans ?_
    rw [tget_tkeep, if_pos (by simp; omega)]

end

end

section

variable {s : State} {c b : Nat}

/-- An update of a bank depends on what it makes of that bank. -/
theorem State.modBank_congr {f g : Bank → Bank} (h : f (s.bank c b) = g (s.bank c b)) : s.modBank c b f = s.modBank c b g :=
  congrArg (fun v => ({ s with cores := tset {} s.cores c { s.core c with banks := tset {} (s.core c).banks b v } } : State)) h

theorem State.fcall_enters (htf : (s.bank c b).tf = false) (hres : (s.bank c b).res < 6) (rs1 : Nat) (imm : BitVec 12) :
    s.fcall c b rs1 imm = (s.retire c).modBank c b (fun x => x.called (((s.bank c b).x rs1 + imm.signExtend 64) &&& ~~~1)) := by
  unfold State.fcall
  dsimp only
  rw [if_neg hres.ne, htf]
  simp only [Bool.false_and, Bool.false_eq_true, if_false]
  refine State.modBank_congr ?_
  rw [State.bank_retire, htf]
  rfl

theorem State.fret_returns (htf : (s.bank c b).tf = false) (hres : (s.bank c b).res ≠ 1) (heven : bit ((s.bank c b).x 16) 0 = false) :
    s.fret c b = (s.retire c).modBank c b Bank.returned := by
  have htrap : (s.bank c b).inTrap = false := by simp [Bank.inTrap, htf]
  unfold State.fret
  dsimp only
  rw [if_neg (by simp [htrap]), if_neg (fun h => hres h.1), if_neg hres, if_neg (by simp [heven])]
  refine State.modBank_congr ?_
  rw [State.bank_retire]
  exact if_neg (by simp [htf])

theorem State.sameRun_fcall (s : State) (c b : Nat) (target : DWord) : s.sameRun ((s.retire c).modBank c b (fun x => x.called target)) c :=
  (State.sameRun_retire ..).trans (State.sameRun_modBank _ _ _ ⟨rfl, rfl, rfl⟩)

theorem State.sameRun_fret (s : State) (c b : Nat) : s.sameRun ((s.retire c).modBank c b Bank.returned) c :=
  (State.sameRun_retire ..).trans (State.sameRun_modBank _ _ _ ⟨rfl, rfl, rfl⟩)

/-- The bank in which a core executes is ACTIVE. -/
theorem State.active_of_execBank (h : s.execBank c = some b) : (s.bank c b).st = .active := by
  unfold State.execBank State.runBank at h
  split at h
  · cases h
  · split at h
    · cases h
    · split at h
      · next a ha =>
        split at h
        · obtain rfl := Option.some.inj h
          have hst : ((s.core c).bank a).st == .active := List.find?_some (p := fun b => ((s.core c).bank b).st == .active) ha
          exact eq_of_beq hst
        · cases h
      · cases h

end

/-- Bit 0 of the next instruction's address. -/
theorem bit_pcNext {pc : DWord} (h : bit pc 0 = false) : bit (pc + 4) 0 = false := by
  have hmod : (pc + 4).toNat % 2 = pc.toNat % 2 := by
    rw [BitVec.toNat_add, Nat.mod_mod_of_dvd _ (by decide)]
    exact Nat.add_mul_mod_self_left _ 2 2
  rw [bit, BitVec.getLsbD, Nat.testBit_zero] at *
  rwa [hmod]

/-- Settles O49: the call and the return are `Bank.called` and `Bank.returned`; a frame that is due stalls the return. -/
theorem fcallThenFretReturns : Obligations.FcallThenFretReturns := by
  refine ⟨?returns, ?waits⟩
  case returns =>
    intro s c b rs1 imm hruns htf hres1 hres hcur heven hcont hdue hfits
    have hfree : s.free c.val b := ⟨hruns, hcont, hdue⟩
    have hcall : fcallCmd c.val rs1.val imm s = _ := (hfree.onRunning _).trans (State.fcall_enters htf hres rs1.val imm)
    generalize htarget : (((s.bank c.val b).x rs1.val + imm.signExtend 64) &&& ~~~1) = target at hcall
    have hsame := s.sameRun_fcall c.val b target
    have hbank : ((s.retire c.val).modBank c.val b (fun x => x.called target)).bank c.val b = (s.bank c.val b).called target := by
      rw [State.bank_modBank_self, State.bank_retire]
    generalize (s.retire c.val).modBank c.val b (fun x => x.called target) = t at hcall hsame hbank
    obtain ⟨-, gres, gtf⟩ := (s.bank c.val b).called_frameState target hres
    have hx16 : ((s.bank c.val b).called target).x 16 = (s.bank c.val b).pc + 4 :=
      (Bank.x_called_up htf hres target (by decide) (by decide)).trans (if_pos rfl)
    have hret : fretCmd c.val t = _ := ((hfree.of_sameRun hsame).onRunning _).trans
      (State.fret_returns (by rw [hbank, gtf, htf]) (by rw [hbank, gres]; omega) (by rw [hbank, hx16]; exact bit_pcNext heven))
    have hsame' := t.sameRun_fret c.val b
    have hbank' : ((t.retire c.val).modBank c.val b Bank.returned).bank c.val b = ((s.bank c.val b).called target).returned := by
      rw [State.bank_modBank_self, State.bank_retire, hbank]
    obtain ⟨rcur, rres, rpc, rx⟩ := Bank.returned_called htf hres target hcur
    refine ⟨t, (t.retire c.val).modBank c.val b Bank.returned, (exec_of_fits rfl (hcall ▸ hsame.fits hfits)).trans (congrArg _ hcall), ?_⟩
    rw [hbank]
    refine ⟨Bank.pc_setPc .., hx16, fun r hlo hhi => ?_, fun r hr => Bank.x_called_low _ _ hr, gres, hsame.mem,
      (exec_of_fits rfl (hret ▸ hsame'.fits (hsame.fits_left (hsame.fits hfits)))).trans (congrArg _ hret), ?_⟩
    · rw [Bank.x_called_up htf hres target (by omega) hhi, if_neg (by omega)]
    · rw [hbank']
      exact ⟨rpc, rx, rcur, rres, hsame'.mem.trans hsame.mem⟩
  case waits =>
    intro s c b hruns htf hres hcur heven hdue
    refine Takes.of_op rfl ?_
    have hactive : ((s.fret c.val b).bank c.val b).st = .active := by
      rw [State.fret_returns htf hres heven, ((s.sameRun_fret c.val b).banks b).1]
      exact State.active_of_execBank hruns
    have hframe : ((s.fret c.val b).bank c.val b).frame / 16 = ((s.bank c.val b).cur + 5) % 6 := by
      obtain ⟨rcur, -, rtf⟩ := (s.bank c.val b).returned_frameState
      rw [State.fret_returns htf hres heven, State.bank_modBank_self, State.bank_retire, Bank.frame_of_tf _ (rtf.trans htf), rcur]
      omega
    have hstall : s.issues c.val b none (s.fret c.val b) = false := by
      simp [State.issues, hactive, hframe, hdue]
    simp [fretCmd, State.onRunning, hruns, State.issue, hstall]

/-! ### Register forms by encoding -/

section

variable (f3 f7 : Nat) (rd rs1 rs2 : Fin 32)

/-- The fields of an R-format word of OP. -/
theorem encR_fields (hf3 : f3 < 8) (hf7 : f7 < 128) :
    fld (encR 0x33 f3 f7 rd rs1 rs2) 0 7 = 0x33 ∧ rvRd (encR 0x33 f3 f7 rd rs1 rs2) = rd ∧ rvF3 (encR 0x33 f3 f7 rd rs1 rs2) = f3 ∧
    rvRs1 (encR 0x33 f3 f7 rd rs1 rs2) = rs1 ∧ rvRs2 (encR 0x33 f3 f7 rd rs1 rs2) = rs2 ∧ rvF7 (encR 0x33 f3 f7 rd rs1 rs2) = f7 ∧
    fld (encR 0x33 f3 f7 rd rs1 rs2) 0 2 = 3 := by
  have hrd := rd.isLt
  have hrs1 := rs1.isLt
  have hrs2 := rs2.isLt
  unfold rvRd rvF3 rvRs1 rvRs2 rvF7 encR
  rw [fld_ofNat _ (by decide), fld_ofNat _ (by decide), fld_ofNat _ (by decide), fld_ofNat _ (by decide), fld_ofNat _ (by decide),
    fld_ofNat _ (by decide), fld_ofNat _ (by decide)]
  omega

/-- An OP word is no Xkctx instruction. -/
theorem xkctxOf_of_op {w : Word} (h : fld w 0 7 = 0x33) : xkctxOf w = none := by
  have hne : ∀ v : Word, fld v 0 7 ≠ 0x33 → w ≠ v := fun v hv hw => hv (hw ▸ h)
  rw [xkctxOf, if_neg (hne _ (by decide)), if_neg (hne _ (by decide)), if_neg (hne _ (by decide)), if_neg (hne _ (by decide))]

/-- The arithmetic of OP. -/
theorem arith_op {w : Word} (h : fld w 0 7 = 0x33) (pc x y : DWord) : arith w pc x y =
    if rvF7 w = 1 then some (mulOp (rvF3 w) x y) else if rvF7 w = 0 then some (aluOp (rvF3 w) false x y)
    else if rvF7 w = 0x20 ∧ (rvF3 w = 0 ∨ rvF3 w = 5) then some (aluOp (rvF3 w) true x y) else none := by
  rw [arith, h]
  rfl

end

section

variable {s : State} {c b : Nat}

/-- An OP word with a result writes it and goes on. -/
theorem rv64Instruction_op (h : s.free c b) {w : Word} (hop : fld w 0 7 = 0x33) (hlow : fld w 0 2 = 3) {v : DWord}
    (hv : arith w (s.bank c b).pc ((s.bank c b).x (rvRs1 w)) ((s.bank c b).x (rvRs2 w)) = some v) :
    rv64Instruction c w s = s.retireX c b 4 (rvRd w) v := by
  rw [rv64Instruction, xkctxOf_of_op hop]
  refine (h.onRunning _).trans ((if_pos hlow).trans ?_)
  simp only [State.rvExec, hop, hv]

theorem State.sameRun_retireX (s : State) (c b len rd : Nat) (v : DWord) : s.sameRun (s.retireX c b len rd v) c :=
  (s.sameRun_modBank c b (Bank.setX_keeps ..)).trans (State.sameRun_retire ..)

theorem State.bank_retireX (s : State) (c b len rd : Nat) (v : DWord) :
    (s.retireX c b len rd v).bank c b = ((s.bank c b).setX rd v).setPc ((s.bank c b).pc + BitVec.ofNat 64 len) := by
  rw [State.retireX, State.bank_retire, State.bank_modBank_self]

end

/-- Settles O52: the seven words are OP words, whose arithmetic is the function that the list names. -/
theorem rvRegisterArithmetic : Obligations.RvRegisterArithmetic := by
  intro s c b rd rs1 rs2 f hf hruns hcont hdue hfits
  have hfree : s.free c.val b := ⟨hruns, hcont, hdue⟩
  obtain ⟨hf3, hf7, hres⟩ : f.1 < 8 ∧ f.2.1 < 128 ∧ ∀ x y : DWord,
      (if f.2.1 = 1 then some (mulOp f.1 x y) else if f.2.1 = 0 then some (aluOp f.1 false x y)
        else if f.2.1 = 0x20 ∧ (f.1 = 0 ∨ f.1 = 5) then some (aluOp f.1 true x y) else none) = some (f.2.2 x y) := by
    fin_cases hf <;> exact ⟨by decide, by decide, fun _ _ => rfl⟩
  obtain ⟨hop, hrd, hw3, hrs1, hrs2, hw7, hlow⟩ := encR_fields f.1 f.2.1 rd rs1 rs2 hf3 hf7
  change ∃ t, exec (.rv64Instruction c (encR 0x33 f.1 f.2.1 rd rs1 rs2)) s = .next t ∧ _
  generalize encR 0x33 f.1 f.2.1 rd rs1 rs2 = w at *
  have hv : arith w (s.bank c.val b).pc ((s.bank c.val b).x (rvRs1 w)) ((s.bank c.val b).x (rvRs2 w)) =
      some (f.2.2 ((s.bank c.val b).x rs1.val) ((s.bank c.val b).x rs2.val)) := by
    rw [arith_op hop, hw3, hw7, hrs1, hrs2]
    exact hres ..
  have hexec := rv64Instruction_op hfree hop hlow hv
  have hsame := s.sameRun_retireX c.val b 4 (rvRd w) (f.2.2 ((s.bank c.val b).x rs1.val) ((s.bank c.val b).x rs2.val))
  refine ⟨_, (exec_of_fits rfl (hexec ▸ hsame.fits hfits)).trans (congrArg _ hexec), ?_⟩
  rw [State.bank_retireX, hsame.mem, hsame.hts, hrd]
  exact ⟨fun r hr => (Bank.x_setPc ..).trans (Bank.x_setX _ _ _ _ rd.isLt hr), rfl, Bank.pc_setPc .., rfl, rfl⟩

end Sys2Proof.Machine
end

section
/-!
PROOFS. LINK and END of a DMA channel (R304, R309): where the channel stands afterwards, and what the fetch of its next line leaves
alone.
-/
namespace Sys2Proof.Machine

/-! ### The channels -/

theorem State.dmach_modDma (s : State) (n k : Nat) (f : DmaSt → DmaSt) :
    (s.modDma n f).dmach k = if k = n then f (s.dmach n) else s.dmach k := tget_tset ..

@[simp] theorem State.dmach_modDma_self (s : State) (n : Nat) (f : DmaSt → DmaSt) : (s.modDma n f).dmach n = f (s.dmach n) := tget_tset_self ..

/-- An access of a unit touches no channel. -/
theorem State.onlyAccess.dmach {s u : State} (h : s.onlyAccess u) (k : Nat) : u.dmach k = s.dmach k := by
  have hdma : u.dma = s.dma := (congrArg State.dma h :)
  rw [State.dmach, hdma, State.dmach]

/-- Between s and u channel `n` has kept its place, its data and its transform, every other channel its whole state, and memory is as it was
where no request waits at a block. -/
structure State.sameProgram (s u : State) (n : Nat) : Prop where
  pc : (u.dmach n).pc = (s.dmach n).pc
  st : (u.dmach n).st = (s.dmach n).st
  bursts : (u.dmach n).bursts = (s.dmach n).bursts
  xf : (u.dmach n).xf = (s.dmach n).xf
  mem : s.ocn.txns = [] → u.mem = s.mem
  others : ∀ k, k ≠ n → u.dmach k = s.dmach k

namespace State.sameProgram

variable {s u v : State} {n : Nat}

theorem refl (s : State) (n : Nat) : s.sameProgram s n := ⟨rfl, rfl, rfl, rfl, fun _ => rfl, fun _ _ => rfl⟩

/-- A change of the channel that keeps the four. -/
theorem modDma (h : s.sameProgram u n) {f : DmaSt → DmaSt}
    (hf : ∀ x : DmaSt, (f x).pc = x.pc ∧ (f x).st = x.st ∧ (f x).bursts = x.bursts ∧ (f x).xf = x.xf) : s.sameProgram (u.modDma n f) n := by
  obtain ⟨hpc, hst, hbursts, hxf⟩ := hf (u.dmach n)
  constructor
  · rw [State.dmach_modDma_self, hpc, h.pc]
  · rw [State.dmach_modDma_self, hst, h.st]
  · rw [State.dmach_modDma_self, hbursts, h.bursts]
  · rw [State.dmach_modDma_self, hxf, h.xf]
  · exact h.mem
  · intro k hk
    rw [State.dmach_modDma, if_neg hk, h.others k hk]

theorem dmaCount (h : s.sameProgram u n) (c k : Nat) : s.sameProgram (u.dmaCount n c k) n :=
  h.modDma (f := fun x => { x with stats := tset 0 x.stats c (satAdd (2 ^ 64 - 1) (tget 0 x.stats c) k) }) fun _ => ⟨rfl, rfl, rfl, rfl⟩

/-- An access of a unit that leaves memory where nothing waits. -/
theorem access (h : s.onlyAccess u) (hmem : s.ocn.txns = [] → u.mem = s.mem) (n : Nat) : s.sameProgram u n := by
  constructor
  · rw [h.dmach]
  · rw [h.dmach]
  · rw [h.dmach]
  · rw [h.dmach]
  · exact hmem
  · exact fun k _ => h.dmach k

end State.sameProgram

/-- A fetch leaves in the channel's turn. -/
theorem State.sameProgram_issueFetch {s : State} {n a : Nat} (h : s.programAddr (a / 64 * 64) = true) : s.sameProgram (s.issueFetch n a) n := by
  have hread := State.sameProgram.access (s.onlyAccess_memRead (dmaIni n) (a / 64 * 64) 64)
    (fun htxns => (s.sameMemory_memRead (dmaIni n) (a / 64 * 64) 64 htxns).1) n
  rw [State.issueFetch]
  dsimp only
  rw [if_pos h]
  have hfetch := hread.modDma (f := fun x => { x with fetch := some (a / 64 * 64, (s.memRead (dmaIni n) (a / 64 * 64) 64).2) })
    (fun _ => ⟨rfl, rfl, rfl, rfl⟩)
  exact ⟨hfetch.pc, hfetch.st, hfetch.bursts, hfetch.xf, hfetch.mem, hfetch.others⟩

theorem State.sameProgram.latchSettle {s u : State} {n : Nat} (h : s.sameProgram u n) : s.sameProgram (u.latchSettle n) n := by
  unfold State.latchSettle
  dsimp only
  split
  · exact (h.modDma (f := fun y => { y with latch := false }) fun _ => ⟨rfl, rfl, rfl, rfl⟩).dmaCount 3 1
  · exact h

/-- A channel with no line held fetches the one at its pc, unless a fetch is outstanding. -/
theorem State.sameProgram_dmaPoint {s : State} {n : Nat} (hlines : (s.dmach n).lines = [])
    (h : s.programAddr ((s.dmach n).pc / 64 * 64) = true) : s.sameProgram (s.dmaPoint n) n := by
  have hword : (s.dmach n).word (s.dmach n).pc = none := by simp [DmaSt.word, hlines]
  unfold State.dmaPoint
  dsimp only
  split
  · exact State.sameProgram.refl s n
  · rw [hword]
    exact State.sameProgram_issueFetch h

/-- A channel that goes to `a` with no line held stands there; the fetch leaves the rest. -/
theorem State.goto_fresh {s : State} {n a : Nat} (hlines : (s.dmach n).lines = []) (h : s.programAddr (a / 64 * 64) = true) :
    ((s.dmaGoto n a).dmach n).pc = a ∧ ((s.dmaGoto n a).dmach n).st = (s.dmach n).st ∧
    ((s.dmaGoto n a).dmach n).bursts = (s.dmach n).bursts ∧ ((s.dmaGoto n a).dmach n).xf = (s.dmach n).xf ∧
    (s.ocn.txns = [] → (s.dmaGoto n a).mem = s.mem) ∧ ∀ k, k ≠ n → (s.dmaGoto n a).dmach k = s.dmach k := by
  rw [State.dmaGoto]
  generalize hu : s.modDma n _ = u
  have hself : u.dmach n = { s.dmach n with pc := a, lines := [] } := by
    rw [← hu, State.dmach_modDma_self, hlines]
    rfl
  have hprog : u.programAddr ((u.dmach n).pc / 64 * 64) = true := by
    rw [hself, ← hu]
    exact h
  obtain ⟨hpc, hst, hbursts, hxf, hmem, hothers⟩ := (State.sameProgram_dmaPoint (by rw [hself]) hprog).latchSettle
  rw [hself] at hpc hst hbursts hxf
  refine ⟨hpc, hst, hbursts, hxf, fun htxns => ?_, fun k hk => (hothers k hk).trans ?_⟩
  · rw [← hu] at hmem ⊢
    exact hmem htxns
  · rw [← hu, State.dmach_modDma, if_neg hk]

/-- The instruction that a channel may execute: it is in RUN. -/
theorem State.run_of_dmaAt {s : State} {n op : Nat} {w : DWord} (h : s.dmaAt n op = some w) : (s.dmach n).st = .run := by
  unfold State.dmaAt at h
  dsimp only at h
  split at h
  · next hrun =>
    simp only [Bool.and_eq_true, beq_iff_eq] at hrun
    exact hrun.1.1
  · cases h

/-- Settles O48: the link by `State.link_goto`; END parks the channel in one update and an event. -/
theorem linkAndEnd : Obligations.LinkAndEnd := by
  refine ⟨?link, ?park⟩
  case link =>
    intro s d w hat hend hres hloop hfits hprog
    have hop : dmaLink d.val s = (s.modDma d.val (fun x => { x with lines := [] })).dmaGoto d.val (8 * fld w 16 45) := by
      simp [dmaLink, hat, hend, hres, hloop]
    have hself := State.dmach_modDma_self s d.val (fun x => { x with lines := [] })
    obtain ⟨hpc, hst, hbursts, hxf, hmem, hothers⟩ := State.goto_fresh (s := s.modDma d.val (fun x => { x with lines := [] })) (n := d.val)
      (a := 8 * fld w 16 45) (by rw [hself]) hprog
    rw [hself] at hst hbursts hxf
    rw [hop] at hfits
    refine ⟨_, (exec_of_fits rfl (hop ▸ hfits)).trans (congrArg _ hop), ?_⟩
    refine ⟨hpc, hst.trans (State.run_of_dmaAt hat), hbursts, hxf, hmem, fun k hk => (hothers k hk).trans ?_⟩
    rw [State.dmach_modDma, if_neg hk]
  case park =>
    intro s d w hat hend hres hlatch hfits
    have hop : dmaEnd d.val s = (s.modDma d.val (fun y => { y with st := .parked, tail := (s.dmach d.val).pc, lines := [], latch := false })).raise
        (dmaPage d.val) 0 := by
      simp [dmaEnd, hat, hend, hres, hlatch]
    have honly := State.onlyAccess_raise (s.modDma d.val (fun y => { y with st := .parked, tail := (s.dmach d.val).pc, lines := [], latch := false }))
      (dmaPage d.val) 0
    have hself := (honly.dmach d.val).trans (State.dmach_modDma_self ..)
    rw [hop] at hfits
    refine ⟨_, (exec_of_fits rfl (hop ▸ hfits)).trans (congrArg _ hop), ?_⟩
    rw [hself]
    refine ⟨rfl, rfl, rfl, rfl, ?_, (State.sameMemory_raise ..).1, fun k hk => (honly.dmach k).trans ?_⟩
    · rw [State.reg_raise, if_pos rfl, bit_setBit]
      simp
    · rw [State.dmach_modDma, if_neg hk]

end Sys2Proof.Machine
end

section
/-!
PROOFS. The events of a tile, a link, a furrow, a channel line and a crossing take place (R47, R61, R65, R74, R82, R83, R87, R106).
-/
namespace Sys2Proof.Machine

/-- A region moves in RUN and in BINDOFF alone. -/
theorem sequencerOn_of_moves {g : RegionSt} (h : regionMoves g = true) : (g.st == .run || g.st == .bindoff) = true := by
  simp only [regionMoves, Bool.and_eq_true] at h
  exact h.1.1

/-- Settles O3: each event under the conditions that its own function asks for. -/
theorem fabricTileEventsComplete : Obligations.FabricTileEventsComplete := by
  refine ⟨?secondStageRetire, ?tileContextSwitch, ?macrocellUpdate, ?linkTransfer, ?furrowRegisterEmit, ?channelLineDrive,
    ?sluiceCrossingDeliver⟩
  case secondStageRetire =>
    intro s t e rest hstage2 hregionMoves hnew hstageFree
    refine ⟨Takes.of_op rfl (by simp [secondStageRetire, hstage2, hregionMoves, hnew, hstageFree]), fun _ _ _ => ?_⟩
    have hloads := ((s.modTile t.val (fun T => { T with stage2 := rest })).modTile t.val (fun T => T.retire e)).stage2_loadOuts t.val e.doa e.dob e.res
    obtain ⟨-, -, hacc, -⟩ := ((s.modTile t.val (fun T => { T with stage2 := rest })).modTile t.val (fun T => T.retire e)).core_loadOuts t.val e.doa e.dob e.res t.val
    obtain ⟨gstage, gacc, -, -⟩ := Tile.retire_writes { s.tile t.val with stage2 := rest } e
    rw [State.tile_modTile_self, State.tile_modTile_self] at hloads hacc
    exact ⟨hloads.trans gstage, by rw [hacc, gacc, tget_tset_self]⟩
  case tileContextSwitch =>
    intro s t c hregionMoves hfOvr hswitchReq hseqStalls hloading256 htileStalls
    exact Takes.of_op rfl (by simp [tileContextSwitch, hregionMoves, hfOvr, hswitchReq, hseqStalls, hloading256, htileStalls])
  case macrocellUpdate =>
    intro s r hregionMoves
    refine Takes.of_op rfl ?_
    rw [macrocellUpdate, if_pos (sequencerOn_of_moves hregionMoves), if_pos hregionMoves]
  case linkTransfer =>
    intro s t src w hsinks hsourceWord hregionMoves hsinks'
    exact Takes.of_op rfl (by simp [linkTransfer, hsinks, hsourceWord, hregionMoves, hsinks', State.transfer])
  case furrowRegisterEmit =>
    intro s t tap w rest htapEn htapDrv htapFreg hwords hregionMoves hn0 hout hsegPoints
    exact Takes.of_op rfl (by simp [furrowEmit, htapEn, htapDrv, htapFreg, hwords, hregionMoves, hn0, hout, hsegPoints])
  case channelLineDrive =>
    intro s r line pos hregionMoves
    exact Takes.of_op rfl (by simp [channelLineDrive, hregionMoves])
  case sluiceCrossingDeliver =>
    intro s t ch w rest hxing hsluicePasses hpointReady
    exact Takes.of_op rfl (by simp [sluiceDeliver, hxing, hsluicePasses, hpointReady])

end Sys2Proof.Machine
end

section
/-!
PROOFS. The commands of a region take place (R99, R100, R103, R105, R109 to R111, R114, R117 to R119, R508).
-/
namespace Sys2Proof.Machine

section

variable {s : State} {r : Nat}

/-- The release of a region's reset runs it at its first context (R110). -/
theorem castonResetReleaseCmd_rgn (hst : (s.rgn r).st = .caston) (hstage : (s.rgn r).stage = 2) (hoff : (s.rgn r).offReq = false)
    (hload : s.fcc.lstate = 0) :
    ((castonResetReleaseCmd r s).rgn r).st = .run ∧ ((castonResetReleaseCmd r s).rgn r).sel = fld (s.seqcfg r) 3 3 ∧
      ((castonResetReleaseCmd r s).rgn r).cyc = 0 := by
  have hidle : (castonResetRelease r s).fcc.lstate ≠ 3 := by
    simp [castonResetRelease, hst, hstage, foldl_setTile_fcc, hload]
  rw [castonResetReleaseCmd, State.loadGoesOn_idle hidle]
  simp only [castonResetRelease, hst, hstage, beq_self_eq_true, Bool.and_self, if_true, State.rgn_raise]
  generalize hu : State.cellEdge _ r = u
  obtain ⟨m, hmark⟩ := u.rgn_markCycle r
  rw [hmark, ← hu, State.rgn_cellEdge, State.rgn_modRgn_self, foldl_setTile_rgn, hoff]
  exact ⟨rfl, rfl, rfl⟩

/-- The reset step of a bind-off leaves the region READY (R111). -/
theorem bindoffResetCmd_rgn (hst : (s.rgn r).st = .bindoff) (hparked : (s.rgn r).parked = true) (hoff : (s.rgn r).offReq = false)
    (hload : s.fcc.lstate = 0) :
    ((bindoffResetCmd r s).rgn r).st = .ready ∧ ((bindoffResetCmd r s).rgn r).parked = false := by
  have hidle : (bindoffReset r s).fcc.lstate ≠ 3 := by
    simp [bindoffReset, hst, hparked, hoff, State.resetTiles, hload]
  rw [bindoffResetCmd, State.loadGoesOn_idle hidle]
  simp [bindoffReset, hst, hparked, hoff]

end

/-- The SOC sensor's temperature (R390). -/
theorem regionTempSample_soc (s : State) (codes : List (BitVec 12)) : (regionTempSample codes s).pmu.soc = s.tempOf 24 (codes.getD 24 0) := rfl

theorem State.popOp_modRgn (s : State) (r : Nat) (f : RegionSt → RegionSt) : (s.modRgn r f).popOp = s.popOp.modRgn r f := rfl
theorem State.popOp_wipeRegion (s : State) (r : Nat) : (s.wipeRegion r).popOp = s.popOp.wipeRegion r := rfl

/-- Settles O4: each command under the conditions that its own function asks for; what two of them leave of the region is said by lemmas of their own. -/
theorem regionCommandsComplete : Obligations.RegionCommandsComplete := by
  refine ⟨?ctxselRequest, ?sequencerSignal, ?headgateTagRequest, ?sequencerSwitch, ?stallEnd_region, ?stallEnd_tile, ?caston,
    ?castonWriteEnable, ?castonResetRelease, ?bindoff, ?bindoffDrainEnd, ?bindoffReset, ?headgateInboundPresent,
    ?headgateOutboundSend, ?headgateResend, ?opselWrite, ?operatingPointChange, ?operatingPointDone, ?regionPowerOn,
    ?regionPowerOff_quiet, ?regionPowerOff_closing, ?regionTempSample⟩
  case ctxselRequest =>
    intro s ini r val hmayWrite hsequencerOn
    exact Takes.of_op rfl (by simp [ctxselRequest, State.regWrite_owner _ _ hmayWrite, hsequencerOn])
  case sequencerSignal =>
    intro s r ctx hsignalReady hwaitingSignal
    exact Takes.of_op rfl (by simp [sequencerSignal, hsignalReady, hwaitingSignal])
  case headgateTagRequest =>
    intro s r k c hhgWants hseqcfg1 hregionMoves hc
    exact Takes.of_op rfl (by simp [headgateTagRequest, hhgWants, hseqcfg1, hregionMoves, hc])
  case sequencerSwitch =>
    intro s r src c hregionMoves hwinner hc hpktHold hseqStalls htileStalls
    exact Takes.of_op rfl (by simp [sequencerSwitch, hregionMoves, hwinner, hc, hpktHold, hseqStalls, htileStalls])
  case stallEnd_region =>
    intro s r c hstall hstall' hloading hheld hst
    exact Takes.of_op rfl (by simp [stallEndCmd, hstall, hstall', hloading, hheld, hst, stallEnd])
  case stallEnd_tile =>
    intro s r c l hstall hstall' hloading hheld hst
    exact Takes.of_op rfl (by simp [stallEndCmd, hstall, hstall', hloading, hheld, hst, stallEnd])
  case caston =>
    intro s ini r val hmayWrite hactBits0 hactBits1 hst hfieldWrite
    exact Takes.of_op rfl (by
      simp [castonWrite, State.regWrite_owner _ _ hmayWrite, hactBits0, hactBits1, hst, hfieldWrite, State.frgCtrl,
        State.castStart])
  case castonWriteEnable =>
    intro s r hst hstage
    exact Takes.of_op rfl (by simp [castonWriteEnable, hst, hstage])
  case castonResetRelease =>
    intro s r hst hstage hoffReq hlstate
    obtain ⟨hrun, hsel, hcyc⟩ := castonResetReleaseCmd_rgn hst hstage hoffReq hlstate
    exact ⟨Takes.of_op rfl rfl, hrun, hsel, hcyc⟩
  case bindoff =>
    intro s ini r val hmayWrite hactBits0 hactBits1 hst
    exact Takes.of_op rfl (by simp [bindoffWrite, State.regWrite_owner _ _ hmayWrite, hactBits0, hactBits1, hst, State.frgCtrl])
  case bindoffDrainEnd =>
    intro s r timeout hst hparked htimeout
    exact Takes.of_op rfl (by simp [bindoffDrainEnd, hst, hparked, htimeout])
  case bindoffReset =>
    intro s r hst hparked hoffReq hlstate
    exact ⟨Takes.of_op rfl rfl, bindoffResetCmd_rgn hst hparked hoffReq hlstate⟩
  case headgateInboundPresent =>
    intro s r k fl rest hinb hregionMoves hparked hhgWants hshown hhgInLanes
    refine Takes.of_op rfl ?_
    rcases hhgWants with hwants | hwants <;> simp [headgateInboundPresent, hinb, hregionMoves, hparked, hwants, hshown, hhgInLanes]
  case headgateOutboundSend =>
    intro s r k hheld hst
    exact Takes.of_op rfl (by simp [headgateOutboundSend, hheld, hst])
  case headgateResend =>
    intro s r k hagain hheld hst
    exact Takes.of_op rfl (by simp [headgateResend, hagain, hheld, hst])
  case opselWrite =>
    intro s ini r val hpassesWhole hopRefusal hlstate
    have hwrite : opselWrite ini r.val val s = (s.opselAct r.val val).answer .ok 0 := State.regGuard_passes _ hpassesWhole
    have hlstate' : (s.opselAct r.val val).fcc.lstate = 0 := by simp [State.opselAct, hopRefusal, hlstate]
    exact Takes.of_op rfl (by simp [opselWriteCmd, hwrite, State.applyTarget, hlstate'])
  case operatingPointChange =>
    intro s r p hopHead hopRun hpwr hrgn
    exact Takes.of_op rfl (by simp [operatingPointChange, hopHead, hopRun, hpwr, hrgn])
  case operatingPointDone =>
    intro s r p hopHead hopRun hpwr
    exact Takes.of_op rfl (by simp [operatingPointDone, hopHead, hopRun, hpwr, State.opEnd, State.popOp_modRgn])
  case regionPowerOn =>
    intro s r p hopHead hpwr hst hopRun
    exact Takes.of_op rfl (by simp [regionPowerOn, hopHead, hpwr, hst, hopRun, State.opEnd, State.popOp_modRgn, State.popOp_wipeRegion])
  case regionPowerOff_quiet =>
    intro s r p hopHead hpwr hst hregionQuiet
    have hoff : s.offStep r.val = s.regionOff r.val := by simp [State.offStep, hst, hregionQuiet]
    exact Takes.of_op rfl (by simp [regionPowerOff, hopHead, hpwr, hoff, State.regionOff_st])
  case regionPowerOff_closing =>
    intro s r p hopHead hpwr hst hregionQuiet hst'
    have hclose : s.offStep r.val = s.closePorts r.val := by simp [State.offStep, hst, hregionQuiet]
    exact Takes.of_op rfl (by simp [regionPowerOff, hopHead, hpwr, hclose, hst'])
  case regionTempSample =>
    intro s codes
    exact ⟨Takes.of_op rfl rfl, regionTempSample_soc s codes⟩

end Sys2Proof.Machine
end

section
/-!
PROOFS. The commands of the configuration loader take place (R130 to R132, R134 to R136, R139, R141, R143, R145, R279).
-/
namespace Sys2Proof.Machine

/-- Settles O5: each command in the loader state that accepts it. -/
theorem loaderCommandsComplete : Obligations.LoaderCommandsComplete := by
  refine ⟨?fccOpen, ?fccAbort, ?sessionOpen, ?sessionClose, ?aperturePush, ?streamPartHashed, ?spiOpen, ?spiPush, ?spiAbort,
    ?spiStatus, ?spiId, ?streamComplete, ?signatureVerified, ?routingAnalysisDone, ?shadowLoadStart, ?regionSeal, ?bulkClearDone,
    ?handoverEdge⟩
  case fccOpen =>
    intro s ini val hmayWrite hactBits0 hactBits1 hactBits2 hactBits3 _
    exact Takes.of_op rfl (by
      simp [fccOpenWrite, State.regWrite_owner _ _ hmayWrite, hactBits0, hactBits1, hactBits2, hactBits3, fccCtrlWrite])
  case fccAbort =>
    intro s ini val hmayWrite hactBits0 hactBits1 hactBits2 hactBits3 hfieldWrite
    exact Takes.of_op rfl (by
      simp [fccAbortWrite, State.regWrite_owner _ _ hmayWrite, hactBits0, hactBits1, hactBits2, hactBits3, hfieldWrite,
        fccCtrlWrite, State.fccAbort])
  case sessionOpen =>
    intro s ini val hmayWrite hactBits0 hactBits1 hactBits2 hactBits3 _ _
    exact Takes.of_op rfl (by
      simp [sessionOpenWrite, State.regWrite_owner _ _ hmayWrite, hactBits0, hactBits1, hactBits2, hactBits3, fccCtrlWrite])
  case sessionClose =>
    intro s ini val hmayWrite hactBits0 hactBits1 hactBits2 hactBits3 _
    exact Takes.of_op rfl (by
      simp [sessionCloseWrite, State.regWrite_owner _ _ hmayWrite, hactBits0, hactBits1, hactBits2, hactBits3, fccCtrlWrite])
  case aperturePush =>
    intro s ini a len data hlen ha hmayWrite hlstate hspi
    refine Takes.of_op rfl ?_
    subst hlen
    simp [aperturePushCmd, aperturePush, hmayWrite, ha, hlstate, hspi]
  case streamPartHashed =>
    intro s hlstate hfixed hpart hfcc hheaderCodes hstagingOpen
    exact Takes.of_op rfl (by simp [streamPartHashed, hlstate, hfixed, hpart, hheaderCodes, hstagingOpen, Nat.not_lt.2 hfcc, leastOf])
  case spiOpen =>
    intro s hspiOn
    exact Takes.of_op rfl (by simp [spiOpen, hspiOn])
  case spiPush =>
    intro s p bytes hspiOn hlstate hspi hp hlength hfcc hx100000
    exact Takes.of_op rfl (by simp [spiPush, hspiOn, hlstate, hspi, hp, hlength, hfcc, hx100000])
  case spiAbort =>
    intro s hspiOn hlstate
    exact Takes.of_op rfl (by simp [spiAbort, hspiOn, hlstate, State.fccAbort])
  case spiStatus =>
    intro s hspiOn
    exact Takes.of_op rfl (by simp [spiStatus, hspiOn])
  case spiId =>
    intro s hspiOn
    exact Takes.of_op rfl (by simp [spiId, hspiOn])
  case streamComplete =>
    intro s hlstate hfixed hh htType hanyNonzero hstagingOpen
    exact Takes.of_op rfl (by simp [streamComplete, hlstate, hfixed, hh, htType, hanyNonzero, hstagingOpen, State.withStaging])
  case signatureVerified =>
    intro s k v hlstate htType hauth hkeyRef hmldsaVerify hstagingOpen
    exact Takes.of_op rfl (by simp [signatureVerified, hlstate, htType, hauth, hkeyRef, hmldsaVerify, hstagingOpen, State.withStaging])
  case routingAnalysisDone =>
    intro s hlstate hana hanalyseTargets hstagingOpen
    exact Takes.of_op rfl (by simp [routingAnalysisDone, hlstate, hana, hanalyseTargets, hstagingOpen, State.withStaging])
  case shadowLoadStart =>
    intro s r rest htodo hlstate hhShadow hcur hst hshadowBusy
    exact Takes.of_op rfl (by simp [shadowLoadStart, htodo, hlstate, hhShadow, hcur, hst, hshadowBusy])
  case regionSeal =>
    intro s r _
    exact Takes.of_op rfl rfl
  case bulkClearDone =>
    intro s r hcontains
    refine Takes.of_op rfl ?_
    rw [bulkClearDone, if_pos hcontains]
  case handoverEdge =>
    intro s b c rest hhand hstaging
    exact Takes.of_op rfl (by simp [handoverEdge, hhand, hstaging, State.handEdge])

end Sys2Proof.Machine
end

section
/-!
PROOFS. The commands of the scrubber, the voted registers, the capture and the probes take place (R151, R153, R154, R156 to R159, R162 to R164,
R167).
-/
namespace Sys2Proof.Machine

/-- A change of a register depends on what it makes of the word there. -/
theorem State.modReg_congr {s : State} {off : Nat} {f g : Word → Word} (h : f (s.reg off) = g (s.reg off)) : s.modReg off f = s.modReg off g :=
  congrArg (s.setReg off) h

/-- The canary's slot is the last of a pass: the scrubber goes on at slot 0 (R158). -/
theorem slot_canarySlot {s : State} (hon : s.scrubOn = true) (hslot : s.slot = 49152) (ups : List (Fin 1080)) : (canarySlot ups s).slot = 0 := by
  have hpos : ∀ u : State, ((u.setReg (scrPg + fccScrpos) 0).raise scrPg 0).slot = 0 := by
    intro u
    rw [State.slot, State.reg_raise, if_neg (by decide), State.reg_setReg_self]
    rfl
  simp only [canarySlot, hon, hslot, beq_self_eq_true, Bool.and_self, if_true]
  exact hpos _

/-- Settles O6: each command under the conditions that its own function asks for. -/
theorem integrityCommandsComplete : Obligations.IntegrityCommandsComplete := by
  refine ⟨?scrubSlot_1, ?scrubSlot_2, ?scrubSlot_3, ?regionHold, ?holdClear, ?canarySlot, ?scrubPassTimeout, ?tmrVoteFix_1,
    ?tmrVoteFix_2, ?tmrVoteFix_3, ?ucqPop, ?integClear, ?captureArm, ?captureCancel, ?anchorFreeze, ?regionFreeze, ?captureDone,
    ?probeAuthFall⟩
  case scrubSlot_1 =>
    intro s ups hscrubOn hslot hslot' hslot''
    exact Takes.of_op rfl (by simp [scrubSlot, hscrubOn, hslot, hslot', hslot''])
  case scrubSlot_2 =>
    intro s ups hscrubOn hslot hslot' hslot''
    exact Takes.of_op rfl (by simp [scrubSlot, hscrubOn, hslot, hslot', hslot''])
  case scrubSlot_3 =>
    intro s ups hscrubOn hslot _ hfoldl'
    exact Takes.of_op rfl (by simp [scrubSlot, hscrubOn, hslot, hfoldl'])
  case regionHold =>
    intro s r hheldLatch hst hheld
    exact Takes.of_op rfl (by simp [regionHold, hheldLatch, hst, hheld])
  case holdClear =>
    intro s ini val hmayWrite
    exact Takes.of_op rfl (by simp [holdClear, State.regWrite_owner _ _ hmayWrite])
  case canarySlot =>
    intro s ups hscrubOn hslot
    exact ⟨Takes.of_op rfl rfl, slot_canarySlot hscrubOn hslot ups⟩
  case scrubPassTimeout =>
    intro s
    exact Takes.of_op rfl (by simp [scrubPassTimeout])
  case tmrVoteFix_1 =>
    intro s reg f0 f1 f2 hvotedOut
    exact Takes.of_op rfl (by simp [tmrVoteFix, hvotedOut])
  case tmrVoteFix_2 =>
    intro s reg f0 f1 f2 i hvotedOut htmr
    exact Takes.of_op rfl (by simp [tmrVoteFix, hvotedOut, htmr])
  case tmrVoteFix_3 =>
    intro s reg f0 f1 f2 i rest hvotedOut hrest
    exact Takes.of_op rfl (by simp [tmrVoteFix, hvotedOut, hrest])
  case ucqPop =>
    intro s ini val hmayWrite hactBits0
    exact Takes.of_op rfl (by simp [ucqPop, State.regWrite_owner _ _ hmayWrite, hactBits0])
  case integClear =>
    intro s ini val hmayWrite hini hbit0 hbit1 hfld2
    refine Takes.of_op rfl ?_
    subst hini
    rw [integClear]
    refine congrArg (State.inhibitEnd · s) ?_
    simp only [integClearAct, hmayWrite, if_true]
    refine congrArg (State.answer · .ok 0) (State.modReg_congr ?_)
    simp [hbit0, hbit1, hfld2]
  case captureArm =>
    intro s ini val hmayWrite _ _ _
    exact Takes.of_op rfl (by simp [captureArm, State.regWrite_owner _ _ hmayWrite, capCtrlWrite])
  case captureCancel =>
    intro s ini val hmayWrite hactBits0 hactBits1 hcapState
    exact Takes.of_op rfl (by
      simp [captureCancel, State.regWrite_owner _ _ hmayWrite, hactBits0, hactBits1, hcapState, capCtrlWrite, State.capCtrl])
  case anchorFreeze =>
    intro s hcapState hst hcapMatch
    exact Takes.of_op rfl (by simp [anchorFreeze, hcapState, hst, hcapMatch])
  case regionFreeze =>
    intro s r hcapState hcapRgn hst
    exact Takes.of_op rfl (by simp [regionFreeze, hcapState, hcapRgn, hst])
  case captureDone =>
    intro s hcapState hcaptureOpen
    exact Takes.of_op rfl (by simp [captureDone, hcapState, hcaptureOpen])
  case probeAuthFall =>
    intro s hprobeAuth
    exact Takes.of_op rfl (by simp [probeAuthFall, hprobeAuth, State.probeOff])

end Sys2Proof.Machine
end

section
/-!
PROOFS. The instructions of a media program take place (R199, R200, R202 to R207, R216).
-/
namespace Sys2Proof.Machine

/-- Settles O7: each instruction for the descriptor that stands at it. -/
theorem mediaProgramStepsComplete : Obligations.MediaProgramStepsComplete := by
  refine ⟨?descriptorStart, ?medCmd_1, ?medCmd_2, ?tornLogAck, ?medAddr, ?medWait, ?medWaitDone, ?medPoll, ?pollSample_1,
    ?pollSample_2, ?pollSample_3, ?pollTimeout, ?medDin_1, ?medDin_2, ?medDout_1, ?medDout_2, ?medRlset, ?medSetf, ?medLoop,
    ?medEndl_1, ?medEndl_2, ?medEnd, ?mgdDecode⟩
  case descriptorStart =>
    intro s m l d u hmedch hstarted hretrainDue habort htraining hstop hmediaClock hmodDesc
    exact Takes.of_op rfl (by simp [descriptorStart, hmedch, hstarted, hretrainDue, habort, htraining, hstop, hmediaClock, hmodDesc])
  case medCmd_1 =>
    intro s m l d hatInstr hmedInstr16
    exact Takes.of_op rfl (by simp [medCmdStep, hatInstr, hmedInstr16])
  case medCmd_2 =>
    intro s m l d e hatInstr hmedInstr16 hclass htornFree habort
    refine Takes.of_op rfl ?_
    rcases hclass with hclass | hclass <;> simp [medCmdStep, hatInstr, hmedInstr16, hclass, htornFree, habort]
  case tornLogAck =>
    intro s m l d e hrunning hentry hphase hstop habort hinhibit hmedEn
    exact Takes.of_op rfl (by simp [tornLogAck, hrunning, hentry, hphase, hstop, habort, hinhibit, hmedEn])
  case medAddr =>
    intro s m l d hatInstr hmedInstr19
    exact Takes.of_op rfl (by simp [medAddr, hatInstr, hmedInstr19])
  case medWait =>
    intro s m l d hatInstr
    exact Takes.of_op rfl (by simp [medWait, hatInstr])
  case medWaitDone =>
    intro s m l d hrunning hphase hstop
    exact Takes.of_op rfl (by simp [medWaitDone, hrunning, hphase, hstop])
  case medPoll =>
    intro s m l d hatInstr
    exact Takes.of_op rfl (by simp [medPoll, hatInstr])
  case pollSample_1 =>
    intro s m l status us d hrunning hphase hstop hland
    exact Takes.of_op rfl (by simp [pollSample, hrunning, hphase, hstop, hland, -Nat.land_eq])
  case pollSample_2 =>
    intro s m l status us d hrunning hphase hstop hland hland' habort hentry hclass
    have hkeeps : ¬(d.class = 2 ∧ d.driven = true) := fun h => hclass.elim (· h.1) (by simp [h.2])
    exact Takes.of_op rfl (by simp [pollSample, hrunning, hphase, hstop, hland, hland', habort, hentry, hkeeps, -Nat.land_eq])
  case pollSample_3 =>
    intro s m l status us d hrunning hphase hstop hland hland' habort hentry hclass hdriven
    exact Takes.of_op rfl (by simp [pollSample, hrunning, hphase, hstop, hland, hland', habort, hentry, hclass, hdriven, -Nat.land_eq])
  case pollTimeout =>
    intro s m l us d hrunning hphase hstop hentry
    exact Takes.of_op rfl (by simp [pollTimeout, hrunning, hphase, hstop, hentry])
  case medDin_1 =>
    intro s m l page d hatInstr hphase hguard
    exact Takes.of_op rfl (by simp [medDin, hatInstr, hphase, hguard])
  case medDin_2 =>
    intro s m l page d _ _ _
    exact Takes.of_op rfl rfl
  case medDout_1 =>
    intro s m l d hatInstr hguard
    exact Takes.of_op rfl (by simp [medDout, hatInstr, hguard])
  case medDout_2 =>
    intro s m l d u part hatInstr hguard hsqEn hsqPush hdoutTake
    exact Takes.of_op rfl (by simp [medDout, hatInstr, hguard, hsqEn, hsqPush, hdoutTake])
  case medRlset =>
    intro s m l d hatInstr happlied
    exact Takes.of_op rfl (by simp [medRlset, hatInstr, happlied])
  case medSetf =>
    intro s m l d hatInstr
    exact Takes.of_op rfl (by simp [medSetf, hatInstr])
  case medLoop =>
    intro s m l d hatInstr
    exact Takes.of_op rfl (by simp [medLoop, hatInstr])
  case medEndl_1 =>
    intro s m l d start hatInstr hloop hplanes
    exact Takes.of_op rfl (by simp [medEndl, hatInstr, hloop, hplanes])
  case medEndl_2 =>
    intro s m l d start hatInstr hloop hplane
    exact Takes.of_op rfl (by simp [medEndl, hatInstr, hloop, hplane])
  case medEnd =>
    intro s m l d hatInstr
    exact Takes.of_op rfl (by simp [medEnd, hatInstr])
  case mgdDecode =>
    intro s m l d rest hrunning hqueue hphase hmedInstr0 hstop hmedEn
    exact Takes.of_op rfl (by simp [mgdDecode, hrunning, hqueue, hphase, hmedInstr0, hstop, hmedEn])

end Sys2Proof.Machine
end

section
/-!
PROOFS. The commands of the media channels take place (R198, R202, R208, R210, R212 to R215, R220).
-/
namespace Sys2Proof.Machine

theorem State.length_pool_submit (s : State) (m : Nat) (d : MedDesc) : ((s.submit m d).medch m).pool.length = (s.medch m).pool.length + 1 := by
  rw [State.medch, State.submit, State.modMed, tget_tset_self, List.length_append]
  rfl

/-- The channels do not see registers and events. -/
theorem State.medch_modReg (s : State) (o : Nat) (f : Word → Word) (m : Nat) : (s.modReg o f).medch m = s.medch m := rfl

theorem State.medch_raise (s : State) (pg i m : Nat) : (s.raise pg i).medch m = s.medch m :=
  by rw [State.medch, State.raise_med, State.medch]

/-- A patrol entry that is read joins the pool (R210). -/
theorem length_pool_patrolTick {s u : State} {m : Nat} {e : List Byte} (hon : bit (s.reg (medPage m + medPatctl)) 0 = true)
    (hcount : 0 < fld (s.reg (medPage m + medPatctl)) 16 16) (hpatrol : (s.medch m).pool.any (fun d => d.patrol && !d.started) = false)
    (hroom : (s.medch m).pool.length < 64)
    (hread : s.memRead (medIni m) ((s.reg64 (medPage m + medPatbase) + 16 * fld (s.reg (medPage m + medPatpos)) 0 16) % 2 ^ 48) 16 = (u, .ok, e)) :
    ((patrolTick m s).medch m).pool.length = (u.medch m).pool.length + 1 := by
  unfold patrolTick
  simp only [hon, hcount, hpatrol, hroom, hread, decide_true, Bool.not_false, Bool.and_self, if_true, ne_eq, not_true, if_false]
  split
  · rw [State.medch_raise, State.medch_modReg, State.length_pool_submit]
    rfl
  · rw [State.medch_modReg, State.length_pool_submit]
    rfl

/-- Settles O8: each command under the conditions that its own function asks for. -/
theorem mediaCommandsComplete : Obligations.MediaCommandsComplete := by
  refine ⟨?descriptorSubmit, ?medAbort, ?ifcfgWrite, ?trainingDone_1, ?trainingDone_2, ?medRetrain, ?patrolTick, ?inhibitAssert_1,
    ?inhibitAssert_2, ?wpAssert, ?programLoad, ?programLoadDone_1, ?programLoadDone_2, ?programSwap, ?keyInstall, ?keySlotErase,
    ?mgdPoll, ?deferralTimeout, ?tornLogFree⟩
  case descriptorSubmit =>
    intro s ini m val hmayWrite hactBits0 hlength hfieldWrite0
    exact Takes.of_op rfl (by simp [descriptorSubmit, State.regWrite_owner _ _ hmayWrite, hactBits0, hfieldWrite0, Nat.not_le.2 hlength])
  case medAbort =>
    intro s ini m val hmayWrite _
    exact Takes.of_op rfl (by simp [medAbort, State.regWrite_owner _ _ hmayWrite])
  case ifcfgWrite =>
    intro s ini m val hpassesWhole hrefused
    refine Takes.of_op rfl ?_
    rw [ifcfgWrite, State.regGuard_passes _ hpassesWhole, hrefused]
    rfl
  case trainingDone_1 =>
    intro s m codes htraining hmediaClock hcodes
    exact Takes.of_op rfl (by simp [trainingDone, htraining, hmediaClock, hcodes])
  case trainingDone_2 =>
    intro s m codes c htraining hmediaClock hcodes hbit31
    exact Takes.of_op rfl (by simp [trainingDone, htraining, hmediaClock, hcodes, hbit31])
  case medRetrain =>
    intro s m ce cause code hcause htraining hbusy hstop hmediaClock
    refine Takes.of_op rfl ?_
    rcases hcause with ⟨rfl, hdue⟩ | ⟨rfl, hdue⟩ <;> simp only [medRetrain, hdue, htraining, hbusy, hstop, hmediaClock] <;> rfl
  case patrolTick =>
    intro s m u e hctl0 hcount hpool hlength hmemRead
    exact ⟨Takes.of_op rfl rfl, length_pool_patrolTick hctl0 hcount hpool hlength hmemRead⟩
  case inhibitAssert_1 =>
    intro s m hinhibit
    exact Takes.of_op rfl (by simp [inhibitAssert, hinhibit])
  case inhibitAssert_2 =>
    intro s m hinhibit
    exact Takes.of_op rfl (by simp [inhibitAssert, hinhibit])
  case wpAssert =>
    intro s m late hinhibit hlate
    exact Takes.of_op rfl (by simp [wpAssert, hinhibit, hlate])
  case programLoad =>
    intro s ini val hmayWrite hactBits31 hpstatWord hload
    exact Takes.of_op rfl (by simp [programLoad, State.regWrite_owner _ _ hmayWrite, hactBits31, hpstatWord, hload])
  case programLoadDone_1 =>
    intro s pg first n src hload hn
    subst hn
    exact Takes.of_op rfl (by simp [programLoadDone, hload, State.memRead, linePieces])
  case programLoadDone_2 =>
    intro s pg first n src u st l hload hmemRead hst
    refine ⟨Takes.of_op rfl rfl, ?_⟩
    unfold programLoadDone
    simp only [hload, hmemRead, if_neg hst]
    rfl
  case programSwap =>
    intro s ini val hmayWrite hactBits1
    exact Takes.of_op rfl (by simp [programSwap, State.regWrite_owner _ _ hmayWrite, hactBits1])
  case keyInstall =>
    intro s ini val hini
    refine ⟨Takes.of_op rfl rfl, ?_⟩
    simp [keyInstall, medKeyWrite, State.keyGuard, hini, State.answer]
  case keySlotErase =>
    intro s ini val hini hbit8
    refine ⟨Takes.of_op rfl rfl, ?_⟩
    simp [keySlotErase, State.keyGuard, hini, hbit8]
  case mgdPoll =>
    intro s e status us hdefer hopen hbit6
    exact Takes.of_op rfl (by simp [mgdPoll, hdefer, hopen, hbit6])
  case deferralTimeout =>
    intro s hdefer
    exact Takes.of_op rfl (by simp [deferralTimeout, hdefer])
  case tornLogFree =>
    intro s ini val hmayWrite haon0 hlive
    exact Takes.of_op rfl (by simp [tornLogFree, State.regWrite_owner _ _ hmayWrite, haon0, hlive])

end Sys2Proof.Machine
end

section
/-!
PROOFS. The commands of the stream queues take place (R172, R176, R177, R179, R184, R185, R187 to R189).
-/
namespace Sys2Proof.Machine

/-- A queue takes a source's flits only while it is enabled. -/
theorem sqEn_of_queueTakes {s : State} {q : Nat} {src : Ini} (h : s.queueTakes q src = true) : sqEn (s.sqCtl q) = true := by
  simp only [State.queueTakes, Bool.and_eq_true] at h
  exact h.1.1.1

/-- One length that waits with nothing else to do is written, and the packet stands in the queue. -/
theorem cycle_lone_length {x : QueueSt} {p : QPkt} (hclosing : x.closing = [p]) (htodo : x.todo = []) (ctl : Word) :
    x.cycle ctl = { x := { x with closing := [], pkts := x.pkts ++ [p.withLen] }, comp := 1 } := by
  simp [QueueSt.cycle, hclosing, htodo, todoSize, WriteAcc.run]

/-- A write of the control word that passes and meets no lock acts (R177, R185). -/
theorem sqCtrlWrite_unlocked {s : State} {ini : Ini} {q : Nat} {val : Word} (hpass : s.passesWhole ini (sqPage q + sqCtrl) = true)
    (hlock : s.locked (sqPage q + sqCtrl) = false) : sqCtrlWrite ini q val s = (s.sqCtrlAct q val).answer .ok 0 := by
  simp [sqCtrlWrite, hlock, State.regGuard_passes _ hpass]

/-- Settles O9: each command under the conditions that its own function asks for. -/
theorem queueCommandsComplete : Obligations.QueueCommandsComplete := by
  refine ⟨?queueWriteFlit_1, ?queueWriteFlit_2, ?lengthSlotWrite_1, ?lengthSlotWrite_2, ?bankSwap, ?queueRead_1, ?queueRead_2,
    ?queuePush, ?queuePushRetry, ?sqCtrlWrite, ?sqFlush, ?sqClear, ?flushDiscard, ?spillDiscard, ?weirWrite⟩
  case queueWriteFlit_1 =>
    intro s q src cw data hfind hqueueTakes hsqCtl
    exact Takes.of_op rfl (by simp [queueFlit, hfind, hqueueTakes, queueWriteFlit, sqEn_of_queueTakes hqueueTakes, Nat.not_lt.2 hsqCtl])
  case queueWriteFlit_2 =>
    intro s q src cw data hfind hsqEn
    exact Takes.of_op rfl (by simp [queueFlit, hfind, hsqEn, queueWriteFlit])
  case lengthSlotWrite_1 =>
    intro s q p hclosing htodo
    exact Takes.of_op rfl (by simp [lengthSlotWrite, hclosing, htodo, State.queueCycle, cycle_lone_length hclosing htodo])
  case lengthSlotWrite_2 =>
    intro s q hclosing
    exact Takes.of_op rfl (by simp [lengthSlotWrite, hclosing])
  case bankSwap =>
    intro s q hmaySwap
    exact Takes.of_op rfl (by simp [bankSwap, hmaySwap])
  case queueRead_1 =>
    intro s q nm1 hsqEn hsqPush hpendingRead
    exact Takes.of_op rfl (by simp [queueRead, hsqEn, hsqPush, hpendingRead, State.queueRead])
  case queueRead_2 =>
    intro s q nm1 x u l hsqEn hsqPush hpendingRead hnfm1 hsendWords
    exact Takes.of_op rfl (by simp [queueRead, hsqEn, hsqPush, hpendingRead, hnfm1, hsendWords, State.queueRead, Function.comp_def])
  case queuePush =>
    intro s q nm1 hsqEn hsqPush hpushable hretry
    exact Takes.of_op rfl (by simp [queuePush, hsqEn, hsqPush, hpushable, hretry])
  case queuePushRetry =>
    intro s q hsqEn hsqPush hretry
    exact Takes.of_op rfl (by simp [queuePushRetry, hsqEn, hsqPush, hretry])
  case sqCtrlWrite =>
    intro s ini q val hpassesWhole hlocked hsqEn hpush hbit6 hbit7
    refine Takes.of_op rfl ?_
    rw [sqCtrlWrite_unlocked hpassesWhole hlocked]
    rcases hpush with hpush | hpush <;> simp [State.sqCtrlAct, State.sqCmdAct, hsqEn, hpush, hbit6, hbit7, Nat.not_lt.2]
  case sqFlush =>
    intro s ini q val hpassesWhole hlocked hsqEn hreg hbit6 hbit7
    refine Takes.of_op rfl ?_
    rw [sqFlush, sqCtrlWrite_unlocked hpassesWhole hlocked]
    simp [State.sqCtrlAct, State.sqCmdAct, hsqEn, hreg, hbit6, hbit7]
  case sqClear =>
    intro s ini q val hpassesWhole hlocked hsqEn hreg hbit7
    refine Takes.of_op rfl ?_
    rw [sqClear, sqCtrlWrite_unlocked hpassesWhole hlocked]
    simp [State.sqCtrlAct, State.sqCmdAct, hsqEn, hreg, hbit7]
  case flushDiscard =>
    intro s q p rest hpkts hcut hnread
    exact Takes.of_op rfl (by simp [flushDiscard, hpkts, hcut, hnread])
  case spillDiscard =>
    intro s q l hflitWaits hsqSpill hsqEn hfull hpkts
    exact Takes.of_op rfl (by simp [spillDiscard, hflitWaits, hsqSpill, hsqEn, hfull, hpkts, State.spillOne])
  case weirWrite =>
    intro s ini q val hpassesWhole hlow hhigh
    refine Takes.of_op rfl ?_
    rw [weirWrite, State.regGuard_passes _ hpassesWhole]
    simp [Nat.not_le.2 hlow, Nat.not_lt.2 hhigh]

end Sys2Proof.Machine
end

section
/-!
PROOFS. The packets of the codec personalities are taken (R229, R231, R233 to R237, R240, R241, R504, R505).
-/
namespace Sys2Proof.Machine

/-- A personality with a filter takes its packet while no batch is due to close (R240). -/
theorem filtRun_free {s : State} {r tag : Nat} (f : State → State) (hmoves : regionMoves (s.rgn r) = true) (hrun : (s.rgn r).st = .run)
    (houts : (s.cod r).outs = []) (htag : s.tagLoading r tag = false) (hopen : (s.cod r).closeDue = false) :
    filtRun r tag f s = State.codFlush r 64 (f s) := by
  rw [filtRun, codTake_free _ hmoves hrun houts htag, hopen, if_neg Bool.false_ne_true]

theorem takes_codTake {c : Instr} {s v : State} {r tag : Nat} {f : State → State} (hexec : exec c s = .next (s.gate (codTake r tag f s)))
    (hmoves : regionMoves (s.rgn r) = true) (hrun : (s.rgn r).st = .run) (houts : (s.cod r).outs = [])
    (htag : s.tagLoading r tag = false) (hf : f s = v) : Takes c s (State.codFlush r 64 v) :=
  Takes.of_op hexec ((codTake_free _ hmoves hrun houts htag).trans (congrArg _ hf))

theorem takes_filtRun {c : Instr} {s v : State} {r tag : Nat} {f : State → State} (hexec : exec c s = .next (s.gate (filtRun r tag f s)))
    (hmoves : regionMoves (s.rgn r) = true) (hrun : (s.rgn r).st = .run) (houts : (s.cod r).outs = [])
    (htag : s.tagLoading r tag = false) (hopen : (s.cod r).closeDue = false) (hf : f s = v) : Takes c s (State.codFlush r 64 v) :=
  Takes.of_op hexec ((filtRun_free _ hmoves hrun houts htag hopen).trans (congrArg _ hf))

theorem State.cod_modCod_self (s : State) (r : Nat) (f : Codec → Codec) : (s.modCod r f).cod r = f (s.cod r) := tget_tset_self ..

/-- Settles O10: in a running region whose output has been taken the packet is processed at once, and each case says what the
processing gives. -/
theorem codecCommandsComplete : Obligations.CodecCommandsComplete := by
  refine ⟨?hdecCodeword, ?sdecSoftSet, ?setmode, ?resetseq, ?intakeCodeword, ?encCodeword_1, ?encCodeword_2, ?operatorCrcCheck_1,
    ?operatorCrcCheck_2, ?operatorCrcCheck_3, ?lzdBlock, ?lzeBlock, ?ersRebuild, ?ersStripeParity, ?setpred, ?filtEnd, ?filtClear,
    ?filtDecodedPacket, ?filtBatchClose⟩
  case hdecCodeword =>
    intro s r lw body hmoves hrun houts htag
    exact takes_codTake rfl hmoves hrun houts htag rfl
  case sdecSoftSet =>
    intro s r lw0 lw1 lw2 b0 b1 b2 hmoves hrun houts htag
    exact takes_codTake rfl hmoves hrun houts htag rfl
  case setmode =>
    intro s r lw w1 w2 hmoves hrun houts htag
    exact takes_codTake rfl hmoves hrun houts htag rfl
  case resetseq =>
    intro s r lw w1 w2 hmoves hrun houts htag
    exact takes_codTake rfl hmoves hrun houts htag rfl
  case intakeCodeword =>
    intro s r lw body hmoves hrun houts htag hlen htier
    exact takes_codTake rfl hmoves hrun houts htag (by simp [hlen, htier])
  case encCodeword_1 =>
    intro s r lw body hmoves hrun houts htag hlen htier hheld hnext
    exact takes_codTake rfl hmoves hrun houts htag (by simp [hlen, htier, hheld, hnext, State.encGoes, State.cod_modCod_self])
  case encCodeword_2 =>
    intro s r lw body hmoves hrun houts htag hlen htier hheld hnext
    exact takes_codTake rfl hmoves hrun houts htag (by simp [hlen, htier, hheld, Ne.symm hnext, State.encGoes, State.cod_modCod_self])
  case operatorCrcCheck_1 =>
    intro s r lw body hmoves hrun houts htag hplain hcrc
    exact takes_codTake rfl hmoves hrun houts htag (by simp [State.operatorStage, hplain, hcrc])
  case operatorCrcCheck_2 =>
    intro s r lw body hmoves hrun houts htag hplain hcrc
    exact takes_codTake rfl hmoves hrun houts htag (by simp [State.operatorStage, hplain, hcrc])
  case operatorCrcCheck_3 =>
    intro s r lw body hmoves hrun houts htag hmarked
    exact takes_codTake rfl hmoves hrun houts htag (by simp [State.operatorStage, hmarked])
  case lzdBlock =>
    intro s r block l hmoves hrun houts htag hbytes
    exact takes_codTake rfl hmoves hrun houts htag (by simp [hbytes])
  case lzeBlock =>
    intro s r block n u hmoves hrun houts htag hlow hhigh hclen
    exact takes_codTake rfl hmoves hrun houts htag (by simp [hlow, hhigh, hclen])
  case ersRebuild =>
    intro s r lw w1 w2 members hmoves hrun houts htag hlen hop hone _ _ hi
    exact takes_codTake rfl hmoves hrun houts htag (by
      simp [hlen, hop, hone, hi, show 2 ≤ members.length - 1 by omega, show members.length - 1 ≤ 14 by omega])
  case ersStripeParity =>
    intro s r members two hmoves hrun houts htag htwo hlow hhigh hall
    exact takes_codTake rfl hmoves hrun houts htag (by
      simp only [htwo, hlow, hhigh, hall, true_and, if_true, Bool.false_eq_true, if_false])
  case setpred =>
    intro s r lw w1 w2 w3 w4 hmoves hrun houts htag hopen hlen hop hroom hwidth hcmp
    exact takes_filtRun rfl hmoves hrun houts htag hopen (by
      simp [State.filtControl, hlen, hop, Nat.not_le.2 hroom, hwidth, Nat.not_lt.2 hcmp])
  case filtEnd =>
    intro s r lw w1 w2 w3 w4 hmoves hrun houts htag hopen hlen hop
    exact takes_filtRun rfl hmoves hrun houts htag hopen (by simp [State.filtControl, hlen, hop])
  case filtClear =>
    intro s r lw w1 w2 w3 w4 hmoves hrun houts htag hopen hlen hop
    exact takes_filtRun rfl hmoves hrun houts htag hopen (by simp [State.filtControl, hlen, hop])
  case filtDecodedPacket =>
    intro s r lw body hmoves hrun houts htag hopen hplain hcrc
    exact takes_filtRun rfl hmoves hrun houts htag hopen (by simp [State.operatorStage, hplain, hcrc])
  case filtBatchClose =>
    intro s r _ _ _ _
    exact Takes.of_op rfl rfl

end Sys2Proof.Machine
end

section
/-!
PROOFS. Reservations, data and answers arrive at the network interfaces (R247, R249, R254, R255, R508).
-/
namespace Sys2Proof.Machine

/-- A reservation that its target serves and does not refuse is pending there, behind what the network already carries, and is delivered as
far as it goes (R254). -/
theorem ocnArrive_accepted {s : State} {op : OcnOp} {x : Rsv} {y : Txn} (harriving : s.arriving op x = some y)
    (hserved : s.servedAt op y.rsv = true) (haccepted : s.refuses op y.rsv = none) :
    ocnArrive op x s = State.deliverAll y.rsv.ini.val y.rsv.tgt.val (s.ocn.txns.length + 1)
      (s.setTxns (s.ocn.txns.filter (fun z => z.key != y.key) ++ [{ y with stage := .pending }])) := by
  simp [ocnArrive, harriving, hserved, haccepted]

/-- Settles O11: the six reservations arrive in one way; data, answers and time-outs reach the transaction of their key. -/
theorem networkArrivalsComplete : Obligations.NetworkArrivalsComplete := by
  refine ⟨?ocnRead, ?ocnWrite, ?ocnQread, ?ocnQwrite, ?ocnQpush, ?ocnSignal, ?writeDataArrival, ?responseArrival, ?initiatorTimeout⟩
  case ocnRead => exact fun _ _ _ harriving hserved haccepted => Takes.of_op rfl (ocnArrive_accepted harriving hserved haccepted)
  case ocnWrite => exact fun _ _ _ harriving hserved haccepted => Takes.of_op rfl (ocnArrive_accepted harriving hserved haccepted)
  case ocnQread => exact fun _ _ _ harriving hserved haccepted => Takes.of_op rfl (ocnArrive_accepted harriving hserved haccepted)
  case ocnQwrite => exact fun _ _ _ harriving hserved haccepted => Takes.of_op rfl (ocnArrive_accepted harriving hserved haccepted)
  case ocnQpush => exact fun _ _ _ harriving hserved haccepted => Takes.of_op rfl (ocnArrive_accepted harriving hserved haccepted)
  case ocnSignal => exact fun _ _ _ harriving hserved haccepted => Takes.of_op rfl (ocnArrive_accepted harriving hserved haccepted)
  case writeDataArrival =>
    intro s k data cws x htxn hstage hwho hportDead
    exact Takes.of_op rfl (by simp [writeDataArrival, htxn, hstage, hwho, hportDead])
  case responseArrival =>
    intro s k latency x htxn hstage
    exact Takes.of_op rfl (by simp [responseArrival, htxn, hstage])
  case initiatorTimeout =>
    intro s k x htxn hgrantSeen hstage hwho
    exact Takes.of_op rfl (by simp [initiatorTimeout, htxn, hgrantSeen, hstage, hwho])

end Sys2Proof.Machine
end

section
/-!
PROOFS. The commands of the on-chip network: the clause on a target's time-out fails, since the register that holds the dead ports also
counts the reads that the dead port answers (R261).
-/
namespace Sys2Proof.Machine

/-- Two reads of one initiator that wait at the block of one target. -/
def twoReadsAtBlock : State :=
  State.reset.setTxns [wTxn .read .atBlock, { wTxn .read .atBlock with rsv := { wRsv with txn := wRsv.txn + 1 } }]

/-- The time-out of the first read answers the second too and counts it, in the fields above the port's dead bit. -/
theorem dead_of_targetTimeout_twoReadsAtBlock :
    (targetTimeout (wTxn .read .atBlock).key twoReadsAtBlock).reg (ocnPage (wRsv.tgt.val / 4) + ocnDead)
      = setFld (setBit (twoReadsAtBlock.reg (ocnPage (wRsv.tgt.val / 4) + ocnDead)) (wRsv.tgt.val % 4)) 20 12 1 := by decide +kernel

/-- Refutes O12: of two reads at one block, the time-out of the first counts the second in the register of the dead ports, so more than
the port's dead bit changes there. -/
theorem not_networkCommandsComplete : ¬ Obligations.NetworkCommandsComplete := by
  intro h
  obtain ⟨-, -, htimeout, -⟩ := h
  have hdead := (htimeout twoReadsAtBlock (wTxn .read .atBlock).key (wTxn .read .atBlock) (by decide +kernel) (.inl rfl)).2
  rw [show (wTxn .read .atBlock).rsv = wRsv from rfl, dead_of_targetTimeout_twoReadsAtBlock] at hdead
  exact absurd hdead (by decide +kernel)

end Sys2Proof.Machine
end

section
/-!
PROOFS. The commands of the reservoir and of the DRAM controller take place (R273 to R276, R279, R281, R282, R285, R287 to R290).
-/
namespace Sys2Proof.Machine

/-- Settles O13: each command under the conditions that its own function asks for. -/
theorem memoryCommandsComplete : Obligations.MemoryCommandsComplete := by
  refine ⟨?bankAccess, ?bankHandover, ?secureWipe, ?secureWipeDone, ?reservoirWipeDone, ?dramAccess_1, ?dramAccess_2,
    ?dramInitDone, ?hvRangeWrite, ?hvClear, ?hvClearDone, ?hvDisable⟩
  case bankAccess =>
    intro s b x hpickReq
    exact Takes.of_op rfl (by simp [bankAccess, hpickReq])
  case bankHandover =>
    intro s ini val hhandOk
    exact Takes.of_op rfl (by simp [bankHandover, hhandOk])
  case secureWipe =>
    intro s cause hswReq htxns
    refine Takes.of_op rfl ?_
    simp only [secureWipe, hswReq, if_true, State.zeroBanks_ocn, htxns, List.map_nil]
  case secureWipeDone =>
    intro s hswipe
    exact Takes.of_op rfl (by simp [secureWipeDone, hswipe])
  case reservoirWipeDone =>
    intro s hwipe
    exact Takes.of_op rfl (by simp [reservoirWipeDone, hwipe])
  case dramAccess_1 =>
    intro s k err x hdrcNext hkey herr
    exact Takes.of_op rfl (by simp [dramAccess, hdrcNext, hkey, herr])
  case dramAccess_2 =>
    intro s k err x hdrcNext hkey herr
    exact Takes.of_op rfl (by simp [dramAccess, hdrcNext, hkey, herr])
  case dramInitDone =>
    intro s htrained hinit
    exact Takes.of_op rfl (by simp [dramInitDone, htrained, hinit])
  case hvRangeWrite =>
    intro s ini size val hpassesWhole hsize hclosed hunits hfits
    subst hsize
    refine Takes.of_op rfl ?_
    rw [hvRangeWrite, if_pos rfl, State.regGuard_passes _ hpassesWhole]
    simp only [hclosed, Bool.false_eq_true, false_or, if_true, if_neg (not_or.2 ⟨Nat.not_lt.2 hunits, Nat.not_lt.2 hfits⟩)]
  case hvClear =>
    intro s ini val hpassesWhole hbit0 hhvEn
    exact Takes.of_op rfl (by simp [hvClear, State.regGuard_passes _ hpassesWhole, hbit0, hhvEn, State.hvctrlAct])
  case hvClearDone =>
    intro s hclr
    exact Takes.of_op rfl (by simp [hvClearDone, hclr])
  case hvDisable =>
    intro s ini val hpassesWhole hbit0 hhvEn hany
    exact Takes.of_op rfl (by simp [hvDisable, State.regGuard_passes _ hpassesWhole, hbit0, hhvEn, hany, State.hvctrlAct])

end Sys2Proof.Machine
end

section
/-!
PROOFS. The DMA channels execute their commands and instructions (R296, R299, R301 to R306, R309, R310, R312, R317).
-/
namespace Sys2Proof.Machine

/-- A write of the control word that passes gives the channel its command (R296). -/
theorem dmaCtrlWrite_passes {s : State} {ini : Ini} {n : Nat} {val : Word} (hpass : s.mayWrite ini (dmaPage n + dmaCtrl) = true) :
    dmaCtrlWrite ini n val s = ((s.fieldWrite ini (dmaPage n + dmaCtrl) val).dmaCtrl n (s.actBits ini (dmaPage n + dmaCtrl) val)).answer .ok 0 := by
  rw [dmaCtrlWrite, State.regWrite_owner _ _ hpass]

/-- Settles O14: each command and each instruction in the channel state that accepts it. -/
theorem dmaCommandsComplete : Obligations.DmaCommandsComplete := by
  refine ⟨?dmaStart, ?dmaAbort, ?dmaGo_1, ?dmaGo_2, ?dmaResume_1, ?dmaResume_2, ?dmaAppend, ?dmaFetch, ?dmaLoop, ?dmaEndl_1,
    ?dmaEndl_2, ?dmaWait_1, ?dmaWait_2, ?dmaWaitExpire, ?dmaSignal, ?link, ?dmaEnd, ?xform, ?halt, ?dmaDrainDone, ?dmaError,
    ?move, ?dmaBurstAnswer_1, ?dmaBurstAnswer_2, ?dmaDrowseRetry, ?dmaPaceSample_1, ?dmaPaceSample_2⟩
  case dmaStart =>
    intro s ini d val hmayWrite hcmd hst
    exact Takes.of_op rfl (by simp [dmaStart, dmaCtrlWrite_passes hmayWrite, State.dmaCtrl, hcmd, hst])
  case dmaAbort =>
    intro s ini d val hmayWrite hcmd hst
    exact Takes.of_op rfl (by simp [dmaAbort, dmaCtrlWrite_passes hmayWrite, State.dmaCtrl, hcmd, hst])
  case dmaGo_1 =>
    intro s ini d val hmayWrite hcmd hwait hfail hst
    exact Takes.of_op rfl (by simp [dmaGo, dmaCtrlWrite_passes hmayWrite, State.dmaCtrl, hcmd, hwait, hfail, hst])
  case dmaGo_2 =>
    intro s ini d val hmayWrite hcmd hst
    exact Takes.of_op rfl (by simp [dmaGo, dmaCtrlWrite_passes hmayWrite, State.dmaCtrl, hcmd, hst, DmaSt.waitCond])
  case dmaResume_1 =>
    intro s ini d val hmayWrite hcmd hst hfail hgo
    exact Takes.of_op rfl (by
      simp only [dmaResume, dmaCtrlWrite_passes hmayWrite, State.dmaCtrl, hcmd, hst, hfail, State.dmaResumeAct, true_and, if_true,
        if_neg hgo])
  case dmaResume_2 =>
    intro s ini d val hmayWrite hcmd hst hfail hwait hgo
    exact Takes.of_op rfl (by
      simp only [dmaResume, dmaCtrlWrite_passes hmayWrite, State.dmaCtrl, hcmd, hst, hfail, hwait, hgo, State.dmaResumeAct,
        true_and, if_true])
  case dmaAppend =>
    intro s ini d val hmayWrite hactBits0 hst hfetch hfail
    exact Takes.of_op rfl (by simp [dmaAppendCmd, State.regWrite_owner _ _ hmayWrite, hactBits0, hst, hfetch, hfail, State.doorbell])
  case dmaFetch =>
    intro s d status a bs hfetch hstatus hst
    exact Takes.of_op rfl (by simp [dmaFetch, hfetch, hstatus, hst])
  case dmaLoop =>
    intro s d w hdmaAt hloop
    exact Takes.of_op rfl (by simp [dmaLoop, hdmaAt, hloop])
  case dmaEndl_1 =>
    intro s d w l hdmaAt hloop hreservedBits hleft
    exact Takes.of_op rfl (by simp [dmaEndl, hdmaAt, hloop, hreservedBits, hleft])
  case dmaEndl_2 =>
    intro s d w l hdmaAt hloop hreservedBits hleft
    exact Takes.of_op rfl (by simp [dmaEndl, hdmaAt, hloop, hreservedBits, hleft])
  case dmaWait_1 =>
    intro s d w hdmaAt hreservedBits hfld8 hgo
    exact Takes.of_op rfl (by simp [dmaWait, hdmaAt, hreservedBits, hfld8, hgo])
  case dmaWait_2 =>
    intro s d w hdmaAt hreservedBits hfld8
    exact Takes.of_op rfl (by simp [dmaWait, hdmaAt, hreservedBits, hfld8])
  case dmaWaitExpire =>
    intro s d hwaitCond hfail
    exact Takes.of_op rfl (by simp [dmaWaitExpire, hwaitCond, hfail, State.dmaResumeRun, State.dmaNext, State.dmach_modDma_self])
  case dmaSignal =>
    intro s d w hdmaAt hreservedBits hbit8 hbit24
    exact Takes.of_op rfl (by simp [dmaSignal, hdmaAt, hreservedBits, hbit8, hbit24, State.signalAct])
  case link =>
    intro s d w hdmaAt hbit8 hreservedBits hloop
    exact Takes.of_op rfl (by simp [dmaLink, hdmaAt, hbit8, hreservedBits, hloop])
  case dmaEnd =>
    intro s d w hdmaAt hbit8 hreservedBits hlatch
    exact Takes.of_op rfl (by simp [dmaEnd, hdmaAt, hbit8, hreservedBits, hlatch])
  case xform =>
    intro s d w hdmaAt hreservedBits hfld8
    exact Takes.of_op rfl (by simp [dmaXform, hdmaAt, hreservedBits, hfld8])
  case halt =>
    intro s d w hdmaAt hreservedBits hloop
    exact Takes.of_op rfl (by simp [dmaHalt, hdmaAt, hreservedBits, hloop])
  case dmaDrainDone =>
    intro s d w hdrainFlush hbursts hflush hfail hst hwait hfld0
    exact Takes.of_op rfl (by simp [dmaDrainDone, hdrainFlush, hbursts, hflush, hfail, hst, hwait, hfld0])
  case dmaError =>
    intro s d code hfail houtstanding hst
    exact Takes.of_op rfl (by simp [dmaError, hfail, houtstanding, hst])
  case move =>
    intro s d w w1 w2 m hat hw1 hw2 hm hok hpace
    subst hm
    refine Takes.of_op rfl ?_
    simp only [dmaMove, hat, hw1, hw2, if_pos hok, hpace]
    rfl
  case dmaBurstAnswer_1 =>
    intro s d burst read status poison _ hslot hflush hstatus hpoison
    subst hstatus hpoison
    refine Takes.of_op rfl ?_
    simp only [dmaBurstAnswer, if_pos hslot, State.flushAnswer, if_pos hflush]
    rfl
  case dmaBurstAnswer_2 =>
    intro s d burst read status poison _ b hburst hdmach
    exact Takes.of_op rfl (by simp [dmaBurstAnswer, hburst, hdmach])
  case dmaDrowseRetry =>
    intro s d hstopping
    exact Takes.of_op rfl (by simp [dmaDrowseRetry, hstopping])
  case dmaPaceSample_1 =>
    intro s d status hstopping hasks hstatus hanswer
    refine Takes.of_op rfl ?_
    have hsome : ((List.range 128).filter (fun q => (s.dmach d.val).samples q)).isEmpty = false := by simpa using hasks
    simp only [dmaPaceSample, hsome, hstopping, hanswer, Bool.or_self, Bool.false_eq_true, if_false, ne_eq, hstatus,
      not_false_iff, if_true]
  case dmaPaceSample_2 =>
    intro s d status q hstopping hrange hstatus hwaitCond
    exact Takes.of_op rfl (by simp [dmaPaceSample, hstopping, hrange, hstatus, hwaitCond, answerError])

end Sys2Proof.Machine
end

section
/-!
PROOFS. Accesses of the register window and of the address space take place (R7, R9, R18, R24, R30 to R33, R35, R36, R38, R39, R487).
-/
namespace Sys2Proof.Machine

/-- An offset of a page names that page and itself. -/
theorem page_add_offset (p : Nat) {o : Nat} (h : o < 0x1000) :
    (0x1000 * p + o) / 0x1000 * 0x1000 = 0x1000 * p ∧ (0x1000 * p + o) % 0x1000 = o := by omega

/-- A page of the block map takes the command that names it. -/
theorem State.onPage_of_block (s : State) (f : Nat → State) {p : Nat} (h : (blockAt (0x1000 * p)).isSome = true) :
    s.onPage p f = f (0x1000 * p) := by
  obtain ⟨b, hb⟩ := Option.isSome_iff_exists.1 h
  rw [State.onPage, hb]

theorem State.wordWrite_owner {s : State} {ini : Ini} {off : Nat} {val : Word} (h : off % 0x1000 = hOwner) :
    s.wordWrite ini off val = s.ownerWrite ini off val := by
  simp only [State.wordWrite, h]
  rfl

theorem State.wordWrite_lock {s : State} {ini : Ini} {off : Nat} {val : Word} (h : off % 0x1000 = hLock) :
    s.wordWrite ini off val = s.lockWrite ini off val := by
  simp only [State.wordWrite, h]
  rfl

theorem State.wordWrite_evtBase {s : State} {ini : Ini} {off : Nat} {val : Word} (h : off % 0x1000 = hEvtBase) :
    s.wordWrite ini off val = s.evtBaseWrite ini off val := by
  simp only [State.wordWrite, h]
  rfl

/-- An instruction that the life cycle allows is loaded (R487). -/
theorem tapLoad_ok {s : State} {i : Byte} (h : s.tapOk i = true) : tapLoad i s = s.modTap (fun t => { t with ir := i }) := by
  rw [tapLoad, if_pos h]

/-- Settles O15: each access through the function that the window gives its offset. -/
theorem windowCommandsComplete : Obligations.WindowCommandsComplete := by
  refine ⟨?registerWrite, ?ownerWrite, ?lockSet, ?evtBaseWrite, ?holeAccess, ?unmappedAccess, ?hostDoorbell, ?dmi_1, ?dmi_2⟩
  case registerWrite =>
    intro s ini off len val hlen haligned hblock haperture hroutes hhand
    subst hlen
    obtain ⟨b, hb⟩ := Option.isSome_iff_exists.1 hblock
    refine Takes.of_op rfl ?_
    simp only [registerWriteCmd, State.registerWrite, if_neg hhand, State.windowWrite, if_neg haperture, if_neg hroutes, hb,
      widthOk, haligned]
    rfl
  case ownerWrite =>
    intro s ini p val hblock hhead hsp hini
    subst hini
    have hown : s.mayWrite levee (0x1000 * p.val + hOwner) = true := by simp [State.mayWrite]
    obtain ⟨hpg, hoff⟩ := page_add_offset p.val (show hOwner < 0x1000 by decide)
    refine Takes.of_op rfl ?_
    rw [ownerWriteCmd, State.onPage_of_block _ _ hblock, State.wordWrite_owner hoff]
    simp [State.ownerWrite, hown, hpg, hhead, hsp]
  case lockSet =>
    intro s ini p val hblock hhead hown hsp hbit
    obtain ⟨hpg, hoff⟩ := page_add_offset p.val (show hLock < 0x1000 by decide)
    refine Takes.of_op rfl ?_
    rw [lockSetCmd, State.onPage_of_block _ _ hblock, State.wordWrite_lock hoff]
    simp [State.lockWrite, State.headerWrite, hown, hpg, hhead, hsp, hbit]
  case evtBaseWrite =>
    intro s ini p val hblock hown hsp hrange
    obtain ⟨hpg, hoff⟩ := page_add_offset p.val (show hEvtBase < 0x1000 by decide)
    refine Takes.of_op rfl ?_
    rw [evtBaseWriteCmd, State.onPage_of_block _ _ hblock, State.wordWrite_evtBase hoff]
    simp [State.evtBaseWrite, State.headerWrite, hown, hpg, hsp, Nat.not_lt.2 hrange]
  case holeAccess =>
    intro s ini off wr hisNone hx1100000 hx300000
    exact Takes.of_op rfl (by simp [holeAccess, hisNone, hx1100000, hx300000])
  case unmappedAccess =>
    intro s ini addr wr htarget
    exact Takes.of_op rfl (by simp [unmappedAccess, htarget])
  case hostDoorbell =>
    intro s ini val
    exact Takes.of_op rfl (by simp [hostDoorbell])
  case dmi_1 =>
    intro s addr wr data htap hwr
    subst hwr
    refine Takes.of_op rfl ?_
    rw [dmi, tapLoad_ok htap]
    rfl
  case dmi_2 =>
    intro s addr wr data htap hwr
    subst hwr
    refine Takes.of_op rfl ?_
    rw [dmi, tapLoad_ok htap]
    rfl

end Sys2Proof.Machine
end

section
/-!
PROOFS. The commands of the rider cores and of the ATU take place (R322, R327 to R329, R335, R339, R341, R345, R346, R368).
-/
namespace Sys2Proof.Machine

/-- An instruction of the executing context takes effect where nothing holds it back. -/
theorem State.onRunning_issues {s u : State} {c b : Nat} {f : Nat → State → State} (hb : s.execBank c = some b) (hf : f b s = u)
    (hissues : s.issues c b none u = true) : s.onRunning c f = u := by
  subst hf
  rw [State.onRunning, hb]
  exact if_pos hissues

/-- The same for an instruction of the scheduler, outside user mode (R368). -/
theorem State.xkhts_issues {s : State} {c b : Nat} {w : Word} {f : Nat → State → State} (hb : s.execBank c = some b)
    (hpriv : (s.bank c b).priv ≠ 0) (hissues : s.issues c b none (f b ((s.pcAdd c b 4).retire c)) = true) :
    s.xkhts c w f = f b ((s.pcAdd c b 4).retire c) :=
  State.onRunning_issues hb (if_neg hpriv) hissues

/-- The same for a context command; an upper half waits for the frames that the register engine has still to move (R335). -/
theorem ctxCmd_issues {s u : State} {c b : Nat} {op : XkOp} {cut : Option Nat} (hb : s.execBank c = some b)
    (hdue : (op == .svU || op == .ldU) = true → s.frameDue c b = []) (hx : s.xkctx c b op cut = u)
    (hissues : s.issues c b (some op) u = true) : ctxCmd op c cut s = u := by
  subst hx
  have hfree : ((op == .svU || op == .ldU) && !(s.frameDue c b).isEmpty) = false := by
    cases hop : (op == .svU || op == .ldU) with
    | false => rfl
    | true => rw [hdue hop]; rfl
  simp only [ctxCmd, hb, hfree, Bool.false_eq_true, if_false]
  exact if_pos hissues

/-- Settles O16: each instruction while its core executes and nothing holds it back. -/
theorem coreCommandsComplete : Obligations.CoreCommandsComplete := by
  refine ⟨?atuTranslate_1, ?atuTranslate_2, ?atuInvalidate, ?atuInvalDone, ?fpLazySwitch, ?fcall, ?fret, ?trapEntry_1,
    ?trapEntry_2, ?xret_1, ?xret_2, ?ctxsvU, ?ctxsvL, ?ctxldU, ?ctxldL, ?hevt, ?hwait, ?hexit, ?hyield, ?hself, ?writebackError,
    ?fspill, ?ffill, ?rv64Instruction_1, ?rv64Instruction_2, ?rv64Instruction_3, ?rv64Instruction_4, ?rv64Instruction_5,
    ?rv64Instruction_6⟩
  case atuTranslate_1 =>
    intro s ini atc va wr u pa hatuTranslate
    exact Takes.of_op rfl (by simp [atuTranslateCmd, hatuTranslate])
  case atuTranslate_2 =>
    intro s ini atc va wr u hatuTranslate
    exact Takes.of_op rfl (by simp [atuTranslateCmd, hatuTranslate])
  case atuInvalidate =>
    intro s ini val hmayWrite hgo hfree
    refine Takes.of_op rfl ?_
    rw [atuInvalidate, State.regWrite_owner _ _ hmayWrite]
    simp only [hgo, hfree, Bool.not_true, Bool.false_eq_true, if_false]
  case atuInvalDone =>
    intro s hbusy
    exact Takes.of_op rfl (by simp [atuInvalDone, hbusy])
  case fpLazySwitch =>
    intro s c b hrunBank hmst13
    exact Takes.of_op rfl (by simp [fpLazySwitch, hrunBank, hmst13])
  case fcall =>
    intro s c rs1 imm b n hb hres hdep hn hissues
    subst hn
    refine Takes.of_op rfl (State.onRunning_issues hb ?_ hissues)
    simp only [State.fcall, if_neg hres, hdep, Bool.false_eq_true, if_false]
  case fret =>
    intro s c b hb htrap hres heven hissues
    refine Takes.of_op rfl (State.onRunning_issues hb ?_ hissues)
    simp only [State.fret, htrap, if_neg hres, if_neg fun h : (s.bank c.val b).res = 1 ∧ _ => hres h.1, heven, Bool.false_eq_true,
      if_false]
  case trapEntry_1 =>
    intro s c intr cause tval b hb hintr hcause hissues
    subst hintr
    refine Takes.of_op rfl ?_
    simp only [trapEntry, hb, hcause, Bool.false_eq_true, if_false, if_true]
    exact if_pos hissues
  case trapEntry_2 =>
    intro s c intr cause tval b hb hintr hcause hready hissues
    subst hintr
    refine Takes.of_op rfl ?_
    simp only [trapEntry, hb, hcause, hready, and_self, if_true]
    exact if_pos hissues
  case xret_1 =>
    intro s c m b y hb hm hframe hpriv hissues
    subst hm
    refine Takes.of_op rfl (State.onRunning_issues hb ?_ hissues)
    simp [State.xret, hframe, hpriv]
  case xret_2 =>
    intro s c m b y hb hm hframe hpriv hissues
    subst hm
    refine Takes.of_op rfl (State.onRunning_issues hb ?_ hissues)
    simp [State.xret, hframe, hpriv]
  case ctxsvU =>
    intro s c cut b u hb hpriv hstay hsave hdue hissues
    refine Takes.of_op rfl (ctxCmd_issues hb (fun _ => hdue) ?_ hissues)
    simp [State.xkctx, hpriv, hstay, hsave]
  case ctxsvL =>
    intro s c cut b u hb hpriv hstay hsave hissues
    refine Takes.of_op rfl (ctxCmd_issues hb (fun h => absurd h (by decide)) ?_ hissues)
    simp [State.xkctx, show (XkOp.svL == XkOp.svU) = false from rfl, hpriv, hstay, hsave]
  case ctxldU =>
    intro s c cut b mask s1 u hb hpriv hstay hmask hload hdue hissues
    refine Takes.of_op rfl (ctxCmd_issues hb (fun _ => hdue) ?_ hissues)
    simp [State.xkctx, hpriv, hstay, hmask, hload]
  case ctxldL =>
    intro s c cut b mask s1 u hb hpriv hstay hmask hload hpc hissues
    refine Takes.of_op rfl (ctxCmd_issues hb (fun h => absurd h (by decide)) ?_ hissues)
    simp [State.xkctx, show (XkOp.ldL == XkOp.ldU) = false from rfl, hpriv, hstay, hmask, hload, hpc]
  case hevt =>
    intro s c rs1 b hb hpriv hissues
    exact Takes.of_op rfl (State.xkhts_issues hb hpriv hissues)
  case hwait =>
    intro s c b hb hpriv hissues
    exact Takes.of_op rfl (State.xkhts_issues hb hpriv hissues)
  case hexit =>
    intro s c b hb hpriv hissues
    exact Takes.of_op rfl (State.xkhts_issues hb hpriv hissues)
  case hyield =>
    intro s c b hb hpriv hissues
    exact Takes.of_op rfl (State.xkhts_issues hb hpriv hissues)
  case hself =>
    intro s c rd b hb hpriv hissues
    exact Takes.of_op rfl (State.xkhts_issues hb hpriv hissues)
  case writebackError =>
    intro s c addr status old hstatus hline hheld hfirst
    refine Takes.of_op rfl ?_
    simp only [writebackError, if_neg hstatus, hline, hheld, hfirst, beq_self_eq_true, Bool.and_self, if_true]
  case fspill =>
    intro s c b u hb hres hspl hstore hdue hissues
    refine Takes.of_op rfl (State.onRunning_issues hb ?_ hissues)
    simp only [State.fspill, if_neg (not_or.2 ⟨Nat.not_lt.2 hres, hspl⟩), hdue, hstore, Bool.false_eq_true, if_false]
    rfl
  case ffill =>
    intro s c b u l hb hres hspl hload hissues
    refine Takes.of_op rfl (State.onRunning_issues hb ?_ hissues)
    simp only [State.ffill, if_neg (not_or.2 ⟨Nat.not_lt.2 hres, hspl⟩), hload]
  case rv64Instruction_1 =>
    intro s c w hw
    subst hw
    exact Takes.of_op rfl rfl
  case rv64Instruction_2 =>
    intro s c w hw
    subst hw
    exact Takes.of_op rfl rfl
  case rv64Instruction_3 =>
    intro s c w hw
    subst hw
    exact Takes.of_op rfl rfl
  case rv64Instruction_4 =>
    intro s c w hw
    subst hw
    exact Takes.of_op rfl rfl
  case rv64Instruction_5 =>
    intro s c w b hop hb hwide hissues
    refine Takes.of_op rfl ?_
    simp only [rv64Instruction, hop]
    exact State.onRunning_issues hb (if_pos hwide) hissues
  case rv64Instruction_6 =>
    intro s c w b v hop hb hnarrow hexpand hload hstore hissues
    refine Takes.of_op rfl ?_
    simp only [rv64Instruction, hop]
    refine State.onRunning_issues hb ?_ hissues
    simp only [if_neg hnarrow, hexpand, hload, hstore, or_self, false_and, if_false]

end Sys2Proof.Machine
end

section
/-!
PROOFS. The commands and steps of the task scheduler take place (R329, R333, R336, R337, R356, R357, R359, R360, R362, R366, R367).
-/
namespace Sys2Proof.Machine

/-- A write of the command word that passes gives the scheduler the command and the thread that the word names (R359). -/
theorem htsOp_passes {s : State} {ini : Ini} {op n : Nat} (hpass : s.mayWrite ini (htsPage 0 + htsCmd) = true) (hop : op < 16) (hn : n < 4096) :
    htsOp op ini n s = ((s.fieldWrite ini (htsPage 0 + htsCmd) (BitVec.ofNat 32 (n + 2 ^ 12 * op))).htsCommand op n).answer .ok 0 := by
  have hcode : fld (BitVec.ofNat 32 (n + 2 ^ 12 * op) : Word) 12 4 = op := by simp [fld]; omega
  have hthread : fld (BitVec.ofNat 32 (n + 2 ^ 12 * op) : Word) 0 12 = n := by simp [fld]; omega
  rw [htsOp, htsCmdWrite, State.regWrite_owner _ _ hpass]
  simp only [hcode, hthread]

/-- The target at the front is taken by the action that it names (R360). -/
theorem State.takeTarget_of_next {s : State} {o : CurOcc} {w : Word} {act : Nat} (hskip : s.skipNone 64 = s) (hnext : s.nextTarget = some (o, w))
    (hact : fld w 12 2 = act) (f : Nat → Word → State → State) :
    s.takeTarget act f = f o.ev w (({ s with hts := { s.hts with
      cur := if o.left = 1 then none else some { o with idx := o.idx + 1, left := o.left - 1 } } }).htsCount 1) := by
  simp only [State.takeTarget, hskip, hnext, if_pos hact]

/-- Settles O17: each command and each step in the thread states that accept it. -/
theorem schedulerCommandsComplete : Obligations.SchedulerCommandsComplete := by
  refine ⟨?arm, ?cancel, ?park, ?resume, ?free, ?setpri, ?setaff, ?eventTake_1, ?eventTake_2, ?occurrenceStart_1,
    ?occurrenceStart_2, ?dec, ?cancelAction, ?signalAction, ?signalAnswer, ?frameFault, ?dispatchDeliver, ?engineSaveDone,
    ?engineLoadDone_1, ?engineLoadDone_2, ?engineLoadDone_3, ?engineLoadDone_4, ?dispatchDecision_1, ?dispatchDecision_2,
    ?parkSaveDone, ?parklogPop, ?headWrite⟩
  case arm =>
    intro s ini th hpass hst haff hnodel hnodeu
    refine Takes.of_op rfl ((htsOp_passes hpass (by decide) th.isLt).trans ?_)
    rcases hst with hst | hst <;> simp only [State.htsCommand, State.cmdCheck, hst, hnodel, hnodeu, bne_iff_ne.2 haff] <;> rfl
  case cancel =>
    intro s ini th hpass hcancels
    refine Takes.of_op rfl ((htsOp_passes hpass (by decide) th.isLt).trans ?_)
    simp only [State.htsCommand, State.cmdCheck, hcancels, if_true]
  case park =>
    intro s ini th hpass hst
    refine Takes.of_op rfl ((htsOp_passes hpass (by decide) th.isLt).trans ?_)
    rcases hst with hst | hst | hst <;> simp only [State.htsCommand, State.cmdCheck, hst] <;> rfl
  case resume =>
    intro s ini th hpass hst
    refine Takes.of_op rfl ((htsOp_passes hpass (by decide) th.isLt).trans ?_)
    simp only [State.htsCommand, State.cmdCheck, hst, beq_self_eq_true, if_true]
  case free =>
    intro s ini th hpass hst
    refine Takes.of_op rfl ((htsOp_passes hpass (by decide) th.isLt).trans ?_)
    rcases hst with hst | hst <;> simp only [State.htsCommand, State.cmdCheck, hst] <;> rfl
  case setpri =>
    intro s ini th hpass hst hqueue
    refine Takes.of_op rfl ((htsOp_passes hpass (by decide) th.isLt).trans ?_)
    simp only [State.htsCommand, State.cmdCheck, bne_iff_ne.2 hst, hqueue, Bool.false_eq_true, if_true, if_false]
  case setaff =>
    intro s ini th hpass hst haff
    refine Takes.of_op rfl ((htsOp_passes hpass (by decide) th.isLt).trans ?_)
    simp only [State.htsCommand, State.cmdCheck, bne_iff_ne.2 hst, bne_iff_ne.2 haff, Bool.and_self, if_true]
  case eventTake_1 =>
    intro s hroom hports
    have hnext : s.nextPort s.hts.rr = none := by simp [State.nextPort, hports]
    have htake : s.takeOne = s := by simp [State.takeOne, hnext]
    have hfold : (List.range 4).foldl (fun u _ => u.takeOne) s = s := by simp [List.range_succ, htake]
    refine Takes.of_op rfl ?_
    simp only [eventTake, hfold]
    exact if_neg fun h => absurd h.1 (Nat.ne_of_lt hroom)
  case eventTake_2 =>
    intro s u hu hroom
    subst hu
    exact Takes.of_op rfl (if_neg fun h => hroom h.1)
  case occurrenceStart_1 =>
    intro s o l hskip hcur hqueue hhead
    refine Takes.of_op rfl ?_
    simp only [occurrenceStart, hskip, hcur, hqueue, Option.isSome_none, Bool.false_eq_true, if_false, if_neg hhead]
  case occurrenceStart_2 =>
    intro s o l hskip hcur hqueue hhead hown
    refine Takes.of_op rfl ?_
    simp only [occurrenceStart, hskip, hcur, hqueue, Option.isSome_none, Bool.false_eq_true, if_false, if_pos hhead, hown]
  case dec =>
    intro s o w hskip hnext hact
    exact Takes.of_op rfl (State.takeTarget_of_next hskip hnext hact _)
  case cancelAction =>
    intro s o w hskip hnext hact hcancels
    exact Takes.of_op rfl ((State.takeTarget_of_next hskip hnext hact _).trans (if_pos hcancels))
  case signalAction =>
    intro s o w hout hskip hnext hact hregion
    exact Takes.of_op rfl ((if_neg (Nat.not_le.2 hout)).trans ((State.takeTarget_of_next hskip hnext hact _).trans (if_pos hregion)))
  case signalAnswer =>
    intro s r status x hfind
    exact Takes.of_op rfl (by simp [signalAnswer, hfind])
  case frameFault =>
    intro s c code b hrunBank hcode hcode'
    exact Takes.of_op rfl (by simp [frameFaultCmd, hrunBank, hcode, hcode'])
  case dispatchDeliver =>
    intro s c l u hlink hhalted hrun hheld hu
    have hrun' : u.runBank c.val = none := by rw [hu]; exact hrun
    have hheld' : (u.bank c.val l.bank).st = .held := by rw [hu]; exact hheld
    refine Takes.of_op rfl ?_
    simp only [dispatchDeliver, hlink, hhalted, ← hu, hrun', hheld', Bool.false_eq_true, if_false]
    rfl
  case engineSaveDone =>
    intro s c status j l u heng hload hhalf hcont hsave hstatus
    subst hstatus
    refine Takes.of_op rfl ?_
    simp only [engineSaveDone, heng, hload, hhalf, State.finishLoad, hcont]
    rw [show ((none : Option XkOp) != some .svL) = true from rfl,
      show (!false && ((none : Option XkOp) == some .svU || (none : Option XkOp) == some .svL)) = false from rfl]
    simp only [Bool.false_eq_true, if_false, hsave]
    rfl
  case engineLoadDone_1 =>
    intro s c status j l u heng hload hframes hst hstarted hloadHalf hstatus
    exact Takes.of_op rfl (by simp [engineLoadDone, heng, hload, hframes, hst, hstarted, hloadHalf, hstatus])
  case engineLoadDone_2 =>
    intro s c status j l u heng hload hframes hst hstarted hloadHalf hstatus
    exact Takes.of_op rfl (by simp [engineLoadDone, heng, hload, hframes, hst, hstarted, hloadHalf, hstatus])
  case engineLoadDone_3 =>
    intro s c status j l f t u heng hload hframes hst hloadHalf hstatus
    exact Takes.of_op rfl (by simp [engineLoadDone, heng, hload, hframes, hst, hloadHalf, hstatus])
  case engineLoadDone_4 =>
    intro s c status j l f t u heng hload hframes hst hloadHalf hstatus
    exact Takes.of_op rfl (by simp [engineLoadDone, heng, hload, hframes, hst, hloadHalf, hstatus])
  case dispatchDecision_1 =>
    intro s c n hhalted hbit0 hbit0' hlink hcandidate hrunBank hres hst
    exact Takes.of_op rfl (by simp [dispatchDecision, hhalted, hbit0, hbit0', hlink, hcandidate, hrunBank, hres, hst])
  case dispatchDecision_2 =>
    intro s c n b u hhalted hbit0 hbit0' hlink hcandidate hrunBank hres hcore hsendLoad
    exact Takes.of_op rfl (by simp [dispatchDecision, hhalted, hbit0, hbit0', hlink, hcandidate, hrunBank, hres, hcore, hsendLoad])
  case parkSaveDone =>
    intro s th p hparkingOf hsaved
    exact Takes.of_op rfl (by simp [parkSaveDone, hparkingOf, hsaved])
  case parklogPop =>
    intro s ini val hmayWrite hactBits0
    exact Takes.of_op rfl (by simp [parklogPop, State.regWrite_owner _ _ hmayWrite, hactBits0])
  case headWrite =>
    intro s ini val hpassesWhole hfits
    refine Takes.of_op rfl ?_
    rw [headWrite, State.regGuard_passes _ hpassesWhole]
    simp only [if_neg (Nat.not_lt.2 hfits)]

end Sys2Proof.Machine
end

section
/-!
PROOFS. The commands and events of the power domain take place (R375 to R377, R379 to R382, R384, R386, R387, R389, R391).
-/
namespace Sys2Proof.Machine

/-- Settles O18: each command in the modes that accept it. -/
theorem powerCommandsComplete : Obligations.PowerCommandsComplete := by
  refine ⟨?modeRequest_1, ?modeRequest_2, ?drowseExit_1, ?drowseExit_2, ?twinLost, ?comparatorAssert_1, ?comparatorAssert_2,
    ?comparatorDeassert, ?alarmFire, ?tokenExpire, ?aonTick, ?xtalFail, ?timeLoad, ?pllLock, ?pllLockLoss, ?fpllWrite,
    ?avsMonitor, ?pmbusCommand, ?pmbusDone, ?throttleStep, ?drainStart_1, ?drainStart_2, ?drainRegionsOff_1, ?drainRegionsOff_2,
    ?drainJournalPage_1, ?drainJournalPage_2, ?drainInhibit, ?holdupAssert⟩
  case modeRequest_1 =>
    intro s ini val hmayWrite hfieldWrite hfld0 hfieldWrite'
    exact Takes.of_op rfl (by simp [modeRequest, State.regWrite_owner _ _ hmayWrite, hfieldWrite, hfld0, hfieldWrite'])
  case modeRequest_2 =>
    intro s ini val k hmayWrite hfieldWrite
    exact Takes.of_op rfl (by simp [modeRequest, State.regWrite_owner _ _ hmayWrite, hfieldWrite])
  case drowseExit_1 =>
    intro s cause hcause hret hmode htrans
    subst hcause
    have hnone : s.pmu.ret = none := hret ▸ htrans
    exact Takes.of_op rfl (by simp [drowseExit, hnone, hmode, htrans])
  case drowseExit_2 =>
    intro s cause hcause haonUp hmode htrans
    exact Takes.of_op rfl (by simp [drowseExit, hcause, haonUp, hmode, htrans])
  case twinLost =>
    intro s htwinCfg hpresent hmode htrans
    exact Takes.of_op rfl (by simp [twinLost, htwinCfg, hpresent, hmode, htrans])
  case comparatorAssert_1 =>
    intro s k sample hcmpCfg0 hcmpOut _ hcmpCfg1 hsample
    exact TakesAon.of_op rfl (by simp [comparatorAssert, hcmpCfg0, hcmpOut, hcmpCfg1, hsample])
  case comparatorAssert_2 =>
    intro s k sample hcmpCfg0 hcmpOut _ hcmpCfg1 hcmpCfg
    exact TakesAon.of_op rfl (by simp [comparatorAssert, hcmpCfg0, hcmpOut, hcmpCfg1, hcmpCfg])
  case comparatorDeassert =>
    intro s k sample henabled hhigh _ hrising hback
    exact TakesAon.of_op rfl (by simp [comparatorDeassert, henabled, hhigh, hrising, hback])
  case alarmFire =>
    intro s hbit1 htime
    exact TakesAon.of_op rfl (by simp [alarmFire, hbit1, htime])
  case tokenExpire =>
    intro s hdbg htime
    exact Takes.of_op rfl (by simp [tokenExpire, hdbg, htime])
  case aonTick =>
    intro s hxtal hload
    exact TakesAon.of_op rfl (by simp [aonTick, hxtal, hload, show (b2n true == 1) = true from rfl])
  case xtalFail =>
    intro s
    exact TakesAon.of_op rfl (by simp [xtalFail])
  case timeLoad =>
    intro s ini val hmayWrite hactBits0
    exact Takes.of_op rfl (by simp [timeLoad, State.regWrite_owner _ _ hmayWrite, hactBits0])
  case pllLock =>
    intro s p hpllRuns
    exact Takes.of_op rfl (by simp [pllLock, hpllRuns])
  case pllLockLoss =>
    intro s p hbit1
    exact Takes.of_op rfl (by simp [pllLockLoss, hbit1])
  case fpllWrite =>
    intro s ini b val hpassesWhole hlow hhigh hused hchange
    refine Takes.of_op rfl ?_
    rw [fpllWrite, State.regGuard_passes _ hpassesWhole]
    simp only [hchange, hused, Bool.false_eq_true, and_false, or_false, if_true, if_neg (not_or.2 ⟨Nat.not_lt.2 hlow,
      Nat.not_lt.2 hhigh⟩)]
  case avsMonitor =>
    intro s mv0 ma0 mv1 ma1 pwr pmbFault hrailOut hrailOut' hpmbFault
    exact Takes.of_op rfl (by simp [avsMonitor, hrailOut, hrailOut', hpmbFault])
  case pmbusCommand =>
    intro s ini val hmayWrite hactBits1 hfieldWrite1
    exact Takes.of_op rfl (by simp [pmbusCommand, State.regWrite_owner _ _ hmayWrite, hactBits1, hfieldWrite1])
  case pmbusDone =>
    intro s nak pec data hbit1 hbit1' hnak
    exact Takes.of_op rfl (by simp [pmbusDone, hbit1, hbit1', hnak, show b2n false = 0 from rfl])
  case throttleStep =>
    intro s
    exact Takes.of_op rfl rfl
  case drainStart_1 =>
    intro s src hsrc hlow hmode
    subst hsrc
    refine ⟨Takes.of_op rfl rfl, ?_⟩
    simp [drainStart, hlow, hmode, State.setDrain, State.modPmu]
  case drainStart_2 =>
    intro s src hsrc hreq hmode
    subst hsrc
    refine ⟨Takes.of_op rfl rfl, ?_⟩
    simp [drainStart, hreq, hmode, State.setDrain, State.modPmu]
  case drainRegionsOff_1 =>
    intro s hdrain hoff
    refine ⟨Takes.of_op rfl rfl, ?_⟩
    simp [drainRegionsOff, hdrain, hoff, State.setDrain, State.modPmu, State.pllSettle]
  case drainRegionsOff_2 =>
    intro s hdrain hregionsOff
    exact Takes.of_op rfl (by simp [drainRegionsOff, hdrain, hregionsOff])
  case drainJournalPage_1 =>
    intro s status u hdrain hjlen hjournalTarget
    exact Takes.of_op rfl (by simp [drainJournalPage, hdrain, hjlen, hjournalTarget, show b2n false = 0 from rfl])
  case drainJournalPage_2 =>
    intro s status u v m l row e bs hdrain hleft htarget hread hopen hfree
    refine Takes.of_op rfl ?_
    simp only [drainJournalPage, hdrain, hleft, htarget, hread, hopen, hfree, true_and, if_true, ne_eq, not_true_eq_false,
      Bool.false_eq_true, or_self, if_false]
  case drainInhibit =>
    intro s timeout quarterMs hdrain hpagesDone
    exact Takes.of_op rfl (by simp [drainInhibit, hdrain, hpagesDone, show b2n false = 0 from rfl])
  case holdupAssert =>
    intro s hcmpOut hdrain hdrain'
    exact Takes.of_op rfl (by simp [holdupAssert, hcmpOut, hdrain, hdrain'])

end Sys2Proof.Machine
end

section
/-!
PROOFS. The resets, the wake sources and the boot take place (R375, R381, R386, R396 to R402, R404, R405).
-/
namespace Sys2Proof.Machine

/-- Outside drain and boot, a reset word that names units resets them (R398, R399). -/
theorem State.unitReset_of_run {s : State} {v : Word} {n : Nat} {f : State → Nat → State} (hnames : v.toNat % 2 ^ n ≠ 0)
    (hfree : s.resetting = false) (hmode : s.pmu.mode = .run) : s.unitReset v n f = ((List.range n).filter (fun i => bit v i)).foldl f s := by
  simp [State.unitReset, hnames, hfree, hmode]

/-- The mailbox serves the command that it holds and is free again (R404). -/
theorem State.mboxServe_command {s : State} {cmd : Nat} (hrecov : s.pmu.recov = true) (hmode : s.pmu.mode = .boot)
    (hrun : (s.runBank 0).isSome = true) (hmail : bit (s.reg (sysPage + hEvtRaw)) 0 = true)
    (hcmd : (s.reg (sysPage + sysMbox)).toNat = cmd) (f : State → State) :
    s.mboxServe cmd f = (f s).setReg (sysPage + sysMbox) 0 := by
  simp [State.mboxServe, hrecov, hmode, hrun, hmail, hcmd]

/-- Settles O19: each reset in the modes that accept it, and the boot by what its two reads give. -/
theorem resetCommandsComplete : Obligations.ResetCommandsComplete := by
  refine ⟨?modeTransitionDone_1, ?modeTransitionDone_2, ?aonPowerUp, ?aonPowerLoss, ?wake_1, ?wake_2, ?wake_3, ?pgMainRise,
    ?drainPowerOff, ?coldReset, ?sysrst, ?coldResetRequest, ?warmResetRequest, ?warmResetDeferral, ?warmResetAssert,
    ?fabricRegionReset, ?coreReset, ?bootRom_1, ?bootRom_2, ?bootRom_3, ?bootRom_4, ?bootRom_5, ?recoveryChunk, ?recoveryEnd⟩
  case modeTransitionDone_1 =>
    intro s us hmode htrans
    exact Takes.of_op rfl (by simp [modeTransitionEnd, modeTransitionDone, State.drowseWaits, hmode, htrans])
  case modeTransitionDone_2 =>
    intro s us hmode htrans
    exact Takes.of_op rfl (by simp [modeTransitionEnd, hmode, htrans])
  case aonPowerUp =>
    intro s hmode
    refine ⟨TakesAon.of_op rfl rfl, ?_⟩
    rw [aonPowerUp, if_pos hmode]
    exact ⟨rfl, rfl, rfl, rfl, rfl⟩
  case aonPowerLoss =>
    intro s
    exact ⟨TakesAon.of_op rfl rfl, rfl, rfl, rfl, rfl, rfl⟩
  case wake_1 =>
    intro s src hsrc hmode hbit7
    exact TakesAon.of_op rfl (by simp [wakeUp, hsrc, hmode, hbit7])
  case wake_2 =>
    intro s src k hsrc hmode hbit hwake
    exact TakesAon.of_op rfl (by simp [wakeUp, hsrc, hmode, hbit, hwake])
  case wake_3 =>
    intro s src hsrc hmode hbit6 hwake6
    exact TakesAon.of_op rfl (by simp [wakeUp, hsrc, hmode, hbit6, hwake6])
  case pgMainRise =>
    intro s hmode hpwren
    exact TakesAon.of_op rfl (by simp [pgMainRise, hmode, hpwren])
  case drainPowerOff =>
    intro s hdrain hbit0
    exact Takes.of_op rfl (by simp [drainPowerOff, hdrain, hbit0])
  case coldReset =>
    intro s straps fuses cause hcold
    exact TakesAon.of_op rfl (by simp [coldResetCmd, hcold])
  case sysrst =>
    intro s hmode hfits
    refine Takes.of_op rfl ?_ hfits
    simp [sysrst, State.requestCold, hfits.1, hmode]
  case coldResetRequest =>
    intro s ini val hmayWrite hcold hwarm hini
    subst hini
    refine Takes.of_op rfl ?_
    rw [rstreqWrite, State.regWrite_owner _ _ hmayWrite]
    simp only [hcold, hwarm, beq_self_eq_true, Bool.and_self, Bool.false_eq_true, if_true, if_false]
  case warmResetRequest =>
    intro s ini val hmayWrite hactBits0 hactBits0'
    exact Takes.of_op rfl (by simp [rstreqWrite, State.regWrite_owner _ _ hmayWrite, hactBits0, hactBits0'])
  case warmResetDeferral =>
    intro s hisSome hdeferred
    exact Takes.of_op rfl (by simp [warmResetDeferral, hisSome, hdeferred])
  case warmResetAssert =>
    intro s cause hwarm hdeferred hdefer hall
    exact Takes.of_op rfl (by simp [warmResetAssert, hwarm, hdeferred, hdefer, hall])
  case fabricRegionReset =>
    intro s ini val hmayWrite hnames hfree hmode
    refine Takes.of_op rfl ?_
    rw [fabricRegionReset, State.regWrite_owner _ _ hmayWrite, State.unitReset_of_run hnames hfree hmode]
  case coreReset =>
    intro s ini val hmayWrite hnames hfree hmode
    refine Takes.of_op rfl ?_
    rw [coreResetCmd, State.regWrite_owner _ _ hmayWrite, State.unitReset_of_run hnames hfree hmode]
  case bootRom_1 =>
    intro s outcome hrunBank hmode hfwIn hrecov hwipe hlcState
    exact Takes.of_op rfl (by simp [bootRom, hrunBank, hmode, hfwIn, hrecov, hwipe, hlcState])
  case bootRom_2 =>
    intro s outcome hrunBank hmode hfwIn hrecov hwipe hlcState
    exact Takes.of_op rfl (by simp [bootRom, hrunBank, hmode, hfwIn, hrecov, hwipe, hlcState])
  case bootRom_3 =>
    intro s outcome l cb u hrun hmode hfw hrecov hwipe hlc hlc' hstrap hboth houtcome _ hu
    subst houtcome
    refine Takes.of_op rfl ?_
    cases hcode : u.imageCode l false with
    | zero => simp [bootRom, hrun, hmode, hfw, hrecov, hwipe, hlc, hlc', Nat.not_le.2 hstrap, State.copyCode, ← hu, hcode]
    | succ k => simp [bootRom, hrun, hmode, hfw, hrecov, hwipe, hlc, hlc', Nat.not_le.2 hstrap, hboth, State.copyCode, ← hu, hcode]
  case bootRom_4 =>
    intro s outcome l ca u hrun hmode hfw hrecov hwipe hlc hlc' hstrap hboth houtcome _ hu
    subst houtcome
    refine Takes.of_op rfl ?_
    cases hcode : u.imageCode l false with
    | zero => simp [bootRom, hrun, hmode, hfw, hrecov, hwipe, hlc, hlc', Nat.not_le.2 hstrap, State.copyCode, ← hu, hcode]
    | succ k => simp [bootRom, hrun, hmode, hfw, hrecov, hwipe, hlc, hlc', Nat.not_le.2 hstrap, hboth, State.copyCode, ← hu, hcode]
  case bootRom_5 =>
    intro s outcome ca cb u hrun hmode hfw hrecov hwipe hlc hlc' hstrap hboth houtcome _ _ hu
    subst houtcome
    exact Takes.of_op rfl (by
      simp [bootRom, hrun, hmode, hfw, hrecov, hwipe, hlc, hlc', Nat.not_le.2 hstrap, hboth, State.copyCode, ← hu])
  case recoveryChunk =>
    intro s hrecov hmode hrun hmail hcmd
    exact Takes.of_op rfl (State.mboxServe_command hrecov hmode hrun hmail hcmd _)
  case recoveryEnd =>
    intro s hrecov hmode hrun hmail hcmd hlc
    refine Takes.of_op rfl ((State.mboxServe_command hrecov hmode hrun hmail hcmd _).trans ?_)
    simp only [hlc, if_true]

end Sys2Proof.Machine
end

section
/-!
PROOFS. The events of the levee and the commands of SEC take place (R408 to R412, R414, R416, R419, R427 to R430).
-/
namespace Sys2Proof.Machine

/-- A write of SEC_CMD with go runs the command that it names (R427). -/
theorem secOpWrite_go {s : State} {ini : Ini} {k op : Nat} (hpass : s.mayWrite ini (secPage + secCmd) = true)
    (hgo : bit (s.actBits ini (secPage + secCmd) (BitVec.ofNat 32 (k + 2 ^ 31))) 31 = true)
    (hop : fld (s.actBits ini (secPage + secCmd) (BitVec.ofNat 32 (k + 2 ^ 31))) 0 4 = op) :
    secOpWrite k ini s = ((s.fieldWrite ini (secPage + secCmd) (BitVec.ofNat 32 (k + 2 ^ 31))).secOp op none).answer .ok 0 := by
  rw [secOpWrite, secCmdWrite_go _ hpass hgo, hop]

/-- What no step of a row of steps changes, the row leaves. -/
theorem foldl_keeps {α β γ : Type} {f : β → α → β} {g : β → γ} (hf : ∀ u x, g (f u x) = g u) (l : List α) (s : β) : g (l.foldl f s) = g s := by
  induction l generalizing s with
  | nil => rfl
  | cons x l ih => rw [List.foldl_cons, ih, hf]

/-- The fall of the probe authority is seen in registers alone. -/
theorem State.authFall_keeps {γ : Type} (g : State → γ) (hg : ∀ (u : State) (o : Nat) (v : Word), g (u.setReg o v) = g u) (t s : State) :
    g (t.authFall s) = g t := by
  have hoff : g t.probeOff = g t := by
    unfold State.probeOff
    split
    · rfl
    · exact foldl_keeps (fun u _ => hg u _ _) _ t
  unfold State.authFall
  split
  · exact (foldl_keeps (fun u _ => hg u _ _) _ _).trans hoff
  · rfl

theorem State.tapDrop_keeps {γ : Type} (g : State → γ) (hpio : ∀ (u : State) (x : Pio), g { u with pio := x } = g u) (s : State) :
    g s.tapDrop = g s := by
  unfold State.tapDrop
  split
  · rfl
  · exact hpio _ _

/-- The end of the debug token is seen in registers, in SEC and in the test port alone. -/
theorem State.endToken_keeps {γ : Type} (g : State → γ) (hreg : ∀ (u : State) (o : Nat) (v : Word), g (u.setReg o v) = g u)
    (hsec : ∀ (u : State) (x : Sec), g { u with sec := x } = g u) (hpio : ∀ (u : State) (x : Pio), g { u with pio := x } = g u) (s : State) :
    g s.endToken = g s := by
  rw [State.endToken, State.tapDrop_keeps g hpio]
  split
  · exact (hreg _ _ _).trans (hsec _ _)
  · rfl

theorem State.dbg_endToken (s : State) : s.endToken.sec.dbg = false := by
  unfold State.endToken
  rw [State.sec_tapDrop]
  split
  · rfl
  · next h => exact Bool.eq_false_iff.2 h

/-- The end of a session is seen in the loader and in registers and events alone. -/
theorem State.endSession_keeps {γ : Type} (g : State → γ) (hreg : ∀ (u : State) (o : Nat) (v : Word), g (u.setReg o v) = g u)
    (hfcc : ∀ (u : State) (x : Fcc), g { u with fcc := x } = g u) (hraise : ∀ (u : State) (pg i : Nat), g (u.raise pg i) = g u) (s : State) :
    g s.endSession = g s := by
  unfold State.endSession State.setFcc16
  split
  · exact (hraise _ _ _).trans ((foldl_keeps (fun u _ => hreg u _ _) _ _).trans (hfcc _ _))
  · rfl

theorem State.fcc_setFcc16 (s : State) (off : Nat) (d : BitVec 512) : (s.setFcc16 off d).fcc = s.fcc := by
  unfold State.setFcc16
  refine foldl_keeps (g := State.fcc) ?_ _ _
  exact fun u i => u.setReg_fcc _ _

theorem State.sess_endSession (s : State) : s.endSession.fcc.sess = false := by
  cases hopen : s.fcc.sess with
  | true => simp only [State.endSession, hopen, if_true, State.raise_fcc, State.fcc_setFcc16]
  | false => simp only [State.endSession, hopen, Bool.false_eq_true, if_false]

/-- The lock-down after a tamper event is seen in the loader, in SEC, in the test port and in registers and events alone. -/
theorem State.lockdown_keeps {γ : Type} (g : State → γ) (hreg : ∀ (u : State) (o : Nat) (v : Word), g (u.setReg o v) = g u)
    (hsec : ∀ (u : State) (x : Sec), g { u with sec := x } = g u) (hpio : ∀ (u : State) (x : Pio), g { u with pio := x } = g u)
    (hfcc : ∀ (u : State) (x : Fcc), g { u with fcc := x } = g u) (hraise : ∀ (u : State) (pg i : Nat), g (u.raise pg i) = g u) (u s : State) :
    g (u.endSession.endToken.authFall s) = g u :=
  (State.authFall_keeps g hreg _ _).trans ((State.endToken_keeps g hreg hsec hpio _).trans (State.endSession_keeps g hreg hfcc hraise _))

theorem State.rsvr_lockdown (u s : State) : (u.endSession.endToken.authFall s).rsvr = u.rsvr :=
  State.lockdown_keeps (fun v => v.rsvr) (fun _ _ _ => rfl) (fun _ _ => rfl) (fun _ _ => rfl) (fun _ _ => rfl) (fun v pg i => v.raise_rsvr pg i) u s

theorem State.medc_lockdown (u s : State) : (u.endSession.endToken.authFall s).medc = u.medc :=
  State.lockdown_keeps (fun v => v.medc) (fun _ _ _ => rfl) (fun _ _ => rfl) (fun _ _ => rfl) (fun _ _ => rfl) (fun v pg i => v.raise_medc pg i) u s

theorem State.aon_lockdown (u s : State) : (u.endSession.endToken.authFall s).aon = u.aon :=
  State.lockdown_keeps (fun v => v.aon) (fun _ _ _ => rfl) (fun _ _ => rfl) (fun _ _ => rfl) (fun _ _ => rfl) (fun v pg i => v.raise_aon pg i) u s

theorem State.sess_lockdown (u s : State) : (u.endSession.endToken.authFall s).fcc.sess = false := by
  have hkeeps : (u.endSession.endToken.authFall s).fcc = u.endSession.fcc :=
    (State.authFall_keeps (fun v => v.fcc) (fun _ _ _ => rfl) _ _).trans
      (State.endToken_keeps (fun v => v.fcc) (fun _ _ _ => rfl) (fun _ _ => rfl) (fun _ _ => rfl) _)
  rw [hkeeps, State.sess_endSession]

/-- Settles O20: each event under its condition, and each command of SEC as the write of SEC_CMD that names it. -/
theorem leveeCommandsComplete : Obligations.LeveeCommandsComplete := by
  refine ⟨?lockstepMismatch, ?lockstepColdReset, ?selfWatchdog, ?selfkick, ?watchdogFirst, ?watchdogSecond, ?htsWatchdog,
    ?thermalTrip, ?voltageFault, ?leveeSramError, ?leveeDrainRequest, ?alogPop, ?nonce, ?enroll, ?revoke, ?lcreq, ?dbgtok,
    ?unwrap, ?keyerase, ?fwsvn, ?sksvn, ?lvload, ?cert, ?tamperEvent_1, ?tamperEvent_2, ?tamperClear⟩
  case lockstepMismatch =>
    exact fun _ => Takes.of_op rfl rfl
  case lockstepColdReset =>
    intro s hlockstep hmode hfits
    refine Takes.of_op rfl ?_ hfits
    simp [lockstepColdReset, State.requestCold, hlockstep, hfits.1, hmode]
  case selfWatchdog =>
    exact fun _ => Takes.of_op rfl rfl
  case selfkick =>
    intro s ini val hmayWrite
    exact Takes.of_op rfl (by simp [selfkickWrite, State.regWrite_owner _ _ hmayWrite])
  case watchdogFirst =>
    intro s c hwdRuns hwd1
    exact Takes.of_op rfl (by simp [watchdogFirst, hwdRuns, hwd1])
  case watchdogSecond =>
    intro s c hwdRuns hwd1 hbit5 hresetting hmode
    exact Takes.of_op rfl (by simp [watchdogSecond, hwdRuns, hwd1, hbit5, hresetting, hmode])
  case htsWatchdog =>
    intro s hbit4 hhtsStuck
    exact Takes.of_op rfl (by simp [htsWatchdog, hbit4, hhtsStuck])
  case thermalTrip =>
    intro s hbit8 hdieTemp
    exact Takes.of_op rfl (by simp [thermalTrip, hbit8, hdieTemp])
  case voltageFault =>
    intro s mv rail hbit0 hrailOut
    exact Takes.of_op rfl (by simp [voltageFault, hbit0, hrailOut])
  case leveeSramError =>
    exact fun _ => Takes.of_op rfl rfl
  case leveeDrainRequest =>
    intro s ini val hmayWrite hactBits0
    exact Takes.of_op rfl (by simp [lveCtrlWrite, State.regWrite_owner _ _ hmayWrite, hactBits0])
  case alogPop =>
    intro s ini val hmayWrite hactBits0
    exact Takes.of_op rfl (by simp [alogPop, State.regWrite_owner _ _ hmayWrite, hactBits0])
  case nonce =>
    intro s ini fresh hpass hgo hop
    refine Takes.of_op rfl ?_
    rw [secNonce256, secCmdWrite_go _ hpass hgo, hop, State.secOp_nonce]
  case enroll =>
    exact fun _ _ hpass hgo hop => Takes.of_op rfl (secOpWrite_go hpass hgo hop)
  case revoke =>
    exact fun _ _ hpass hgo hop => Takes.of_op rfl (secOpWrite_go hpass hgo hop)
  case lcreq =>
    exact fun _ _ hpass hgo hop => Takes.of_op rfl (secOpWrite_go hpass hgo hop)
  case dbgtok =>
    exact fun _ _ hpass hgo hop => Takes.of_op rfl (secOpWrite_go hpass hgo hop)
  case unwrap =>
    exact fun _ _ hpass hgo hop => Takes.of_op rfl (secOpWrite_go hpass hgo hop)
  case keyerase =>
    exact fun _ _ hpass hgo hop => Takes.of_op rfl (secOpWrite_go hpass hgo hop)
  case fwsvn =>
    exact fun _ _ hpass hgo hop => Takes.of_op rfl (secOpWrite_go hpass hgo hop)
  case sksvn =>
    exact fun _ _ hpass hgo hop => Takes.of_op rfl (secOpWrite_go hpass hgo hop)
  case lvload =>
    exact fun _ _ hpass hgo hop => Takes.of_op rfl (secOpWrite_go hpass hgo hop)
  case cert =>
    exact fun _ _ hpass hgo hop => Takes.of_op rfl (secOpWrite_go hpass hgo hop)
  case tamperEvent_1 =>
    intro s hmesh hpowered
    exact TakesAon.of_op rfl (by simp [tamperEvent, hmesh, hpowered])
  case tamperEvent_2 =>
    intro s hmesh hpowered
    refine ⟨TakesAon.of_op rfl rfl, ?_⟩
    rw [tamperEvent, if_pos hmesh, if_pos hpowered]
    split <;>
      simp [State.requestDrain, State.modPmu, State.emptyKeySlots, State.modAon, State.rsvr_lockdown, State.medc_lockdown, State.aon_lockdown,
        State.sess_lockdown, State.dbg_endToken]
  case tamperClear =>
    intro s ini val hpassesWhole hbit0 hcmpOut
    exact Takes.of_op rfl (by simp [tamperClear, State.regGuard_passes _ hpassesWhole, hbit0, hcmpOut])

end Sys2Proof.Machine
end

section
/-!
PROOFS. Each SPDM request is answered in the phase that accepts it, and with an error in another (R430, R431).
-/
namespace Sys2Proof.Machine

section
variable {c : Instr} {req code : Nat} {ok : Spdm → Bool} {f : Nat → Spdm → Spdm} {msg : List Byte} {s t : State}

/-- A request of the right length and code is answered in a phase that accepts it, and moves the responder on. -/
theorem takes_spdmRequest_accepted (hexec : exec c s = .next (s.gate (spdmRequest req code ok f msg s))) (hlow : 4 ≤ msg.length)
    (hhigh : msg.length ≤ 4096) (hcode : (msg.getD 1 0).toNat = req) (hok : ok s.sec.spdm = true)
    (ht : ((s.freeNat (2 ^ 32)).2.spdmAnswer req code msg).modSec (fun y => { y with spdm := f (s.freeNat (2 ^ 32)).1 y.spdm }) = t) :
    Takes c s t := by
  refine Takes.of_op hexec (.trans ?_ ht)
  have hform : ¬(msg.length < 4 ∨ 4096 < msg.length ∨ (msg.getD 1 0).toNat ≠ req) := by omega
  simp only [spdmRequest, if_neg hform, hok, Bool.not_true, Bool.false_eq_true, if_false]

/-- In another phase it is answered with an error. -/
theorem takes_spdmRequest_unexpected (hexec : exec c s = .next (s.gate (spdmRequest req code ok f msg s))) (hlow : 4 ≤ msg.length)
    (hhigh : msg.length ≤ 4096) (hcode : (msg.getD 1 0).toNat = req) (hok : ok s.sec.spdm = false) : Takes c s (s.spdmError 4) := by
  refine Takes.of_op hexec ?_
  have hform : ¬(msg.length < 4 ∨ 4096 < msg.length ∨ (msg.getD 1 0).toNat ≠ req) := by omega
  simp only [spdmRequest, if_neg hform, hok, Bool.not_false, if_true]
end

/-- Settles O21: GET_VERSION in every phase, each other request in its own phase and outside it. -/
theorem spdmRequestsComplete : Obligations.SpdmRequestsComplete := by
  refine ⟨?getVersion, ?getCapabilities_1, ?getCapabilities_2, ?negotiateAlgorithms_1, ?negotiateAlgorithms_2, ?getDigests_1,
    ?getDigests_2, ?getCertificate_1, ?getCertificate_2, ?challenge_1, ?challenge_2, ?getMeasurements_1, ?getMeasurements_2,
    ?keyExchange_1, ?keyExchange_2, ?finish_1, ?finish_2, ?heartbeat_1, ?heartbeat_2, ?keyUpdate_1, ?keyUpdate_2, ?endSession_1,
    ?endSession_2⟩
  case getVersion => exact fun _ _ hlow hhigh hcode => takes_spdmRequest_accepted rfl hlow hhigh hcode rfl rfl
  case getCapabilities_1 => exact fun _ _ hlow hhigh hcode hphase => takes_spdmRequest_accepted rfl hlow hhigh hcode (beq_iff_eq.2 hphase) rfl
  case getCapabilities_2 => exact fun _ _ hlow hhigh hcode hphase => takes_spdmRequest_unexpected rfl hlow hhigh hcode (beq_eq_false_iff_ne.2 hphase)
  case negotiateAlgorithms_1 => exact fun _ _ hlow hhigh hcode hphase => takes_spdmRequest_accepted rfl hlow hhigh hcode (beq_iff_eq.2 hphase) rfl
  case negotiateAlgorithms_2 => exact fun _ _ hlow hhigh hcode hphase => takes_spdmRequest_unexpected rfl hlow hhigh hcode (beq_eq_false_iff_ne.2 hphase)
  case getDigests_1 => exact fun _ _ hlow hhigh hcode hphase => takes_spdmRequest_accepted rfl hlow hhigh hcode (beq_iff_eq.2 hphase) rfl
  case getDigests_2 => exact fun _ _ hlow hhigh hcode hphase => takes_spdmRequest_unexpected rfl hlow hhigh hcode (beq_eq_false_iff_ne.2 hphase)
  case getCertificate_1 => exact fun _ _ hlow hhigh hcode hphase => takes_spdmRequest_accepted rfl hlow hhigh hcode (beq_iff_eq.2 hphase) rfl
  case getCertificate_2 => exact fun _ _ hlow hhigh hcode hphase => takes_spdmRequest_unexpected rfl hlow hhigh hcode (beq_eq_false_iff_ne.2 hphase)
  case challenge_1 => exact fun _ _ hlow hhigh hcode hphase => takes_spdmRequest_accepted rfl hlow hhigh hcode (beq_iff_eq.2 hphase) rfl
  case challenge_2 => exact fun _ _ hlow hhigh hcode hphase => takes_spdmRequest_unexpected rfl hlow hhigh hcode (beq_eq_false_iff_ne.2 hphase)
  case getMeasurements_1 => exact fun _ _ hlow hhigh hcode hphase => takes_spdmRequest_accepted rfl hlow hhigh hcode (beq_iff_eq.2 hphase) rfl
  case getMeasurements_2 => exact fun _ _ hlow hhigh hcode hphase => takes_spdmRequest_unexpected rfl hlow hhigh hcode (beq_eq_false_iff_ne.2 hphase)
  case keyExchange_1 => exact fun _ _ hlow hhigh hcode hphase => takes_spdmRequest_accepted rfl hlow hhigh hcode (beq_iff_eq.2 hphase) rfl
  case keyExchange_2 => exact fun _ _ hlow hhigh hcode hphase => takes_spdmRequest_unexpected rfl hlow hhigh hcode (beq_eq_false_iff_ne.2 hphase)
  case finish_1 => exact fun _ _ hlow hhigh hcode hphase => takes_spdmRequest_accepted rfl hlow hhigh hcode (beq_iff_eq.2 hphase) rfl
  case finish_2 => exact fun _ _ hlow hhigh hcode hphase => takes_spdmRequest_unexpected rfl hlow hhigh hcode (beq_eq_false_iff_ne.2 hphase)
  case heartbeat_1 => exact fun _ _ hlow hhigh hcode hphase => takes_spdmRequest_accepted rfl hlow hhigh hcode (beq_iff_eq.2 hphase) rfl
  case heartbeat_2 => exact fun _ _ hlow hhigh hcode hphase => takes_spdmRequest_unexpected rfl hlow hhigh hcode (beq_eq_false_iff_ne.2 hphase)
  case keyUpdate_1 => exact fun _ _ hlow hhigh hcode hphase => takes_spdmRequest_accepted rfl hlow hhigh hcode (beq_iff_eq.2 hphase) rfl
  case keyUpdate_2 => exact fun _ _ hlow hhigh hcode hphase => takes_spdmRequest_unexpected rfl hlow hhigh hcode (beq_eq_false_iff_ne.2 hphase)
  case endSession_1 => exact fun _ _ hlow hhigh hcode hphase => takes_spdmRequest_accepted rfl hlow hhigh hcode (beq_iff_eq.2 hphase) rfl
  case endSession_2 => exact fun _ _ hlow hhigh hcode hphase => takes_spdmRequest_unexpected rfl hlow hhigh hcode (beq_eq_false_iff_ne.2 hphase)

end Sys2Proof.Machine
end

section
/-!
PROOFS. The host's link: the accesses and the messages that cross it, and what the link's own events change (O22). Rules: R433, R436,
R438, R439, R441, R443, R445, R446, R448, R451, R453, R456.
-/
namespace Sys2Proof.Machine

theorem State.drcShut_of_hostWaits {s : State} {a : Nat} (h : s.hostWaits a = false) : s.drcShut (a - dramBase) = false := by
  simp only [State.hostWaits, Bool.or_eq_false_iff] at h
  exact h.1.1

/-- A line written whole needs no check of what stood there (R285). -/
theorem State.dramLine_whole {s : State} {ini : Ini} {a : Nat} (d : Line) (hshut : s.drcShut (a - dramBase) = false)
    (hcarve : s.inCarve (a - dramBase) = false) :
    (s.dramLine ini a true d (BitVec.allOnes 64)).1 = (s.writeLine (a / 64) d (BitVec.allOnes 64) 0).setMark (a / 64) .none := by
  simp [State.dramLine, hshut, hcarve]

theorem State.dramLine_part {s u : State} {ini : Ini} {a : Nat} (d : Line) {m : BitVec 64} (hshut : s.drcShut (a - dramBase) = false)
    (hcarve : s.inCarve (a - dramBase) = false) (hmask : m ≠ BitVec.allOnes 64) (hcheck : s.checkLine ini a = (u, true)) :
    (s.dramLine ini a true d m).1 = (u.writeLine (a / 64) d m 0).setMark (a / 64) .none := by
  simp only [State.dramLine, hshut, hcarve, hcheck, if_neg hmask, Bool.not_true, Bool.false_eq_true, if_false]

theorem State.hostRead_ok {s u : State} {a : Nat} (hshut : s.drcShut (a - dramBase) = false)
    (hcarve : s.inCarve (a - dramBase) = false) (hcheck : s.checkLine 0x21 a = (u, true)) :
    s.hostRead a = u.modHif (fun x => { x with out := { x.out with drs := some (u.readLine (a / 64), false) } }) := by
  simp only [State.hostRead, State.dramLine, hshut, hcarve, hcheck, Bool.not_false, Bool.false_eq_true, if_false, if_true,
    bne_self_eq_false]

/-- A .mem request whose decoder names its address, with the link up and nothing ahead of it at the controller, acts on the state as
it stands (R441, R443). -/
theorem cxlMemRequest_open {s : State} {dpa a : Nat} (req : CxlReq) (data : Line) (mask : BitVec 64) (hlinkUp : s.linkUp = true)
    (hmode : s.pmu.mode ≠ .drain) (hhdmAddr : s.hdmAddr dpa = some a) (hhostWaits : s.hostWaits a = false) (hdrcNext : s.drcNext = none) :
    cxlMemRequest req dpa data mask s =
      if req == .write || req == .writePartial then (s.dramLine 0x21 a true data (if req = .write then BitVec.allOnes 64 else mask)).1
      else if req = .readCache then
        match s.filterVictim (a / 64) with
        | some v => if s.drc.bi.any (fun e => e.line == v) then s else s.biSend { line := v, key := none, enter := some (a / 64) }
        | none => (s.filterAdd (a / 64)).hostRead a
      else s.hostRead a := by
  simp only [cxlMemRequest, hlinkUp, hmode, hhdmAddr, hhostWaits, State.drcDrain_none hdrcNext, Bool.not_true, Bool.false_eq_true, if_false] <;>
    rfl

/-- Settles O22: command by command, each under the conditions its clause states. -/
theorem hostCommandsComplete : Obligations.HostCommandsComplete := by
  refine ⟨?msixSend_1, ?msixSend_2, ?msixMaskChange_1, ?msixMaskChange_2, ?outboundAccess_1, ?outboundAccess_2, ?outboundAccess_3,
    ?hostFlush, ?hostCompletion_1, ?hostCompletion_2, ?snoopResponse, ?cxlMemRequest_1, ?cxlMemRequest_2, ?cxlMemRequest_3,
    ?cxlMemRequest_4, ?hostLineRelease, ?backInvalidate, ?birspReceive_1, ?birspReceive_2, ?birspReceive_3, ?biTimeout_1,
    ?biTimeout_2, ?biTimeout_3, ?hdmCommit_1, ?hdmCommit_2, ?hdmUncommit, ?peerWrite_1, ?peerWrite_2, ?peerFlush, ?nvmeDoorbell,
    ?nvmeRegisterWrite_1, ?nvmeRegisterWrite_2, ?nvmeRegisterWrite_3, ?nvmeRegisterWrite_4, ?ideKm, ?tdispMessage_1,
    ?tdispMessage_2, ?tdispMessage_3, ?tdiError, ?perstAssert_1, ?perstAssert_2, ?perstRelease, ?linkDown, ?linkUp, ?linkL1Entry,
    ?flr, ?lcommitWrite⟩
  case msixSend_1 =>
    intro s ini val hmayWrite hvec
    refine Takes.of_op rfl ?_
    rw [msixSend, State.regWrite_owner _ _ hmayWrite, if_neg (Nat.not_lt.2 hvec)]
  case msixSend_2 =>
    intro s ini val hmayWrite hvec
    refine Takes.of_op rfl ?_
    rw [msixSend, State.regWrite_owner _ _ hmayWrite, if_pos hvec]
  case msixMaskChange_1 =>
    intro s v fn mask x hv
    exact Takes.of_op rfl (by simp [msixMaskChange, hv])
  case msixMaskChange_2 =>
    intro s v fn mask hv
    exact Takes.of_op rfl (by simp [msixMaskChange, hv])
  case outboundAccess_1 =>
    intro s ini addr wr n o f _ m ide e htarget hlinkUp hmode houtTarget hwr he
    exact Takes.of_op rfl (by simp [outboundAccess, htarget, hlinkUp, hmode, houtTarget, hwr, he, show b2n false = 0 from rfl])
  case outboundAccess_2 =>
    intro s ini addr wr n o f _ m ide e htarget hlinkUp hmode houtTarget hwr hm he
    exact Takes.of_op rfl (by simp [outboundAccess, htarget, hlinkUp, hmode, houtTarget, hwr, hm, he, show b2n true = 1 from rfl])
  case outboundAccess_3 =>
    intro s ini addr wr n o htarget hlinkUp
    exact Takes.of_op rfl (by simp [outboundAccess, htarget, hlinkUp])
  case hostFlush =>
    intro s ini addr o f _ m ide e htarget hlinkUp hmode houtTarget he
    exact Takes.of_op rfl (by simp [hostFlush, htarget, hlinkUp, hmode, houtTarget, he])
  case hostCompletion_1 =>
    intro s tag ok data e hfind hkind hok
    exact Takes.of_op rfl (by simp [hostCompletion, hfind, hkind, hok])
  case hostCompletion_2 =>
    intro s tag ok data e hfind hkind
    exact Takes.of_op rfl (by simp [hostCompletion, hfind, hkind])
  case snoopResponse =>
    intro s line hlinkUp
    exact Takes.of_op rfl (by simp [snoopResponse, hlinkUp])
  case cxlMemRequest_1 =>
    intro s req dpa data mask a hreq hlinkUp hmode hhdmAddr hhostWaits hdrcNext hinCarve
    subst hreq
    exact Takes.of_op rfl ((cxlMemRequest_open _ _ _ hlinkUp hmode hhdmAddr hhostWaits hdrcNext).trans
      (State.dramLine_whole data (State.drcShut_of_hostWaits hhostWaits) hinCarve))
  case cxlMemRequest_2 =>
    intro s req dpa data mask a u hreq hlinkUp hmode hhdmAddr hhostWaits hdrcNext hinCarve hmask hcheckLine
    subst hreq
    exact Takes.of_op rfl ((cxlMemRequest_open _ _ _ hlinkUp hmode hhdmAddr hhostWaits hdrcNext).trans
      (State.dramLine_part data (State.drcShut_of_hostWaits hhostWaits) hinCarve hmask hcheckLine))
  case cxlMemRequest_3 =>
    intro s req dpa data mask a u hwrite hpartial hcache hlinkUp hmode hhdmAddr hhostWaits hdrcNext hinCarve hcheckLine
    have hread : (req == .write || req == .writePartial) = false := by simp [hwrite, hpartial]
    refine Takes.of_op rfl ?_
    rw [cxlMemRequest_open _ _ _ hlinkUp hmode hhdmAddr hhostWaits hdrcNext, hread, if_neg (by decide), if_neg hcache]
    exact State.hostRead_ok (State.drcShut_of_hostWaits hhostWaits) hinCarve hcheckLine
  case cxlMemRequest_4 =>
    intro s req dpa data mask a hreq hlinkUp hmode hhdmAddr hhostWaits hdrcNext
    subst hreq
    exact Takes.of_op rfl (cxlMemRequest_open _ _ _ hlinkUp hmode hhdmAddr hhostWaits hdrcNext)
  case hostLineRelease =>
    intro s dpa a hhdmAddr
    exact Takes.of_op rfl (by simp [hostLineRelease, hhdmAddr])
  case backInvalidate =>
    intro s k x o l htxn htarget hheldLine hstage hall
    exact Takes.of_op rfl (by simp [backInvalidate, htxn, htarget, hheldLine, hstage, hall])
  case birspReceive_1 =>
    intro s line k x hfind htxn
    have htxn' : ∀ f, ((s.biDrop line.toNat).modDrc f).txn k = some x := fun f => htxn
    exact Takes.of_op rfl (by simp [birspReceive, hfind, htxn'])
  case birspReceive_2 =>
    intro s line n hfind
    exact Takes.of_op rfl (by simp [birspReceive, hfind])
  case birspReceive_3 =>
    intro s line l hfind
    exact Takes.of_op rfl (by simp [birspReceive, hfind])
  case biTimeout_1 =>
    intro s line k x hfind hbiDrop
    exact Takes.of_op rfl (by simp [biTimeout, hfind, hbiDrop])
  case biTimeout_2 =>
    intro s line n hfind
    exact Takes.of_op rfl (by simp [biTimeout, hfind])
  case biTimeout_3 =>
    intro s line l hfind
    exact Takes.of_op rfl (by simp [biTimeout, hfind])
  case hdmCommit_1 =>
    intro s dec size hcommitted hready hhvSize
    exact Takes.of_op rfl (by simp [hdmCommit, hcommitted, hready, hhvSize])
  case hdmCommit_2 =>
    intro s dec size hcommitted hready
    exact Takes.of_op rfl (by simp [hdmCommit, hcommitted, hready])
  case hdmUncommit =>
    intro s dec hcommitted
    exact Takes.of_op rfl (by simp [hdmUncommit, hcommitted])
  case peerWrite_1 =>
    intro s src o data k b v u hpeerOpen hpeerWindow htarget hmemWrite
    exact Takes.of_op rfl (by
      simp only [peerWrite, hpeerOpen, hpeerWindow, htarget, hmemWrite, Bool.not_true, Bool.false_eq_true, if_false])
  case peerWrite_2 =>
    intro s src o data hpeerOpen hpeerWindow
    exact Takes.of_op rfl (by simp [peerWrite, hpeerOpen, hpeerWindow])
  case peerFlush =>
    intro s src o k hpeerOpen hpeerWindow
    exact Takes.of_op rfl (by simp [peerFlush, hpeerOpen, hpeerWindow])
  case nvmeDoorbell =>
    intro s f q _ val hlt hnvOpen hmode
    exact Takes.of_op rfl (by simp [nvmeDoorbell, hlt, hnvOpen, hmode])
  case nvmeRegisterWrite_1 =>
    intro s f reg val hnvOpen hmode hreg
    exact Takes.of_op rfl (by simp [nvmeRegisterWrite, hnvOpen, hmode, hreg])
  case nvmeRegisterWrite_2 =>
    intro s f reg val hnvOpen hmode hreg
    exact Takes.of_op rfl (by simp [nvmeRegisterWrite, hnvOpen, hmode, hreg])
  case nvmeRegisterWrite_3 =>
    intro s f reg val hnvOpen hmode hreg
    exact Takes.of_op rfl (by simp [nvmeRegisterWrite, hnvOpen, hmode, hreg])
  case nvmeRegisterWrite_4 =>
    intro s f reg val hnvOpen hmode hreg
    exact Takes.of_op rfl (by simp [nvmeRegisterWrite, hnvOpen, hmode, hreg])
  case ideKm =>
    intro s secured stream key hsecured hsession
    exact Takes.of_op rfl (by simp [ideKm, hsecured, hsession])
  case tdispMessage_1 =>
    intro s tdi req hreq htdi
    exact Takes.of_op rfl (by simp [tdispMessage, hreq, htdi])
  case tdispMessage_2 =>
    intro s tdi req hreq htdi
    exact Takes.of_op rfl (by simp [tdispMessage, hreq, htdi])
  case tdispMessage_3 =>
    intro s tdi req hreq
    exact Takes.of_op rfl (by simp [tdispMessage, hreq])
  case tdiError =>
    intro s tdi
    exact Takes.of_op rfl (by simp [tdiErrorCmd])
  case perstAssert_1 =>
    intro s hperst hpowered
    exact TakesAon.of_op rfl (by simp [perstAssert, hperst, hpowered])
  case perstAssert_2 =>
    intro s hperst hpowered
    exact TakesAon.of_op rfl (by simp [perstAssert, hperst, hpowered])
  case perstRelease =>
    intro s
    exact TakesAon.of_op rfl (by simp [perstRelease])
  case linkDown =>
    intro s hlinkUp hperst
    exact Takes.of_op rfl (by simp [linkDown, hlinkUp, hperst])
  case linkUp =>
    intro s rate width hen hperst hlinkUp hrate hwidth
    have hlanes : (width.toNat == 16 || width.toNat == 8 || width.toNat == 4) = true := by
      rcases hwidth with h | h | h <;> simp [h]
    exact Takes.of_op rfl (by simp [linkUpCmd, hen, hperst, hlinkUp, hrate, hlanes])
  case linkL1Entry =>
    intro s l12 hlink
    exact Takes.of_op rfl (by simp [linkL1Entry, hlink])
  case flr =>
    intro s fn hfn htdi
    exact Takes.of_op rfl (by simp [flr, hfn, htdi])
  case lcommitWrite =>
    intro s val hlcommit
    exact Takes.of_op rfl (by simp [lcommitWrite, hlcommit])

end Sys2Proof.Machine
end

section
/-!
PROOFS. The ply link: its training, the frames it accepts, its records and its commands (O23). Rules: R459, R460, R461, R463, R464, R465,
R467, R468, R469, R470.
-/
namespace Sys2Proof.Machine

/-- A record goes out only with the link in sync, no earlier error, a slot named by TXTAIL and its memory free to be read; then the
slot's header decides (R461, R463). -/
theorem plyRecordSend_slot {s : State} (hst : s.ply.st = .sync) (htxerr : s.ply.txerr = false)
    (htail : s.txSent + 1 ≤ s.txTail)
    (hsend : s.plyMaySend (s.reg64 (plyPage + plyTxbase) % 2 ^ 48 / 64 * 64 + 64 * ((s.txSent + 1) % s.txSlots)) = true) :
    ((!(s.ply.st == .replay || s.ply.st == .sync) || s.ply.txerr || decide (s.txTail < s.txSent + 1) ||
      !s.plyMaySend (s.reg64 (plyPage + plyTxbase) % 2 ^ 48 / 64 * 64 + 64 * ((s.txSent + 1) % s.txSlots))) = false) := by
  simp only [hst, htxerr, hsend, decide_eq_false (Nat.not_lt.2 htail)]
  decide

/-- The command bits of CTRL with en 0 before and after: handover, resolve and retrain, each on its own (R459, R469). -/
theorem State.plyCtrlAct_disabled (s : State) {old v : Word} (hold : bit old 0 = false) (hv : bit v 0 = false) :
    s.plyCtrlAct old v =
      (let s2 := if bit v 1 then
          (if s.ply.present && s.aon.role == 1 then (s.setRole 2 (s.aon.gen.toNat + 1)).sendFrame 4 0 [] else s.raise plyPage 10)
        else s
      let s3 := if bit v 2 then s2.modPly (fun x => { x with gap := false, conflict := false }) else s2
      if bit v 3 && s3.ply.up then s3.retrain else s3) := by
  simp only [State.plyCtrlAct, hold, hv, Bool.false_and, Bool.not_false, Bool.true_and, Bool.false_eq_true, if_false]

/-- Settles O23: a frame that is accepted by its type, a record by its slot, a command by the bit of CTRL that starts it. -/
theorem plyCommandsComplete : Obligations.PlyCommandsComplete := by
  refine ⟨?plyTrain, ?plyTrainRetry, ?plyFrameReceive_1, ?plyFrameReceive_2, ?plyFrameReceive_3, ?plyIdle, ?plyHello, ?plyRec,
    ?plyNak, ?plyHandover, ?plyHoack, ?plyRxseqAdvance, ?plyLinkLost, ?plyTxtailWrite, ?plyRecordSend_1, ?plyRecordSend_2,
    ?plyHandoverCmd, ?plyResolve, ?plyRetrain, ?plyTake, ?plyPresentRise⟩
  case plyTrain =>
    intro s lanes preset hplyEn hst hplyGated hpmu1
    exact Takes.of_op rfl (by simp [plyTrain, hplyEn, hst, hplyGated, hpmu1])
  case plyTrainRetry =>
    intro s lanes preset hplyEn hst hshut hplyGated hpmu1
    exact Takes.of_op rfl (by simp [plyTrainRetry, hplyEn, hst, hshut, hplyGated, hpmu1])
  case plyFrameReceive_1 =>
    intro s f hup hframeOk
    exact Takes.of_op rfl (by simp [plyFrame, hup, hframeOk])
  case plyFrameReceive_2 =>
    intro s f hup hframeOk hfseq
    exact Takes.of_op rfl (by simp [plyFrame, hup, hframeOk, hfseq])
  case plyFrameReceive_3 =>
    intro s f hup hframeOk hfseq htype
    exact Takes.of_op rfl (by simp [plyFrame, hup, hframeOk, hfseq, htype])
  case plyIdle =>
    intro s f hup hframeOk hfseq htype
    exact Takes.of_op rfl (by simp [plyTyped, hup, hframeOk, hfseq, htype, plyFrame])
  case plyHello =>
    intro s f hup hframeOk hfseq htype
    exact Takes.of_op rfl (by simp [plyTyped, hup, hframeOk, hfseq, htype, plyFrame])
  case plyRec =>
    intro s f hup hframeOk hfseq htype
    exact Takes.of_op rfl (by simp [plyTyped, hup, hframeOk, hfseq, htype, plyFrame])
  case plyNak =>
    intro s f hup hframeOk hfseq htype hnaks
    refine Takes.of_op rfl ?_
    rw [plyTyped, if_pos htype]
    simp only [plyFrame, hup, hframeOk, hfseq, htype, Bool.not_true, Bool.false_eq_true, if_false, ne_eq, not_true_eq_false]
    exact if_neg (Nat.not_le.2 hnaks)
  case plyHandover =>
    intro s f hup hframeOk hfseq htype
    exact Takes.of_op rfl (by simp [plyTyped, hup, hframeOk, hfseq, htype, plyFrame])
  case plyHoack =>
    intro s f hup hframeOk hfseq htype
    exact Takes.of_op rfl (by simp [plyTyped, hup, hframeOk, hfseq, htype, plyFrame])
  case plyRxseqAdvance =>
    intro s q l hplaced hplyFrozen hq
    exact Takes.of_op rfl (by simp [plyRxseqAdvance, hplaced, hplyFrozen, hq])
  case plyLinkLost =>
    intro s hup
    exact Takes.of_op rfl (by simp [plyLinkLost, hup])
  case plyTxtailWrite =>
    intro s ini val hpasses htail hslots
    have hbad : ¬(val.toNat < s.txTail ∨ s.txAck + s.txSlots < val.toNat) := by omega
    refine Takes.of_op rfl ?_
    rw [plyTxtailWrite, State.regGuard_passes _ hpasses, if_neg hbad]
  case plyRecordSend_1 =>
    intro s a h u hst htxerr htail ha hsend hread hmagic hseq hdat
    subst ha
    have hnodat : (imgField h 5 1 % 2 == 1) = false := by rw [hdat]; decide
    have hfirst : (decide (s.txSent + 1 ≤ s.ply.tail0) && s.ply.st == .replay) = false := by rw [hst, Bool.and_eq_false_iff]; exact .inr rfl
    refine Takes.of_op rfl ?_
    simp only [plyRecordSend, plyRecordSend_slot hst htxerr htail hsend, hread, hmagic, hseq, hnodat, hfirst, Bool.false_eq_true,
      Bool.false_and, if_false, ne_eq, not_true_eq_false, or_self, List.append_nil]
  case plyRecordSend_2 =>
    intro s a h u hst htxerr htail ha hsend hread hmagic
    subst ha
    refine Takes.of_op rfl ?_
    simp only [plyRecordSend, plyRecordSend_slot hst htxerr htail hsend, hread, Bool.false_eq_true, if_false]
    rw [if_pos (.inr (.inl hmagic))]
  case plyHandoverCmd =>
    intro s ini val hmayWrite hact hold hpresent hrole
    have hbits : bit 2#32 1 = true ∧ bit 2#32 2 = false ∧ bit 2#32 3 = false := by decide
    refine Takes.of_op rfl ?_
    rw [plyCtrlWrite, State.regWrite_owner _ _ hmayWrite, hact, State.plyCtrlAct_disabled _ hold (by decide)]
    simp [hpresent, hrole, hbits]
  case plyResolve =>
    intro s ini val hmayWrite hact hold
    refine Takes.of_op rfl ?_
    rw [plyCtrlWrite, State.regWrite_owner _ _ hmayWrite, hact, State.plyCtrlAct_disabled _ hold (by decide)]
    rfl
  case plyRetrain =>
    intro s ini val hmayWrite hact hold hup
    have hbits : bit 8#32 1 = false ∧ bit 8#32 2 = false ∧ bit 8#32 3 = true := by decide
    refine Takes.of_op rfl ?_
    rw [plyCtrlWrite, State.regWrite_owner _ _ hmayWrite, hact, State.plyCtrlAct_disabled _ hold (by decide)]
    simp [hup, hbits]
  case plyTake =>
    intro s ini val hini hpresent hrole hval
    exact Takes.of_op rfl (by simp [plyTakeWrite, hini, hpresent, hrole, hval])
  case plyPresentRise =>
    intro s _ hpeer hst hconflict hgap htxAck hrxSeq
    exact Takes.of_op rfl (by simp [plyPresentRise, hpeer, hst, hconflict, hgap, htxAck, hrxSeq])

end Sys2Proof.Machine
end

section
/-!
PROOFS. The pins, the test port and the calibration block, command by command (O24). Rules: R476, R479, R480, R482, R484, R486, R489,
R490, R496.
-/
namespace Sys2Proof.Machine

/-- Settles O24: a pin register through its judge, an instruction of the test port through tapLoad_ok. -/
theorem pinCommandsComplete : Obligations.PinCommandsComplete := by
  refine ⟨?pinConfigWrite_1, ?pinConfigWrite_2, ?pinConfigWrite_3, ?pinSwitchDone_1, ?pinSwitchDone_2, ?gpioOutputWrite_1,
    ?gpioOutputWrite_2, ?gpioOutputWrite_3, ?gpioOutputWrite_4, ?gpioOutputWrite_5, ?gpioOutputWrite_6, ?gpioOutputWrite_7,
    ?gpioOutputWrite_8, ?evinEdge, ?bypass, ?extest, ?clamp, ?highz, ?extestPulse, ?extestTrain, ?idcode, ?samplePreload,
    ?calUserWrite, ?calClrall, ?ioBankSupplyChange⟩
  case pinConfigWrite_1 =>
    intro s ini pin psrc val hpsrc hpinJudge hlocked hsw
    exact Takes.of_op rfl (by simp [pinConfigWrite, hpsrc, hpinJudge, hlocked, hsw])
  case pinConfigWrite_2 =>
    intro s ini pin psrc val hpsrc hpinJudge hlocked hsw
    exact Takes.of_op rfl (by simp [pinConfigWrite, hpsrc, hpinJudge, hlocked, hsw])
  case pinConfigWrite_3 =>
    intro s ini pin psrc val hpsrc hpsrcJudge hlocked hsw
    exact Takes.of_op rfl (by simp [pinConfigWrite, hpsrc, hpsrcJudge, hlocked, hsw])
  case pinSwitchDone_1 =>
    intro s pin hsw hstored
    exact Takes.of_op rfl (by simp [pinSwitchDone, hsw, hstored])
  case pinSwitchDone_2 =>
    intro s pin v hsw hstored
    exact Takes.of_op rfl (by simp [pinSwitchDone, hsw, hstored])
  case gpioOutputWrite_1 =>
    intro s ini off val hoff hlocked
    exact Takes.of_op rfl (by simp [gpioOutputWrite, hoff, hlocked])
  case gpioOutputWrite_2 =>
    intro s ini off val hoff hlocked
    exact Takes.of_op rfl (by simp [gpioOutputWrite, hoff, hlocked])
  case gpioOutputWrite_3 =>
    intro s ini off val hoff hlocked
    exact Takes.of_op rfl (by simp [gpioOutputWrite, hoff, hlocked])
  case gpioOutputWrite_4 =>
    intro s ini off val hoff hlocked
    exact Takes.of_op rfl (by simp [gpioOutputWrite, hoff, hlocked])
  case gpioOutputWrite_5 =>
    intro s ini off val hoff
    exact Takes.of_op rfl (by simp [gpioOutputWrite, hoff])
  case gpioOutputWrite_6 =>
    intro s ini off val hoff
    exact Takes.of_op rfl (by simp [gpioOutputWrite, hoff])
  case gpioOutputWrite_7 =>
    intro s ini off val hoff
    exact Takes.of_op rfl (by simp [gpioOutputWrite, hoff])
  case gpioOutputWrite_8 =>
    intro s ini off val hoff
    exact Takes.of_op rfl (by simp [gpioOutputWrite, hoff])
  case evinEdge =>
    intro s k rise _ n hevinPins hheld hofNat2 hsw hbankVolt hlength
    exact Takes.of_op rfl (by simp [evinEdge, hevinPins, hheld, hofNat2, hsw, hbankVolt, hlength])
  case bypass =>
    intro s htapOk
    exact Takes.of_op rfl (tapLoad_ok htapOk)
  case extest =>
    intro s htapOk
    exact Takes.of_op rfl (tapLoad_ok htapOk)
  case clamp =>
    intro s htapOk
    exact Takes.of_op rfl (tapLoad_ok htapOk)
  case highz =>
    intro s htapOk
    exact Takes.of_op rfl (tapLoad_ok htapOk)
  case extestPulse =>
    intro s htapOk
    exact Takes.of_op rfl (tapLoad_ok htapOk)
  case extestTrain =>
    intro s htapOk
    exact Takes.of_op rfl (tapLoad_ok htapOk)
  case idcode =>
    intro s
    have htapOk : s.tapOk 0x02 = true := by simp [State.tapOk]
    refine Takes.of_op rfl ?_
    rw [tapIdcode, tapLoad_ok htapOk]
  case samplePreload =>
    intro s data htapOk
    refine Takes.of_op rfl ?_
    rw [tapSample, tapLoad_ok htapOk]
    exact if_pos rfl
  case calUserWrite =>
    intro s ini k val hmayWrite
    exact Takes.of_op rfl (by simp [calUserWrite, State.regWrite_owner _ _ hmayWrite])
  case calClrall =>
    intro s ini val hmayWrite hcal0
    exact Takes.of_op rfl (by simp [calClearAll, State.regWrite_owner _ _ hmayWrite, hcal0])
  case ioBankSupplyChange =>
    intro s bank volt
    exact Takes.of_op rfl (by simp [ioBankSupply])

end Sys2Proof.Machine
end

section
/-!
PROOFS. The 77 operations of the function unit fire when their tile may fire them (R44, R49).
-/
namespace Sys2Proof.Machine

/-- A command of an operation is that operation's fire where R44 lets the tile fire it. -/
theorem takes_fire {c : Instr} {t : TileId} {op : FuOp} (hop : fireOf c = some (t, op)) {s : State} (hf : s.canFire t.val op = true) :
    Takes c s (s.fireEffect t.val op) :=
  Takes.of_op (exec_fire hop s) (fire_of_canFire hf)

/-- Settles O25: every command of an operation is the fire of that operation. -/
theorem firesComplete : Obligations.FiresComplete := by
  unfold Obligations.FiresComplete
  and_intros <;> exact fun _ _ hf => takes_fire rfl hf

end Sys2Proof.Machine
end
